-- ==== Sys2Proof/Word.lean ====
section
/-! DEFINITION. The words of the module: a byte, a 64-bit thread register, a 64-bit memory word (R5, R131, R252). -/

namespace Sys2Proof

/-- One byte of memory. -/
abbrev Byte := BitVec 8

/-- One thread register (R131). -/
abbrev Word := BitVec 64

end Sys2Proof
end

