-- ==== Sys2Proof/Syntax.lean ====
section
/-! DEFINITION. The commands of the module (one constructor of `Instr` per row of spec/opcode_table.json) and the types of their operands. The module is a
block: commands arrive from outside it, or are the events its own units raise (a walk ends, a timer expires), and each changes its state. -/

namespace Sys2Proof

/-- The register page types of R105. -/
inductive Page where
  | mod | lid | pwc | beat | boot | tel | loss | dig | hoop | hoopg | hbm | bank | slow | nlnk | nred | ncod | nkey | rak | mgmt | xlt | fmac | fxp
  | fcod | fkey | die | d2d | wale | sched | row | wxlt | sum | stake
  deriving DecidableEq, Repr

/-- A number for each page type, in the order of the window map (R105). -/
def Page.idx : Page → Nat
  | .mod => 0 | .lid => 1 | .pwc => 2 | .beat => 3 | .boot => 4 | .tel => 5 | .loss => 6 | .dig => 7 | .hoop => 8 | .hoopg => 9 | .hbm => 10
  | .bank => 11 | .slow => 12 | .nlnk => 13 | .nred => 14 | .ncod => 15 | .nkey => 16 | .rak => 17 | .mgmt => 18 | .xlt => 19 | .fmac => 20
  | .fxp => 21 | .fcod => 22 | .fkey => 23 | .die => 24 | .d2d => 25 | .wale => 26 | .sched => 27 | .row => 28 | .wxlt => 29 | .sum => 30
  | .stake => 31

/-- How many instances a page type has (R105). -/
def Page.count : Page → Nat
  | .hoopg => 4 | .hbm | .bank => 12 | .slow => 2 | .nlnk | .nred | .ncod | .nkey => 8 | .fmac | .fxp | .fcod | .fkey => 2 | .die => 4 | .d2d => 16
  | .wale | .sched | .row | .wxlt | .sum => 200 | .stake => 6400 | _ => 1

/-- The initiators of register accesses (R42, R43, R81): a hoop core, the owner's control node on Rakline, the management plane, and the firmware units outside
the hoop (0 the power controller, 1 the lid, 2 the border core and port cores, 3 the boot sequencer). -/
inductive Ini where
  | core (c : Nat) | rak | mgmt | fw (u : Nat)
  deriving DecidableEq, Repr

/-- A thread of a stake: the global stake index and the thread 0–7 (R8, R9). -/
structure Tid where
  stake : Nat
  thread : Nat
  deriving DecidableEq, Repr

/-- The fields of the 64-bit instruction word that the thread fetched, but its opcode, which the command names (R135). -/
structure Ins where
  dest : Nat := 0
  src1 : Nat := 0
  src2 : Nat := 0
  mod : Nat := 0
  imm : Nat := 0
  deriving DecidableEq, Repr

/-- An owner token (R61): the bytes before its signature, the length of the signature, and whether the signature over those bytes verifies under the key that
they hold. -/
structure Token where
  head : List Byte
  sigLen : Nat
  sigOk : Bool
  deriving DecidableEq, Repr

/-- An Imzosyn service token (R45): the verdict of its signature, the module and the boot count that it names. -/
structure SvcToken where
  sigOk : Bool
  identity : Nat
  boot : Nat
  deriving DecidableEq, Repr

/-- What the telemetry of a 1 s window measures (R70, R436). -/
structure WindowSample where
  joules : Nat
  vinMv : Nat
  vinMinMv : Nat
  v3p3Mv : Nat
  temps : List Nat
  loads : List Nat
  deriving DecidableEq, Repr


/-- What the power controller has measured over the beat that a tick ends (R421, R422, R425, R435): the estimated power of the non-stake consumers in mW, per
phase in use the estimated power per stake in units of 2^-16 mW, the estimated and the measured mean input power in W, and the slack of the beat. -/
structure TickMeasure where
  nonStake : Nat
  perPhase : List (Nat × Nat)
  estW : Nat
  measW : Nat
  slack : Nat
  deriving DecidableEq, Repr

/-- A flit as it comes to a port (R317, R318): the outcomes of FEC, CRC and tag; the EPOCH bit of its clear byte; its sequence within its epoch, which its nonce
carries (none for IDLE, ACK, NAK and credit flits, which the sender does not keep); whether flits of the older epoch are missing before it; and its bytes 1–243,
decrypted. -/
structure FlitIn where
  fecOk : Bool
  corrected : Bool := false
  crcOk : Bool
  tagOk : Bool
  bit : Nat
  seq : Option Nat
  gap : Bool := false
  plain : List Byte
  deriving DecidableEq, Repr

/-- What a training step has found (R325, R326): the lanes that train; the 64 echo exchanges as (round trip, partner's turnaround) in ps; the cable's own propagation
delay in ps per cm; the partner's challenge. -/
structure TrainResult where
  lanes : Nat := 0xFF
  echoes : List (Nat × Nat) := []
  cablePs : Option Nat := none
  challenge : Nat := 0
  deriving DecidableEq, Repr

/-- A partner's capability record (R327): its bytes 0x00–0x9F; whether its signature verifies and the chain reaches Imzosyn's root; what its quote shows of debug
scopes, and whether it passes the policy otherwise (R64); whether its owner is this module's, or the switch's certificate verifies (R328). -/
structure CapRecord where
  head : List Byte
  sigOk : Bool
  debug : Nat
  quoteOk : Bool
  ownerOk : Bool
  deriving DecidableEq, Repr

/-- A pipeline handover (R307). -/
structure Handover where
  step : Nat
  mb : Nat
  slot : Nat
  back : Bool
  last : Bool
  variant : Nat
  attempt : Nat
  data : List Byte
  deriving DecidableEq, Repr

/-- A switch record (R353). -/
structure SwRec where
  msg : Nat
  channel : Nat
  op : Nat
  step : Nat
  attempt : Nat
  seq : Nat
  rank : Nat
  group : Nat
  members : Nat
  vals : List Nat
  deriving DecidableEq, Repr

/-- A chunk that a winner serves (R289): the commit-record fields of the compared step, the master and the moments that the optimiser keeps. -/
structure RepairChunk where
  shard : Nat
  part : Nat
  chunk : Nat
  step : Nat
  opt : Nat
  group : Nat
  crc : Nat
  count : Nat
  master : List Nat
  m : List Nat
  v : List Nat
  deriving DecidableEq, Repr

/-- What names a bucket (R339). -/
structure BKey where
  group : Nat
  step : Nat
  attempt : Nat
  bucket : Nat
  deriving DecidableEq, Repr

/-- Bucket data from a partner (R337, R342): a piece of a bucket, or a coded block of the hop entry that starts at piece `first`. -/
inductive BucketIn where
  | piece (k : BKey) (r : Nat) (data : List Nat) | coded (k : BKey) (first block : Nat) (bytes : List Byte)
  deriving DecidableEq, Repr

/-- A gather request (R349): the requester's site rank, or, for one that this module sends, the source's rank in the group; layer, expected commit step, shard,
attempt. -/
structure GatherQ where
  peer : Nat
  group : Nat
  layer : Nat
  commit : Nat
  shard : Nat
  attempt : Nat
  deriving DecidableEq, Repr

/-- What names a source's or a destination's share of an expert exchange (R313). -/
structure ExpertHdr where
  group : Nat
  step : Nat
  attempt : Nat
  xid : Nat
  rank : Nat
  deriving DecidableEq, Repr

/-- A far record's clear header and the outcome of its tag (R387): the port it arrived on, the peer's site, the epoch, the record number. -/
structure FarHdr where
  port : Nat
  peer : Nat
  epoch : Nat
  num : Nat
  tagOk : Bool
  deriving DecidableEq, Repr

/-- What a partner module has answered in the session exchange (R64, R389, R398): its site, its identity hash, the debug scope that its quote shows,
and whether the endorsement and the quote's signature pass. -/
structure FarAnswer where
  site : Nat
  identity : Nat
  debug : Nat
  ok : Bool
  deriving DecidableEq, Repr

/-- Why a far port drops a frame (R386, R409): a packet that R386 does not accept, a bad FCS or length, a PAUSE or PFC frame, an uncorrectable codeword; and a
frame that it keeps, after corrected codewords. -/
inductive FarDrop where
  | other | fcs | pause | uncorrectable | corrected (n : Nat)
  deriving DecidableEq, Repr

/-- A Neighbor Discovery message (R386): a solicitation for an address, or an advertisement of a router's address with its MAC address. -/
inductive NdMsg where
  | solicit (target : Nat) | advert (target mac : Nat)
  deriving DecidableEq, Repr

/-- What a LINK frame carries (R464, R466): an acknowledgement, credits of a channel, or anything else. -/
inductive RakLinkMsg where
  | other | ack (seq : Nat) | credit (chan n : Nat)
  deriving DecidableEq, Repr

/-- A firmware image as the lid finds it (R59): its hash, its security version, and whether its signature verifies. -/
structure ImageIn where
  hash : Nat
  secver : Nat
  sigOk : Bool
  deriving DecidableEq, Repr

/-- The commands: one constructor per row of spec/opcode_table.json. -/
inductive Instr where
  /-- R45. An owner claim token on the Rakline attestation channel binds a BLANK module to its owner if the claim window is open and the nonce matches. -/
  | ownerClaim (tok : Token)
  /-- R45. An owner release token moves the module from OWNED to BLANK through zeroisation. -/
  | ownerRelease (tok : Token)
  /-- R45. An operator write of LID_ZERO_CTRL.FORCE_CLEAR moves the module from OWNED to BLANK through zeroisation. -/
  | forceClear (ini : Ini)
  /-- R508. The lid holds an Imzosyn service token, or pairs it with held consent and enters SERVICE through zeroisation. -/
  | serviceToken (viaMgmt : Bool) (tok : SvcToken)
  /-- R508. The lid holds operator consent for service, or pairs it with a held token and enters SERVICE through zeroisation. -/
  | serviceConsent
  /-- R508. A held service token or consent lapses unreported after 60 s without its partner. -/
  | serviceHoldLapse (consent : Bool)
  /-- R45. The service exit command zeroises the module and records BLANK. -/
  | serviceExit
  /-- R76. When quiesce ends or 10 ms pass, the lid holds blocks in reset, erases keys, zeroes SRAM and owner registers, loads fresh domain keys and starts any media write. -/
  | zeroiseQuiesceEnd
  /-- R76. When the media write ends or none is due, the lid erases the owner records, advances the epoch, signs completion and enters the new state. -/
  | zeroiseMediaDone
  /-- R47. An operator write of LID_CLAIM_ARM opens the claim window or restarts its 60 s. -/
  | claimArm (ini : Ini)
  /-- R47. The claim window closes 60 s after it was last armed. -/
  | claimWindowExpire
  /-- R47. Each further whole second of an open claim window lowers LID_CLAIM_LEFT by one. -/
  | claimLeftTick
  /-- R58. A write of a bit in LID_DOMAIN_REKEY starts replacing that domain's key with a fresh random key. -/
  | lidDomainRekey (ini : Ini) (mask : Nat)
  /-- R58. Within 2 µs the new domain key is in place and the rekey bit reads 0. -/
  | domainKeyInstalled (d : Nat)
  /-- R60. An owner approval token for a staged image lets the lid activate it in OWNED. -/
  | firmwareApproval (tok : Token)
  /-- R59. An image first runs to its ready point and the lid raises the anti-rollback counter of its kind. -/
  | imageReadyPoint (kind : Nat)
  /-- R74. An owner debug-open token opens the debug scopes it names. -/
  | debugOpen (tok : Token)
  /-- R74. A write of LID_DEBUG_CLOSE closes every open debug scope. -/
  | lidDebugClose (ini : Ini)
  /-- R66. After 2^LID_NEAR_REKEY_LOG2 flits or a lid request, the sender sends KEY_NEXT for the next epoch. -/
  | nearRekeyDue (p : Nat)
  /-- R66. A receiver that gets KEY_NEXT starts deriving the key of the next epoch. -/
  | keyNext (p : Nat) (e : Nat)
  /-- R66. The derived key is installed beside the current one and KEY_READY is sent. -/
  | nearKeyInstalled (p : Nat)
  /-- R66. On KEY_READY the sender sends every new flit under the new epoch and keeps the old key. -/
  | keyReady (p : Nat) (e : Nat)
  /-- R66. On KEY_RETIRE the receiver erases the old epoch key after delivering every flit of that epoch. -/
  | keyRetire (p : Nat) (e : Nat)
  /-- R68. After 2^32 records or LID_FAR_REKEY_S seconds a far sender changes epoch. -/
  | farRekeyDue (peer age : Nat)
  /-- R68. A far receiver erases the previous epoch key 2 RTTs after the first record of the new epoch. -/
  | farPrevKeyExpire (peer : Nat)
  /-- R70. At the end of each 1 s window the sanitised error counts are published. -/
  | sanitisedWindowEnd (sample : WindowSample)
  /-- R71. A write of LID_LOG_GET frees slots and lets buffered full records go out in order. -/
  | lidLogGet (ini : Ini) (v : Nat)
  /-- R71. A write of LID_LOG_BASE re-arms ring writes after a faulted write. -/
  | lidLogBase (ini : Ini) (v : Nat)
  /-- R94. A write to a register with no row of its own is checked against PG_ACCESS and field restrictions and then takes effect and counts in PG_SEQ. -/
  | registerWrite (ini : Ini) (off : Nat) (v : Nat)
  /-- R85. A read of a _LO register latches the _HI half for that initiator. -/
  | pairLoRead (ini : Ini) (off : Nat)
  /-- R85. A write of a _LO half of an RW pair is staged for that initiator. -/
  | pairLoWrite (ini : Ini) (off : Nat) (v : Nat)
  /-- R85. A write of a _HI half commits both halves in one update. -/
  | pairHiWrite (ini : Ini) (off : Nat) (v : Nat)
  /-- R97. A write of PG_CTRL.ENABLE brings a block out of OFF or starts its drain to OFF. -/
  | pgCtrlEnable (ini : Ini) (pg : Page) (inst : Nat) (on : Bool)
  /-- R97. A write of PG_CTRL.QUIESCE_REQ starts a drain to READY or returns the block to SERVING. -/
  | pgCtrlQuiesceReq (ini : Ini) (pg : Page) (inst : Nat) (on : Bool)
  /-- R97. A write of PG_CTRL.ISOLATE starts a drain to ISOLATED or re-initialises an isolated block. -/
  | pgCtrlIsolate (ini : Ini) (pg : Page) (inst : Nat) (on : Bool)
  /-- R101. A write of PG_CTRL.BLOCK_RESET discards the block's state, ends accepted work with ACCESS_DENIED and enters RESET. -/
  | blockReset (ini : Ini) (pg : Page) (inst : Nat)
  /-- R86. A write of 1 to PG_EVENT bits clears them, and clearing ERROR clears the error capture and re-arms it. -/
  | pgEventClear (ini : Ini) (pg : Page) (inst : Nat) (v : Nat)
  /-- R88. A write of PG_LOCK makes every RW-L field of the page read-only. -/
  | pgLock (ini : Ini) (pg : Page) (inst : Nat)
  /-- R87. A write of PG_OWNER is accepted only for values its class may set. -/
  | pgOwnerWrite (ini : Ini) (pg : Page) (inst : Nat) (v : Nat)
  /-- R97. A block finishes initialisation and leaves RESET for OFF, ISOLATED, READY or SERVING. -/
  | blockInitDone (pg : Page) (inst : Nat)
  /-- R505. A block still in RESET at its limit goes to FAILED. -/
  | blockInitTimeout (pg : Page) (inst : Nat)
  /-- R97. A quiescing block has drained and enters READY, OFF or ISOLATED. -/
  | blockDrained (pg : Page) (inst : Nat)
  /-- R99. A drain outlasts MOD_QUIESCE_US; the block flags it, or with ISOLATE ends its work with errors and enters ISOLATED. -/
  | quiesceTimeout (pg : Page) (inst : Nat)
  /-- R97. A block's self-check fails and it enters FAILED. -/
  | blockSelfCheckFail (pg : Page) (inst : Nat)
  /-- R108. The beat timer ends a beat: BEAT_COUNT increments, SYNC_OUT pulses, the PWC divides the cap and deadlines advance. -/
  | beatTick (m : TickMeasure)
  /-- R156. A wale scheduler takes its next work list, sets barriers and applies the entries to threads. -/
  | workListTake (w : Nat)
  /-- R116. A SYNC_IN rising edge is timed and matched to a tick or counted as an outlier, and in ACQUIRING it sets the beat end. -/
  | syncEdge (x : Nat)
  /-- R118. At a tick plus half a period the module sets the beat length and moves between LOCKED and LOST. -/
  | syncEvaluate
  /-- R107. A write of BEAT_PERIOD sets the period from the next tick. -/
  | beatPeriod (ini : Ini) (v : Nat)
  /-- R115. A write of BEAT_CTRL.STRICT switches overrun mode from the next tick. -/
  | beatCtrlStrict (ini : Ini) (on : Bool)
  /-- R117. A write of BEAT_CTRL.SYNC_EN starts acquisition or returns the beat to free-run. -/
  | beatCtrlSyncEn (ini : Ini) (on : Bool)
  /-- R121. A write of BEAT_CTRL.SYNC_OUT_EN enables or silences SYNC_OUT. -/
  | beatCtrlSyncOutEn (ini : Ini) (on : Bool)
  /-- R127. A crossing transfer outstanding for 65,536 live clocks records CDC_TIMEOUT and the live block goes FAILED. -/
  | cdcTimeout (p : Page) (inst : Nat) (stopped : Nat) (live : Nat)
  /-- R145. A thread stalled at one issue for SCHED_CREDIT_LIMIT × 1,024 mesh clocks faults with CREDIT_TIMEOUT. -/
  | creditTimeout (t : Tid)
  /-- R136. The thread executes no operation. -/
  | nop (t : Tid)
  /-- R136. DEST receives SRC1 plus B. -/
  | add (t : Tid)
  /-- R136. DEST receives SRC1 minus B. -/
  | sub (t : Tid)
  /-- R136. DEST receives the low 64 bits of SRC1 times B. -/
  | mul (t : Tid)
  /-- R136. DEST receives the high 64 bits of the unsigned product. -/
  | mulhu (t : Tid)
  /-- R136. DEST receives SRC1 AND B. -/
  | andOp (t : Tid)
  /-- R136. DEST receives SRC1 OR B. -/
  | orOp (t : Tid)
  /-- R136. DEST receives SRC1 XOR B. -/
  | xor (t : Tid)
  /-- R136. DEST receives SRC1 shifted left by B[5:0]. -/
  | sll (t : Tid)
  /-- R136. DEST receives SRC1 shifted right logically by B[5:0]. -/
  | srl (t : Tid)
  /-- R136. DEST receives SRC1 shifted right arithmetically by B[5:0]. -/
  | sra (t : Tid)
  /-- R136. DEST receives the signed minimum of SRC1 and B. -/
  | min (t : Tid)
  /-- R136. DEST receives the signed maximum of SRC1 and B. -/
  | max (t : Tid)
  /-- R136. DEST receives the unsigned minimum of SRC1 and B. -/
  | minu (t : Tid)
  /-- R136. DEST receives the unsigned maximum of SRC1 and B. -/
  | maxu (t : Tid)
  /-- R136. DEST receives 1 if SRC1 is below B signed, else 0. -/
  | slt (t : Tid)
  /-- R136. DEST receives 1 if SRC1 is below B unsigned, else 0. -/
  | sltu (t : Tid)
  /-- R136. DEST receives 1 if SRC1 equals B, else 0. -/
  | seq (t : Tid)
  /-- R136. DEST receives the sign-extended immediate. -/
  | li (t : Tid)
  /-- R136. DEST receives the low half of SRC1 with the immediate in the high half. -/
  | lih (t : Tid)
  /-- R136. If SRC1 is non-zero, DEST receives SRC2. -/
  | sel (t : Tid)
  /-- R136. The thread branches if SRC1 equals SRC2. -/
  | beq (t : Tid)
  /-- R136. The thread branches if SRC1 differs from SRC2. -/
  | bne (t : Tid)
  /-- R136. The thread branches if SRC1 is below SRC2 signed. -/
  | blt (t : Tid)
  /-- R136. The thread branches if SRC1 is at least SRC2 signed. -/
  | bge (t : Tid)
  /-- R136. The thread branches if SRC1 is below SRC2 unsigned. -/
  | bltu (t : Tid)
  /-- R136. The thread branches if SRC1 is at least SRC2 unsigned. -/
  | bgeu (t : Tid)
  /-- R136. The thread links PC + 8 into DEST and jumps relative to PC. -/
  | jal (t : Tid)
  /-- R136. The thread links PC + 8 into DEST and jumps to SRC1 plus the immediate. -/
  | jalr (t : Tid)
  /-- R136. The thread loads from its local address map into DEST. -/
  | ld (t : Tid)
  /-- R136. The thread stores the low bits of SRC2 to its local address map. -/
  | st (t : Tid)
  /-- R136. The thread performs a 64-bit atomic on wale SRAM and receives the old value. -/
  | amo (t : Tid)
  /-- R141. The thread issues a descriptor to the stake's matrix queue, taking a credit and a scoreboard entry or stalling. -/
  | issMat (t : Tid)
  /-- R141. The thread issues a descriptor to the stake's vector chain queue. -/
  | issVec (t : Tid)
  /-- R141. The thread issues a descriptor to the wale's row queue. -/
  | issRow (t : Tid)
  /-- R141. The thread issues a descriptor to the wale's DMA stream queue. -/
  | issDma (t : Tid)
  /-- R141. The thread issues a descriptor to the wale's summary queue. -/
  | issSum (t : Tid)
  /-- R148. The thread sleeps until the masked token slots satisfy the wait, or faults on a delivered error. -/
  | twait (t : Tid)
  /-- R150. The thread waits until its earlier accesses are visible and optionally invalidates its instruction cache. -/
  | fence (t : Tid)
  /-- R151. The thread arrives at a barrier and sleeps until the count is reached, waking all arrivals. -/
  | bar (t : Tid)
  /-- R153. The thread ends its part of the unit and sleeps until a work list names it. -/
  | bwait (t : Tid)
  /-- R155. The thread waits for its pending slots and enters IDLE or faults. -/
  | halt (t : Tid)
  /-- R136. DEST receives a summary slot. -/
  | sumrd (t : Tid)
  /-- R136. DEST receives the identifier that the immediate selects. -/
  | rdid (t : Tid)
  /-- R421. The thread sets its stake's workload phase for the power controller. -/
  | phase (t : Tid)
  /-- R163. An unlisted opcode faults the thread with ACCESS_DENIED detail 0x01. -/
  | undefinedOpcode (t : Tid)
  /-- R160. STAKE_CMD START starts an IDLE thread at its PC. -/
  | stakeStart (ini : Ini) (t : Tid)
  /-- R160. STAKE_CMD PAUSE stops a thread at its next instruction boundary. -/
  | stakePause (ini : Ini) (t : Tid)
  /-- R160. STAKE_CMD RESUME continues a PAUSED thread from its PC. -/
  | stakeResume (ini : Ini) (t : Tid)
  /-- R160. STAKE_CMD RELEASE re-executes a faulted thread's instruction. -/
  | stakeRelease (ini : Ini) (t : Tid)
  /-- R160. STAKE_CMD RELEASE_SKIP continues a faulted thread after the faulting instruction. -/
  | stakeReleaseSkip (ini : Ini) (t : Tid)
  /-- R160. STAKE_CMD KILL puts a thread in KILLING until its pending slots post. -/
  | stakeKill (ini : Ini) (t : Tid)
  /-- R134. A write of STAKE_ICACHE.INVALIDATE invalidates the stake's instruction cache. -/
  | stakeIcacheInvalidate (ini : Ini) (k : Nat)
  /-- R162. A hoop access to a thread's registers or PC succeeds only while it is PAUSED, FAULT or IDLE. -/
  | stakeRegAccess (ini : Ini) (t : Tid) (reg : Nat) (write : Option Nat)
  /-- R158. A write of SCHED_WL_PUT makes work lists available, or is refused with WL_BAD if it would overfill the ring. -/
  | schedWlPut (ini : Ini) (w : Nat) (v : Nat)
  /-- R169. A write of PEAK_CLR sets the scoreboard peak to its current use. -/
  | schedPeakClr (ini : Ini) (w : Nat)
  /-- R168. The summary unit combines source slots into a destination slot. -/
  | sumCombine (w : Nat)
  /-- R168. The summary unit copies source records into the post FIFO, waiting while it is full. -/
  | sumPost (w : Nat)
  /-- R168. The summary unit sets source slots invalid. -/
  | sumClear (w : Nat)
  /-- R168. The summary unit sends SUM-kind source values to the loss monitor. -/
  | sumLoss (w : Nat)
  /-- R168. A summary operation ends and posts its token. -/
  | summaryOpEnd (w : Nat)
  /-- R173. A read of SUM_POST_LO pops the oldest post record. -/
  | sumPostPop (ini : Ini) (w : Nat)
  /-- R206. The matrix unit starts the head operation after its AFTER slot and any leave grant, returning its credit. -/
  | matrixOpStart (k : Nat)
  /-- R205. The matrix unit writes C once after the last K-block and posts its token. -/
  | matrixOpEnd (k : Nat)
  /-- R208. An uncorrectable read suspends the matrix operation at a K-block boundary and saves its context. -/
  | matrixSuspend (k : Nat) (addr : Nat)
  /-- R220. The vector chain starts streaming the head operation. -/
  | chainOpStart (k : Nat)
  /-- R217. The chain ends, writes its summary record and posts its token. -/
  | chainOpEnd (k : Nat)
  /-- R221. An uncorrectable read stops the chain and suspends it or posts ECC_UNCORRECTED. -/
  | chainSuspend (k : Nat) (addr : Nat)
  /-- R228. The row engine takes the next row operation and asks for leave once. -/
  | rowOpStart (w : Nat)
  /-- R224. The row engine completes its rows and posts its token. -/
  | rowOpEnd (w : Nat)
  /-- R229. An uncorrectable read for a row suspends the row operation before that row. -/
  | rowSuspend (w : Nat) (addr : Nat)
  /-- R232. A write of ROW_SIDE_CLR.START begins writing +0 to every side-memory slot. -/
  | rowSideClr (ini : Ini) (w : Nat)
  /-- R232. The side-memory clear ends and held row operations may start. -/
  | sideClearDone (w : Nat)
  /-- R418. Each 100 ns window the leave arbiter grants up to 64 starts, oldest first. -/
  | leaveWindow (d : Nat)
  /-- R249. A DMA stream takes a context and begins translating, reading and writing chunks. -/
  | dmaStreamStart (c : Nat)
  /-- R250. A stream's last chunk is visible and its token posts. -/
  | dmaStreamEnd (c : Nat)
  /-- R251. A chunk fault suspends the stream at that chunk and sends a resumable fault record. -/
  | dmaStreamFault (c : Nat) (ue : Option Nat)
  /-- R242. A page-table walk completes with a translation or an XLATE_FAULT detail. -/
  | translationWalkEnd (u : Nat) (va : Nat) (write : Bool) (v : Bool)
  /-- R245. XLT_INVAL_CMD scope 1 drops cached entries for a virtual range. -/
  | xltInvalRange (ini : Ini) (va : Nat) (pages : Nat)
  /-- R245. XLT_INVAL_CMD scope ALL drops every cached entry. -/
  | xltInvalAll (ini : Ini)
  /-- R245. Accesses under dropped entries complete, BUSY clears and INVAL_DONE is set. -/
  | invalComplete
  /-- R261. XLT_FAULT_CMD RESUME continues a suspended stream or engine operation. -/
  | xltFaultResume (ini : Ini) (kind : Nat) (unit : Nat)
  /-- R261. XLT_FAULT_CMD DISCARD ends a suspended unit and posts its slot with the fault's class. -/
  | xltFaultDiscard (ini : Ini) (kind : Nat) (unit : Nat)
  /-- R264. A write of XLT_FQ_GET frees ring slots so held records go out. -/
  | xltFqGet (ini : Ini) (v : Nat)
  /-- R259. A write of XLT_FQ_BASE clears a broken ring and releases held records. -/
  | xltFqBase (ini : Ini) (v : Nat)
  /-- R256. Patrol scrub reads a line, rewrites it if corrected and logs it if uncorrectable. -/
  | scrubLine (pa : Nat) (ce : Bool) (last : Bool)
  /-- R238. A hoop core access through Sv48 reaches memory or takes an access-fault exception. -/
  | hoopMemoryAccess (core : Nat) (pa : Nat) (write : Bool) (n : Nat) (data : Nat)
  /-- R271. A bank apply unit takes the next ring descriptor, latches coefficients or refuses it. -/
  | applyDescriptorTake (n : Nat)
  /-- R275. After gates and leave, the unit reads and computes a chunk or skips it if already committed. -/
  | applyChunkStart (n : Nat)
  /-- R275. The unit writes moments, master, working copy and the commit record of a chunk. -/
  | applyChunkCommit (n : Nat)
  /-- R276. An uncorrectable read aborts the chunk, sends a KIND 5 record and retries or halts. -/
  | applyChunkAbort (n a : Nat)
  /-- R276. 1 µs after an abort the unit retries the chunk. -/
  | applyRetry (n : Nat)
  /-- R276. BANK_CMD RESUME redoes a halted chunk. -/
  | bankResume (ini : Ini) (n : Nat)
  /-- R276. BANK_CMD ABANDON ends a halted descriptor and restores the chunk's working copy. -/
  | bankAbandon (ini : Ini) (n : Nat)
  /-- R276. BANK_CMD SKIP ends a descriptor waiting at a gate without touching memory. -/
  | bankSkip (ini : Ini) (n : Nat)
  /-- R293. A write of BANK_CTRL.PAUSE stops or continues the unit at a chunk boundary. -/
  | bankPause (ini : Ini) (n : Nat) (on : Bool)
  /-- R272. A write of BANK_CTRL.GATE_CLR closes the reduction gate. -/
  | gateClr (ini : Ini) (n : Nat)
  /-- R291. The border sends the next export record on the route BANK_EXP_ROUTE names. -/
  | exportSend (n : Nat)
  /-- R281. The loss monitor processes a loss value and may flag a spike or non-finite value and hold applies. -/
  | lossValue
  /-- R282. A write of LOSS_RELEASE.GO clears HELD and re-arms LOSS_FLAG. -/
  | lossRelease (ini : Ini)
  /-- R294. A write of LOSS_CTRL.RESET sets n, mean and variance to 0. -/
  | lossStatsReset (ini : Ini)
  /-- R285. When every part commits a step, the fold digest unit takes the shard digest and sends it if a comparison is due. -/
  | digestReady (shard : Nat)
  /-- R287. A member's digest arrives and the comparison decides once all are present. -/
  | digestReceive (src shard step d : Nat)
  /-- R287. DIG_WAIT beats after its own digest, the unit decides with missing members absent. -/
  | digestWaitExpire (shard step : Nat)
  /-- R289. A winner serves a requested chunk from the slot that holds the compared step. -/
  | repairServe (src shard part chunk step : Nat) (served : Bool)
  /-- R289. A loser writes a fetched chunk, its record and working copy, and marks REPAIRED when all are done. -/
  | repairChunkReceive (c : RepairChunk)
  /-- R349. A source receives a gather request for its piece. -/
  | gatherReq (q : GatherQ) (sent back : Bool) (step : Nat)
  /-- R301. A holder serves a gathered piece once its digest is ready and any comparison is decided. -/
  | gatherServe (data : List Byte)
  /-- R302. A receiving port checks a piece's version and records it or raises GATHER_STALE. -/
  | gatherPiece (p group layer rank version : Nat) (data : List Byte)
  /-- R308. A forward handover arrives and takes or reuses a micro-batch slot. -/
  | handoverForward (p : Nat) (h : Handover) (sent : Bool) (group : Nat)
  /-- R309. A backward handover is matched to its slot, returning it with LAST, or is counted as an error. -/
  | handoverBackward (p : Nat) (h : Handover) (sent : Bool) (group : Nat)
  /-- R313. A destination receives a source's count record of an expert exchange. -/
  | countRecord (p : Nat) (x : ExpertHdr) (n size : Nat) (sent : Bool)
  /-- R314. A destination places received tokens by source rank and completes the exchange when all have arrived. -/
  | expertTokens (p : Nat) (x : ExpertHdr) (data : List Byte) (sent : Bool)
  /-- R318. A near port checks a flit by FEC, CRC, epoch and tag and delivers it in order or NAKs it. -/
  | flitReceive (p : Nat) (f : FlitIn)
  /-- R322. On a NAK the sender replays from the named flit in original order. -/
  | nak (p bit seq : Nat)
  /-- R322. No ACK advance for TO_NS makes the sender replay from the oldest unacknowledged flit. -/
  | replayTimeout (p : Nat)
  /-- R320. A CONTROL flit returns traffic-class credits to the sender. -/
  | creditReturn (p : Nat) (l : List (Nat × Nat)) (slots : Nat)
  /-- R325. A write of NLNK_CTRL.TRAIN starts training or takes the link down. -/
  | linkTraining (ini : Ini) (p : Nat) (on : Bool)
  /-- R325. A training step completes and the next begins, or the link becomes UP. -/
  | trainingStepDone (p : Nat) (r : TrainResult)
  /-- R325. A training step exceeds its limit and training restarts after 1 s. -/
  | trainingStepTimeout (p : Nat)
  /-- R325. The wait after a failed training ends and training restarts from step 1. -/
  | trainingRetry (p : Nat)
  /-- R328. A partner's capability record and quote are checked and the partner accepted or refused with AUTH_FAIL. -/
  | capabilityRecord (p : Nat) (r : CapRecord)
  /-- R329. Active-cable current above the trip point opens the supply switch and takes the link down. -/
  | cableOvercurrent (p ma : Nat)
  /-- R329. Firmware closes the cable supply switch again 1 s after a first trip. -/
  | loadSwitchReclose (p : Nat)
  /-- R329. A write of NLNK_LOAD_CTRL.RETRY closes the switch after a second trip. -/
  | nlnkLoadRetry (ini : Ini) (p : Nat)
  /-- R331. A write of NLNK_CTRL.FORCE4 holds the port at 4 lanes or releases it. -/
  | nlnkForce4 (ini : Ini) (p : Nat) (on : Bool)
  /-- R330. A lane loses lock or exceeds its error rate and the end sends WIDTH(4). -/
  | laneFail (p n : Nat)
  /-- R330. On WIDTH both ends move to 4 lanes within 5 µs, or the link goes down. -/
  | width (p w bad : Nat)
  /-- R331. Every 100 ms a degraded port retrains its failed lanes in the background. -/
  | laneRetrainAttempt (p good : Nat)
  /-- R331. After 1 s of clean test pattern on all 8 lanes the port returns to 8 lanes. -/
  | laneRestore (p : Nat)
  /-- R332. On RATE(k) the sender paces DATA flits to k/8 of the flit rate. -/
  | rate (p k : Nat)
  /-- R332. At the end of each backpressure period the receiver lowers or raises the advertised rate. -/
  | backpressurePeriod (p : Nat) (withheld low : Bool)
  /-- R426. A TC 7 slack record arrives and the PWC acts on its WANT, GIVE and REVERT fields. -/
  | sidebandRecord (p : Nat) (r : List Byte)
  /-- R339. The border takes a post, forms the local contribution and stamps the attempt. -/
  | postTake
  /-- R340. A partner's OPEN waits for a free bucket context and is granted in arrival order. -/
  | openMsg (p : Nat) (k : BKey)
  /-- R340. On GRANT the sender sends the bucket's data. -/
  | grant (p : Nat) (k : BKey)
  /-- R337. A bucket operand arrives and hop entries add, send or deliver when both operands are present. -/
  | bucketData (p : Nat) (m : BucketIn)
  /-- R343. A bucket incomplete when its deadline count reaches 0 raises a step abort. -/
  | bucketDeadlineExpire (k : BKey)
  /-- R344. An ABORT message discards the attempt's buckets and slots, is forwarded and advances the attempt. -/
  | abortMsg (p step attempt cls origin group bucket : Nat)
  /-- R344. A write of NRED_ABORT.GO aborts the current attempt of the current step. -/
  | nredAbortGo (ini : Ini) (p : Nat)
  /-- R350. A write of NRED_SLOTS.GRANT changes the slot credits a port grants, unless the total would exceed 24. -/
  | nredSlotsGrant (ini : Ini) (p v : Nat)
  /-- R354. A switch's JOIN_ACK lets the module send CONTRIBs on the channel. -/
  | joinAck (p channel group : Nat)
  /-- R354. A switch's REJECT refuses the group and is counted. -/
  | reject (p channel group : Nat)
  /-- R356. A switch RESULT is accepted or counted bad if its contributor count is wrong. -/
  | switchResult (p : Nat) (r : SwRec)
  /-- R374. A sender resends a coded block that its receiver found damaged. -/
  | codedBlockRerequest (p : Nat) (k : BKey) (first block : Nat)
  /-- R364. After leave, a coder quantises, builds the table and writes a block. -/
  | codecBlockEncode (c : Nat)
  /-- R373. After leave, a decoder checks and decodes a block or marks it damaged. -/
  | codecBlockDecode (c : Nat)
  /-- R377. A far coder takes an ENCODE job and codes its blocks. -/
  | fcodEncode (f : Nat)
  /-- R377. A far coder takes a DECODE job and decodes its blocks. -/
  | fcodDecode (f : Nat)
  /-- R378. A far job ends, writes W7 and advances FCOD_JOB_GET. -/
  | fcodJobEnd (f : Nat)
  /-- R390. Every 250 µs a HEARTBEAT is sent to each peer on each used route. -/
  | heartbeatTimer (now : Nat) (answers : List FarAnswer)
  /-- R390. A received HEARTBEAT is answered with an ECHO. -/
  | heartbeat (h : FarHdr) (seq time turn : Nat)
  /-- R390. A received ECHO gives an RTT sample that updates SRTT, RTTVAR and RTO. -/
  | echo (h : FarHdr) (sample : Nat)
  /-- R391. A far ACK frees acknowledged records and may post a SENT completion. -/
  | ack (h : FarHdr) (below : Nat) (ranges : List (Nat × Nat)) (window : Nat)
  /-- R391. A far DATA record is placed at its offset, duplicates discarded, and a message may complete. -/
  | dataRec (h : FarHdr) (plain : List Byte)
  /-- R391. After 64 DATA records or 100 µs the receiver sends an ACK. -/
  | ackTimer (peer : Nat)
  /-- R391. A record unacknowledged within RTO is resent on the DATA route under the current epoch. -/
  | resendTimeout (peer rec : Nat)
  /-- R392. No heartbeat for 1 ms declares the route LOST, sends ROUTE_DOWN and moves DATA. -/
  | routeLostTimeout (peer route : Nat)
  /-- R392. On ROUTE_DOWN the end moves DATA to the other route and resends unacknowledged records. -/
  | routeDown (h : FarHdr) (route : Nat)
  /-- R68. A far KEY record carries an epoch change message. -/
  | keyRec (h : FarHdr) (e : Nat)
  /-- R386. The far port handles an ICMPv6 Neighbor Discovery message for its address or router. -/
  | neighborDiscovery (f : Nat) (m : NdMsg)
  /-- R386. A frame that is not an acceptable FXP or ND packet is dropped and counted. -/
  | farFrameDrop (f : Nat) (why : FarDrop)
  /-- R389. A write of FXP_CTRL.EN establishes sessions with every VALID peer or ends them. -/
  | fxpCtrlEn (ini : Ini) (f : Nat) (on : Bool) (answers : List FarAnswer)
  /-- R397. The module takes a send descriptor, copies the message into the send store or refuses it. -/
  | sendDescriptorTake
  /-- R396. A write of FXP_RX_FREE frees a received message unless the keeper must hold it. -/
  | fxpRxFree (ini : Ini) (f : Nat) (v : Nat)
  /-- R400. FXP_CLOSE_MS after its own contribution, the keeper closes the manifest and records ROUND_LATE. -/
  | manifestCloseTimeout
  /-- R399. The lid finishes signing the manifest and it is sent. -/
  | manifestSigned
  /-- R401. A manifest is verified and accepted, held or discarded, and its anchor digest compared. -/
  | manifest (mid : Nat) (signer : Option Nat)
  /-- R402. A named contribution still incomplete after FXP_CLOSE_MS is fetched from the keeper. -/
  | fetchWaitExpire (mid : Nat)
  /-- R405. A write of FXP_CTRL.JOIN enters the join state. -/
  | fxpCtrlJoin (ini : Ini) (f : Nat)
  /-- R405. A write of FXP_ROUND in the join state sets the fetched round and takes waiting manifests in order. -/
  | fxpRound (ini : Ini) (f : Nat) (v : Nat)
  /-- R412. The input falls below 42.0 V and the PWC enters WARNING. -/
  | supplyWarn
  /-- R413. The input rises above 44.0 V and the release timer starts. -/
  | supplyRecover
  /-- R413. After 1 ms above 44.0 V WARNING ends and leave grants resume. -/
  | warningRelease
  /-- R413. Every 10 µs after a release the bubble counts fall by 1/64. -/
  | bubbleRamp
  /-- R415. The input falls below 38.0 V, causing a cold reset. -/
  | brownOut
  /-- R415. The input rises above 60.0 V, causing a cold reset. -/
  | overVoltage
  /-- R428. PWR_ALERT_N asserted for 50 ns brings the module to LOWEST. -/
  | pwrAlert
  /-- R429. PWR_ALERT_N deasserted for 100 µs ends LOWEST. -/
  | alertRelease
  /-- R423. Every 10 µs the mean input power is compared with the cap and controller bubbles adjusted. -/
  | fastLoop (mw : Nat)
  /-- R424. Every 1 ms the estimated and measured power are compared and trust updated. -/
  | estimateCompare (e : Nat) (m : Nat)
  /-- R427. A write of TEL_CAP sets the operator cap from the next tick and reverts balances. -/
  | telCap (ini : Ini) (v : Nat)
  /-- R427. A write of TEL_GROUP sets the shifting group and reverts balances. -/
  | telGroup (ini : Ini) (v : Nat)
  /-- R421. A write of PWC_PHASE_TAB seeds a phase table entry. -/
  | pwcPhaseTab (ini : Ini) (k : Nat) (v : Nat)
  /-- R431. A junction sensor reading updates thermal counts and may trip a warm reset. -/
  | sensorReading (k : Nat) (t : Int) (full : Bool)
  /-- R431. Each further 1 ms the die's thermal count rises or falls by 1. -/
  | thermalCountStep (d : Nat)
  /-- R430. A sensor silent for 10 ms reads 105 °C and THERMAL is recorded. -/
  | sensorStop (k : Nat)
  /-- R432. After 1 s with every reporting sensor at 95 °C or less the warm reset is released. -/
  | tripRelease
  /-- R433. COOLANT_LEAK_N low for 1 ms sets TEL_STATUS.LEAK. -/
  | coolantLeak
  /-- R492. The input rises through 44.0 V and a cold start begins with stage 1. -/
  | powerOn
  /-- R492. RST_N asserted for at least 10 µs starts a cold reset. -/
  | rstN
  /-- R493. An absent or out-of-range REFCLK holds the module in cold reset. -/
  | refclkLoss
  /-- R415. After 10 ms in range with RST_N high, stage 1 ends and the lid's base stage 2 starts. -/
  | powerGood (attempts : List Bool) (countersOk : Bool)
  /-- R441. A base stage completes and the next begins, or the boot sequencer starts. -/
  | baseStageEnd
  /-- R441. A base stage that fails or exceeds its limit puts the module in SAFE. -/
  | baseStageTimeout
  /-- R443. Every 100 µs the boot sequencer starts pending steps that fit the budget and temperature. -/
  | bootDecision
  /-- R442. A boot step ends, its held power is charged, and READY follows when all are done. -/
  | bootStepEnd (row unit : Nat) (ok : Bool) (us : Nat)
  /-- R444. A write of BOOT_BUDGET applies at the next decision. -/
  | bootBudget (ini : Ini) (v : Nat)
  /-- R439. WARM_N asserted for 1 µs puts all non-always-on blocks in reset and memory in self-refresh. -/
  | warmN
  /-- R439. A write of BOOT_RESET.WARM triggers a warm reset. -/
  | bootReset (ini : Ini)
  /-- R439. After the reset deasserts for 10 µs the warm start runs its stages and sequencer. -/
  | warmStart
  /-- R445. A write of BOOT_SHUTDOWN.GO starts the orderly shutdown with quiesce and BIST. -/
  | bootShutdown (ini : Ini)
  /-- R451. BOOT_BIST_CMD test puts an isolated wale or port into TESTING. -/
  | bistTest (ini : Ini) (kind inst : Nat)
  /-- R451. BOOT_BIST_CMD retire retires a wale and assigns a spare. -/
  | bistRetire (ini : Ini) (kind inst : Nat)
  /-- R446. A BIST ends with a pass, a fail or a discarded result under the rail and clock conditions. -/
  | bistComplete (kind inst : Nat) (passed inRange : Bool)
  /-- R457. A write of WALE_REQ.TEST asks firmware to test the isolated wale. -/
  | waleTest (ini : Ini) (w : Nat)
  /-- R457. A write of WALE_REQ.RETIRE asks firmware to retire the isolated or failed wale. -/
  | waleRetire (ini : Ini) (w : Nat)
  /-- R452. The lid activates an approved port image one port at a time, rolling back on failed training. -/
  | portFwActivate (kind : Nat) (ok : Bool)
  /-- R453. A write of HOOP_MIGRATE.GO hands hoop group 0 to its incoming cores. -/
  | hoopMigrate (ini : Ini)
  /-- R453. A write of HOOP_G_PARKED marks parked cores that may be moved. -/
  | hoopGParked (ini : Ini) (g v : Nat)
  /-- R453. A write of HOOP_G_CLAIM moves returned cores into the group. -/
  | hoopGClaim (ini : Ini) (g v : Nat)
  /-- R458. A write of HOOP_CORE_GROUP moves cores between groups, STANDBY and FAILED. -/
  | hoopCoreGroup (ini : Ini) (k v : Nat)
  /-- R459. A write of HOOP_G_DQ_PUT makes ring descriptors available to hoop DMA contexts or refuses them. -/
  | hoopDmaDoorbell (ini : Ini) (g v : Nat)
  /-- R460. A write of HOOP_G_EVT_GET frees event slots and sends held records in order. -/
  | hoopGEvtGet (ini : Ini) (g v : Nat)
  /-- R41. A die-to-die lane is replaced by a redundant lane. -/
  | d2dLaneRepair (d q : Nat)
  /-- R39. A die-to-die link that fails or loses too many lanes puts the module in SAFE. -/
  | d2dLinkFail (d q : Nat)
  /-- R40. A die PLL loses lock and the die header goes FAILED, holding the module in SAFE. -/
  | diePllUnlock (d pll : Nat)
  /-- R461. Received light trains the Rakline link within 100 ms. -/
  | raklineLight
  /-- R475. Rakline loses lock, the session ends and open transfers end. -/
  | raklineLinkLoss
  /-- R463. A Rakline frame is checked and accepted or dropped. -/
  | raklineFrame (h : List Byte) (crcOk tagOk : Bool) (m : RakLinkMsg)
  /-- R464. After 16 frames or 10 µs the receiver acknowledges in a LINK frame. -/
  | raklineAckTimer
  /-- R464. A NAK makes the sender resend from the named frame. -/
  | raklineNak (seq : Nat)
  /-- R464. No acknowledgement for 50 µs makes the sender resend, and 8 resends end the session. -/
  | raklineReplayTimeout
  /-- R465. The lid returns a fresh 32-byte nonce. -/
  | getNonce
  /-- R465. A signed SESSION_INIT establishes a Rakline session or is refused with AUTH_FAIL. -/
  | sessionInit (key nonce keyHash : Nat) (sigOk : Bool)
  /-- R63. The lid returns an attestation quote signed with the alias key. -/
  | getQuote (viaMgmt : Bool) (nonce : Nat)
  /-- R473. The lid returns the alias certificate chain. -/
  | getCerts (viaMgmt : Bool)
  /-- R467. A REG READ command reads registers in ascending order, stopping at the first failure. -/
  | regRead (m : List Byte)
  /-- R467. A REG WRITE command writes registers in ascending order, stopping at the first failure. -/
  | regWrite (m : List Byte)
  /-- R468. A REG WARM_RESET command responds and then triggers a warm reset. -/
  | regWarmReset (m : List Byte)
  /-- R468. A REG SHUTDOWN command responds and then starts an orderly shutdown. -/
  | regShutdown (m : List Byte)
  /-- R469. A BULK WRITE command opens a transfer into the module. -/
  | bulkWrite (m : List Byte)
  /-- R469. A BULK READ command opens a transfer out of the module. -/
  | bulkRead (m : List Byte)
  /-- R469. A BULK data frame is written at its offset. -/
  | bulkData (m : List Byte)
  /-- R470. A transfer ends with a completion giving its class and bytes moved. -/
  | bulkTransferEnd (k : Nat)
  /-- R474. A CONSOLE frame carries console or debug bytes. -/
  | console (toNode : Bool) (data : List Byte)
  /-- R476. ENTDAA assigns the module a dynamic I3C address. -/
  | i3cEntdaa (addr : Nat)
  /-- R478. MCTP Set Endpoint ID sets the endpoint ID. -/
  | setEndpointId (eid : Nat)
  /-- R478. MCTP Get Endpoint ID returns the endpoint ID. -/
  | getEndpointId
  /-- R478. MCTP Get Endpoint UUID returns the UUID. -/
  | getEndpointUuid
  /-- R478. MCTP Get MCTP Version Support returns supported versions. -/
  | getMctpVersionSupport (type : Nat)
  /-- R478. MCTP Get Message Type Support returns supported types. -/
  | getMessageTypeSupport
  /-- R478. MCTP Get Vendor Defined Message Support returns vendor support. -/
  | getVendorDefinedMessageSupport (k : Nat)
  /-- R478. PLDM GetTID returns the terminus ID. -/
  | getTid
  /-- R478. PLDM SetTID sets the terminus ID. -/
  | setTid (tid : Nat)
  /-- R478. PLDM GetPLDMVersion returns a type's version. -/
  | getPldmVersion (type : Nat)
  /-- R478. PLDM GetPLDMTypes returns supported types. -/
  | getPldmTypes
  /-- R478. PLDM GetPLDMCommands returns supported commands. -/
  | getPldmCommands (type : Nat)
  /-- R478. PLDM GetPDRRepositoryInfo returns repository information. -/
  | getPdrRepositoryInfo
  /-- R480. PLDM GetPDR returns a sensor or effecter record. -/
  | getPdr (id : Nat)
  /-- R480. PLDM GetSensorReading returns a numeric sensor's window value. -/
  | getSensorReading (id : Nat)
  /-- R480. PLDM GetStateSensorReadings returns state sensor values. -/
  | getStateSensorReadings (id : Nat)
  /-- R480. PLDM SetNumericEffecterValue writes the cap, group, boot budget or a BIST request as class P. -/
  | setNumericEffecterValue (id v : Nat)
  /-- R480. PLDM GetNumericEffecterValue returns a numeric effecter's value. -/
  | getNumericEffecterValue (id : Nat)
  /-- R480. PLDM SetStateEffecterStates triggers a warm reset, shutdown, claim arm or force-clear as class P. -/
  | setStateEffecterStates (id v : Nat)
  /-- R480. PLDM GetStateEffecterStates returns state effecter values. -/
  | getStateEffecterStates (id : Nat)
  /-- R481. PLDM SetEventReceiver names the receiver of platform events. -/
  | setEventReceiver (eid : Nat)
  /-- R478. PLDM QueryDeviceIdentifiers returns device identifiers. -/
  | queryDeviceIdentifiers
  /-- R478. PLDM GetFirmwareParameters returns image parameters. -/
  | getFirmwareParameters
  /-- R479. PLDM RequestUpdate begins a firmware transport. -/
  | requestUpdate
  /-- R479. PLDM PassComponentTable declares the components to update. -/
  | passComponentTable (kinds : List Nat)
  /-- R479. PLDM UpdateComponent starts transfer of one image, which the module pulls by RequestFirmwareData. -/
  | updateComponent (kind : Nat)
  /-- R479. The lid verifies the transferred image and reports VerifyComplete. -/
  | verifyComplete (im : ImageIn)
  /-- R479. PLDM ActivateFirmware stages the image, pending approval in OWNED. -/
  | activateFirmware
  /-- R479. PLDM GetStatus reports the update state. -/
  | getStatus
  /-- R478. PLDM CancelUpdateComponent cancels the current component transfer. -/
  | cancelUpdateComponent
  /-- R478. PLDM CancelUpdate cancels the update. -/
  | cancelUpdate
  /-- R409. A far port loses PCS alignment or FEC lock on a lane, FMAC_STATUS.LINK or LANES drops and PG_EVENT.LINK_DOWN is set. -/
  | fmacLinkDown (f lanes : Nat)
  /-- R409. A far port regains PCS alignment and FEC lock on all 4 lanes, FMAC_STATUS.LINK becomes 1 and PG_EVENT.LINK_UP is set. -/
  | fmacLinkUp (f : Nat)
  /-- R497. An active cable is attached or removed, changing CBL_PRESENT_N, and the port closes or opens the 3.3 V supply switch. -/
  | cblPresentN (p : Nat) (present : Bool)
  /-- R320. 1 µs after the last credit return, a near receiver returns freed credits in a CONTROL flit. -/
  | creditReturnTimer (p : Nat)
  /-- R343. A gather, handover or expert exchange still incomplete when its group deadline, counted from the request, send or first count record, runs out raises a step abort. -/
  | groupDeadlineExpire (group step attempt : Nat)
  /-- R493. Once REFCLK has met R494 for 1 ms after a loss, the always-on domain releases cold reset and the module restarts at stage 1. -/
  | refclkReturn
  /-- R433. A coolant inlet reading outside 15–45 °C sets TEL_STATUS.INLET_RANGE and its event, and one inside clears it. -/
  | inletSensorReading (t : Int)
  /-- R433. COOLANT_LEAK_N returns high and TEL_STATUS.LEAK returns to 0. -/
  | coolantLeakDeassert
  /-- R481. The event receiver acknowledges a PlatformEventMessage, and the module frees one of its 32 held events and lowers MGMT_EVT_PEND. -/
  | platformEventAck (sensor : Nat)
  deriving DecidableEq, Repr

end Sys2Proof
end

