-- ==== Sys2Proof/Decode.lean ====
section
/-! DEFINITION. The rows of spec/opcode_table.json give no bits: no word spells a command. -/

namespace Sys2Proof

/-- The command that a word spells by the table's bits. No row of the table gives bits (every row's list of fields is empty), so no word spells one. -/
def decodeTableWord (_nbits _w : Nat) : Option Instr := none

end Sys2Proof
end

