-- ==== Sys2Proof/Config.lean ====
section
/-! DEFINITION. What the spec leaves open: free values, each an opaque constant that no proof can look into. -/

namespace Sys2Proof.Config

/-- What a register field holds after a write outside the range that its Meaning names, where the Meaning states no outcome (log entry 12): page type, offset,
low bit, instance, old value, written value. -/
opaque openField : (page off lo inst old v : Nat) → Nat

/-- PG_VERSION of a page (R86: 'Per page', no value stated; log entry 8). -/
opaque pgVersion : (page inst : Nat) → Nat

/-- Power-up contents of a 16-byte block of HBM or the slow tier (R506): cold start number, block number. -/
opaque coldCipher : (power block : Nat) → Nat

/-- Whether a line that nothing has written since the cold start reads as uncorrectable (R506): cold start number, line address. -/
opaque coldUe : (power line : Nat) → Bool

/-- The random key of a memory domain (R53): cold start number, domain, key generation. -/
opaque domainKey : (power dom gen : Nat) → Nat

/-- AES-256-XTS of one 16-byte block (R56): key, tweak of its data unit, its place in the unit, the block; and its inverse (log entry 7). -/
opaque xtsEnc : (key tweak place block : Nat) → Nat
opaque xtsDec : (key tweak place block : Nat) → Nat

/-- The unclonable root that the SRAM array and the helper data give (R50). -/
opaque root : Nat

/-- The KDF of R53: SHAKE256 of parent, label and context, truncated to the key length. -/
opaque kdf : (parent : Nat) → (label : String) → (context : List Nat) → Nat

/-- SHAKE256 of a string of bytes, 256 bits (R59, R61, R62). -/
opaque shake : List Byte → Nat

/-- A fresh free value of the counter `fv`: undefined bytes, unspecified orders and victims (log entry 9). -/
opaque free : (fv : Nat) → Nat

/-- Which entry of a translation, walk or instruction cache a new entry displaces, if any (R134, R244; log entry 13): the free counter and the number of valid
entries. -/
opaque cacheVictim : (fv n : Nat) → Option Nat

/-- The correctly rounded result of a function of R216 where intervals of 1,024 fractional bits do not decide it (log entry 14): function code, argument. -/
opaque fnUndecided : (fn x : Nat) → Nat

/-- The identity hash of this module (R61). -/
opaque identityHash : BitVec 256

/-- A fresh nonce of the lid (R62): the entropy counter. -/
opaque nonce : (ent : Nat) → BitVec 256

/-- Bits of a quote's signature, of ciphertexts and of other cryptographic material that the module computes (R53, R63; log entry 7). -/
opaque crypto : (label : Nat) → (context : List Nat) → Nat

/-- AES-256-GCM (R53, R65, R68, R290, R317): key, nonce, associated data, plaintext; the ciphertext and its tag as one little-endian number (log entry 7). -/
opaque gcm : (key nonce : Nat) → (aad plain : List Byte) → Nat

/-- The direction bit that the nonces of a near port's sent flits carry (R65: which end has which is not stated; log entry 66). -/
opaque nearDirection : (port : Nat) → Nat

/-- The record kind in a transport header (R324: its codes are not stated), and the destination rank of a record that travels one hop (log entry 66). -/
opaque recordKind : (m : Nat) → Nat
opaque hopRank : (port : Nat) → Nat

/-- The content of a near-port record or control message whose layout the spec does not state (log entry 66): its kind and its fields. -/
opaque recordBody : (m : Nat) → (fields : List Nat) → Nat

/-- The hop limit of a far packet (R386: not stated; log entry 68). -/
opaque hopLimit : Nat

/-- The turnaround that this end states for an echo (R326). -/
opaque turnaround : (fv : Nat) → Nat

/-- How many frames beyond the first the alias certificate chain takes (R473: its length is not stated; log entry 7). -/
opaque certFrames : Nat

end Sys2Proof.Config
end

