-- ==== Sys2Proof/Machine/Map.lean ====
section
/-! DEFINITION. Finite maps from numbers: plain data in one canonical form (keys strictly rising, no entry equal to what an unlisted key reads as). Every
register store, memory and per-unit table of the machine is one of these. -/

namespace Sys2Proof.Machine

/-- A finite map: key and value pairs, keys strictly rising, no value equal to its key's default. -/
abbrev SMap (α : Type) := List (Nat × α)

/-- What the map holds at `k`; `d` is what an unlisted key reads as. -/
def SMap.get {α : Type} (d : α) : SMap α → Nat → α
  | [], _ => d
  | (j, v) :: m, k => if j = k then v else SMap.get d m k

/-- The map without an entry at `k`. -/
def SMap.del {α : Type} : SMap α → Nat → SMap α
  | [], _ => []
  | (j, v) :: m, k => if j = k then SMap.del m k else (j, v) :: SMap.del m k

/-- The map with the entry `(k, v)` put before the first larger key. -/
def SMap.ins {α : Type} : SMap α → Nat → α → SMap α
  | [], k, v => [(k, v)]
  | (j, w) :: m, k, v => if k < j then (k, v) :: (j, w) :: m else (j, w) :: SMap.ins m k v

/-- The map after a write of `v` at `k`; writing the default removes the entry. -/
def SMap.set {α : Type} [DecidableEq α] (d : α) (m : SMap α) (k : Nat) (v : α) : SMap α :=
  if v = d then SMap.del m k else SMap.ins (SMap.del m k) k v

/-- The canonical form: keys strictly rising, no entry equal to the default. -/
def SMap.wf {α : Type} [DecidableEq α] (d : α) : SMap α → Bool
  | [] => true
  | (k, v) :: m => decide (v ≠ d) && m.all (fun e => decide (k < e.1)) && SMap.wf d m

/-- The map's value at `k` changed by `f`. -/
def SMap.modify {α : Type} [DecidableEq α] (d : α) (m : SMap α) (k : Nat) (f : α → α) : SMap α :=
  SMap.set d m k (f (SMap.get d m k))

/-- The map's entries whose key fails `p` only. -/
def SMap.drop {α : Type} (m : SMap α) (p : Nat → Bool) : SMap α := m.filter (fun e => !p e.1)

end Sys2Proof.Machine
end

