-- ==== Sys2Proof/Machine/RegMap.lean ====
section
/-! DEFINITION. The register map: every field of every register table of the spec (R5, R6, R40, R41, R78–R80, R86, R104, R129, R169, R171, R173,
R232, R263, R265, R266, R293–R295, R357, R359, R380, R409, R410, R435, R436, R456–R459, R482, R483), with its place, access type, reset value and narrowed
classes (R93). -/

namespace Sys2Proof.Machine

/-- The access types of R6. -/
inductive Acc where
  | ro | rw | w1c | w1s | wo | rwl
  deriving DecidableEq, Repr

/-- One field of a register table. `cnt`/`stride` (and `cnt2`/`stride2`) give the repeats of an indexed register. `rd` and `wr` are the classes that the field's
Meaning narrows it to (R93), bit layout of R44. `shared` fields have one home for all instances. `clampLo`/`clampHi` bound a field that reads back the nearest
bound; `openLo`/`openHi` bound a field whose out-of-range outcome the spec leaves open. -/
structure Fld where
  page : Page
  off : Nat
  lo : Nat
  w : Nat
  acc : Acc
  rst : Nat := 0
  cnt : Nat := 1
  stride : Nat := 0
  cnt2 : Nat := 1
  stride2 : Nat := 0
  rd : Nat := 31
  wr : Nat := 31
  shared : Bool := false
  clamp : Option (Nat × Nat) := none
  openR : Option (Nat × Nat) := none
  deriving DecidableEq, Repr

/-- The place of repeat `k` of an indexed register. -/
def Fld.at (f : Fld) (k : Nat) : Fld := { f with off := f.off + f.stride * k, cnt := 1, stride := 0 }

/-- The place of repeat `k`, `j` of a doubly indexed register. -/
def Fld.at2 (f : Fld) (k j : Nat) : Fld :=
  { f with off := f.off + f.stride * k + f.stride2 * j, cnt := 1, stride := 0, cnt2 := 1, stride2 := 0 }

/-- Where the field of instance `i` lies in the register store. -/
def Fld.key (f : Fld) (i : Nat) : Nat :=
  ((f.page.idx * 8192 + (if f.shared then 0 else i)) * 4096 + f.off) * 32 + f.lo

/-- The largest value the field holds. -/
def Fld.max (f : Fld) : Nat := 2 ^ f.w - 1

namespace R


/-! Fields of the table of R40. -/

def DIE_STATUS_ARITH_LOCK : Fld := { page := .die, off := 0x040, lo := 0, w := 1, acc := .ro }
def DIE_STATUS_MESH_LOCK : Fld := { page := .die, off := 0x040, lo := 1, w := 1, acc := .ro }
def DIE_STATUS_SRAM_LOCK : Fld := { page := .die, off := 0x040, lo := 2, w := 1, acc := .ro }
def DIE_STATUS_D2D_UP : Fld := { page := .die, off := 0x040, lo := 3, w := 1, acc := .ro }
def DIE_STATUS_SERVING : Fld := { page := .die, off := 0x040, lo := 8, w := 6, acc := .ro }
def DIE_MESH_CE_CNT : Fld := { page := .die, off := 0x044, lo := 0, w := 32, acc := .ro }
def DIE_MESH_UE_CNT : Fld := { page := .die, off := 0x048, lo := 0, w := 32, acc := .ro }

/-! Fields of the table of R41. -/

def D2D_STATUS_LINK : Fld := { page := .d2d, off := 0x040, lo := 0, w := 2, acc := .ro }
def D2D_STATUS_REPAIRED : Fld := { page := .d2d, off := 0x040, lo := 8, w := 8, acc := .ro }
def D2D_RETRY_CNT : Fld := { page := .d2d, off := 0x044, lo := 0, w := 32, acc := .ro }
def D2D_CRC_ERR_CNT : Fld := { page := .d2d, off := 0x048, lo := 0, w := 32, acc := .ro }
def D2D_TX_BYTES_LO : Fld := { page := .d2d, off := 0x04C, lo := 0, w := 32, acc := .ro }
def D2D_TX_BYTES_HI : Fld := { page := .d2d, off := 0x050, lo := 0, w := 32, acc := .ro }

/-! Fields of the table of R78. -/

def LID_OWN_STATE_STATE : Fld := { page := .lid, off := 0x040, lo := 0, w := 2, acc := .ro }
def LID_OWN_STATE_DEBUG_SCOPE : Fld := { page := .lid, off := 0x040, lo := 8, w := 3, acc := .ro }
def LID_OWN_EPOCH : Fld := { page := .lid, off := 0x044, lo := 0, w := 32, acc := .ro }
def LID_CLAIM_ARM : Fld := { page := .lid, off := 0x048, lo := 0, w := 1, acc := .w1s, wr := 4 }
def LID_CLAIM_LEFT : Fld := { page := .lid, off := 0x04C, lo := 0, w := 16, acc := .ro }
def LID_ZERO_CTRL_FORCE_CLEAR : Fld := { page := .lid, off := 0x050, lo := 0, w := 1, acc := .w1s, wr := 4 }
def LID_ZERO_CTRL_MEDIA : Fld := { page := .lid, off := 0x050, lo := 1, w := 1, acc := .rw, wr := 6 }
def LID_ZERO_STATUS_STEP : Fld := { page := .lid, off := 0x054, lo := 0, w := 3, acc := .ro }
def LID_ZERO_STATUS_RESUMED : Fld := { page := .lid, off := 0x054, lo := 3, w := 1, acc := .ro }
def LID_DOMAIN_REKEY : Fld := { page := .lid, off := 0x058, lo := 0, w := 8, acc := .w1s, wr := 2 }
def LID_LOG_DOMAIN : Fld := { page := .lid, off := 0x05C, lo := 0, w := 3, acc := .rwl, rst := 1, wr := 2 }
def LID_LOG_BASE_LO : Fld := { page := .lid, off := 0x060, lo := 12, w := 20, acc := .rwl, wr := 2 }
def LID_LOG_BASE_HI : Fld := { page := .lid, off := 0x064, lo := 0, w := 16, acc := .rwl, wr := 2 }
def LID_LOG_SIZE : Fld := { page := .lid, off := 0x068, lo := 0, w := 5, acc := .rwl, rst := 10, wr := 2, openR := some (6, 20) }
def LID_FW_PENDING : Fld := { page := .lid, off := 0x06C, lo := 0, w := 8, acc := .ro }
def LID_NEAR_REKEY_LOG2 : Fld := { page := .lid, off := 0x070, lo := 0, w := 6, acc := .rwl, rst := 32, wr := 2, clamp := some (20, 32) }
def LID_FAR_REKEY_S : Fld := { page := .lid, off := 0x074, lo := 0, w := 16, acc := .rwl, rst := 600, wr := 2, openR := some (10, 65535) }
def LID_DEBUG_CLOSE : Fld := { page := .lid, off := 0x078, lo := 0, w := 1, acc := .w1s, wr := 2 }
def LID_AUTH_FAIL_CNT : Fld := { page := .lid, off := 0x07C, lo := 0, w := 32, acc := .ro }
def LID_STALE_EPOCH : Fld := { page := .lid, off := 0x080, lo := 0, w := 32, acc := .ro }
def LID_BOOT_COUNT : Fld := { page := .lid, off := 0x084, lo := 0, w := 32, acc := .ro }
def LID_LOG_PUT : Fld := { page := .lid, off := 0x088, lo := 0, w := 32, acc := .ro, rd := 10 }
def LID_LOG_GET : Fld := { page := .lid, off := 0x08C, lo := 0, w := 32, acc := .rw, wr := 2 }
def LID_LOG_DROP_CNT : Fld := { page := .lid, off := 0x090, lo := 0, w := 32, acc := .ro, rd := 10 }

/-! Fields of the table of R79. -/

def NKEY_STATUS_SESSION : Fld := { page := .nkey, off := 0x040, lo := 0, w := 2, acc := .ro }
def NKEY_STATUS_TX_TWO : Fld := { page := .nkey, off := 0x040, lo := 2, w := 1, acc := .ro }
def NKEY_STATUS_RX_TWO : Fld := { page := .nkey, off := 0x040, lo := 3, w := 1, acc := .ro }
def NKEY_TX_EPOCH : Fld := { page := .nkey, off := 0x044, lo := 0, w := 32, acc := .ro }
def NKEY_RX_EPOCH : Fld := { page := .nkey, off := 0x048, lo := 0, w := 32, acc := .ro }
def NKEY_SESSION_CNT : Fld := { page := .nkey, off := 0x04C, lo := 0, w := 32, acc := .ro }
def NKEY_REKEY_CNT : Fld := { page := .nkey, off := 0x050, lo := 0, w := 32, acc := .ro }
def NKEY_EPOCH_DROP_CNT : Fld := { page := .nkey, off := 0x054, lo := 0, w := 32, acc := .ro }
def NKEY_TAG_FAIL_CNT : Fld := { page := .nkey, off := 0x058, lo := 0, w := 32, acc := .ro }
def NKEY_SLOT : Fld := { page := .nkey, off := 0x100, lo := 0, w := 32, acc := .wo, cnt := 32, stride := 4 }

/-! Fields of the table of R80. -/

def FKEY_SESSIONS : Fld := { page := .fkey, off := 0x040, lo := 0, w := 4, acc := .ro, shared := true }
def FKEY_PEER_EPOCH : Fld := { page := .fkey, off := 0x080, lo := 0, w := 16, acc := .ro, cnt := 8, stride := 16, shared := true }
def FKEY_PEER_PREV_HELD : Fld := { page := .fkey, off := 0x080, lo := 16, w := 1, acc := .ro, cnt := 8, stride := 16, shared := true }
def FKEY_PEER_SESSION : Fld := { page := .fkey, off := 0x080, lo := 17, w := 2, acc := .ro, cnt := 8, stride := 16, shared := true }
def FKEY_REKEY_CNT : Fld := { page := .fkey, off := 0x084, lo := 0, w := 32, acc := .ro, cnt := 8, stride := 16, shared := true }
def FKEY_TAG_FAIL_CNT : Fld := { page := .fkey, off := 0x088, lo := 0, w := 32, acc := .ro, cnt := 8, stride := 16, shared := true }
def FKEY_SLOT : Fld := { page := .fkey, off := 0x100, lo := 0, w := 32, acc := .wo, cnt := 64, stride := 4, shared := true }

/-! Fields of the table of R86. -/

def PG_IDENT_INSTANCE (p : Page) : Fld := { page := p, off := 0x000, lo := 0, w := 16, acc := .ro }
def PG_IDENT_TYPE (p : Page) : Fld := { page := p, off := 0x000, lo := 16, w := 16, acc := .ro }
def PG_VERSION_MINOR (p : Page) : Fld := { page := p, off := 0x004, lo := 0, w := 8, acc := .ro }
def PG_VERSION_MAJOR (p : Page) : Fld := { page := p, off := 0x004, lo := 8, w := 8, acc := .ro }
def PG_ACCESS_WRITE_CLASSES (p : Page) : Fld := { page := p, off := 0x008, lo := 0, w := 8, acc := .ro }
def PG_ACCESS_READ_CLASSES (p : Page) : Fld := { page := p, off := 0x008, lo := 8, w := 8, acc := .ro }
def PG_CTRL_ENABLE (p : Page) : Fld := { page := p, off := 0x00C, lo := 0, w := 1, acc := .rw }
def PG_CTRL_QUIESCE_REQ (p : Page) : Fld := { page := p, off := 0x00C, lo := 1, w := 1, acc := .rw, rst := 1 }
def PG_CTRL_ISOLATE (p : Page) : Fld := { page := p, off := 0x00C, lo := 2, w := 1, acc := .rw }
def PG_CTRL_BLOCK_RESET (p : Page) : Fld := { page := p, off := 0x00C, lo := 3, w := 1, acc := .w1s }
def PG_STATE_STATE (p : Page) : Fld := { page := p, off := 0x010, lo := 0, w := 3, acc := .ro }
def PG_STATE_FORCED (p : Page) : Fld := { page := p, off := 0x010, lo := 3, w := 1, acc := .ro }
def PG_EVENT_STATE_CHANGE (p : Page) : Fld := { page := p, off := 0x014, lo := 0, w := 1, acc := .w1c }
def PG_EVENT_ERROR (p : Page) : Fld := { page := p, off := 0x014, lo := 1, w := 1, acc := .w1c }
def PG_EVENT_QUIESCE_TIMEOUT (p : Page) : Fld := { page := p, off := 0x014, lo := 2, w := 1, acc := .w1c }
def PG_EVENT_CE (p : Page) : Fld := { page := p, off := 0x014, lo := 3, w := 1, acc := .w1c }
def PG_EVENT_BLOCK (p : Page) : Fld := { page := p, off := 0x014, lo := 16, w := 16, acc := .w1c }
def PG_EVENT_EN (p : Page) : Fld := { page := p, off := 0x018, lo := 0, w := 32, acc := .rw }
def PG_ERR_FIRST_CLASS (p : Page) : Fld := { page := p, off := 0x01C, lo := 0, w := 8, acc := .ro }
def PG_ERR_FIRST_STEP (p : Page) : Fld := { page := p, off := 0x01C, lo := 8, w := 24, acc := .ro }
def PG_ERR_INFO0 (p : Page) : Fld := { page := p, off := 0x020, lo := 0, w := 32, acc := .ro }
def PG_ERR_INFO1 (p : Page) : Fld := { page := p, off := 0x024, lo := 0, w := 32, acc := .ro }
def PG_ERR_INFO2 (p : Page) : Fld := { page := p, off := 0x028, lo := 0, w := 32, acc := .ro }
def PG_ERR_INFO3_MORE (p : Page) : Fld := { page := p, off := 0x02C, lo := 0, w := 16, acc := .ro }
def PG_ERR_INFO3_LAST (p : Page) : Fld := { page := p, off := 0x02C, lo := 16, w := 8, acc := .ro }
def PG_LOCK (p : Page) : Fld := { page := p, off := 0x030, lo := 0, w := 1, acc := .w1s }
def PG_SEQ (p : Page) : Fld := { page := p, off := 0x034, lo := 0, w := 32, acc := .ro }
def PG_OWNER (p : Page) : Fld := { page := p, off := 0x038, lo := 0, w := 3, acc := .rwl }
def PG_SCRATCH (p : Page) : Fld := { page := p, off := 0x03C, lo := 0, w := 32, acc := .rw }

/-! Fields of the table of R104. -/

def MOD_QUIESCE_US : Fld := { page := .mod, off := 0x040, lo := 0, w := 16, acc := .rw, rst := 10000, clamp := some (10, 65535) }
def MOD_DENIED_CNT : Fld := { page := .mod, off := 0x044, lo := 0, w := 32, acc := .ro }
def MOD_DENIED_LAST_CLASS : Fld := { page := .mod, off := 0x048, lo := 0, w := 5, acc := .ro }
def MOD_DENIED_LAST_PAGE : Fld := { page := .mod, off := 0x048, lo := 16, w := 15, acc := .ro }

/-! Fields of the table of R129. -/

def BEAT_PERIOD : Fld := { page := .beat, off := 0x040, lo := 0, w := 24, acc := .rw, rst := 1000000, clamp := some (25000, 16384000) }
def BEAT_CTRL_STRICT : Fld := { page := .beat, off := 0x044, lo := 0, w := 1, acc := .rw }
def BEAT_CTRL_SYNC_EN : Fld := { page := .beat, off := 0x044, lo := 1, w := 1, acc := .rw }
def BEAT_CTRL_SYNC_OUT_EN : Fld := { page := .beat, off := 0x044, lo := 2, w := 1, acc := .rw, rst := 1 }
def BEAT_SYNC_OFFSET : Fld := { page := .beat, off := 0x048, lo := 0, w := 16, acc := .rw }
def BEAT_LAG_MAX : Fld := { page := .beat, off := 0x04C, lo := 0, w := 3, acc := .rw, rst := 2, clamp := some (1, 7) }
def BEAT_SYNC_STATUS_STATE : Fld := { page := .beat, off := 0x050, lo := 0, w := 2, acc := .ro }
def BEAT_SYNC_STATUS_MISSING : Fld := { page := .beat, off := 0x050, lo := 2, w := 3, acc := .ro }
def BEAT_SYNC_STATUS_OUTLIER : Fld := { page := .beat, off := 0x050, lo := 5, w := 1, acc := .ro }
def BEAT_PHASE_ERR : Fld := { page := .beat, off := 0x054, lo := 0, w := 32, acc := .ro }
def BEAT_COUNT_LO : Fld := { page := .beat, off := 0x058, lo := 0, w := 32, acc := .ro }
def BEAT_COUNT_HI : Fld := { page := .beat, off := 0x05C, lo := 0, w := 32, acc := .ro }
def BEAT_OVERRUN_CNT : Fld := { page := .beat, off := 0x060, lo := 0, w := 32, acc := .ro }
def BEAT_SYNC_LOST_CNT : Fld := { page := .beat, off := 0x064, lo := 0, w := 32, acc := .ro }
def BEAT_SYNC_OUTLIER_CNT : Fld := { page := .beat, off := 0x068, lo := 0, w := 32, acc := .ro }

/-! Fields of the table of R169. -/

def SCHED_WL_BASE : Fld := { page := .sched, off := 0x040, lo := 13, w := 10, acc := .rw }
def SCHED_WL_SIZE : Fld := { page := .sched, off := 0x044, lo := 0, w := 3, acc := .rw, rst := 2, clamp := some (1, 6) }
def SCHED_WL_PUT : Fld := { page := .sched, off := 0x048, lo := 0, w := 16, acc := .rw }
def SCHED_WL_GET : Fld := { page := .sched, off := 0x04C, lo := 0, w := 16, acc := .ro }
def SCHED_LAG : Fld := { page := .sched, off := 0x050, lo := 0, w := 16, acc := .ro }
def SCHED_OVERRUN_CNT : Fld := { page := .sched, off := 0x054, lo := 0, w := 32, acc := .ro }
def SCHED_WL_EMPTY_CNT : Fld := { page := .sched, off := 0x058, lo := 0, w := 32, acc := .ro }
def SCHED_WL_BAD_CNT : Fld := { page := .sched, off := 0x05C, lo := 0, w := 32, acc := .ro }
def SCHED_CREDIT_LIMIT : Fld := { page := .sched, off := 0x060, lo := 0, w := 16, acc := .rw, rst := 2048 }
def SCHED_CREDIT_TO_CNT : Fld := { page := .sched, off := 0x064, lo := 0, w := 32, acc := .ro }
def SCHED_SB_STATUS_USED : Fld := { page := .sched, off := 0x068, lo := 0, w := 8, acc := .ro }
def SCHED_SB_STATUS_PEAK : Fld := { page := .sched, off := 0x068, lo := 8, w := 8, acc := .ro }
def SCHED_SB_STATUS_SHARED : Fld := { page := .sched, off := 0x068, lo := 16, w := 7, acc := .ro }
def SCHED_SB_STATUS_PEAK_CLR : Fld := { page := .sched, off := 0x068, lo := 31, w := 1, acc := .w1s }
def SCHED_QDEPTH_ROW : Fld := { page := .sched, off := 0x06C, lo := 0, w := 6, acc := .ro }
def SCHED_QDEPTH_DMA : Fld := { page := .sched, off := 0x06C, lo := 8, w := 7, acc := .ro }
def SCHED_QDEPTH_SUM : Fld := { page := .sched, off := 0x06C, lo := 16, w := 7, acc := .ro }
def SCHED_FAULT_STAKES : Fld := { page := .sched, off := 0x070, lo := 0, w := 32, acc := .ro }
def SCHED_UNIT : Fld := { page := .sched, off := 0x074, lo := 0, w := 9, acc := .ro }
def SCHED_BAR_COUNT : Fld := { page := .sched, off := 0x080, lo := 0, w := 9, acc := .ro, cnt := 16, stride := 4 }
def SCHED_BAR_ARRIVED : Fld := { page := .sched, off := 0x080, lo := 16, w := 9, acc := .ro, cnt := 16, stride := 4 }

/-! Fields of the table of R171. -/

def STAKE_CMD_THREAD : Fld := { page := .stake, off := 0x040, lo := 0, w := 3, acc := .wo }
def STAKE_CMD_CMD : Fld := { page := .stake, off := 0x040, lo := 4, w := 3, acc := .wo }
def STAKE_CREDITS_MAT : Fld := { page := .stake, off := 0x044, lo := 0, w := 4, acc := .ro, rst := 8 }
def STAKE_CREDITS_VEC : Fld := { page := .stake, off := 0x044, lo := 4, w := 4, acc := .ro, rst := 8 }
def STAKE_CREDITS_ROW : Fld := { page := .stake, off := 0x044, lo := 8, w := 1, acc := .ro, rst := 1 }
def STAKE_CREDITS_DMA : Fld := { page := .stake, off := 0x044, lo := 9, w := 2, acc := .ro, rst := 2 }
def STAKE_CREDITS_SUM : Fld := { page := .stake, off := 0x044, lo := 11, w := 2, acc := .ro, rst := 2 }
def STAKE_CREDITS_SB_RES : Fld := { page := .stake, off := 0x044, lo := 13, w := 2, acc := .ro }
def STAKE_ICACHE : Fld := { page := .stake, off := 0x048, lo := 0, w := 1, acc := .w1s }
def STAKE_CMD_IGN_CNT : Fld := { page := .stake, off := 0x04C, lo := 0, w := 32, acc := .ro }
def STAKE_ISSUE_LO : Fld := { page := .stake, off := 0x050, lo := 0, w := 32, acc := .ro }
def STAKE_ISSUE_HI : Fld := { page := .stake, off := 0x054, lo := 0, w := 32, acc := .ro }
def STAKE_CSTALL_LO : Fld := { page := .stake, off := 0x058, lo := 0, w := 32, acc := .ro }
def STAKE_CSTALL_HI : Fld := { page := .stake, off := 0x05C, lo := 0, w := 32, acc := .ro }
def STAKE_T_STATE_STATE : Fld := { page := .stake, off := 0x080, lo := 0, w := 3, acc := .ro, cnt := 8, stride := 16 }
def STAKE_T_STATE_IN_UNIT : Fld := { page := .stake, off := 0x080, lo := 3, w := 1, acc := .ro, cnt := 8, stride := 16 }
def STAKE_T_PC : Fld := { page := .stake, off := 0x084, lo := 0, w := 32, acc := .rw, cnt := 8, stride := 16 }
def STAKE_T_TOKEN_PENDING : Fld := { page := .stake, off := 0x088, lo := 0, w := 16, acc := .ro, cnt := 8, stride := 16 }
def STAKE_T_TOKEN_ERROR : Fld := { page := .stake, off := 0x088, lo := 16, w := 16, acc := .ro, cnt := 8, stride := 16 }
def STAKE_T_FAULT_CLASS : Fld := { page := .stake, off := 0x08C, lo := 0, w := 8, acc := .ro, cnt := 8, stride := 16 }
def STAKE_T_FAULT_DETAIL : Fld := { page := .stake, off := 0x08C, lo := 8, w := 8, acc := .ro, cnt := 8, stride := 16 }
def STAKE_T_FAULT_SLOT : Fld := { page := .stake, off := 0x08C, lo := 16, w := 4, acc := .ro, cnt := 8, stride := 16 }
def STAKE_REG_LO : Fld := { page := .stake, off := 0x800, lo := 0, w := 32, acc := .rw, cnt := 8, stride := 256, cnt2 := 32, stride2 := 8 }
def STAKE_REG_HI : Fld := { page := .stake, off := 0x804, lo := 0, w := 32, acc := .rw, cnt := 8, stride := 256, cnt2 := 32, stride2 := 8 }

/-! Fields of the table of R173. -/

def SUM_POST_LEVEL : Fld := { page := .sum, off := 0x040, lo := 0, w := 7, acc := .ro }
def SUM_POST_LO : Fld := { page := .sum, off := 0x044, lo := 0, w := 32, acc := .ro }
def SUM_POST_HI : Fld := { page := .sum, off := 0x048, lo := 0, w := 32, acc := .ro }
def SUM_COMBINE_CNT : Fld := { page := .sum, off := 0x04C, lo := 0, w := 32, acc := .ro }
def SUM_INVALID_CNT : Fld := { page := .sum, off := 0x050, lo := 0, w := 32, acc := .ro }
def SUM_LOSS_DROP_CNT : Fld := { page := .sum, off := 0x054, lo := 0, w := 32, acc := .ro }
def SUM_SLOT_LO : Fld := { page := .sum, off := 0x800, lo := 0, w := 32, acc := .ro, cnt := 256, stride := 8 }
def SUM_SLOT_HI : Fld := { page := .sum, off := 0x804, lo := 0, w := 32, acc := .ro, cnt := 256, stride := 8 }

/-! Fields of the table of R232. -/

def ROW_STATUS_BUSY : Fld := { page := .row, off := 0x040, lo := 0, w := 1, acc := .ro }
def ROW_STATUS_SUSPENDED : Fld := { page := .row, off := 0x040, lo := 1, w := 1, acc := .ro }
def ROW_STATUS_OP : Fld := { page := .row, off := 0x040, lo := 4, w := 3, acc := .ro }
def ROW_STATUS_STAKE : Fld := { page := .row, off := 0x040, lo := 7, w := 5, acc := .ro }
def ROW_STATUS_THREAD : Fld := { page := .row, off := 0x040, lo := 12, w := 3, acc := .ro }
def ROW_CUR : Fld := { page := .row, off := 0x044, lo := 0, w := 18, acc := .ro }
def ROW_OPS_CNT : Fld := { page := .row, off := 0x048, lo := 0, w := 32, acc := .ro }
def ROW_ROWS_LO : Fld := { page := .row, off := 0x04C, lo := 0, w := 32, acc := .ro }
def ROW_ROWS_HI : Fld := { page := .row, off := 0x050, lo := 0, w := 32, acc := .ro }
def ROW_NONFINITE_CNT : Fld := { page := .row, off := 0x054, lo := 0, w := 32, acc := .ro }
def ROW_EMPTY_CNT : Fld := { page := .row, off := 0x058, lo := 0, w := 32, acc := .ro }
def ROW_SIDE_CLR_START : Fld := { page := .row, off := 0x05C, lo := 0, w := 1, acc := .w1s }
def ROW_SIDE_CLR_BUSY_CLR : Fld := { page := .row, off := 0x05C, lo := 1, w := 1, acc := .ro }

/-! Fields of the table of R263. -/

def XLT_ROOT_LO_VALID : Fld := { page := .xlt, off := 0x040, lo := 0, w := 1, acc := .rwl }
def XLT_ROOT_LO_ADDR : Fld := { page := .xlt, off := 0x040, lo := 12, w := 20, acc := .rwl }
def XLT_ROOT_HI : Fld := { page := .xlt, off := 0x044, lo := 0, w := 10, acc := .rwl }
def XLT_PT_DOMAIN : Fld := { page := .xlt, off := 0x048, lo := 0, w := 3, acc := .rwl, rst := 1 }
def XLT_INVAL_VA_LO : Fld := { page := .xlt, off := 0x04C, lo := 16, w := 16, acc := .rw }
def XLT_INVAL_VA_HI : Fld := { page := .xlt, off := 0x050, lo := 0, w := 16, acc := .rw }
def XLT_INVAL_CMD_SCOPE : Fld := { page := .xlt, off := 0x054, lo := 0, w := 2, acc := .wo }
def XLT_INVAL_CMD_PAGES : Fld := { page := .xlt, off := 0x054, lo := 8, w := 24, acc := .wo }
def XLT_INVAL_STATUS_BUSY : Fld := { page := .xlt, off := 0x058, lo := 0, w := 1, acc := .ro }
def XLT_INVAL_STATUS_IGNORED : Fld := { page := .xlt, off := 0x058, lo := 16, w := 16, acc := .ro }
def XLT_FQ_BASE_LO : Fld := { page := .xlt, off := 0x05C, lo := 12, w := 20, acc := .rw }
def XLT_FQ_BASE_HI : Fld := { page := .xlt, off := 0x060, lo := 0, w := 16, acc := .rw }
def XLT_FQ_SIZE : Fld := { page := .xlt, off := 0x064, lo := 0, w := 5, acc := .rwl, rst := 10, clamp := some (6, 16) }
def XLT_FQ_PUT : Fld := { page := .xlt, off := 0x068, lo := 0, w := 32, acc := .ro }
def XLT_FQ_GET : Fld := { page := .xlt, off := 0x06C, lo := 0, w := 32, acc := .rw }
def XLT_FQ_WAIT : Fld := { page := .xlt, off := 0x070, lo := 0, w := 16, acc := .ro }
def XLT_FAULT_CMD_ACTION : Fld := { page := .xlt, off := 0x074, lo := 0, w := 3, acc := .wo }
def XLT_FAULT_CMD_KIND : Fld := { page := .xlt, off := 0x074, lo := 4, w := 4, acc := .wo }
def XLT_FAULT_CMD_UNIT : Fld := { page := .xlt, off := 0x074, lo := 16, w := 15, acc := .wo }
def XLT_FAULT_CMD_IGN_CNT : Fld := { page := .xlt, off := 0x078, lo := 0, w := 32, acc := .ro }
def XLT_SUSPENDED : Fld := { page := .xlt, off := 0x07C, lo := 0, w := 16, acc := .ro }
def XLT_FAULT_CNT : Fld := { page := .xlt, off := 0x080, lo := 0, w := 32, acc := .ro }

/-! Fields of the table of R265. -/

def WXLT_HIT_LO : Fld := { page := .wxlt, off := 0x040, lo := 0, w := 32, acc := .ro }
def WXLT_HIT_HI : Fld := { page := .wxlt, off := 0x044, lo := 0, w := 32, acc := .ro }
def WXLT_MISS_CNT : Fld := { page := .wxlt, off := 0x048, lo := 0, w := 32, acc := .ro }
def WXLT_FAULT_CNT : Fld := { page := .wxlt, off := 0x04C, lo := 0, w := 32, acc := .ro }
def WXLT_STATUS_WALKS : Fld := { page := .wxlt, off := 0x050, lo := 0, w := 4, acc := .ro }
def WXLT_STATUS_ENTRIES : Fld := { page := .wxlt, off := 0x050, lo := 16, w := 11, acc := .ro }
def WXLT_CTX_ACTIVE : Fld := { page := .wxlt, off := 0x054, lo := 0, w := 7, acc := .ro }
def WXLT_CTX_SUSPENDED : Fld := { page := .wxlt, off := 0x054, lo := 8, w := 7, acc := .ro }

/-! Fields of the table of R266. -/

def HBM_STATUS_TRAINED : Fld := { page := .hbm, off := 0x040, lo := 0, w := 1, acc := .ro }
def HBM_STATUS_SELF_REFRESH : Fld := { page := .hbm, off := 0x040, lo := 1, w := 1, acc := .ro }
def HBM_STATUS_SCRUB_BUSY : Fld := { page := .hbm, off := 0x040, lo := 2, w := 1, acc := .ro }
def HBM_STATUS_POPULATED : Fld := { page := .hbm, off := 0x040, lo := 3, w := 1, acc := .ro }
def HBM_SCRUB_CTRL_EN : Fld := { page := .hbm, off := 0x044, lo := 0, w := 1, acc := .rw, rst := 1 }
def HBM_SCRUB_CTRL_HOURS : Fld := { page := .hbm, off := 0x044, lo := 8, w := 8, acc := .rw, rst := 24, clamp := some (1, 255) }
def HBM_SCRUB_PASS_CNT : Fld := { page := .hbm, off := 0x048, lo := 0, w := 32, acc := .ro }
def HBM_CE_CNT : Fld := { page := .hbm, off := 0x04C, lo := 0, w := 32, acc := .ro }
def HBM_CE_PASS : Fld := { page := .hbm, off := 0x050, lo := 0, w := 32, acc := .ro }
def HBM_CE_THRESH : Fld := { page := .hbm, off := 0x054, lo := 0, w := 32, acc := .rw, rst := 1000 }
def HBM_UE_CNT : Fld := { page := .hbm, off := 0x058, lo := 0, w := 32, acc := .ro }
def HBM_SCRUB_UE_CNT : Fld := { page := .hbm, off := 0x05C, lo := 0, w := 32, acc := .ro }
def HBM_UE_ADDR_LO : Fld := { page := .hbm, off := 0x060, lo := 0, w := 32, acc := .ro }
def HBM_UE_ADDR_HI : Fld := { page := .hbm, off := 0x064, lo := 0, w := 10, acc := .ro }

/-! Fields of the table of R293. -/

def BANK_RING_BASE_LO : Fld := { page := .bank, off := 0x040, lo := 6, w := 26, acc := .rwl }
def BANK_RING_BASE_HI : Fld := { page := .bank, off := 0x044, lo := 0, w := 10, acc := .rwl }
def BANK_RING_SIZE : Fld := { page := .bank, off := 0x048, lo := 0, w := 4, acc := .rwl, rst := 8, clamp := some (4, 12) }
def BANK_RING_PUT : Fld := { page := .bank, off := 0x04C, lo := 0, w := 16, acc := .rw }
def BANK_RING_GET : Fld := { page := .bank, off := 0x050, lo := 0, w := 16, acc := .ro }
def BANK_CTRL_PAUSE : Fld := { page := .bank, off := 0x054, lo := 0, w := 1, acc := .rw }
def BANK_CTRL_GATE_CLR : Fld := { page := .bank, off := 0x054, lo := 1, w := 1, acc := .w1s }
def BANK_CMD : Fld := { page := .bank, off := 0x058, lo := 0, w := 2, acc := .wo }
def BANK_STATUS_STATE : Fld := { page := .bank, off := 0x05C, lo := 0, w := 4, acc := .ro }
def BANK_STATUS_LAST : Fld := { page := .bank, off := 0x05C, lo := 4, w := 4, acc := .ro }
def BANK_STATUS_CHUNK : Fld := { page := .bank, off := 0x05C, lo := 8, w := 14, acc := .ro }
def BANK_REDUCED_STEP_STEP : Fld := { page := .bank, off := 0x060, lo := 0, w := 24, acc := .ro }
def BANK_REDUCED_STEP_VALID : Fld := { page := .bank, off := 0x060, lo := 31, w := 1, acc := .ro }
def BANK_RETRY_MAX : Fld := { page := .bank, off := 0x064, lo := 0, w := 3, acc := .rw, rst := 2 }
def BANK_CHUNKS_LO : Fld := { page := .bank, off := 0x068, lo := 0, w := 32, acc := .ro }
def BANK_CHUNKS_HI : Fld := { page := .bank, off := 0x06C, lo := 0, w := 32, acc := .ro }
def BANK_REDO_CNT : Fld := { page := .bank, off := 0x070, lo := 0, w := 32, acc := .ro }
def BANK_ABORT_CNT : Fld := { page := .bank, off := 0x074, lo := 0, w := 32, acc := .ro }
def BANK_EXP_BASE_LO : Fld := { page := .bank, off := 0x078, lo := 12, w := 20, acc := .rwl }
def BANK_EXP_BASE_HI : Fld := { page := .bank, off := 0x07C, lo := 0, w := 10, acc := .rwl }
def BANK_EXP_SIZE : Fld := { page := .bank, off := 0x080, lo := 0, w := 6, acc := .rwl, rst := 26, openR := some (20, 36) }
def BANK_EXP_ROUTE : Fld := { page := .bank, off := 0x084, lo := 0, w := 2, acc := .rwl }
def BANK_EXP_SEQ_LO : Fld := { page := .bank, off := 0x088, lo := 0, w := 32, acc := .ro }
def BANK_EXP_SEQ_HI : Fld := { page := .bank, off := 0x08C, lo := 0, w := 32, acc := .ro }
def BANK_EXP_STALL_CNT : Fld := { page := .bank, off := 0x090, lo := 0, w := 32, acc := .ro }
def BANK_NF_GRAD : Fld := { page := .bank, off := 0x400, lo := 0, w := 32, acc := .ro, cnt := 64, stride := 8 }
def BANK_NF_MASTER : Fld := { page := .bank, off := 0x404, lo := 0, w := 32, acc := .ro, cnt := 64, stride := 8 }
def BANK_COEF : Fld := { page := .bank, off := 0x800, lo := 0, w := 32, acc := .rw, cnt := 64, stride := 32, cnt2 := 8, stride2 := 4 }

/-! Fields of the table of R294. -/

def LOSS_CTRL_EN : Fld := { page := .loss, off := 0x040, lo := 0, w := 1, acc := .rw }
def LOSS_CTRL_HOLD_EN : Fld := { page := .loss, off := 0x040, lo := 1, w := 1, acc := .rw }
def LOSS_CTRL_FOLD_SPIKES : Fld := { page := .loss, off := 0x040, lo := 2, w := 1, acc := .rw }
def LOSS_CTRL_RESET : Fld := { page := .loss, off := 0x040, lo := 3, w := 1, acc := .w1s }
def LOSS_ALPHA : Fld := { page := .loss, off := 0x044, lo := 0, w := 32, acc := .rw, rst := 1015021568 }
def LOSS_K : Fld := { page := .loss, off := 0x048, lo := 0, w := 32, acc := .rw, rst := 1086324736 }
def LOSS_WARMUP : Fld := { page := .loss, off := 0x04C, lo := 0, w := 16, acc := .rw, rst := 100 }
def LOSS_STEP : Fld := { page := .loss, off := 0x050, lo := 0, w := 24, acc := .rw }
def LOSS_MEAN : Fld := { page := .loss, off := 0x054, lo := 0, w := 32, acc := .ro }
def LOSS_VAR : Fld := { page := .loss, off := 0x058, lo := 0, w := 32, acc := .ro }
def LOSS_N : Fld := { page := .loss, off := 0x05C, lo := 0, w := 16, acc := .ro }
def LOSS_LAST : Fld := { page := .loss, off := 0x060, lo := 0, w := 32, acc := .ro }
def LOSS_IN_CNT : Fld := { page := .loss, off := 0x064, lo := 0, w := 32, acc := .ro }
def LOSS_SPIKE_CNT : Fld := { page := .loss, off := 0x068, lo := 0, w := 32, acc := .ro }
def LOSS_NONFINITE_CNT : Fld := { page := .loss, off := 0x06C, lo := 0, w := 32, acc := .ro }
def LOSS_FLAG_STEP : Fld := { page := .loss, off := 0x070, lo := 0, w := 24, acc := .ro }
def LOSS_FLAG_SPIKE : Fld := { page := .loss, off := 0x070, lo := 24, w := 1, acc := .ro }
def LOSS_FLAG_NONFINITE : Fld := { page := .loss, off := 0x070, lo := 25, w := 1, acc := .ro }
def LOSS_FLAG_HELD : Fld := { page := .loss, off := 0x070, lo := 26, w := 1, acc := .ro }
def LOSS_FLAG_VALUE : Fld := { page := .loss, off := 0x074, lo := 0, w := 32, acc := .ro }
def LOSS_RELEASE : Fld := { page := .loss, off := 0x078, lo := 0, w := 1, acc := .w1s }

/-! Fields of the table of R295. -/

def DIG_CTRL : Fld := { page := .dig, off := 0x040, lo := 0, w := 1, acc := .rw, rst := 1 }
def DIG_INTERVAL : Fld := { page := .dig, off := 0x044, lo := 0, w := 16, acc := .rw, rst := 1, clamp := some (1, 65535) }
def DIG_WAIT : Fld := { page := .dig, off := 0x048, lo := 0, w := 8, acc := .rw, rst := 2, clamp := some (1, 255) }
def DIG_TABLE_LO : Fld := { page := .dig, off := 0x04C, lo := 5, w := 27, acc := .rwl }
def DIG_TABLE_HI : Fld := { page := .dig, off := 0x050, lo := 0, w := 10, acc := .rwl }
def DIG_SEL : Fld := { page := .dig, off := 0x054, lo := 0, w := 8, acc := .rw }
def DIG_SHARD_STATE_STATE : Fld := { page := .dig, off := 0x058, lo := 0, w := 3, acc := .ro }
def DIG_SHARD_STATE_STEP : Fld := { page := .dig, off := 0x058, lo := 8, w := 24, acc := .ro }
def DIG_SHARD_DIGEST_LO : Fld := { page := .dig, off := 0x05C, lo := 0, w := 32, acc := .ro }
def DIG_SHARD_DIGEST_HI : Fld := { page := .dig, off := 0x060, lo := 0, w := 32, acc := .ro }
def DIG_MATCH_CNT : Fld := { page := .dig, off := 0x064, lo := 0, w := 32, acc := .ro }
def DIG_MISMATCH_CNT : Fld := { page := .dig, off := 0x068, lo := 0, w := 32, acc := .ro }
def DIG_REPAIR_CNT : Fld := { page := .dig, off := 0x06C, lo := 0, w := 32, acc := .ro }
def DIG_SERVE_CNT : Fld := { page := .dig, off := 0x070, lo := 0, w := 32, acc := .ro }
def DIG_UNDECIDED_CNT : Fld := { page := .dig, off := 0x074, lo := 0, w := 32, acc := .ro }

/-! Fields of the table of R357. -/

def NLNK_STATUS_LINK : Fld := { page := .nlnk, off := 0x040, lo := 0, w := 3, acc := .ro }
def NLNK_STATUS_LANES : Fld := { page := .nlnk, off := 0x040, lo := 4, w := 8, acc := .ro }
def NLNK_STATUS_WIDTH : Fld := { page := .nlnk, off := 0x040, lo := 12, w := 4, acc := .ro }
def NLNK_STATUS_SWITCH : Fld := { page := .nlnk, off := 0x040, lo := 16, w := 1, acc := .ro }
def NLNK_CTRL_TRAIN : Fld := { page := .nlnk, off := 0x044, lo := 0, w := 1, acc := .rw, rst := 1 }
def NLNK_CTRL_FORCE4 : Fld := { page := .nlnk, off := 0x044, lo := 1, w := 1, acc := .rw }
def NLNK_CABLE : Fld := { page := .nlnk, off := 0x048, lo := 0, w := 16, acc := .ro }
def NLNK_DELAY : Fld := { page := .nlnk, off := 0x04C, lo := 0, w := 24, acc := .ro }
def NLNK_PROP_PS_PER_CM : Fld := { page := .nlnk, off := 0x050, lo := 0, w := 8, acc := .rw, rst := 50 }
def NLNK_PROP_FROM_CABLE : Fld := { page := .nlnk, off := 0x050, lo := 8, w := 1, acc := .ro }
def NLNK_LOAD_MA : Fld := { page := .nlnk, off := 0x054, lo := 0, w := 12, acc := .ro, rd := 29 }
def NLNK_LOAD_ON : Fld := { page := .nlnk, off := 0x054, lo := 12, w := 1, acc := .ro }
def NLNK_LOAD_TRIPPED : Fld := { page := .nlnk, off := 0x054, lo := 13, w := 1, acc := .ro }
def NLNK_LOAD_CTRL_EN : Fld := { page := .nlnk, off := 0x058, lo := 0, w := 1, acc := .rw, rst := 1 }
def NLNK_LOAD_CTRL_RETRY : Fld := { page := .nlnk, off := 0x058, lo := 1, w := 1, acc := .w1s }
def NLNK_PARTNER_LO : Fld := { page := .nlnk, off := 0x05C, lo := 0, w := 32, acc := .ro }
def NLNK_PARTNER_HI : Fld := { page := .nlnk, off := 0x060, lo := 0, w := 32, acc := .ro }
def NLNK_MIN_SECVER : Fld := { page := .nlnk, off := 0x064, lo := 0, w := 32, acc := .rwl }
def NLNK_REPLAY_CTRL_MAX : Fld := { page := .nlnk, off := 0x068, lo := 0, w := 4, acc := .rw, rst := 8, clamp := some (1, 15) }
def NLNK_REPLAY_CTRL_TO_NS : Fld := { page := .nlnk, off := 0x068, lo := 16, w := 16, acc := .rw, rst := 2000, clamp := some (500, 65535) }
def NLNK_BP_CTRL : Fld := { page := .nlnk, off := 0x06C, lo := 0, w := 16, acc := .rw, rst := 100, clamp := some (1, 65535) }
def NLNK_RATE_TX : Fld := { page := .nlnk, off := 0x070, lo := 0, w := 4, acc := .ro, rst := 8 }
def NLNK_RATE_RX : Fld := { page := .nlnk, off := 0x070, lo := 4, w := 4, acc := .ro, rst := 8 }
def NLNK_BP_CNT_LO : Fld := { page := .nlnk, off := 0x074, lo := 0, w := 32, acc := .ro }
def NLNK_BP_CNT_HI : Fld := { page := .nlnk, off := 0x078, lo := 0, w := 32, acc := .ro }
def NLNK_FEC_CORR_LO : Fld := { page := .nlnk, off := 0x07C, lo := 0, w := 32, acc := .ro }
def NLNK_FEC_CORR_HI : Fld := { page := .nlnk, off := 0x080, lo := 0, w := 32, acc := .ro }
def NLNK_CRC_ERR_CNT : Fld := { page := .nlnk, off := 0x084, lo := 0, w := 32, acc := .ro }
def NLNK_REPLAY_CNT : Fld := { page := .nlnk, off := 0x088, lo := 0, w := 32, acc := .ro }
def NLNK_RETRAIN_CNT : Fld := { page := .nlnk, off := 0x08C, lo := 0, w := 32, acc := .ro }
def NLNK_LANE_FAIL_CNT : Fld := { page := .nlnk, off := 0x090, lo := 0, w := 32, acc := .ro }
def NLNK_CREDIT_GRANTED : Fld := { page := .nlnk, off := 0x0A0, lo := 0, w := 13, acc := .ro, cnt := 8, stride := 4 }
def NLNK_CREDIT_AVAIL : Fld := { page := .nlnk, off := 0x0A0, lo := 16, w := 13, acc := .ro, cnt := 8, stride := 4 }

/-! Fields of the table of R359. -/

def NRED_GRP_BASE_LO : Fld := { page := .nred, off := 0x040, lo := 8, w := 24, acc := .rwl, shared := true }
def NRED_GRP_BASE_HI : Fld := { page := .nred, off := 0x044, lo := 0, w := 10, acc := .rwl, shared := true }
def NRED_ROUTE_BASE_LO : Fld := { page := .nred, off := 0x048, lo := 12, w := 20, acc := .rwl, shared := true }
def NRED_ROUTE_BASE_HI : Fld := { page := .nred, off := 0x04C, lo := 0, w := 10, acc := .rwl, shared := true }
def NRED_SITE_RANK : Fld := { page := .nred, off := 0x050, lo := 0, w := 14, acc := .rwl, shared := true }
def NRED_POST_BASE_LO : Fld := { page := .nred, off := 0x054, lo := 6, w := 26, acc := .rwl, shared := true }
def NRED_POST_BASE_HI : Fld := { page := .nred, off := 0x058, lo := 0, w := 10, acc := .rwl, shared := true }
def NRED_POST_SIZE : Fld := { page := .nred, off := 0x05C, lo := 0, w := 4, acc := .rwl, rst := 8, shared := true, clamp := some (4, 12) }
def NRED_POST_PUT : Fld := { page := .nred, off := 0x060, lo := 0, w := 16, acc := .rw, shared := true }
def NRED_POST_GET : Fld := { page := .nred, off := 0x064, lo := 0, w := 16, acc := .ro, shared := true }
def NRED_CLOSE : Fld := { page := .nred, off := 0x068, lo := 0, w := 8, acc := .rw, shared := true }
def NRED_STEP_STEP : Fld := { page := .nred, off := 0x06C, lo := 0, w := 24, acc := .ro, shared := true }
def NRED_STEP_ATTEMPT : Fld := { page := .nred, off := 0x06C, lo := 24, w := 8, acc := .ro, shared := true }
def NRED_ABORT_GO : Fld := { page := .nred, off := 0x070, lo := 0, w := 1, acc := .w1s, shared := true }
def NRED_ABORT_EXHAUSTED : Fld := { page := .nred, off := 0x070, lo := 1, w := 1, acc := .ro, shared := true }
def NRED_ABORT_CNT : Fld := { page := .nred, off := 0x074, lo := 0, w := 32, acc := .ro, shared := true }
def NRED_LATE_ABORT_CNT : Fld := { page := .nred, off := 0x078, lo := 0, w := 32, acc := .ro, shared := true }
def NRED_OPEN_OPEN : Fld := { page := .nred, off := 0x07C, lo := 0, w := 7, acc := .ro }
def NRED_OPEN_PEAK : Fld := { page := .nred, off := 0x07C, lo := 8, w := 7, acc := .ro }
def NRED_SLOTS_HELD : Fld := { page := .nred, off := 0x080, lo := 0, w := 5, acc := .ro }
def NRED_SLOTS_CREDITS : Fld := { page := .nred, off := 0x080, lo := 8, w := 5, acc := .ro }
def NRED_SLOTS_GRANT : Fld := { page := .nred, off := 0x080, lo := 16, w := 5, acc := .rw, rst := 3 }
def NRED_STALE_CNT : Fld := { page := .nred, off := 0x084, lo := 0, w := 32, acc := .ro }
def NRED_HANDOVER_ERR_CNT : Fld := { page := .nred, off := 0x088, lo := 0, w := 32, acc := .ro }
def NRED_DISCARD_CNT : Fld := { page := .nred, off := 0x08C, lo := 0, w := 32, acc := .ro }
def NRED_CODED_RETRY_CNT : Fld := { page := .nred, off := 0x090, lo := 0, w := 32, acc := .ro }
def NRED_SW_WINDOW : Fld := { page := .nred, off := 0x094, lo := 0, w := 6, acc := .rw, rst := 16, clamp := some (1, 63) }
def NRED_SW_BAD_CNT : Fld := { page := .nred, off := 0x098, lo := 0, w := 32, acc := .ro }

/-! Fields of the table of R380. -/

def NCOD_STATUS_ENC_BUSY : Fld := { page := .ncod, off := 0x040, lo := 0, w := 6, acc := .ro }
def NCOD_STATUS_DEC_BUSY : Fld := { page := .ncod, off := 0x040, lo := 8, w := 6, acc := .ro }
def NCOD_STATUS_BUILDS : Fld := { page := .ncod, off := 0x040, lo := 16, w := 5, acc := .ro }
def NCOD_RETRY_MAX : Fld := { page := .ncod, off := 0x044, lo := 0, w := 3, acc := .rw, rst := 3 }
def NCOD_EF_TABLE_LO : Fld := { page := .ncod, off := 0x048, lo := 5, w := 27, acc := .rwl, shared := true }
def NCOD_EF_TABLE_HI : Fld := { page := .ncod, off := 0x04C, lo := 0, w := 16, acc := .rwl, shared := true }
def NCOD_ENC_CODED_CNT : Fld := { page := .ncod, off := 0x050, lo := 0, w := 32, acc := .ro }
def NCOD_ENC_STORED_CNT : Fld := { page := .ncod, off := 0x054, lo := 0, w := 32, acc := .ro }
def NCOD_ENC_CONST_CNT : Fld := { page := .ncod, off := 0x058, lo := 0, w := 32, acc := .ro }
def NCOD_DEC_CNT : Fld := { page := .ncod, off := 0x05C, lo := 0, w := 32, acc := .ro }
def NCOD_DAMAGED_CNT : Fld := { page := .ncod, off := 0x060, lo := 0, w := 32, acc := .ro }
def NCOD_RETRY_FAIL_CNT : Fld := { page := .ncod, off := 0x064, lo := 0, w := 32, acc := .ro }
def NCOD_CLAMP_CNT : Fld := { page := .ncod, off := 0x068, lo := 0, w := 32, acc := .ro }
def NCOD_NONFINITE_CNT : Fld := { page := .ncod, off := 0x06C, lo := 0, w := 32, acc := .ro }
def NCOD_RAW_IN_LO : Fld := { page := .ncod, off := 0x070, lo := 0, w := 32, acc := .ro }
def NCOD_RAW_IN_HI : Fld := { page := .ncod, off := 0x074, lo := 0, w := 32, acc := .ro }
def NCOD_CODED_OUT_LO : Fld := { page := .ncod, off := 0x078, lo := 0, w := 32, acc := .ro }
def NCOD_CODED_OUT_HI : Fld := { page := .ncod, off := 0x07C, lo := 0, w := 32, acc := .ro }
def FCOD_JOB_BASE_LO : Fld := { page := .fcod, off := 0x080, lo := 6, w := 26, acc := .rwl }
def FCOD_JOB_BASE_HI : Fld := { page := .fcod, off := 0x084, lo := 0, w := 16, acc := .rwl }
def FCOD_JOB_SIZE : Fld := { page := .fcod, off := 0x088, lo := 0, w := 4, acc := .rwl, rst := 6, clamp := some (4, 12) }
def FCOD_JOB_PUT : Fld := { page := .fcod, off := 0x08C, lo := 0, w := 16, acc := .rw }
def FCOD_JOB_GET : Fld := { page := .fcod, off := 0x090, lo := 0, w := 16, acc := .ro }

/-! Fields of the table of R409. -/

def FMAC_STATUS_LINK : Fld := { page := .fmac, off := 0x040, lo := 0, w := 1, acc := .ro }
def FMAC_STATUS_LANES : Fld := { page := .fmac, off := 0x040, lo := 1, w := 4, acc := .ro }
def FMAC_CTRL_EN : Fld := { page := .fmac, off := 0x044, lo := 0, w := 1, acc := .rw, rst := 1 }
def FMAC_CTRL_LOOPBACK : Fld := { page := .fmac, off := 0x044, lo := 1, w := 1, acc := .rw }
def FMAC_ADDR_LO : Fld := { page := .fmac, off := 0x048, lo := 0, w := 32, acc := .ro }
def FMAC_ADDR_HI : Fld := { page := .fmac, off := 0x04C, lo := 0, w := 16, acc := .ro }
def FMAC_FEC_CORR_LO : Fld := { page := .fmac, off := 0x050, lo := 0, w := 32, acc := .ro }
def FMAC_FEC_CORR_HI : Fld := { page := .fmac, off := 0x054, lo := 0, w := 32, acc := .ro }
def FMAC_FEC_UNCORR_CNT : Fld := { page := .fmac, off := 0x058, lo := 0, w := 32, acc := .ro }
def FMAC_RX_FRAMES_LO : Fld := { page := .fmac, off := 0x05C, lo := 0, w := 32, acc := .ro }
def FMAC_RX_FRAMES_HI : Fld := { page := .fmac, off := 0x060, lo := 0, w := 32, acc := .ro }
def FMAC_TX_FRAMES_LO : Fld := { page := .fmac, off := 0x064, lo := 0, w := 32, acc := .ro }
def FMAC_TX_FRAMES_HI : Fld := { page := .fmac, off := 0x068, lo := 0, w := 32, acc := .ro }
def FMAC_RX_BAD_CNT : Fld := { page := .fmac, off := 0x06C, lo := 0, w := 32, acc := .ro }
def FMAC_PAUSE_CNT : Fld := { page := .fmac, off := 0x070, lo := 0, w := 32, acc := .ro }

/-! Fields of the table of R410. -/

def FXP_CTRL_EN : Fld := { page := .fxp, off := 0x040, lo := 0, w := 1, acc := .rw, shared := true }
def FXP_CTRL_JOIN : Fld := { page := .fxp, off := 0x040, lo := 1, w := 1, acc := .w1s, shared := true }
def FXP_CTRL_PRIMARY : Fld := { page := .fxp, off := 0x040, lo := 2, w := 1, acc := .rw, shared := true }
def FXP_SITE : Fld := { page := .fxp, off := 0x044, lo := 0, w := 3, acc := .rwl, shared := true }
def FXP_KEEPER_SITE : Fld := { page := .fxp, off := 0x048, lo := 0, w := 3, acc := .rw, shared := true }
def FXP_KEEPER_FROM_ROUND : Fld := { page := .fxp, off := 0x048, lo := 8, w := 24, acc := .rw, shared := true }
def FXP_ROUND : Fld := { page := .fxp, off := 0x04C, lo := 0, w := 24, acc := .rw, shared := true }
def FXP_PEER_BASE_LO : Fld := { page := .fxp, off := 0x050, lo := 7, w := 25, acc := .rwl, shared := true }
def FXP_PEER_BASE_HI : Fld := { page := .fxp, off := 0x054, lo := 0, w := 16, acc := .rwl, shared := true }
def FXP_SQ_BASE_LO : Fld := { page := .fxp, off := 0x058, lo := 5, w := 27, acc := .rwl, shared := true }
def FXP_SQ_BASE_HI : Fld := { page := .fxp, off := 0x05C, lo := 0, w := 16, acc := .rwl, shared := true }
def FXP_SQ_SIZE : Fld := { page := .fxp, off := 0x060, lo := 0, w := 4, acc := .rwl, rst := 6, shared := true, clamp := some (4, 12) }
def FXP_SQ_PUT : Fld := { page := .fxp, off := 0x064, lo := 0, w := 16, acc := .rw, shared := true }
def FXP_SQ_GET : Fld := { page := .fxp, off := 0x068, lo := 0, w := 16, acc := .ro, shared := true }
def FXP_CQ_BASE_LO : Fld := { page := .fxp, off := 0x06C, lo := 5, w := 27, acc := .rwl, shared := true }
def FXP_CQ_BASE_HI : Fld := { page := .fxp, off := 0x070, lo := 0, w := 16, acc := .rwl, shared := true }
def FXP_CQ_SIZE : Fld := { page := .fxp, off := 0x074, lo := 0, w := 4, acc := .rwl, rst := 8, shared := true, openR := some (4, 12) }
def FXP_CQ_PUT : Fld := { page := .fxp, off := 0x078, lo := 0, w := 16, acc := .ro, shared := true }
def FXP_CQ_GET : Fld := { page := .fxp, off := 0x07C, lo := 0, w := 16, acc := .rw, shared := true }
def FXP_STORE_BASE_LO : Fld := { page := .fxp, off := 0x080, lo := 16, w := 16, acc := .rwl, shared := true }
def FXP_STORE_BASE_HI : Fld := { page := .fxp, off := 0x084, lo := 0, w := 16, acc := .rwl, shared := true }
def FXP_STORE_GIB_SEND : Fld := { page := .fxp, off := 0x088, lo := 0, w := 6, acc := .rwl, rst := 16, shared := true, openR := some (1, 47) }
def FXP_STORE_GIB_RECV : Fld := { page := .fxp, off := 0x088, lo := 8, w := 6, acc := .rwl, rst := 16, shared := true, openR := some (1, 47) }
def FXP_STORE_USED_SEND : Fld := { page := .fxp, off := 0x08C, lo := 0, w := 10, acc := .ro, shared := true }
def FXP_STORE_USED_RECV : Fld := { page := .fxp, off := 0x08C, lo := 16, w := 10, acc := .ro, shared := true }
def FXP_RX_FREE : Fld := { page := .fxp, off := 0x090, lo := 0, w := 32, acc := .wo, shared := true }
def FXP_STALE : Fld := { page := .fxp, off := 0x094, lo := 0, w := 2, acc := .rw, rst := 1, shared := true }
def FXP_LATE_WEIGHT : Fld := { page := .fxp, off := 0x098, lo := 0, w := 32, acc := .rw, rst := 1056964608, shared := true }
def FXP_CLOSE_MS : Fld := { page := .fxp, off := 0x09C, lo := 0, w := 16, acc := .rw, rst := 10000, shared := true, clamp := some (1, 65535) }
def FXP_JOURNAL_BASE_LO : Fld := { page := .fxp, off := 0x0A0, lo := 6, w := 26, acc := .rwl, shared := true }
def FXP_JOURNAL_BASE_HI : Fld := { page := .fxp, off := 0x0A4, lo := 0, w := 16, acc := .rwl, shared := true }
def FXP_PEER_SEL : Fld := { page := .fxp, off := 0x0A8, lo := 0, w := 3, acc := .rw, shared := true }
def FXP_ROUTE : Fld := { page := .fxp, off := 0x0AC, lo := 0, w := 3, acc := .ro }
def FXP_SRTT : Fld := { page := .fxp, off := 0x0B0, lo := 0, w := 32, acc := .ro }
def FXP_RTTVAR : Fld := { page := .fxp, off := 0x0B4, lo := 0, w := 32, acc := .ro }
def FXP_RTO : Fld := { page := .fxp, off := 0x0B8, lo := 0, w := 32, acc := .ro }
def FXP_ROUTE_LOST_CNT : Fld := { page := .fxp, off := 0x0BC, lo := 0, w := 32, acc := .ro }
def FXP_FAILOVER_CNT : Fld := { page := .fxp, off := 0x0C0, lo := 0, w := 32, acc := .ro }
def FXP_RESEND_CNT : Fld := { page := .fxp, off := 0x0C4, lo := 0, w := 32, acc := .ro }
def FXP_DUP_CNT : Fld := { page := .fxp, off := 0x0C8, lo := 0, w := 32, acc := .ro }
def FXP_PKT_DROP_CNT : Fld := { page := .fxp, off := 0x0CC, lo := 0, w := 32, acc := .ro }
def FXP_LATE_CNT : Fld := { page := .fxp, off := 0x0D0, lo := 0, w := 32, acc := .ro, shared := true }
def FXP_STALE_DROP_CNT : Fld := { page := .fxp, off := 0x0D4, lo := 0, w := 32, acc := .ro, shared := true }
def FXP_MANIFEST_CNT : Fld := { page := .fxp, off := 0x0D8, lo := 0, w := 32, acc := .ro, shared := true }
def FXP_SEND_WAIT_CNT : Fld := { page := .fxp, off := 0x0DC, lo := 0, w := 32, acc := .ro, shared := true }

/-! Fields of the table of R435. -/

def PWC_STATE_STATE : Fld := { page := .pwc, off := 0x040, lo := 0, w := 2, acc := .ro }
def PWC_STATE_UNTRUSTED : Fld := { page := .pwc, off := 0x040, lo := 2, w := 1, acc := .ro }
def PWC_STATE_THROTTLE : Fld := { page := .pwc, off := 0x040, lo := 3, w := 1, acc := .ro }
def PWC_EFF_CAP : Fld := { page := .pwc, off := 0x044, lo := 0, w := 12, acc := .ro, rst := 2500 }
def PWC_POWER_EST_W : Fld := { page := .pwc, off := 0x048, lo := 0, w := 16, acc := .ro }
def PWC_POWER_MEAS_W : Fld := { page := .pwc, off := 0x048, lo := 16, w := 16, acc := .ro }
def PWC_ETA : Fld := { page := .pwc, off := 0x04C, lo := 0, w := 10, acc := .rw, rst := 900, clamp := some (800, 990) }
def PWC_CTRL_LEARN : Fld := { page := .pwc, off := 0x050, lo := 0, w := 1, acc := .rw, rst := 1 }
def PWC_CTRL_FAST : Fld := { page := .pwc, off := 0x050, lo := 1, w := 1, acc := .rw, rst := 1 }
def PWC_SHIFT_CTRL_SLACK_HI : Fld := { page := .pwc, off := 0x054, lo := 0, w := 8, acc := .rw, rst := 32 }
def PWC_SHIFT_CTRL_SLACK_LO : Fld := { page := .pwc, off := 0x054, lo := 8, w := 8, acc := .rw, rst := 4 }
def PWC_SHIFT_CTRL_STEP_W : Fld := { page := .pwc, off := 0x054, lo := 16, w := 6, acc := .rw, rst := 5, clamp := some (1, 50) }
def PWC_SLACK : Fld := { page := .pwc, off := 0x058, lo := 0, w := 9, acc := .ro }
def PWC_THERM_MAX_TEMP : Fld := { page := .pwc, off := 0x05C, lo := 0, w := 16, acc := .ro }
def PWC_THERM_MAX_SENSOR : Fld := { page := .pwc, off := 0x05C, lo := 16, w := 8, acc := .ro }
def PWC_THROTTLE_CNT : Fld := { page := .pwc, off := 0x060, lo := 0, w := 32, acc := .ro }
def PWC_UNTRUSTED_CNT : Fld := { page := .pwc, off := 0x064, lo := 0, w := 32, acc := .ro }
def PWC_FAST_CNT : Fld := { page := .pwc, off := 0x068, lo := 0, w := 32, acc := .ro }
def PWC_DIE_BUBBLES_TOTAL : Fld := { page := .pwc, off := 0x080, lo := 0, w := 6, acc := .ro, cnt := 4, stride := 16 }
def PWC_DIE_BUBBLES_THERMAL : Fld := { page := .pwc, off := 0x080, lo := 8, w := 6, acc := .ro, cnt := 4, stride := 16 }
def PWC_LEAVE_WAIT : Fld := { page := .pwc, off := 0x084, lo := 0, w := 32, acc := .ro, cnt := 4, stride := 16 }
def PWC_LEAVE_GRANT_LO : Fld := { page := .pwc, off := 0x088, lo := 0, w := 32, acc := .ro, cnt := 4, stride := 16 }
def PWC_LEAVE_GRANT_HI : Fld := { page := .pwc, off := 0x08C, lo := 0, w := 32, acc := .ro, cnt := 4, stride := 16 }
def PWC_BAL : Fld := { page := .pwc, off := 0x0C0, lo := 0, w := 16, acc := .ro, cnt := 8, stride := 4 }
def PWC_PHASE_TAB : Fld := { page := .pwc, off := 0x100, lo := 0, w := 16, acc := .rw, cnt := 64, stride := 4 }

/-! Fields of the table of R436. -/

def TEL_WINDOW : Fld := { page := .tel, off := 0x040, lo := 0, w := 32, acc := .ro }
def TEL_ENERGY : Fld := { page := .tel, off := 0x044, lo := 0, w := 32, acc := .ro, rd := 13 }
def TEL_ENERGY_TOT_LO : Fld := { page := .tel, off := 0x048, lo := 0, w := 32, acc := .ro, rd := 13 }
def TEL_ENERGY_TOT_HI : Fld := { page := .tel, off := 0x04C, lo := 0, w := 32, acc := .ro, rd := 13 }
def TEL_VIN_MV : Fld := { page := .tel, off := 0x050, lo := 0, w := 16, acc := .ro, rd := 13 }
def TEL_VIN_MIN_MV : Fld := { page := .tel, off := 0x050, lo := 16, w := 16, acc := .ro, rd := 13 }
def TEL_V3P3 : Fld := { page := .tel, off := 0x054, lo := 0, w := 16, acc := .ro, rd := 13 }
def TEL_CAP : Fld := { page := .tel, off := 0x058, lo := 0, w := 12, acc := .rw, rst := 2500, rd := 13, wr := 4, clamp := some (800, 2500) }
def TEL_GROUP_GROUP : Fld := { page := .tel, off := 0x05C, lo := 0, w := 8, acc := .rw, rd := 13, wr := 4 }
def TEL_GROUP_SHIFT_MAX : Fld := { page := .tel, off := 0x05C, lo := 8, w := 10, acc := .rw, rst := 200, rd := 13, wr := 4, openR := some (0, 800) }
def TEL_STATUS_LEAK : Fld := { page := .tel, off := 0x060, lo := 0, w := 1, acc := .ro, rd := 13 }
def TEL_STATUS_INLET_RANGE : Fld := { page := .tel, off := 0x060, lo := 1, w := 1, acc := .ro, rd := 13 }
def TEL_STATUS_UNTRUSTED : Fld := { page := .tel, off := 0x060, lo := 2, w := 1, acc := .ro, rd := 13 }
def TEL_STATUS_SUPPLY_WARN : Fld := { page := .tel, off := 0x060, lo := 3, w := 1, acc := .ro, rd := 13 }
def TEL_STATUS_ALERT : Fld := { page := .tel, off := 0x060, lo := 4, w := 1, acc := .ro, rd := 13 }
def TEL_SUPPLY_WARN_CNT : Fld := { page := .tel, off := 0x064, lo := 0, w := 32, acc := .ro, rd := 13 }
def TEL_ALERT_CNT : Fld := { page := .tel, off := 0x068, lo := 0, w := 32, acc := .ro, rd := 13 }
def TEL_TRIP_CNT : Fld := { page := .tel, off := 0x06C, lo := 0, w := 32, acc := .ro, rd := 13 }
def TEL_UNTRUSTED_CNT : Fld := { page := .tel, off := 0x070, lo := 0, w := 32, acc := .ro, rd := 13 }
def TEL_TEMP : Fld := { page := .tel, off := 0x080, lo := 0, w := 16, acc := .ro, cnt := 22, stride := 4, rd := 13 }
def TEL_LOAD : Fld := { page := .tel, off := 0x0E0, lo := 0, w := 12, acc := .ro, cnt := 8, stride := 4, rd := 13 }

/-! Fields of the table of R456. -/

def BOOT_STATUS_PHASE : Fld := { page := .boot, off := 0x040, lo := 0, w := 3, acc := .ro }
def BOOT_STATUS_FALLBACK : Fld := { page := .boot, off := 0x040, lo := 3, w := 1, acc := .ro }
def BOOT_STATUS_WARM : Fld := { page := .boot, off := 0x040, lo := 4, w := 1, acc := .ro }
def BOOT_BUDGET : Fld := { page := .boot, off := 0x044, lo := 0, w := 12, acc := .rw, rst := 600, wr := 5, clamp := some (300, 2500) }
def BOOT_TEMP_MAX : Fld := { page := .boot, off := 0x048, lo := 0, w := 8, acc := .rw, rst := 85, wr := 5, openR := some (60, 100) }
def BOOT_USED : Fld := { page := .boot, off := 0x04C, lo := 0, w := 12, acc := .ro }
def BOOT_TIME : Fld := { page := .boot, off := 0x050, lo := 0, w := 32, acc := .ro }
def BOOT_RESET : Fld := { page := .boot, off := 0x054, lo := 0, w := 1, acc := .w1s }
def BOOT_SHUTDOWN : Fld := { page := .boot, off := 0x058, lo := 0, w := 1, acc := .w1s }
def BOOT_BIST_CMD_ACTION : Fld := { page := .boot, off := 0x05C, lo := 0, w := 2, acc := .wo }
def BOOT_BIST_CMD_KIND : Fld := { page := .boot, off := 0x05C, lo := 8, w := 2, acc := .wo }
def BOOT_BIST_CMD_INSTANCE : Fld := { page := .boot, off := 0x05C, lo := 16, w := 16, acc := .wo }
def BOOT_BIST_STATUS_STATE : Fld := { page := .boot, off := 0x060, lo := 0, w := 3, acc := .ro }
def BOOT_BIST_STATUS_KIND : Fld := { page := .boot, off := 0x060, lo := 8, w := 2, acc := .ro }
def BOOT_BIST_STATUS_INSTANCE : Fld := { page := .boot, off := 0x060, lo := 16, w := 16, acc := .ro }
def BOOT_SPARES_LEFT : Fld := { page := .boot, off := 0x064, lo := 0, w := 8, acc := .ro }
def BOOT_SPARES_RETIRED : Fld := { page := .boot, off := 0x064, lo := 8, w := 8, acc := .ro }
def BOOT_LAST_RESET : Fld := { page := .boot, off := 0x068, lo := 0, w := 4, acc := .ro }
def BOOT_WARM_CNT : Fld := { page := .boot, off := 0x06C, lo := 0, w := 32, acc := .ro }
def BOOT_ENABLED : Fld := { page := .boot, off := 0x080, lo := 0, w := 32, acc := .ro, cnt := 4, stride := 8, cnt2 := 2, stride2 := 4, rd := 11 }
def BOOT_RETIRED : Fld := { page := .boot, off := 0x0A0, lo := 0, w := 32, acc := .ro, cnt := 4, stride := 8, cnt2 := 2, stride2 := 4, rd := 11 }

/-! Fields of the table of R457. -/

def WALE_STATUS_ROLE : Fld := { page := .wale, off := 0x040, lo := 0, w := 2, acc := .ro }
def WALE_STATUS_LAST_PASS : Fld := { page := .wale, off := 0x040, lo := 2, w := 1, acc := .ro }
def WALE_REQ_TEST : Fld := { page := .wale, off := 0x044, lo := 0, w := 1, acc := .w1s, wr := 2 }
def WALE_REQ_RETIRE : Fld := { page := .wale, off := 0x044, lo := 1, w := 1, acc := .w1s, wr := 2 }
def WALE_TEST_CNT : Fld := { page := .wale, off := 0x048, lo := 0, w := 32, acc := .ro }

/-! Fields of the table of R458. -/

def HOOP_MIGRATE_GO : Fld := { page := .hoop, off := 0x050, lo := 0, w := 1, acc := .w1s }
def HOOP_MIGRATE_BUSY : Fld := { page := .hoop, off := 0x050, lo := 1, w := 1, acc := .ro }

/-! Fields of the table of R459. -/

def HOOP_G_CORES : Fld := { page := .hoopg, off := 0x040, lo := 0, w := 32, acc := .ro }
def HOOP_G_PARKED : Fld := { page := .hoopg, off := 0x044, lo := 0, w := 32, acc := .w1s }
def HOOP_G_RETURNED : Fld := { page := .hoopg, off := 0x048, lo := 0, w := 32, acc := .ro }
def HOOP_G_CLAIM : Fld := { page := .hoopg, off := 0x04C, lo := 0, w := 32, acc := .w1s }
def HOOP_G_DQ_BASE_LO : Fld := { page := .hoopg, off := 0x050, lo := 7, w := 25, acc := .rwl }
def HOOP_G_DQ_BASE_HI : Fld := { page := .hoopg, off := 0x054, lo := 0, w := 16, acc := .rwl }
def HOOP_G_DQ_SIZE : Fld := { page := .hoopg, off := 0x058, lo := 0, w := 4, acc := .rwl, rst := 8, openR := some (4, 12) }
def HOOP_G_DQ_PUT : Fld := { page := .hoopg, off := 0x05C, lo := 0, w := 16, acc := .rw }
def HOOP_G_DQ_GET : Fld := { page := .hoopg, off := 0x060, lo := 0, w := 16, acc := .ro }
def HOOP_G_CQ_BASE_LO : Fld := { page := .hoopg, off := 0x064, lo := 4, w := 28, acc := .rwl }
def HOOP_G_CQ_BASE_HI : Fld := { page := .hoopg, off := 0x068, lo := 0, w := 16, acc := .rwl }
def HOOP_G_CQ_SIZE : Fld := { page := .hoopg, off := 0x06C, lo := 0, w := 4, acc := .rwl, rst := 8, openR := some (4, 12) }
def HOOP_G_CQ_PUT : Fld := { page := .hoopg, off := 0x070, lo := 0, w := 16, acc := .ro }
def HOOP_G_CQ_GET : Fld := { page := .hoopg, off := 0x074, lo := 0, w := 16, acc := .rw }
def HOOP_G_EVT_CTRL_EN : Fld := { page := .hoopg, off := 0x0A0, lo := 0, w := 1, acc := .rw }
def HOOP_G_EVT_CTRL_CORE : Fld := { page := .hoopg, off := 0x0A0, lo := 8, w := 5, acc := .rw }
def HOOP_G_EVT_CTRL_EIID : Fld := { page := .hoopg, off := 0x0A0, lo := 16, w := 11, acc := .rw }
def HOOP_G_EVT_BASE_LO : Fld := { page := .hoopg, off := 0x0A4, lo := 4, w := 28, acc := .rwl }
def HOOP_G_EVT_BASE_HI : Fld := { page := .hoopg, off := 0x0A8, lo := 0, w := 16, acc := .rwl }
def HOOP_G_EVT_SIZE : Fld := { page := .hoopg, off := 0x0AC, lo := 0, w := 4, acc := .rwl, rst := 8, openR := some (4, 12) }
def HOOP_G_EVT_PUT : Fld := { page := .hoopg, off := 0x0B0, lo := 0, w := 16, acc := .ro }
def HOOP_G_EVT_GET : Fld := { page := .hoopg, off := 0x0B4, lo := 0, w := 16, acc := .rw }
def HOOP_G_EVT_MERGED : Fld := { page := .hoopg, off := 0x0B8, lo := 0, w := 32, acc := .ro }

/-! Fields of the table of R482. -/

def RAK_STATUS_LINK : Fld := { page := .rak, off := 0x040, lo := 0, w := 2, acc := .ro }
def RAK_STATUS_SESSION : Fld := { page := .rak, off := 0x040, lo := 2, w := 2, acc := .ro }
def RAK_STATUS_BULK_OPEN : Fld := { page := .rak, off := 0x040, lo := 4, w := 5, acc := .ro }
def RAK_EVENT_CTRL : Fld := { page := .rak, off := 0x044, lo := 0, w := 1, acc := .rw, rst := 1 }
def RAK_SESSION_CNT : Fld := { page := .rak, off := 0x048, lo := 0, w := 32, acc := .ro }
def RAK_RX_FRAMES_LO : Fld := { page := .rak, off := 0x04C, lo := 0, w := 32, acc := .ro }
def RAK_RX_FRAMES_HI : Fld := { page := .rak, off := 0x050, lo := 0, w := 32, acc := .ro }
def RAK_TX_FRAMES_LO : Fld := { page := .rak, off := 0x054, lo := 0, w := 32, acc := .ro }
def RAK_TX_FRAMES_HI : Fld := { page := .rak, off := 0x058, lo := 0, w := 32, acc := .ro }
def RAK_CRC_ERR_CNT : Fld := { page := .rak, off := 0x05C, lo := 0, w := 32, acc := .ro }
def RAK_REPLAY_CNT : Fld := { page := .rak, off := 0x060, lo := 0, w := 32, acc := .ro }
def RAK_DROP_CNT : Fld := { page := .rak, off := 0x064, lo := 0, w := 32, acc := .ro }
def RAK_EVENT_MERGED : Fld := { page := .rak, off := 0x068, lo := 0, w := 32, acc := .ro }

/-! Fields of the table of R483. -/

def MGMT_STATUS_DYN_ADDR : Fld := { page := .mgmt, off := 0x040, lo := 0, w := 7, acc := .ro }
def MGMT_STATUS_ADDR_VALID : Fld := { page := .mgmt, off := 0x040, lo := 7, w := 1, acc := .ro }
def MGMT_STATUS_EID : Fld := { page := .mgmt, off := 0x040, lo := 8, w := 8, acc := .ro }
def MGMT_STATUS_RX_EID : Fld := { page := .mgmt, off := 0x040, lo := 16, w := 8, acc := .ro }
def MGMT_REQ_CNT : Fld := { page := .mgmt, off := 0x044, lo := 0, w := 32, acc := .ro }
def MGMT_ERR_CNT : Fld := { page := .mgmt, off := 0x048, lo := 0, w := 32, acc := .ro }
def MGMT_EVT_PEND : Fld := { page := .mgmt, off := 0x04C, lo := 0, w := 6, acc := .ro }

/-! Fields of the table of R266. -/

def SLOW_STATUS_TRAINED : Fld := { page := .slow, off := 0x040, lo := 0, w := 1, acc := .ro }
def SLOW_STATUS_SELF_REFRESH : Fld := { page := .slow, off := 0x040, lo := 1, w := 1, acc := .ro }
def SLOW_STATUS_SCRUB_BUSY : Fld := { page := .slow, off := 0x040, lo := 2, w := 1, acc := .ro }
def SLOW_STATUS_POPULATED : Fld := { page := .slow, off := 0x040, lo := 3, w := 1, acc := .ro }
def SLOW_SCRUB_CTRL_EN : Fld := { page := .slow, off := 0x044, lo := 0, w := 1, acc := .rw, rst := 1 }
def SLOW_SCRUB_CTRL_HOURS : Fld := { page := .slow, off := 0x044, lo := 8, w := 8, acc := .rw, rst := 24, clamp := some (1, 255) }
def SLOW_SCRUB_PASS_CNT : Fld := { page := .slow, off := 0x048, lo := 0, w := 32, acc := .ro }
def SLOW_CE_CNT : Fld := { page := .slow, off := 0x04C, lo := 0, w := 32, acc := .ro }
def SLOW_CE_PASS : Fld := { page := .slow, off := 0x050, lo := 0, w := 32, acc := .ro }
def SLOW_CE_THRESH : Fld := { page := .slow, off := 0x054, lo := 0, w := 32, acc := .rw, rst := 1000 }
def SLOW_UE_CNT : Fld := { page := .slow, off := 0x058, lo := 0, w := 32, acc := .ro }
def SLOW_SCRUB_UE_CNT : Fld := { page := .slow, off := 0x05C, lo := 0, w := 32, acc := .ro }
def SLOW_UE_ADDR_LO : Fld := { page := .slow, off := 0x060, lo := 0, w := 32, acc := .ro }
def SLOW_UE_ADDR_HI : Fld := { page := .slow, off := 0x064, lo := 0, w := 10, acc := .ro }

/-! Fields of the table of R380. -/

def FCOD_STATUS_ENC_BUSY : Fld := { page := .fcod, off := 0x040, lo := 0, w := 6, acc := .ro }
def FCOD_STATUS_DEC_BUSY : Fld := { page := .fcod, off := 0x040, lo := 8, w := 6, acc := .ro }
def FCOD_STATUS_BUILDS : Fld := { page := .fcod, off := 0x040, lo := 16, w := 5, acc := .ro }
def FCOD_ENC_CODED_CNT : Fld := { page := .fcod, off := 0x050, lo := 0, w := 32, acc := .ro }
def FCOD_ENC_STORED_CNT : Fld := { page := .fcod, off := 0x054, lo := 0, w := 32, acc := .ro }
def FCOD_ENC_CONST_CNT : Fld := { page := .fcod, off := 0x058, lo := 0, w := 32, acc := .ro }
def FCOD_DEC_CNT : Fld := { page := .fcod, off := 0x05C, lo := 0, w := 32, acc := .ro }
def FCOD_DAMAGED_CNT : Fld := { page := .fcod, off := 0x060, lo := 0, w := 32, acc := .ro }
def FCOD_RETRY_FAIL_CNT : Fld := { page := .fcod, off := 0x064, lo := 0, w := 32, acc := .ro }
def FCOD_CLAMP_CNT : Fld := { page := .fcod, off := 0x068, lo := 0, w := 32, acc := .ro }
def FCOD_NONFINITE_CNT : Fld := { page := .fcod, off := 0x06C, lo := 0, w := 32, acc := .ro }
def FCOD_RAW_IN_LO : Fld := { page := .fcod, off := 0x070, lo := 0, w := 32, acc := .ro }
def FCOD_RAW_IN_HI : Fld := { page := .fcod, off := 0x074, lo := 0, w := 32, acc := .ro }
def FCOD_CODED_OUT_LO : Fld := { page := .fcod, off := 0x078, lo := 0, w := 32, acc := .ro }
def FCOD_CODED_OUT_HI : Fld := { page := .fcod, off := 0x07C, lo := 0, w := 32, acc := .ro }

/-! Fields of the table of R263. -/

def HOOP_G_FQ_BASE_LO : Fld := { page := .hoopg, off := 0x080, lo := 12, w := 20, acc := .rw }
def HOOP_G_FQ_BASE_HI : Fld := { page := .hoopg, off := 0x084, lo := 0, w := 16, acc := .rw }
def HOOP_G_FQ_SIZE : Fld := { page := .hoopg, off := 0x088, lo := 0, w := 5, acc := .rwl, rst := 10, clamp := some (6, 16) }
def HOOP_G_FQ_PUT : Fld := { page := .hoopg, off := 0x08C, lo := 0, w := 32, acc := .ro }
def HOOP_G_FQ_GET : Fld := { page := .hoopg, off := 0x090, lo := 0, w := 32, acc := .rw }
def HOOP_G_FQ_WAIT : Fld := { page := .hoopg, off := 0x094, lo := 0, w := 16, acc := .ro }

end R

/-- The fields of the common header (R86). -/
def headerFields (p : Page) : List Fld :=
  [R.PG_IDENT_INSTANCE p, R.PG_IDENT_TYPE p, R.PG_VERSION_MINOR p, R.PG_VERSION_MAJOR p, R.PG_ACCESS_WRITE_CLASSES p, R.PG_ACCESS_READ_CLASSES p, R.PG_CTRL_ENABLE p, R.PG_CTRL_QUIESCE_REQ p, R.PG_CTRL_ISOLATE p, R.PG_CTRL_BLOCK_RESET p, R.PG_STATE_STATE p, R.PG_STATE_FORCED p, R.PG_EVENT_STATE_CHANGE p, R.PG_EVENT_ERROR p, R.PG_EVENT_QUIESCE_TIMEOUT p, R.PG_EVENT_CE p, R.PG_EVENT_BLOCK p, R.PG_EVENT_EN p, R.PG_ERR_FIRST_CLASS p, R.PG_ERR_FIRST_STEP p, R.PG_ERR_INFO0 p, R.PG_ERR_INFO1 p, R.PG_ERR_INFO2 p, R.PG_ERR_INFO3_MORE p, R.PG_ERR_INFO3_LAST p, R.PG_LOCK p, R.PG_SEQ p, R.PG_OWNER p, R.PG_SCRATCH p]

/-- The fields of a page body. -/
def bodyFields : Page → List Fld
  | .mod => [R.MOD_QUIESCE_US, R.MOD_DENIED_CNT, R.MOD_DENIED_LAST_CLASS, R.MOD_DENIED_LAST_PAGE]
  | .lid => [R.LID_OWN_STATE_STATE, R.LID_OWN_STATE_DEBUG_SCOPE, R.LID_OWN_EPOCH, R.LID_CLAIM_ARM, R.LID_CLAIM_LEFT, R.LID_ZERO_CTRL_FORCE_CLEAR, 
    R.LID_ZERO_CTRL_MEDIA, R.LID_ZERO_STATUS_STEP, R.LID_ZERO_STATUS_RESUMED, R.LID_DOMAIN_REKEY, R.LID_LOG_DOMAIN, R.LID_LOG_BASE_LO, 
    R.LID_LOG_BASE_HI, R.LID_LOG_SIZE, R.LID_FW_PENDING, R.LID_NEAR_REKEY_LOG2, R.LID_FAR_REKEY_S, R.LID_DEBUG_CLOSE, R.LID_AUTH_FAIL_CNT, 
    R.LID_STALE_EPOCH, R.LID_BOOT_COUNT, R.LID_LOG_PUT, R.LID_LOG_GET, R.LID_LOG_DROP_CNT]
  | .pwc => [R.PWC_STATE_STATE, R.PWC_STATE_UNTRUSTED, R.PWC_STATE_THROTTLE, R.PWC_EFF_CAP, R.PWC_POWER_EST_W, R.PWC_POWER_MEAS_W, R.PWC_ETA, 
    R.PWC_CTRL_LEARN, R.PWC_CTRL_FAST, R.PWC_SHIFT_CTRL_SLACK_HI, R.PWC_SHIFT_CTRL_SLACK_LO, R.PWC_SHIFT_CTRL_STEP_W, R.PWC_SLACK, 
    R.PWC_THERM_MAX_TEMP, R.PWC_THERM_MAX_SENSOR, R.PWC_THROTTLE_CNT, R.PWC_UNTRUSTED_CNT, R.PWC_FAST_CNT, R.PWC_DIE_BUBBLES_TOTAL, 
    R.PWC_DIE_BUBBLES_THERMAL, R.PWC_LEAVE_WAIT, R.PWC_LEAVE_GRANT_LO, R.PWC_LEAVE_GRANT_HI, R.PWC_BAL, R.PWC_PHASE_TAB]
  | .beat => [R.BEAT_PERIOD, R.BEAT_CTRL_STRICT, R.BEAT_CTRL_SYNC_EN, R.BEAT_CTRL_SYNC_OUT_EN, R.BEAT_SYNC_OFFSET, R.BEAT_LAG_MAX, 
    R.BEAT_SYNC_STATUS_STATE, R.BEAT_SYNC_STATUS_MISSING, R.BEAT_SYNC_STATUS_OUTLIER, R.BEAT_PHASE_ERR, R.BEAT_COUNT_LO, R.BEAT_COUNT_HI, 
    R.BEAT_OVERRUN_CNT, R.BEAT_SYNC_LOST_CNT, R.BEAT_SYNC_OUTLIER_CNT]
  | .boot => [R.BOOT_STATUS_PHASE, R.BOOT_STATUS_FALLBACK, R.BOOT_STATUS_WARM, R.BOOT_BUDGET, R.BOOT_TEMP_MAX, R.BOOT_USED, R.BOOT_TIME, R.BOOT_RESET, 
    R.BOOT_SHUTDOWN, R.BOOT_BIST_CMD_ACTION, R.BOOT_BIST_CMD_KIND, R.BOOT_BIST_CMD_INSTANCE, R.BOOT_BIST_STATUS_STATE, R.BOOT_BIST_STATUS_KIND, 
    R.BOOT_BIST_STATUS_INSTANCE, R.BOOT_SPARES_LEFT, R.BOOT_SPARES_RETIRED, R.BOOT_LAST_RESET, R.BOOT_WARM_CNT, R.BOOT_ENABLED, R.BOOT_RETIRED]
  | .tel => [R.TEL_WINDOW, R.TEL_ENERGY, R.TEL_ENERGY_TOT_LO, R.TEL_ENERGY_TOT_HI, R.TEL_VIN_MV, R.TEL_VIN_MIN_MV, R.TEL_V3P3, R.TEL_CAP, 
    R.TEL_GROUP_GROUP, R.TEL_GROUP_SHIFT_MAX, R.TEL_STATUS_LEAK, R.TEL_STATUS_INLET_RANGE, R.TEL_STATUS_UNTRUSTED, R.TEL_STATUS_SUPPLY_WARN, 
    R.TEL_STATUS_ALERT, R.TEL_SUPPLY_WARN_CNT, R.TEL_ALERT_CNT, R.TEL_TRIP_CNT, R.TEL_UNTRUSTED_CNT, R.TEL_TEMP, R.TEL_LOAD]
  | .loss => [R.LOSS_CTRL_EN, R.LOSS_CTRL_HOLD_EN, R.LOSS_CTRL_FOLD_SPIKES, R.LOSS_CTRL_RESET, R.LOSS_ALPHA, R.LOSS_K, R.LOSS_WARMUP, R.LOSS_STEP, 
    R.LOSS_MEAN, R.LOSS_VAR, R.LOSS_N, R.LOSS_LAST, R.LOSS_IN_CNT, R.LOSS_SPIKE_CNT, R.LOSS_NONFINITE_CNT, R.LOSS_FLAG_STEP, R.LOSS_FLAG_SPIKE, 
    R.LOSS_FLAG_NONFINITE, R.LOSS_FLAG_HELD, R.LOSS_FLAG_VALUE, R.LOSS_RELEASE]
  | .dig => [R.DIG_CTRL, R.DIG_INTERVAL, R.DIG_WAIT, R.DIG_TABLE_LO, R.DIG_TABLE_HI, R.DIG_SEL, R.DIG_SHARD_STATE_STATE, R.DIG_SHARD_STATE_STEP, 
    R.DIG_SHARD_DIGEST_LO, R.DIG_SHARD_DIGEST_HI, R.DIG_MATCH_CNT, R.DIG_MISMATCH_CNT, R.DIG_REPAIR_CNT, R.DIG_SERVE_CNT, R.DIG_UNDECIDED_CNT]
  | .hoop => [R.HOOP_MIGRATE_GO, R.HOOP_MIGRATE_BUSY]
  | .hoopg => [R.HOOP_G_CORES, R.HOOP_G_PARKED, R.HOOP_G_RETURNED, R.HOOP_G_CLAIM, R.HOOP_G_DQ_BASE_LO, R.HOOP_G_DQ_BASE_HI, R.HOOP_G_DQ_SIZE, 
    R.HOOP_G_DQ_PUT, R.HOOP_G_DQ_GET, R.HOOP_G_CQ_BASE_LO, R.HOOP_G_CQ_BASE_HI, R.HOOP_G_CQ_SIZE, R.HOOP_G_CQ_PUT, R.HOOP_G_CQ_GET, 
    R.HOOP_G_EVT_CTRL_EN, R.HOOP_G_EVT_CTRL_CORE, R.HOOP_G_EVT_CTRL_EIID, R.HOOP_G_EVT_BASE_LO, R.HOOP_G_EVT_BASE_HI, R.HOOP_G_EVT_SIZE, 
    R.HOOP_G_EVT_PUT, R.HOOP_G_EVT_GET, R.HOOP_G_EVT_MERGED, R.HOOP_G_FQ_BASE_LO, R.HOOP_G_FQ_BASE_HI, R.HOOP_G_FQ_SIZE, R.HOOP_G_FQ_PUT, 
    R.HOOP_G_FQ_GET, R.HOOP_G_FQ_WAIT]
  | .hbm => [R.HBM_STATUS_TRAINED, R.HBM_STATUS_SELF_REFRESH, R.HBM_STATUS_SCRUB_BUSY, R.HBM_STATUS_POPULATED, R.HBM_SCRUB_CTRL_EN, 
    R.HBM_SCRUB_CTRL_HOURS, R.HBM_SCRUB_PASS_CNT, R.HBM_CE_CNT, R.HBM_CE_PASS, R.HBM_CE_THRESH, R.HBM_UE_CNT, R.HBM_SCRUB_UE_CNT, 
    R.HBM_UE_ADDR_LO, R.HBM_UE_ADDR_HI]
  | .bank => [R.BANK_RING_BASE_LO, R.BANK_RING_BASE_HI, R.BANK_RING_SIZE, R.BANK_RING_PUT, R.BANK_RING_GET, R.BANK_CTRL_PAUSE, R.BANK_CTRL_GATE_CLR, 
    R.BANK_CMD, R.BANK_STATUS_STATE, R.BANK_STATUS_LAST, R.BANK_STATUS_CHUNK, R.BANK_REDUCED_STEP_STEP, R.BANK_REDUCED_STEP_VALID, 
    R.BANK_RETRY_MAX, R.BANK_CHUNKS_LO, R.BANK_CHUNKS_HI, R.BANK_REDO_CNT, R.BANK_ABORT_CNT, R.BANK_EXP_BASE_LO, R.BANK_EXP_BASE_HI, 
    R.BANK_EXP_SIZE, R.BANK_EXP_ROUTE, R.BANK_EXP_SEQ_LO, R.BANK_EXP_SEQ_HI, R.BANK_EXP_STALL_CNT, R.BANK_NF_GRAD, R.BANK_NF_MASTER, R.BANK_COEF]
  | .slow => [R.SLOW_STATUS_TRAINED, R.SLOW_STATUS_SELF_REFRESH, R.SLOW_STATUS_SCRUB_BUSY, R.SLOW_STATUS_POPULATED, R.SLOW_SCRUB_CTRL_EN, 
    R.SLOW_SCRUB_CTRL_HOURS, R.SLOW_SCRUB_PASS_CNT, R.SLOW_CE_CNT, R.SLOW_CE_PASS, R.SLOW_CE_THRESH, R.SLOW_UE_CNT, R.SLOW_SCRUB_UE_CNT, 
    R.SLOW_UE_ADDR_LO, R.SLOW_UE_ADDR_HI]
  | .nlnk => [R.NLNK_STATUS_LINK, R.NLNK_STATUS_LANES, R.NLNK_STATUS_WIDTH, R.NLNK_STATUS_SWITCH, R.NLNK_CTRL_TRAIN, R.NLNK_CTRL_FORCE4, R.NLNK_CABLE, 
    R.NLNK_DELAY, R.NLNK_PROP_PS_PER_CM, R.NLNK_PROP_FROM_CABLE, R.NLNK_LOAD_MA, R.NLNK_LOAD_ON, R.NLNK_LOAD_TRIPPED, R.NLNK_LOAD_CTRL_EN, 
    R.NLNK_LOAD_CTRL_RETRY, R.NLNK_PARTNER_LO, R.NLNK_PARTNER_HI, R.NLNK_MIN_SECVER, R.NLNK_REPLAY_CTRL_MAX, R.NLNK_REPLAY_CTRL_TO_NS, 
    R.NLNK_BP_CTRL, R.NLNK_RATE_TX, R.NLNK_RATE_RX, R.NLNK_BP_CNT_LO, R.NLNK_BP_CNT_HI, R.NLNK_FEC_CORR_LO, R.NLNK_FEC_CORR_HI, 
    R.NLNK_CRC_ERR_CNT, R.NLNK_REPLAY_CNT, R.NLNK_RETRAIN_CNT, R.NLNK_LANE_FAIL_CNT, R.NLNK_CREDIT_GRANTED, R.NLNK_CREDIT_AVAIL]
  | .nred => [R.NRED_GRP_BASE_LO, R.NRED_GRP_BASE_HI, R.NRED_ROUTE_BASE_LO, R.NRED_ROUTE_BASE_HI, R.NRED_SITE_RANK, R.NRED_POST_BASE_LO, 
    R.NRED_POST_BASE_HI, R.NRED_POST_SIZE, R.NRED_POST_PUT, R.NRED_POST_GET, R.NRED_CLOSE, R.NRED_STEP_STEP, R.NRED_STEP_ATTEMPT, 
    R.NRED_ABORT_GO, R.NRED_ABORT_EXHAUSTED, R.NRED_ABORT_CNT, R.NRED_LATE_ABORT_CNT, R.NRED_OPEN_OPEN, R.NRED_OPEN_PEAK, R.NRED_SLOTS_HELD, 
    R.NRED_SLOTS_CREDITS, R.NRED_SLOTS_GRANT, R.NRED_STALE_CNT, R.NRED_HANDOVER_ERR_CNT, R.NRED_DISCARD_CNT, R.NRED_CODED_RETRY_CNT, 
    R.NRED_SW_WINDOW, R.NRED_SW_BAD_CNT]
  | .ncod => [R.NCOD_STATUS_ENC_BUSY, R.NCOD_STATUS_DEC_BUSY, R.NCOD_STATUS_BUILDS, R.NCOD_RETRY_MAX, R.NCOD_EF_TABLE_LO, R.NCOD_EF_TABLE_HI, 
    R.NCOD_ENC_CODED_CNT, R.NCOD_ENC_STORED_CNT, R.NCOD_ENC_CONST_CNT, R.NCOD_DEC_CNT, R.NCOD_DAMAGED_CNT, R.NCOD_RETRY_FAIL_CNT, 
    R.NCOD_CLAMP_CNT, R.NCOD_NONFINITE_CNT, R.NCOD_RAW_IN_LO, R.NCOD_RAW_IN_HI, R.NCOD_CODED_OUT_LO, R.NCOD_CODED_OUT_HI]
  | .nkey => [R.NKEY_STATUS_SESSION, R.NKEY_STATUS_TX_TWO, R.NKEY_STATUS_RX_TWO, R.NKEY_TX_EPOCH, R.NKEY_RX_EPOCH, R.NKEY_SESSION_CNT, R.NKEY_REKEY_CNT, 
    R.NKEY_EPOCH_DROP_CNT, R.NKEY_TAG_FAIL_CNT, R.NKEY_SLOT]
  | .rak => [R.RAK_STATUS_LINK, R.RAK_STATUS_SESSION, R.RAK_STATUS_BULK_OPEN, R.RAK_EVENT_CTRL, R.RAK_SESSION_CNT, R.RAK_RX_FRAMES_LO, R.RAK_RX_FRAMES_HI, 
    R.RAK_TX_FRAMES_LO, R.RAK_TX_FRAMES_HI, R.RAK_CRC_ERR_CNT, R.RAK_REPLAY_CNT, R.RAK_DROP_CNT, R.RAK_EVENT_MERGED]
  | .mgmt => [R.MGMT_STATUS_DYN_ADDR, R.MGMT_STATUS_ADDR_VALID, R.MGMT_STATUS_EID, R.MGMT_STATUS_RX_EID, R.MGMT_REQ_CNT, R.MGMT_ERR_CNT, R.MGMT_EVT_PEND]
  | .xlt => [R.XLT_ROOT_LO_VALID, R.XLT_ROOT_LO_ADDR, R.XLT_ROOT_HI, R.XLT_PT_DOMAIN, R.XLT_INVAL_VA_LO, R.XLT_INVAL_VA_HI, R.XLT_INVAL_CMD_SCOPE, 
    R.XLT_INVAL_CMD_PAGES, R.XLT_INVAL_STATUS_BUSY, R.XLT_INVAL_STATUS_IGNORED, R.XLT_FQ_BASE_LO, R.XLT_FQ_BASE_HI, R.XLT_FQ_SIZE, R.XLT_FQ_PUT, 
    R.XLT_FQ_GET, R.XLT_FQ_WAIT, R.XLT_FAULT_CMD_ACTION, R.XLT_FAULT_CMD_KIND, R.XLT_FAULT_CMD_UNIT, R.XLT_FAULT_CMD_IGN_CNT, R.XLT_SUSPENDED, 
    R.XLT_FAULT_CNT]
  | .fmac => [R.FMAC_STATUS_LINK, R.FMAC_STATUS_LANES, R.FMAC_CTRL_EN, R.FMAC_CTRL_LOOPBACK, R.FMAC_ADDR_LO, R.FMAC_ADDR_HI, R.FMAC_FEC_CORR_LO, 
    R.FMAC_FEC_CORR_HI, R.FMAC_FEC_UNCORR_CNT, R.FMAC_RX_FRAMES_LO, R.FMAC_RX_FRAMES_HI, R.FMAC_TX_FRAMES_LO, R.FMAC_TX_FRAMES_HI, 
    R.FMAC_RX_BAD_CNT, R.FMAC_PAUSE_CNT]
  | .fxp => [R.FXP_CTRL_EN, R.FXP_CTRL_JOIN, R.FXP_CTRL_PRIMARY, R.FXP_SITE, R.FXP_KEEPER_SITE, R.FXP_KEEPER_FROM_ROUND, R.FXP_ROUND, R.FXP_PEER_BASE_LO, 
    R.FXP_PEER_BASE_HI, R.FXP_SQ_BASE_LO, R.FXP_SQ_BASE_HI, R.FXP_SQ_SIZE, R.FXP_SQ_PUT, R.FXP_SQ_GET, R.FXP_CQ_BASE_LO, R.FXP_CQ_BASE_HI, 
    R.FXP_CQ_SIZE, R.FXP_CQ_PUT, R.FXP_CQ_GET, R.FXP_STORE_BASE_LO, R.FXP_STORE_BASE_HI, R.FXP_STORE_GIB_SEND, R.FXP_STORE_GIB_RECV, 
    R.FXP_STORE_USED_SEND, R.FXP_STORE_USED_RECV, R.FXP_RX_FREE, R.FXP_STALE, R.FXP_LATE_WEIGHT, R.FXP_CLOSE_MS, R.FXP_JOURNAL_BASE_LO, 
    R.FXP_JOURNAL_BASE_HI, R.FXP_PEER_SEL, R.FXP_ROUTE, R.FXP_SRTT, R.FXP_RTTVAR, R.FXP_RTO, R.FXP_ROUTE_LOST_CNT, R.FXP_FAILOVER_CNT, 
    R.FXP_RESEND_CNT, R.FXP_DUP_CNT, R.FXP_PKT_DROP_CNT, R.FXP_LATE_CNT, R.FXP_STALE_DROP_CNT, R.FXP_MANIFEST_CNT, R.FXP_SEND_WAIT_CNT]
  | .fcod => [R.FCOD_JOB_BASE_LO, R.FCOD_JOB_BASE_HI, R.FCOD_JOB_SIZE, R.FCOD_JOB_PUT, R.FCOD_JOB_GET, R.FCOD_STATUS_ENC_BUSY, R.FCOD_STATUS_DEC_BUSY, 
    R.FCOD_STATUS_BUILDS, R.FCOD_ENC_CODED_CNT, R.FCOD_ENC_STORED_CNT, R.FCOD_ENC_CONST_CNT, R.FCOD_DEC_CNT, R.FCOD_DAMAGED_CNT, 
    R.FCOD_RETRY_FAIL_CNT, R.FCOD_CLAMP_CNT, R.FCOD_NONFINITE_CNT, R.FCOD_RAW_IN_LO, R.FCOD_RAW_IN_HI, R.FCOD_CODED_OUT_LO, R.FCOD_CODED_OUT_HI]
  | .fkey => [R.FKEY_SESSIONS, R.FKEY_PEER_EPOCH, R.FKEY_PEER_PREV_HELD, R.FKEY_PEER_SESSION, R.FKEY_REKEY_CNT, R.FKEY_TAG_FAIL_CNT, R.FKEY_SLOT]
  | .die => [R.DIE_STATUS_ARITH_LOCK, R.DIE_STATUS_MESH_LOCK, R.DIE_STATUS_SRAM_LOCK, R.DIE_STATUS_D2D_UP, R.DIE_STATUS_SERVING, R.DIE_MESH_CE_CNT, 
    R.DIE_MESH_UE_CNT]
  | .d2d => [R.D2D_STATUS_LINK, R.D2D_STATUS_REPAIRED, R.D2D_RETRY_CNT, R.D2D_CRC_ERR_CNT, R.D2D_TX_BYTES_LO, R.D2D_TX_BYTES_HI]
  | .wale => [R.WALE_STATUS_ROLE, R.WALE_STATUS_LAST_PASS, R.WALE_REQ_TEST, R.WALE_REQ_RETIRE, R.WALE_TEST_CNT]
  | .sched => [R.SCHED_WL_BASE, R.SCHED_WL_SIZE, R.SCHED_WL_PUT, R.SCHED_WL_GET, R.SCHED_LAG, R.SCHED_OVERRUN_CNT, R.SCHED_WL_EMPTY_CNT, R.SCHED_WL_BAD_CNT, 
    R.SCHED_CREDIT_LIMIT, R.SCHED_CREDIT_TO_CNT, R.SCHED_SB_STATUS_USED, R.SCHED_SB_STATUS_PEAK, R.SCHED_SB_STATUS_SHARED, 
    R.SCHED_SB_STATUS_PEAK_CLR, R.SCHED_QDEPTH_ROW, R.SCHED_QDEPTH_DMA, R.SCHED_QDEPTH_SUM, R.SCHED_FAULT_STAKES, R.SCHED_UNIT, 
    R.SCHED_BAR_COUNT, R.SCHED_BAR_ARRIVED]
  | .row => [R.ROW_STATUS_BUSY, R.ROW_STATUS_SUSPENDED, R.ROW_STATUS_OP, R.ROW_STATUS_STAKE, R.ROW_STATUS_THREAD, R.ROW_CUR, R.ROW_OPS_CNT, R.ROW_ROWS_LO, 
    R.ROW_ROWS_HI, R.ROW_NONFINITE_CNT, R.ROW_EMPTY_CNT, R.ROW_SIDE_CLR_START, R.ROW_SIDE_CLR_BUSY_CLR]
  | .wxlt => [R.WXLT_HIT_LO, R.WXLT_HIT_HI, R.WXLT_MISS_CNT, R.WXLT_FAULT_CNT, R.WXLT_STATUS_WALKS, R.WXLT_STATUS_ENTRIES, R.WXLT_CTX_ACTIVE, 
    R.WXLT_CTX_SUSPENDED]
  | .sum => [R.SUM_POST_LEVEL, R.SUM_POST_LO, R.SUM_POST_HI, R.SUM_COMBINE_CNT, R.SUM_INVALID_CNT, R.SUM_LOSS_DROP_CNT, R.SUM_SLOT_LO, R.SUM_SLOT_HI]
  | .stake => [R.STAKE_CMD_THREAD, R.STAKE_CMD_CMD, R.STAKE_CREDITS_MAT, R.STAKE_CREDITS_VEC, R.STAKE_CREDITS_ROW, R.STAKE_CREDITS_DMA, R.STAKE_CREDITS_SUM, 
    R.STAKE_CREDITS_SB_RES, R.STAKE_ICACHE, R.STAKE_CMD_IGN_CNT, R.STAKE_ISSUE_LO, R.STAKE_ISSUE_HI, R.STAKE_CSTALL_LO, R.STAKE_CSTALL_HI, 
    R.STAKE_T_STATE_STATE, R.STAKE_T_STATE_IN_UNIT, R.STAKE_T_PC, R.STAKE_T_TOKEN_PENDING, R.STAKE_T_TOKEN_ERROR, R.STAKE_T_FAULT_CLASS, 
    R.STAKE_T_FAULT_DETAIL, R.STAKE_T_FAULT_SLOT, R.STAKE_REG_LO, R.STAKE_REG_HI]

/-- The pages whose `_LO`/`_HI` registers form a read-write pair (R5, R85), by the offset of `_LO`. -/
def rwPairs : Page → List Nat
  | .lid => [0x060]
  | .dig => [0x04C]
  | .hoopg => [0x050, 0x064, 0x080, 0x0A4]
  | .bank => [0x040, 0x078]
  | .nred => [0x040, 0x048, 0x054]
  | .ncod => [0x048]
  | .xlt => [0x040, 0x04C, 0x05C]
  | .fxp => [0x050, 0x058, 0x06C, 0x080, 0x0A0]
  | .fcod => [0x080]
  | .stake => [0x800]
  | _ => []

/-- Every `_LO` offset of a page, read pairs included (R5). -/
def pairLos : Page → List Nat
  | .lid => [0x060]
  | .pwc => [0x088, 0x098, 0x0A8, 0x0B8]
  | .beat => [0x058]
  | .tel => [0x048]
  | .dig => [0x04C, 0x05C]
  | .hoopg => [0x050, 0x064, 0x080, 0x0A4]
  | .hbm => [0x060]
  | .bank => [0x040, 0x068, 0x078, 0x088]
  | .slow => [0x060]
  | .nlnk => [0x05C, 0x074, 0x07C]
  | .nred => [0x040, 0x048, 0x054]
  | .ncod => [0x048, 0x070, 0x078]
  | .rak => [0x04C, 0x054]
  | .xlt => [0x040, 0x04C, 0x05C]
  | .fmac => [0x048, 0x050, 0x05C, 0x064]
  | .fxp => [0x050, 0x058, 0x06C, 0x080, 0x0A0]
  | .fcod => [0x070, 0x078, 0x080]
  | .d2d => [0x04C]
  | .row => [0x04C]
  | .wxlt => [0x040]
  | .sum => [0x044]
  | .stake => [0x050, 0x058]
  | _ => []

end Sys2Proof.Machine
end

