-- ==== Sys2Proof/Machine/State.lean ====
section
/-! DEFINITION. The state of the module: every register field, memory, queue, counter and record that the spec gives it, as plain data, and the queue of the
commands that are waiting. -/

namespace Sys2Proof.Machine

/-! ## Memory (R234, R252–R256, R506) -/

/-- What a 64-byte line of HBM or the slow tier holds: power-up cells (R506), ciphertext written under a domain's key of some generation (R55, R57), or the
zero ciphertext of a media zeroisation (R76). -/
inductive LineSt where
  | cold | keyed (dom gen : Nat) | zeroCipher
  deriving DecidableEq, Repr

/-- Memory: bytes by device physical address (unlisted bytes are 0), the lines of HBM and the slow tier (an unlisted line is as `base` says: cold, or zero
ciphertext after a media zeroisation), and the addresses that read uncorrectable: the 64-byte line's in HBM and the slow tier, the 8-byte word's elsewhere.
`power` counts the cold starts, which change the cold cells. -/
structure Mem where
  bytes : List Host.Cell := []
  base : LineSt := .cold
  lines : SMap LineSt := []
  ue : SMap Bool := []
  power : Nat := 0
  deriving DecidableEq, Repr

/-! ## Translation (R240–R245, R257–R264) -/

/-- A cached leaf: the page's virtual base, its size in address bits, and the entry. -/
structure Leaf where
  va : Nat
  bits : Nat
  pte : Nat
  deriving DecidableEq, Repr

/-- A cached non-leaf entry: the level of the table it points to, the virtual address it covers (aligned), and the table's physical address. -/
structure WalkEnt where
  level : Nat
  va : Nat
  table : Nat
  deriving DecidableEq, Repr

/-- A translation cache and its walk cache (R244). -/
structure Xl where
  leafs : List Leaf := []
  walks : List WalkEnt := []
  deriving DecidableEq, Repr

/-- A fault record (R258), with the queue it goes to (R260): `fw` is the firmware fault queue. -/
structure FaultRec where
  cls : Nat
  detail : Nat := 0
  kind : Nat
  resumable : Bool := false
  thread : Nat := 0
  slot : Nat := 0
  unit : Nat
  pc : Nat := 0
  va : Nat := 0
  pa : Nat := 0
  pte : Nat := 0
  beat : Nat := 0
  step : Nat := 0
  fw : Bool := false
  deriving DecidableEq, Repr

/-- A suspended unit whose record is in a queue: its kind and UNIT (R258), and whether the record went to the firmware's queue. -/
structure Susp where
  kind : Nat
  unit : Nat
  fw : Bool
  deriving DecidableEq, Repr

/-- The outcome of a translation: the physical address, the leaf's domain, its size in address bits and the entry; or a fault's class, detail, entry and the
entry's address. -/
inductive Xlate where
  | ok (pa dom bits pte : Nat)
  | bad (cls detail pte pteAddr : Nat)
  deriving DecidableEq, Repr

/-- A walk in progress (R245, R265): the walker, the address, the class, whether it is for a write, the non-leaf entries and the outcome that it has read, and
whether an invalidation has come since it began, after which its result goes into no cache. -/
structure WalkRun where
  unit : Nat
  va : Nat
  cls : Nat
  write : Bool
  ents : List WalkEnt
  res : Xlate
  stale : Bool := false
  deriving DecidableEq, Repr

/-- The translation root and the fault queues: the caches of wale 0–199 and of the module (200), the records held for a full or broken ring in the order they
arose (R259), the broken marks, the suspended units whose records are out (R261), and the walks in progress. -/
structure XltSt where
  walks : List WalkRun := []
  caches : SMap Xl := []
  held : List FaultRec := []
  brokenO : Bool := false
  brokenV : Bool := false
  susp : List Susp := []
  deriving DecidableEq, Repr

/-! ## Logs, events, responses (R70, R71, R92, R95, R460, R472) -/

/-- A full error record (R71). `step` and `attempt` are none where the block has no such context. -/
structure LogRec where
  cls : Nat
  silent : Bool := false
  ptype : Nat
  inst : Nat
  step : Option Nat := none
  attempt : Option Nat := none
  beat : Nat
  addr : Nat := 0
  info0 : Nat := 0
  info1 : Nat := 0
  info2 : Nat := 0
  detail0 : Nat := 0
  detail1 : Nat := 0
  deriving DecidableEq, Repr

/-- An event record: the page, PG_EVENT, PG_ERR_FIRST and BEAT_COUNT (R460, R472). -/
structure EvtRec where
  page : Page
  inst : Nat
  event : Nat
  errFirst : Nat
  beat : Nat
  deriving DecidableEq, Repr

/-- What a Rakline frame from the module carries (R464–R474). -/
inductive RakMsg where
  /-- LINK: the acknowledged SEQUENCE, a NAK, returned credits of a channel (R464, R466). -/
  | ack (seq : Nat) | nak (seq : Nat) | credit (chan n : Nat)
  /-- REG (R467): OP + 0x80, STATUS, TAG, INDEX and the data of a READ. -/
  | regResp (op status tag index : Nat) (data : List Nat)
  /-- BULK: a transfer's completion (R470), its data (R469), an export record's data (R471). -/
  | bulkEnd (transfer cls moved : Nat) | bulkData (transfer off : Nat) (data : List Byte) | exportData (data : List Byte)
  /-- EVENT (R472). -/
  | event (r : EvtRec)
  /-- ATTEST (R465, R473): a nonce, a session reply, a quote's body, the certificate chain, the acceptance of a token, and the error answer. -/
  | nonce (n : Nat) | sessionReply (ciphertext : Nat) (quote : List Byte) (signature : Nat) | quote (body : List Byte) (signature : Nat)
  | certs (chain : Nat) | accepted | merged | authFail
  /-- CONSOLE (R474). -/
  | console (data : List Byte)
  deriving DecidableEq, Repr

/-! ## Near-port messages (R307, R313, R317, R324, R339, R353) -/

/-- A record or a control message on a near port. The fields are those of the records' own headers; `dst` is the destination's site rank where the class is
relayed (R324). -/
inductive NMsg where
  /-- TC 0 (R66, R320, R322, R330, R332, R340, R344). -/
  | nak (epoch seq : Nat) | credits (l : List (Nat × Nat)) (slots : Nat) | keyNext (e : Nat) | keyReady (e : Nat) | keyRetire (e : Nat)
  | width (w : Nat) | rate (k : Nat) | abort (step attempt cls origin group bucket : Nat) | openB (k : BKey) | grantB (k : BKey)
  /-- TC 1: a piece of a bucket, a coded block of the hop entry that starts at piece `first`, a request for one (R337, R342, R374). -/
  | bucket (k : BKey) (piece : Nat) (data : List Nat) | coded (k : BKey) (first block : Nat) (bytes : List Byte)
  | codedReq (k : BKey) (first block : Nat)
  /-- TC 2 (R300, R349). -/
  | gatherReq (dst group layer step shard attempt : Nat) | gatherPiece (dst group layer rank version attempt : Nat) (data : List Byte)
  /-- TC 3 (R307). -/
  | handover (h : Handover)
  /-- TC 4 (R313, R314). -/
  | count (dst group step attempt xid rank n size : Nat) | tokens (dst group step attempt xid rank : Nat) (data : List Byte)
  /-- TC 5 (R353). -/
  | sw (r : SwRec)
  /-- TC 6 (R287, R289, R291, R351). -/
  | digest (dst shard step d : Nat) | repairReq (dst shard part chunk step : Nat) | repairChunk (dst : Nat) (c : RepairChunk)
  /-- A record for another module, sent on unchanged, with its transport header (R324). -/
  | relay (dst : Nat) (body : List Byte)
  /-- TC 7: the power controller's sideband record (R333, R426). -/
  | slack (r : List Byte)
  deriving DecidableEq, Repr

/-! ## Far records (R388) -/

/-- What a far record carries (R388): HEARTBEAT's sequence and send time; ECHO's both and the turnaround; ACK's highest number, ranges and window; a segment of a
message; the route that ROUTE_DOWN names; the epoch of KEY. -/
inductive FarMsg where
  | heartbeat (seq time : Nat) | echo (seq time turn : Nat) | ack (below : Nat) (ranges : List (Nat × Nat)) (window : Nat)
  | data (mid off total : Nat) (bytes : List Byte) | routeDown (r : Nat) | key (e : Nat)
  deriving DecidableEq, Repr

/-! ## What the module sends -/

/-- The owner policy record (R51): the export public key, the federation root public key (hashes stand for both), and the debug scopes it forbids a partner. -/
structure Policy where
  exportKey : Nat
  fedRoot : Nat
  debugForbid : Nat
  deriving DecidableEq, Repr

/-- What the module sends to the outside, in order: responses to its initiators, interrupts, messages on its ports, pins. -/
inductive Out where
  /-- A response to a register or memory access: the data of a read, the error class (0: none). -/
  | resp (dest : Ini) (data cls : Nat)
  /-- An access-fault exception on a hoop core (R95, R238, R239). -/
  | coreFault (core : Nat)
  /-- A hoop core takes a page-fault exception of Sv48 (R238, log entry 64). -/
  | corePageFault (core : Nat)
  /-- An AIA MSI to the supervisor-level interrupt file of a hoop core (R460). -/
  | msi (core eiid : Nat)
  /-- The sanitised counts of a window, per page type, instance and class (R70). -/
  | sanitised (counts : SMap Nat)
  /-- A message on Rakline: its channel, whether CLEAR is set, its first SEQUENCE, its content, its frames (R462). -/
  | rak (chan : Nat) (clear : Bool) (seq : Nat) (m : RakMsg) (frames : List (List Byte))
  /-- Console or debug bytes from the node, given to the console that Ezmix serves, to the debug logic with the scope that is open (R74), or to vendor diagnostics
  (R474). -/
  | consoleIn (session scope : Nat) (data : List Byte)
  /-- A stake thread's state, read under debug scope bit 0 (R74): its state code, PC and registers. -/
  | debugState (t : Tid) (st pc : Nat) (regs : List Nat)
  /-- A record delivered from a near port into the buffers that Ezmix named (R302, R308, R309); an exchange complete at this module, its tokens placed (R314). -/
  | nearIn (port : Nat) (m : NMsg) | exchange (group step xid : Nat) (data : List Byte)
  /-- SYNC_OUT_P/N pulses (R121). -/
  | syncOut
  /-- Flits on a near port, 256 bytes each (R317); the message whose last flit has left; flits sent again, byte-identical, oldest first (R322). -/
  | nearFlits (port : Nat) (flits : List (List Byte)) | near (port tc : Nat) (m : NMsg) | nearReplay (port : Nat) (flits : List (List Byte))
  /-- In link training: an echo with the turnaround stated, this end's challenge, and its capability record with signature, quote with signature, and alias chain
  (R326, R327). -/
  | nearEcho (port turn : Nat) | nearChallenge (port nonce : Nat)
  | nearCap (port : Nat) (record : List Byte) (signature : Nat) (quote : List Byte) (quoteSig chain : Nat)
  /-- An export record on a far port (R291): the port, the unit, the record. -/
  | exportFar (f unit : Nat) (data : List Byte)
  /-- The export session key encapsulated to the owner's export public key (R53). -/
  | exportSession (encap : Nat)
  /-- A far record, sent on its route to a peer's session (R387); a Neighbor Advertisement from a far port for its address (R386). -/
  | far (route peer epoch rec : Nat) (m : FarMsg) (packet : List Byte) | neighbour (f target mac : Nat)
  /-- An answer of the management plane: the completion code and the data (R477, R478); a quote or the alias chain over it (R63); a PlatformEventMessage (R481);
  a RequestFirmwareData for an image kind, and the TransferComplete, VerifyComplete, which reports the lid's verdict, and ApplyComplete that follow (R478, R479);
  the Provisioned ID at the assignment of an address (R476). -/
  | mgmt (code : Nat) (data : List Nat)
  /-- The acknowledgement of a request that a running zeroisation takes in (R48): its requester's code. -/
  | zeroMerged (requester : Nat)
  /-- The owner's records read by the owner (R49): the owner root key hash and the owner policy record. -/
  | ownerRecords (rootHash : Nat) (p : Option Policy)
  | quoteMgmt (body : List Byte) (signature : Nat) | certsMgmt (chain : Nat)
  | platformEvent (sensor value : Nat) | requestFirmwareData (kind : Nat) | transferComplete (kind : Nat) | verifyComplete (kind : Nat) (ok : Bool)
  | applyComplete (kind : Nat) | provisionedId (pid : Nat)
  deriving DecidableEq, Repr

/-- The interface's own state: latched `_HI` halves and staged `_LO` halves per initiator and register pair (R85), event records that wait for ring space per
hoop group (R460) and pages with a pending EVENT frame (R472), what the module has sent, and the model's counters behind free values and entropy. -/
structure IoSt where
  latch : SMap (Option Nat) := []
  stage : SMap (Option Nat) := []
  evtHeld : SMap (List EvtRec) := []
  out : List Out := []
  fv : Nat := 0
  ent : Nat := 0
  deriving DecidableEq, Repr

/-! ## The lid and the module flash (R45–R78) -/

/-- The records of module flash that carry a KMAC256 tag (R51); each copy of the repair map has its own. -/
inductive FlashRec where
  | helper | cert | config | mapA | mapB | owner | policy
  deriving DecidableEq, Repr

/-- A firmware image: its hash, security version, and whether its Imzosyn signature verifies (R59). -/
structure Image where
  hash : Nat
  secver : Nat
  sigOk : Bool
  deriving DecidableEq, Repr

/-- An owner approval the lid holds (R60, R62). -/
structure Approval where
  hash : Nat
  epoch : Nat
  lastBoot : Nat
  deriving DecidableEq, Repr

/-- A copy of the repair map (R448). -/
structure RepairMap where
  seq : Nat
  boots : Nat
  valid : Bool
  roles : SMap Nat
  failedNear : Nat
  failedFar : Nat
  tested : Nat
  deriving DecidableEq, Repr

/-- Module flash (R51): whether the helper data and the identity certificate are there; the ownership record (state, owner root key hash, zeroisation marker with
its target and MEDIA), the counter region, the owner policy record, the configuration record (the spare wales of each die, every other wale being enabled, and the populated stacks and packages), the two copies
of the repair map, the completion record of the last zeroisation (the state entered, the epoch, the signature; R76), and the records whose tag does not verify. -/
structure Flash where
  helper : Bool := true
  cert : Bool := true
  badTags : List FlashRec := []
  spares : List Nat := [48, 49, 98, 99, 148, 149, 198, 199]
  own : Nat := 0
  ownerHash : Option Nat := none
  marker : Option (Nat × Bool) := none
  epoch : Nat := 0
  boots : Nat := 0
  rollback : SMap Nat := []
  policy : Option Policy := none
  hbms : Nat := 0xFFF
  packages : Nat := 0xFFFF
  repairA : Option RepairMap := none
  repairB : Option RepairMap := none
  completion : Option (Nat × Nat × Nat) := none
  deriving DecidableEq, Repr

/-- A zeroisation in progress (R76): the state it leads to (an ownership state code), the MEDIA bit latched at step 1, and the requesters merged into it (R48):
1 release, 2 force-clear, 3 service entry, 4 service exit. -/
structure Zeroing where
  target : Nat
  media : Bool
  requesters : List Nat
  resumed : Bool
  deriving DecidableEq, Repr

/-- The lid's volatile state: its current nonce (R62), held service token and consent (R508), staged images and approvals per kind (R60), images in service per
kind (R59; none: the image installed at manufacture), how far each staged image that is being started has come (R452, R453: the ports that run it, or 1), the
zeroisation in progress, the domain key generations (R53, R58, R63), the log buffer, the broken mark of the log ring and the entries written
since cold start (R71), the sanitised counts of the current window (R70), the export session key, the unclonable root and the alias key of this cold start (R50,
R53), whether LID_FW_PENDING shows the staged images (R78), and whether the lid itself works. -/
structure LidSt where
  root : Option Nat := none
  aliasKey : Option Nat := none
  fwShown : Bool := true
  nonce : Option Nat := none
  svcToken : Option SvcToken := none
  svcConsent : Bool := false
  staged : SMap (Option Image) := []
  approvals : SMap (Option Approval) := []
  running : SMap (Option Image) := []
  trying : SMap Nat := []
  zero : Option Zeroing := none
  domGen : SMap Nat := []
  logBuf : List LogRec := []
  logBroken : Bool := false
  logSeq : Nat := 0
  san : SMap Nat := []
  exportKey : Option Nat := none
  exportCnt : Nat := 0
  works : Bool := true
  deriving DecidableEq, Repr

/-! ## Rakline (R461–R475) -/

/-- A message kept for replay until the last of its frames is acknowledged (R464): `seq` is its first frame's SEQUENCE, `bytes` its
frames as sent, `resent` how often it has been resent. -/
structure RakFrame where
  chan : Nat
  clear : Bool
  seq : Nat
  msg : RakMsg
  bytes : List (List Byte)
  resent : Nat := 0
  deriving DecidableEq, Repr

/-- An open bulk transfer (R469): its direction, virtual address, length and the bytes moved. -/
structure Bulk where
  write : Bool
  va : Nat
  len : Nat
  moved : Nat
  deriving DecidableEq, Repr

/-- A BULK frame from the node (R469): a command that opens a transfer (WRITE or READ, TRANSFER, virtual address, length), or data of one. -/
inductive BulkIn where
  | start (write : Bool) (k va len : Nat)
  | data (k off : Nat) (bytes : List Byte)
  deriving DecidableEq, Repr

/-- Rakline: the session key (R465), sequence numbers, the replay buffer (oldest first), frames received since the last acknowledgement, credits that the node granted on EVENT, BULK and
CONSOLE, pages with a pending EVENT frame, open transfers, BULK frames from the node that wait for the page to serve (R509), BULK and CONSOLE frames that wait for a
credit, and how many bytes of its oldest export record each unit has sent, where one has begun. -/
structure RakSt where
  key : Nat := 0
  txSeq : Nat := 0
  rxSeq : Nat := 0
  replay : List RakFrame := []
  unacked : Nat := 0
  evtCred : Nat := 0
  bulkCred : Nat := 0
  conCred : Nat := 0
  evtPend : List EvtRec := []
  bulk : SMap (Option Bulk) := []
  bulkHeld : List BulkIn := []
  bulkWait : List RakMsg := []
  conWait : List RakMsg := []
  expSent : SMap (Option Nat) := []
  deriving DecidableEq, Repr

/-! ## The border: steps, groups, buckets, gathers, handovers, exchanges (R296–R315, R335–R356) -/

/-- One of the four steps whose attempts the border keeps (R297, R344, R345): its attempt, whether it is exhausted, whether this module has contributed to the
close of the attempt, and whether the attempt has closed (R347). -/
structure StepRec where
  step : Nat
  attempt : Nat := 0
  exhausted : Bool := false
  contributed : Bool := false
  closed : Bool := false
  deriving DecidableEq, Repr

/-- A group descriptor (R335). -/
structure Group where
  kind : Nat
  switch : Bool
  channel : Nat
  coded : Bool
  gate : Bool
  bf16 : Bool
  deadline : Nat
  members : Nat
  self : Nat
  buckets : Nat
  bits : Nat
  ef : Bool
  scale : Nat
  layers : Nat
  hopTab : Nat
  memTab : Nat
  auxTab : Nat
  deriving DecidableEq, Repr

/-- A hop entry (R337). -/
structure Hop where
  op : Nat
  left : Nat
  right : Nat
  level : Nat
  out : Nat
  first : Nat
  count : Nat
  coded : Bool
  deriving DecidableEq, Repr

/-- A bucket in progress (R339–R343): its group, hop table and piece lengths; the post's contributions and result address once it is posted; whether the local
contribution is formed; the ports whose contexts it holds; the operands that are complete, by source code and piece; the results to write and those written; the
ports asked by OPEN and granted; the records that wait for GRANT; the deadline count; the stream context that a fault has suspended, the bytes of
the contributions read so far, and the bytes of the result piece in hand that are written; the coded blocks that passed
their checks, by port, first piece and index; the coded blocks sent, by entry and index; the entries whose coding has begun; whether a switch has its CONTRIB. -/
structure Bucket where
  key : BKey
  grp : Group
  hops : List Hop
  lens : List Nat
  posted : Bool := false
  dies : List (Option Nat) := []
  result : Nat := 0
  loaded : Bool := false
  ports : List Nat := []
  vals : List (Nat × Nat × List Nat) := []
  res : List (Nat × List Nat) := []
  written : List Nat := []
  asked : List Nat := []
  granted : List Nat := []
  hold : List (Nat × Nat × NMsg) := []
  left : Option Nat := none
  fault : Option Nat := none
  read : List Byte := []
  wrote : Nat := 0
  inBlocks : List (Nat × Nat × Nat × List Byte) := []
  outBlocks : List (Nat × Nat × List Byte) := []
  coding : List Nat := []
  swSent : Bool := false
  complete : Bool := false
  deriving DecidableEq, Repr

/-- A block that an encoder or a decoder of a near port has to work on (R376): for encoding the hop entry and the index; for decoding the first piece, the index
and the bytes received. -/
structure CodeTask where
  key : BKey
  ent : Nat
  block : Nat
  bytes : List Byte := []
  deriving DecidableEq, Repr

/-- A slot of a forward handover (R308): taken through `port`, by this module's pool, or, for `mine`, by a partner's; of the latter, whether its credit has come back
already. -/
structure Slot where
  step : Nat
  mb : Nat
  slot : Nat
  attempt : Nat
  port : Nat
  mine : Bool
  back : Bool := false
  deriving DecidableEq, Repr

/-- A handover that waits for a slot credit, or is on its way until the partner has acknowledged it, with its group and deadline count (R308, R343). -/
structure HeldHo where
  port : Nat
  group : Nat
  ho : Handover
  left : Option Nat := none
  deriving DecidableEq, Repr

/-- A gather request that waits at its holder (R301). -/
structure GatherReq where
  src : Nat
  group : Nat
  layer : Nat
  commit : Nat
  shard : Nat
  attempt : Nat
  deriving DecidableEq, Repr

/-- A piece that this module has requested (R302, R349): the training step and attempt, the source rank, the commit step expected, whether it is the backward's
re-gather, and the deadline count. -/
structure GatherExp where
  group : Nat
  layer : Nat
  rank : Nat
  commit : Nat
  back : Bool
  step : Nat
  attempt : Nat
  left : Option Nat := none
  deriving DecidableEq, Repr

/-- An expert exchange at its destination (R313, R314): the counts received as (rank, tokens, bytes per token), the tokens received per rank, the deadline
count. -/
structure Exchange where
  group : Nat
  step : Nat
  attempt : Nat
  xid : Nat
  counts : List (Nat × Nat × Nat) := []
  data : SMap (List Byte) := []
  left : Option Nat := none
  deriving DecidableEq, Repr

/-- Tokens that this module has announced to a destination and not yet sent (R313): bytes left, and bytes per token. -/
structure XSend where
  group : Nat
  step : Nat
  attempt : Nat
  xid : Nat
  rank : Nat
  left : Nat
  size : Nat
  deriving DecidableEq, Repr

/-- The border: buckets, OPENs that wait, records above the current attempt (R297), completed buckets of the steps kept, the version-table entries recorded (step,
attempt, address), slots, slot credits owed by the partners for slots that have ended, per port, the micro-batches whose first handover a port has carried (port,
step, micro-batch, sent), handovers that wait and handovers on their way, gathers, exchanges at their destination and at their source,
switch joins (1 asked, 2 joined, 3 rejected), coder tasks per port, and the requests made for damaged blocks. -/
structure Border where
  buckets : List Bucket := []
  openWait : List (Nat × BKey) := []
  held : List (Nat × NMsg) := []
  done : List BKey := []
  vers : List (Nat × Nat × Nat) := []
  slots : List Slot := []
  owed : SMap Nat := []
  seen : List (Nat × Nat × Nat × Bool) := []
  hoHeld : List HeldHo := []
  hoOut : List HeldHo := []
  gwait : List GatherReq := []
  gexp : List GatherExp := []
  xch : List Exchange := []
  xsend : List XSend := []
  join : SMap Nat := []
  enc : SMap (List CodeTask) := []
  dec : SMap (List CodeTask) := []
  retries : List (Nat × BKey × Nat × Nat) := []
  deriving DecidableEq, Repr

/-! ## Stakes and wales (R131, R141–R174, R205–R233, R246–R251) -/

/-- A token slot (R146): a done slot holds an undelivered error class, or 0. -/
inductive Tok where
  | idle | pending | done (err : Nat)
  deriving DecidableEq, Repr

/-- What a RUN thread sleeps or stalls in; its PC stays at that instruction (R148, R151, R153, R155, R144). -/
inductive Sleep where
  | awake | twait (dest mask : Nat) (any : Bool) | bar (b : Nat) | drain | halt | stall
  deriving DecidableEq, Repr

/-- A thread (R131): s0–s31, the program counter, 16 token slots; its state code (R159), what it sleeps in, an entry that waits to be applied (start PC,
CONTINUE, argument; R157), whether it is a member of the current unit with its part not ended, whether it was paused in a beat wait that stays in effect
(R161), and its latest fault (R171). -/
structure Thread where
  regs : SMap Nat := []
  pc : Nat := 0
  toks : SMap Tok := []
  st : Nat := 0
  sleep : Sleep := .awake
  entry : Option (Nat × Bool × Nat) := none
  member : Bool := false
  held : Bool := false
  fCls : Nat := 0
  fDet : Nat := 0
  fSlot : Nat := 0
  deriving DecidableEq, Repr

/-- An operation handed to an engine (R138–R143): its issuing thread, its token slot, the AFTER slot that it waits for, the error class that AFTER gave it (R147), its
immediate, its descriptor as eight 64-bit words, whether it holds a shared scoreboard entry, and whether its slot and entry still exist (a STAKE page reset takes
them back, R164). -/
structure QOp where
  tid : Tid
  slot : Nat
  after : Option Nat := none
  gate : Nat := 0
  imm : Nat := 0
  desc : List Nat
  shared : Bool := false
  live : Bool := true
  deriving DecidableEq, Repr

/-- Where a taken operation stands: waiting for leave, running, or suspended (R206, R208, R229, R251). -/
inductive RunSt where
  | wait | run | susp
  deriving DecidableEq, Repr

/-- An engine's operation: where it stands, the block or row that it runs next, and the matrix accumulators where it has any (R209). `cls` is the class of its
suspension, `err` the class of its first failed output write (R510). -/
structure Run where
  op : QOp
  st : RunSt := .run
  next : Nat := 0
  acc : Option (List Nat) := none
  cls : Nat := 0
  err : Nat := 0
  ent : Option Nat := none
  deriving DecidableEq, Repr

/-- A stake (R131, R134, R141): the matrix and chain queues, the adapter entry that the waiting head of the matrix queue has read (R207; 0 where it uses none), the
operations the two engines have taken, the lines of the instruction cache (64 bytes as a number,
by local address / 64), and the workload phase (R421). -/
structure Stake where
  matQ : List QOp := []
  matEnt : Option Nat := none
  vecQ : List QOp := []
  mat : Option Run := none
  vec : Option Run := none
  icache : SMap (Option Nat) := []
  phase : Nat := 0
  deriving DecidableEq, Repr

/-- The summary unit's operation: the sources a POST has copied, whether its effect is made, and the values that a LOSS has read, none for a source that it does not
send. -/
structure SumRun where
  op : QOp
  next : Nat := 0
  made : Bool := false
  loss : List (Option Nat) := []
  deriving DecidableEq, Repr

/-- A wale (R141, R151, R154, R165): the row, DMA and summary queues, the operations that the row engine and the summary unit have taken, the barrier counts, the
beat of the current unit, the mode of an overrun in progress (true: strict), the summary slots and the post FIFO. -/
structure Wale where
  rowQ : List QOp := []
  dmaQ : List QOp := []
  sumQ : List QOp := []
  row : Option Run := none
  sum : Option SumRun := none
  bars : SMap Nat := []
  unitBeat : Nat := 0
  ovMode : Option Bool := none
  slots : SMap Nat := []
  post : List Nat := []
  deriving DecidableEq, Repr

/-- Where a stream came from: a thread's queue, the descriptor ring of a hoop group with its tag (R459), or the border, for a bucket (R339). -/
inductive Origin where
  | op (q : QOp) | hoop (g tag : Nat) | border (k : BKey)
  deriving DecidableEq, Repr

/-- A DMA stream in a context (R246, R247): its descriptor words, its immediate, where it stands, the chunk that it runs next, whether it has started, and the
class of its suspension. -/
structure Stream where
  orig : Origin
  desc : List Nat
  imm : Nat := 0
  st : RunSt := .run
  next : Nat := 0
  started : Bool := false
  cls : Nat := 0
  deriving DecidableEq, Repr

/-- The requesters of a leave arbiter (R418): the apply unit of a stack, a coder (2 × port, + 1 for the decoder; near ports 0–15, far ports 16–19), the row engine of a wale,
a stream context, the matrix unit of a stake. -/
inductive LvReq where
  | bank (n : Nat) | coder (k : Nat) | row (w : Nat) | dma (c : Nat) | mat (s : Nat)
  deriving DecidableEq, Repr

/-- The leave arbiters (R418): the requests of each die, oldest first, and the grants not yet used. -/
structure LeaveSt where
  reqs : SMap (List LvReq) := []
  granted : List LvReq := []
  deriving DecidableEq, Repr

/-- The beat timer's own state (R106–R118): the period and length of the beat in progress in ns, whether its length has been evaluated, the phase errors of the
edges accepted for its first tick and for the next tick, the edges whose tick is open until the length is evaluated, and the counts of good edges and of outliers in
a row. -/
structure BeatSt where
  early : List Nat := []
  running : Bool := false
  period : Nat := 1000000
  len : Nat := 1000000
  evaluated : Bool := false
  acc : Option Int := none
  accNext : Option Int := none
  good : Nat := 0
  outl : Nat := 0
  deriving DecidableEq, Repr

/-- A hoop group's DMA rings (R459): the ring counts of refused entries not yet passed by GET, and the completions (tag, class, bytes moved) held for a full ring. -/
structure HoopDma where
  refused : List Nat := []
  held : List (Nat × Nat × Nat) := []
  deriving DecidableEq, Repr

/-! ## Power and heat (R411–R436) -/

/-- A junction sensor (R430): its latest reading in 1/16 °C, and whether it has stopped reporting. -/
structure Sensor where
  temp : Option Int := none
  stopped : Bool := false
  deriving DecidableEq, Repr

/-- The exchange of watts with a near-port partner (R426, R427): the slack of its last record if that one set WANT, whether a REVERT of this module awaits its
answer, and the watts of a GIVE to return. -/
structure Neighbour where
  want : Option Nat := none
  reverting : Bool := false
  back : Nat := 0
  deriving DecidableEq, Repr

/-- The power controller: the supply warning and its release timer, the regulator alert, each die's controller value and falling demand after a release (R413,
R429), the value of the last division, the slow grant mode (R423), the operator cap in force, the phase table in units of 2^-16 mW (R421), the comparisons that
failed or held in a row (R424), the neighbours, the sensors, each die's thermal direction (1 rising, 2 falling), the trip, the firmware log of memory domain 0
(R417), and the levels of PWR_ALERT_N and COOLANT_LEAK_N as the carrier drives them (R490, R493). -/
structure Pwr where
  warn : Bool := false
  relRun : Bool := false
  alert : Bool := false
  ctl : SMap Nat := []
  ramp : SMap Nat := []
  div : Nat := 0
  slow : Bool := false
  cap : Nat := 2500
  tab : SMap Nat := []
  bad : Nat := 0
  good : Nat := 0
  nbr : SMap Neighbour := []
  sensors : SMap Sensor := []
  dir : SMap Nat := []
  trip : Bool := false
  fwLog : List LogRec := []
  alertPin : Bool := false
  leakPin : Bool := false
  deriving DecidableEq, Repr

/-! ## Near ports (R316–R334) -/

/-- A flit kept for replay (R322): its epoch, sequence and class, how often it has been resent, the message that it completes, and its 256 bytes as sent. -/
structure NFlit where
  epoch : Nat
  seq : Nat
  tc : Nat
  resends : Nat := 0
  msg : Option NMsg := none
  bytes : List Byte := []
  deriving DecidableEq, Repr

/-- A message that waits for credit, the payload bytes not yet sent, and, for a relayed record, where its flits came from: port, class, flits (R320, R324). -/
structure NRec where
  msg : NMsg
  bytes : List Byte
  origin : Option (Nat × Nat × Nat) := none
  deriving DecidableEq, Repr

/-- A near port's link: the training step in progress (0: none), whether it waits to train again, whether it retrains after REPLAY_EXHAUSTED, the two ends' challenges
(R326, R327), the accepted partner and its coder table version and key window, the session secret (R53), the transmit sequence, the epochs of a key change in
progress, the next flit expected, the ACK field that this end sends (R317), the replay buffer, whether a NAK is out, the sequence that failed its tag, the freed
flits not yet returned, the records that arrive, per class, the queues per class, whether the partner's grant of slot credits has come since training (R350), the
failed lanes, whether the partner holds the link at four lanes (R331),
whether a cable is attached, and the trips of its supply. -/
structure NPort where
  step : Nat := 0
  waiting : Bool := false
  retrain : Bool := false
  challenge : Option Nat := none
  theirs : Nat := 0
  accepted : Bool := false
  partner : Option Nat := none
  coder : Nat := 0
  window : Nat := 0
  secret : Option Nat := none
  txSeq : Nat := 0
  txAsked : Bool := false
  rekeyDue : Bool := false
  rxNext : Option Nat := none
  rxEpoch : Nat := 0
  rxSeq : Nat := 0
  ackName : Nat := 0
  replay : List NFlit := []
  naked : Bool := false
  failed : Option (Nat × Nat) := none
  freed : SMap Nat := []
  rx : SMap (List Byte) := []
  queue : SMap (List NRec) := []
  slotsIn : Bool := false
  bad : Nat := 0
  narrow : Bool := false
  cable : Bool := false
  trips : Nat := 0
  deriving DecidableEq, Repr

/-! ## Bank apply units, replicas, export (R267–R295) -/

/-- A chunk computed and not yet committed (R275): the slot it goes to, the new master and moments, its CRC and that of the slot it leaves, the export payload's
words, and the non-finite gradients and masters. -/
structure ChunkWork where
  slot : Nat
  master : List Nat
  m : List Nat
  v : List Nat
  crc : Nat
  crcOld : Nat
  diff : List Nat
  nfG : Nat
  nfM : Nat
  deriving DecidableEq, Repr

/-- An export record (R290): its header and its coded payload. -/
structure ExpRec where
  header : List Byte
  payload : List Byte
  deriving DecidableEq, Repr

/-- An export record that finds no room in its ring (R291): the record, and the descriptor and chunk whose XP clears once it is appended; none for a REPAIR record. -/
structure Staged where
  record : ExpRec
  chunk : Option (List Nat × Nat)
  deriving DecidableEq, Repr

/-- A bank apply unit: the latched descriptor and coefficients (C0–C7, D1, D2), whether its gates have passed, the chunk, the retries of the chunk, whether it
waits for a retry or has halted, the computed chunk, the export records that find no room, oldest first, the CRCs of the chunks passed, the chunk whose processing
has begun (the ring count and the chunk, kept over a reset; R276), and the export ring: bytes written and sent, and the sealed records not yet sent. -/
structure Bank where
  desc : Option (List Nat) := none
  coef : List Nat := []
  passed : Bool := false
  chunk : Nat := 0
  retries : Nat := 0
  waiting : Bool := false
  halted : Bool := false
  work : Option ChunkWork := none
  staged : List Staged := []
  crcs : List Nat := []
  begun : Option (Nat × Nat) := none
  expPut : Nat := 0
  expGet : Nat := 0
  expQ : List (List Byte) := []
  deriving DecidableEq, Repr

/-- A part's digest D (R285): the unit that applied it, its descriptor, and whether it was applied with NOGATE. -/
structure DigPart where
  shard : Nat
  part : Nat
  step : Nat
  d : Nat
  unit : Nat
  desc : List Nat
  nogate : Bool
  deriving DecidableEq, Repr

/-- What the fold digest unit holds of a shard (R295): its state, and its latest digest with its step, where `ready`. -/
structure ShardSt where
  state : Nat := 0
  step : Nat := 0
  digest : Nat := 0
  ready : Bool := false
  deriving DecidableEq, Repr

/-- A comparison that is due (R287): this module's digest once it is ready, the members' digests as (member, digest), the beats waited since its own was ready. -/
structure DigCmp where
  shard : Nat
  step : Nat
  own : Option Nat := none
  got : List (Nat × Nat) := []
  waited : Nat := 0
  deriving DecidableEq, Repr

/-- A repair fetch (R289): shard, step, the other side's site rank, the winning digest, and the chunks that are outstanding, as (part, chunk). -/
structure Fetch where
  shard : Nat
  step : Nat
  rank : Nat
  digest : Nat
  chunks : List (Nat × Nat)
  deriving DecidableEq, Repr

/-- The fold digest unit (R285–R289): the parts' latest digests, the shards, the comparisons due, digests received before their comparison, the repair that this
module fetches as a loser, and the chunks that it serves as a winner. -/
structure Dig where
  parts : List DigPart := []
  shards : SMap ShardSt := []
  cmps : List DigCmp := []
  early : List (Nat × Nat × Nat × Nat) := []
  fetch : List Fetch := []
  serve : List Fetch := []
  deriving DecidableEq, Repr

/-! ## Far exchange (R377–R410) -/

/-- A job of a far coder (R377, R378): its 64-byte entry as eight words, the class of its streams, the block it does next, the bytes written or consumed and the
raw bytes passed; once it has ended, its class and detail. -/
structure FJob where
  desc : List Nat
  next : Nat := 0
  pos : Nat := 0
  raw : Nat := 0
  ended : Option (Nat × Nat) := none
  deriving DecidableEq, Repr

/-- A route to a peer (R390–R393): its state (FXP_ROUTE), the heartbeats and echoes counted while it returns, whether the estimator has a sample, and SRTT and
RTTVAR in units of 2^-exp ns. -/
structure FarRoute where
  st : Nat := 0
  hb : Nat := 0
  ec : Nat := 0
  sampled : Bool := false
  srtt : Nat := 0
  rttvar : Nat := 0
  exp : Nat := 0
  deriving DecidableEq, Repr

/-- A DATA record that is not acknowledged (R391): its number, message, offset, length and route. -/
structure FarSent where
  num : Nat
  mid : Nat
  off : Nat
  len : Nat
  route : Nat
  deriving DecidableEq, Repr

/-- A session with a peer (R68, R387–R392): the next record number, the receiver's epoch, the record numbers that have arrived as ranges (first, last) in rising
order, the DATA records since the last ACK, the records not acknowledged, the messages not yet sent whole as (message, next offset), the partner's limit on record
numbers, the heartbeat sequence, the two routes, the first record of the epoch, the session secret (R53), the session identifier (R387), and the peer table's
entries of the peer and of this site (R398). -/
structure FarPeer where
  nextRec : Nat := 0
  rxEpoch : Nat := 0
  got : List (Nat × Nat) := []
  ackDue : Nat := 0
  sent : List FarSent := []
  queue : List (Nat × Nat) := []
  lim : Option Nat := none
  hbSeq : Nat := 0
  r0 : FarRoute := {}
  r1 : FarRoute := {}
  epochRec : Nat := 0
  secret : Nat := 0
  sid : Nat := 0
  entry : List Byte := []
  ownEntry : List Byte := []
  deriving DecidableEq, Repr

/-- A message in the send store (R396): its identifier, its place and length, the peers named, those that have acknowledged all of it, NOTIFY. -/
structure SendMsg where
  mid : Nat
  va : Nat
  len : Nat
  mask : Nat
  acked : List Nat := []
  notify : Bool := false
  deriving DecidableEq, Repr

/-- A message in the receive store (R391, R400–R402): its identifier, its place and length, the segments present, its completion sequence once posted, the blocks
decoded from it as (offset, length), whether FXP_RX_FREE has asked for its release, and the round whose manifest named it. -/
structure RecvMsg where
  mid : Nat
  va : Nat
  len : Nat
  segs : List Nat := []
  seq : Option Nat := none
  blocks : List (Nat × Nat) := []
  freed : Bool := false
  named : Option Nat := none
  deriving DecidableEq, Repr

/-- A completion record (R397). -/
structure FarCpl where
  event : Nat
  peer : Nat
  cls : Nat
  seq : Nat
  mid : Nat
  va : Nat
  len : Nat
  deriving DecidableEq, Repr

/-- A manifest entry (R399). -/
structure ManEntry where
  site : Nat
  round : Nat
  weight : Nat
  mid : Nat
  deriving DecidableEq, Repr

/-- A manifest that the keeper has closed and the lid is signing (R399). -/
structure ManOut where
  round : Nat
  shard : Nat
  entries : List ManEntry
  deriving DecidableEq, Repr

/-- The far exchange: the coders' jobs and the class that last wrote FCOD_JOB_PUT, per port; the sessions, by site; the stores; the messages received whole and
released; completions held for a full ring and the completion sequence; manifests that wait, with the site whose key verifies them; the keeper's designations as
(first round, site), oldest first; the contributions that a manifest has named; the module's own contributions as (round, message); the manifest being signed; the
keeper and the entries of the manifest accepted last; whether a joining site waits to be named; whether the head of the send ring waits for room; the routers'
addresses, by port. -/
structure Far where
  jobs : SMap (Option FJob) := []
  jobCls : SMap Nat := []
  peers : SMap FarPeer := []
  send : List SendMsg := []
  recv : List RecvMsg := []
  done : List Nat := []
  cqHeld : List FarCpl := []
  cqSeq : Nat := 0
  waiting : List (Nat × Nat) := []
  keepers : List (Nat × Nat) := [(0, 0)]
  named : List Nat := []
  own : List (Nat × Nat) := []
  closing : Option ManOut := none
  last : List ManEntry := []
  lastKeeper : Nat := 0
  joining : Bool := false
  sqWait : Bool := false
  router : SMap Nat := []
  deriving DecidableEq, Repr

/-! ## Start-up, test, repair (R437–R456) -/

/-- A unit of a step of R442: the step's row in the table (0 HBM training to 8 far-port training), the unit, and whether it is pending (0), running (1) or has
ended (2). -/
structure BootStep where
  row : Nat
  unit : Nat
  st : Nat := 0
  deriving DecidableEq, Repr

/-- A BIST (R445, R446, R451): the kind of block (0 wale, 1 near port, 2 far port, 3 die, 4 coder, 5 bank apply unit, 6 hoop, 7 border core), the instance, and
whether it runs a second time because the first was out of conditions. -/
structure Bist where
  kind : Nat
  inst : Nat
  again : Bool := false
  deriving DecidableEq, Repr

/-- A block of an orderly shutdown (R445): its kind and instance as in `Bist`, and whether it waits (0), is in test (1) or is done (2). -/
structure ShutBlk where
  kind : Nat
  inst : Nat
  st : Nat := 0
  deriving DecidableEq, Repr

/-- The boot sequencer and its surroundings: the base stage in progress (1–4; 5 from the sequencer on), whether REFCLK holds the module in cold reset (R493),
whether a warm reset is in force, the steps, the tests that run and those that wait for NORMAL or CAPPED (R487), the blocks of a shutdown and whether all of its
tests counted (R446), the wales that come back ISOLATED (R455, R487), and the spares that initialise after a retirement (R451). -/
structure BootSt where
  refHeld : Bool := false
  stage : Nat := 1
  inWarm : Bool := false
  steps : List BootStep := []
  tests : List Bist := []
  waiting : List Bist := []
  shut : List ShutBlk := []
  shutOk : Bool := true
  isoBack : List Nat := []
  spareInit : List Nat := []
  deriving DecidableEq, Repr

/-- A line of the hoop's caches (R239): the class that brought it, its 64 bytes as a number, and whether a store has changed it since. -/
structure CLine where
  cls : Nat
  val : Nat
  dirty : Bool := false
  deriving DecidableEq, Repr

/-- The hoop (R238, R239, R453): the cores that groups 1–3 have given and that stand in STANDBY, with the group each came from, the incoming cores of a migration, the
page number of each core's Sv48 root table (none while the core does not translate), and the cache lines, by physical address with its domain bits / 64. -/
structure HoopSt where
  given : List (Nat × Nat) := []
  incoming : List Nat := []
  roots : SMap (Option Nat) := []
  cache : SMap (Option CLine) := []
  deriving DecidableEq, Repr

/-! ## The management plane (R476–R481) -/

/-- A platform event (R481): the sensor and its value. -/
structure PlatEvt where
  sensor : Nat
  value : Nat
  deriving DecidableEq, Repr

/-- The management plane: the PLDM terminus identifier, the platform events that are not acknowledged, the state sensors as last reported, the counts per error
class of the last window (R480), and the firmware update: its state (0 idle, 1 learn components, 2 ready, 3 download, 4 verified, 5 activated), the components
named, the one in transfer, and the images verified, by kind. -/
structure MgmtSt where
  tid : Nat := 0
  events : List PlatEvt := []
  seen : SMap Nat := []
  window : SMap Nat := []
  upd : Nat := 0
  comps : List Nat := []
  cur : Option Nat := none
  ready : SMap (Option Image) := []
  deriving DecidableEq, Repr

/-! ## The whole -/

/-- The block: everything but the queue of waiting commands. `regs` holds every register field (`Fld.key`), but for the views that typed state backs. -/
structure Blk where
  regs : SMap Nat := []
  mem : Mem := {}
  xlt : XltSt := {}
  io : IoSt := {}
  flash : Flash := {}
  lid : LidSt := {}
  rak : RakSt := {}
  steps : List StepRec := []
  border : Border := {}
  threads : SMap Thread := []
  stakes : SMap Stake := []
  wales : SMap Wale := []
  streams : SMap (Option Stream) := []
  leave : LeaveSt := {}
  beat : BeatSt := {}
  hoopDma : SMap HoopDma := []
  /-- Values on their way to the loss monitor, oldest first (R168, R281). -/
  lossQ : List Nat := []
  pwr : Pwr := {}
  near : SMap NPort := []
  banks : SMap Bank := []
  dig : Dig := {}
  /-- A flag of the loss monitor stands since the last release (R282). -/
  lossFlag : Bool := false
  far : Far := {}
  boot : BootSt := {}
  hoop : HoopSt := {}
  mgmt : MgmtSt := {}
  deriving DecidableEq, Repr

/-! ## What happens without a command -/

/-- What happens at or around the block without being one of the commands of the opcode table. -/
inductive Obs where
  /-- Over the link of D2D page `k`: payload bytes sent, flits that the adapter retried, received flits that failed their CRC (R39, R41). -/
  | d2dFlits (k bytes retries crcErrs : Nat)
  /-- Lanes of a link train again, and the link is up (R39, R41). -/
  | d2dTrain (k : Nat) | d2dUp (k : Nat)
  /-- A die's mesh corrects `n` words; a word is uncorrectable on its way between two mesh stops, as part of an initiator's access where it is one (R40). -/
  | meshCe (d n : Nat) | meshUe (d src dst : Nat) (ini : Option Ini)
  /-- A block corrects a word of an SRAM or buffer that it reads (R86, R252); a requester's read of a line is corrected (R253). -/
  | wordCe (p : Page) (i : Nat) | lineCe (pa : Nat)
  /-- The tag of a record of module flash is found not to verify from now on (R51). -/
  | flashTag (r : FlashRec)
  /-- A signed owner record brings the owner policy record; the owner reads its records; the owner asks for a new export session (R49, R51, R53). -/
  | ownerRecord (p : Policy) (sigOk : Bool) | ownerRead | exportRenew
  /-- Debug access over the console under scope bit 0 (R74): a stake thread is halted, runs on, runs the one instruction given, or its state is read. -/
  | debugHalt (t : Tid) | debugRun (t : Tid) | debugStep (t : Tid) (c : Instr) | debugRead (t : Tid)
  /-- A walk begins in the walker of wale `u` or of the module (R245, R265). -/
  | walkStart (u va : Nat) (cls : Nat) (write : Bool)
  /-- A hoop core's software names its Sv48 root table, or stops translating (R238). -/
  | hoopRoot (core : Nat) (root : Option Nat)
  /-- The hoop's caches take the line of a physical address for a core, or give a line up, a changed one to memory; a core cleans or invalidates a line (R239). -/
  | cacheFill (core pa : Nat) | cacheEvict (line : Nat) | cacheOp (core pa : Nat) (clean inval : Bool)
  /-- A near port's attached load over 1 ms in mA (R329); flit times with DATA held back for credit (R332). -/
  | loadMean (p ma : Nat) | heldFlits (p n : Nat)
  /-- The partner's echo request in link training (R326). -/
  | echoIn (p : Nat)
  /-- The last `n` leave requests of a die arrived in one mesh clock (R418). -/
  | leaveTogether (d n : Nat)
  /-- Rakline receives light and its link trains (R461, R482). -/
  | rakTrain
  deriving DecidableEq, Repr

/-- The machine's state: the block, the commands that are waiting, first in, first out, and what is to happen without a command once none waits (log entry 1). -/
structure State where
  blk : Blk := {}
  pending : List Instr := []
  obs : List Obs := []
  deriving DecidableEq, Repr

/-- No command faults: the spec gives every failed access an error response, an error record or a suspended unit, and the machine goes on. -/
inductive Fault where
  /-- Raised by nobody. Safe. -/
  | none
  deriving DecidableEq, Repr

/-- Why a command is refused. -/
inductive Refusal where
  /-- A command without a meaning yet. Raised by the dispatch alone. Safe. -/
  | notModelled (mnemonic : String)
  /-- A command whose operand names a unit, register or value that cannot exist (WellFormed). Raised by every meaning through `cmd`. Safe. -/
  | illFormed
  deriving DecidableEq, Repr

/-- The module right after a cold reset: every register field at its reset value, nothing in memory, every queue empty (R7, R437). The values that the spec
does not give are named in log entries 8, 9 and 11. -/
def State.reset : State := {}

end Sys2Proof.Machine
end

