-- ==== Sys2Proof/Machine/Ops.lean ====
section
/-! DEFINITION. The named operations over registers, pages, access classes and the interface, which every meaning shares. -/

namespace Sys2Proof.Machine

/-! ## Commands -/

/-- A command's shape: refused where its operands name what cannot exist, otherwise the block after its effect. The queue of waiting commands is untouched. -/
def cmd (ok : Bool) (s : State) (f : Blk → Blk) : Host.Outcome State Fault Refusal :=
  if ok then .next { s with blk := f s.blk } else .refused .illFormed

/-- An event's effect where its conditions hold; an event that cannot happen in this state leaves the block as it is (log entry 2). -/
def Blk.when (b : Blk) (c : Bool) (f : Blk → Blk) : Blk := if c then f b else b

/-- `f` applied for every element in order. -/
def Blk.each {α : Type} (b : Blk) (l : List α) (f : Blk → α → Blk) : Blk := l.foldl f b

/-! ## Bit fields -/

/-- Bits `lo + w - 1` to `lo` of a number. -/
def bits (v lo w : Nat) : Nat := v / 2 ^ lo % 2 ^ w

/-- Bit `n` of a number. -/
def bit (v n : Nat) : Bool := v.testBit n

/-- A `w`-bit two's complement number as an integer. -/
def sext (w v : Nat) : Int := if v % 2 ^ w < 2 ^ (w - 1) then (v % 2 ^ w : Int) else (v % 2 ^ w : Int) - 2 ^ w

/-- An integer as a `w`-bit two's complement number. -/
def toBits (w : Nat) (x : Int) : Nat := (x % (2 ^ w : Int)).toNat

/-- 0 or 1. -/
def b2n (c : Bool) : Nat := if c then 1 else 0

/-- The numbers of the bits below `w` that are 1. -/
def setBits (w v : Nat) : List Nat := (List.range w).filter (fun k => bit v k)

/-! ## Register fields -/

/-- PG_ACCESS of a page in OWNED (R105): write classes in [7:0], read classes in [15:8]. -/
def ownedAccess : Page → Nat → Nat
  | .mod, _ => 0x0301 | .lid, _ => 0x0F06 | .pwc, _ => 0x0101 | .beat, _ => 0x0202 | .boot, _ => 0x0705 | .tel, _ => 0x0705 | .loss, _ => 0x0202
  | .dig, _ => 0x0202 | .hoop, _ => 0x0301 | .hoopg, 0 => 0x0101 | .hoopg, _ => 0x0303 | .hbm, _ => 0x0303 | .bank, _ => 0x0202 | .slow, _ => 0x0303
  | .nlnk, _ => 0x0301 | .nred, _ => 0x0302 | .ncod, _ => 0x0202 | .nkey, _ => 0x0300 | .rak, _ => 0x0302 | .mgmt, _ => 0x0505 | .xlt, _ => 0x0202
  | .fmac, _ => 0x0301 | .fxp, _ => 0x0302 | .fcod, _ => 0x0202 | .fkey, _ => 0x0300 | .die, _ => 0x0301 | .d2d, _ => 0x0301 | .wale, _ => 0x0303
  | .sched, _ => 0x0202 | .row, _ => 0x0202 | .wxlt, _ => 0x0202 | .sum, _ => 0x0202 | .stake, _ => 0x0202

/-- The reset value of a field: that of its table, but PG_OWNER's depends on the page (R87). -/
def Fld.resetOf (f : Fld) (i : Nat) : Nat := if f.off = 0x038 then (if ownedAccess f.page i % 256 = 1 then 0 else 1) else f.rst

/-- What a register field of instance `i` holds. -/
def Blk.rd (b : Blk) (f : Fld) (i : Nat := 0) : Nat := SMap.get (f.resetOf i) b.regs (f.key i)

/-- A register field of instance `i` set to `v`, cut to the field's width. -/
def Blk.wr (b : Blk) (f : Fld) (v : Nat) (i : Nat := 0) : Blk :=
  { b with regs := SMap.set (f.resetOf i) b.regs (f.key i) (v % 2 ^ f.w) }

/-- A one-bit field as a truth value. -/
def Blk.on (b : Blk) (f : Fld) (i : Nat := 0) : Bool := b.rd f i != 0

/-- A counter that saturates, raised by `n`. -/
def Blk.add (b : Blk) (f : Fld) (n : Nat) (i : Nat := 0) : Blk := b.wr f (min (b.rd f i + n) f.max) i

/-- A counter that saturates, raised by 1. -/
def Blk.inc (b : Blk) (f : Fld) (i : Nat := 0) : Blk := b.add f 1 i

/-- A counter that wraps, raised by `n`. -/
def Blk.addW (b : Blk) (f : Fld) (n : Nat) (i : Nat := 0) : Blk := b.wr f (b.rd f i + n) i

/-- A field lowered by 1, at least 0. -/
def Blk.dec (b : Blk) (f : Fld) (i : Nat := 0) : Blk := b.wr f (b.rd f i - 1) i

/-- Bits of a field set. -/
def Blk.orBits (b : Blk) (f : Fld) (m : Nat) (i : Nat := 0) : Blk := b.wr f (b.rd f i ||| m) i

/-- Bits of a field cleared. -/
def Blk.clrBits (b : Blk) (f : Fld) (m : Nat) (i : Nat := 0) : Blk := b.wr f (b.rd f i - (b.rd f i &&& m)) i

/-- A field back at its reset value. -/
def Blk.rstF (b : Blk) (f : Fld) (i : Nat := 0) : Blk := b.wr f (f.resetOf i) i

/-- A 64-bit quantity in a pair of fields (R5); the low field is 32 bits wide. -/
def Blk.rd64 (b : Blk) (lo hi : Fld) (i : Nat := 0) : Nat := b.rd lo i + 2 ^ 32 * b.rd hi i

/-- A 64-bit pair set. -/
def Blk.wr64 (b : Blk) (lo hi : Fld) (v : Nat) (i : Nat := 0) : Blk := (b.wr lo (v % 2 ^ 32) i).wr hi (v / 2 ^ 32) i

/-- A 64-bit counter raised by `n`, wrapping. -/
def Blk.add64 (b : Blk) (lo hi : Fld) (n : Nat) (i : Nat := 0) : Blk := b.wr64 lo hi (b.rd64 lo hi i + n) i

/-- An address held in a pair whose low field starts at bit `lo.lo` (R6). -/
def Blk.rdAddr (b : Blk) (lo hi : Fld) (i : Nat := 0) : Nat := 2 ^ lo.lo * b.rd lo i + 2 ^ (32 + hi.lo) * b.rd hi i

/-- Whether PUT and GET counters of width `w` stand at the ring's size. -/
def ringFull (w put get size : Nat) : Bool := (put + 2 ^ w - get) % 2 ^ w ≥ size

/-- The entries between GET and PUT of counters of width `w`. -/
def ringUsed (w put get : Nat) : Nat := (put + 2 ^ w - get) % 2 ^ w

/-! ## Classes and initiators (R42–R44) -/

/-- The class bits of R44. -/
def clsV : Nat := 1
def clsO : Nat := 2
def clsP : Nat := 4
def clsS : Nat := 8
def clsH : Nat := 16

/-- Error classes of R103. -/
def eCdc : Nat := 0x01
def eEcc : Nat := 0x02
def eXlate : Nat := 0x03
def eOverrun : Nat := 0x04
def eCredit : Nat := 0x05
def eReplay : Nat := 0x06
def eCodec : Nat := 0x07
def eStale : Nat := 0x08
def eDigest : Nat := 0x09
def eAbort : Nat := 0x0A
def eAuth : Nat := 0x0B
def eDenied : Nat := 0x0C
def eAlert : Nat := 0x0D
def eSupply : Nat := 0x0E
def eThermal : Nat := 0x0F
def eRoute : Nat := 0x10
def eLate : Nat := 0x11

/-- HOOP_CORE_GROUP's field of a core (R458): the group 0–3, 4 STANDBY or 7 FAILED; core 8k + i starts in group k. -/
def coreGroupFld (c : Nat) : Fld :=
  { page := .hoop, off := 0x040 + 4 * (c / 8), lo := 4 * (c % 8), w := 4, acc := .rw, rst := c / 8 }

/-- The group of a hoop core. -/
def Blk.coreGroup (b : Blk) (c : Nat) : Nat := b.rd (coreGroupFld c)

/-- The class tag of an initiator (R42, R43): a core's follows its group, Rakline's its session; 0 where it has none. -/
def Blk.iniClass (b : Blk) : Ini → Nat
  | .core c => if b.coreGroup c = 0 then clsV else if b.coreGroup c ≤ 3 then clsO else 0
  | .rak => match b.rd R.RAK_STATUS_SESSION with | 1 => clsO | 2 => clsS | _ => 0
  | .mgmt => clsP
  | .fw _ => clsV

/-- A number for each initiator. -/
def iniIdx : Ini → Nat
  | .core c => c | .rak => 32 | .mgmt => 33 | .fw u => 34 + u

/-- The cores and firmware units that exist (R8, R42). -/
def iniOk : Ini → Bool
  | .core c => decide (c < 32) | .rak => true | .mgmt => true | .fw u => decide (u < 4)

/-! ## The window map (R105) -/

/-- The type code of a page (R105). -/
def pageType : Page → Nat
  | .mod => 0x01 | .lid => 0x02 | .pwc => 0x03 | .beat => 0x04 | .boot => 0x05 | .tel => 0x06 | .loss => 0x07 | .dig => 0x08 | .hoop => 0x10
  | .hoopg => 0x11 | .hbm => 0x20 | .bank => 0x21 | .slow => 0x22 | .nlnk => 0x30 | .nred => 0x31 | .ncod => 0x32 | .nkey => 0x33 | .fmac => 0x38
  | .fxp => 0x39 | .fcod => 0x3A | .fkey => 0x3B | .rak => 0x40 | .mgmt => 0x41 | .xlt => 0x50 | .die => 0x60 | .d2d => 0x61 | .wale => 0x70
  | .sched => 0x71 | .row => 0x72 | .wxlt => 0x73 | .sum => 0x74 | .stake => 0x75

/-- The window offset of wale `w`'s pages (global index). -/
def waleBase (w : Nat) : Nat := 0x100_0000 + 0x100_0000 * (w / 50) + 0x10_0000 + 0x4_0000 * (w % 50)

/-- The window offset of a page. -/
def pageBase : Page → Nat → Nat
  | .mod, _ => 0x000_0000 | .lid, _ => 0x000_1000 | .pwc, _ => 0x000_2000 | .beat, _ => 0x000_3000 | .boot, _ => 0x000_4000 | .tel, _ => 0x000_5000
  | .loss, _ => 0x000_6000 | .dig, _ => 0x000_7000 | .hoop, _ => 0x001_0000 | .hoopg, g => 0x001_1000 + 0x1000 * g
  | .hbm, n => 0x002_0000 + 0x1000 * n | .bank, n => 0x003_0000 + 0x1000 * n | .slow, c => 0x004_0000 + 0x1000 * c
  | .nlnk, p => 0x005_0000 + 0x4000 * p | .nred, p => 0x005_1000 + 0x4000 * p | .ncod, p => 0x005_2000 + 0x4000 * p
  | .nkey, p => 0x005_3000 + 0x4000 * p | .rak, _ => 0x007_0000 | .mgmt, _ => 0x007_1000 | .xlt, _ => 0x008_0000
  | .fmac, f => 0x009_0000 + 0x4000 * f | .fxp, f => 0x009_1000 + 0x4000 * f | .fcod, f => 0x009_2000 + 0x4000 * f
  | .fkey, f => 0x009_3000 + 0x4000 * f | .die, d => 0x100_0000 + 0x100_0000 * d
  | .d2d, k => 0x100_0000 + 0x100_0000 * (k / 4) + 0x1000 + 0x1000 * (k % 4)
  | .wale, w => waleBase w | .sched, w => waleBase w + 0x1000 | .row, w => waleBase w + 0x2000 | .wxlt, w => waleBase w + 0x3000
  | .sum, w => waleBase w + 0x4000 | .stake, s => waleBase (s / 32) + 0x2_0000 + 0x1000 * (s % 32)

/-- Whether a page instance exists (R105): a die has no link to itself. -/
def pageOk (p : Page) (i : Nat) : Bool := decide (i < p.count) && !(decide (p = .d2d) && decide (i / 4 = i % 4))

/-- The pages of one die's part of the window, from the offset in it. -/
def diePageAt (d r : Nat) : Option (Page × Nat) :=
  if r < 0x10_0000 then
    if r = 0 then some (.die, d)
    else if r ≤ 0x4000 ∧ r / 0x1000 - 1 ≠ d then some (.d2d, d * 4 + (r / 0x1000 - 1))
    else none
  else
    let w := (r - 0x10_0000) / 0x4_0000
    let k := (r - 0x10_0000) % 0x4_0000 / 0x1000
    if w ≥ 50 then none
    else match k with
      | 0 => some (.wale, d * 50 + w) | 1 => some (.sched, d * 50 + w) | 2 => some (.row, d * 50 + w) | 3 => some (.wxlt, d * 50 + w)
      | 4 => some (.sum, d * 50 + w)
      | _ => if 32 ≤ k then some (.stake, (d * 50 + w) * 32 + (k - 32)) else none

/-- The page at a window offset (a multiple of 4 KiB), if any (R84, R105). -/
def pageAt (off : Nat) : Option (Page × Nat) :=
  let k := off / 0x1000
  if off ≥ 0x800_0000 then none
  else if off ≥ 0x100_0000 then
    let d := off / 0x100_0000 - 1
    if d < 4 then diePageAt d (off % 0x100_0000 / 0x1000 * 0x1000) else none
  else if k < 8 then [Page.mod, .lid, .pwc, .beat, .boot, .tel, .loss, .dig][k]?.map (fun p => (p, 0))
  else if k = 0x10 then some (.hoop, 0)
  else if 0x11 ≤ k ∧ k < 0x15 then some (.hoopg, k - 0x11)
  else if 0x20 ≤ k ∧ k < 0x2C then some (.hbm, k - 0x20)
  else if 0x30 ≤ k ∧ k < 0x3C then some (.bank, k - 0x30)
  else if 0x40 ≤ k ∧ k < 0x42 then some (.slow, k - 0x40)
  else if 0x50 ≤ k ∧ k < 0x70 then [Page.nlnk, .nred, .ncod, .nkey][k % 4]?.map (fun p => (p, (k - 0x50) / 4))
  else if k = 0x70 then some (.rak, 0)
  else if k = 0x71 then some (.mgmt, 0)
  else if k = 0x80 then some (.xlt, 0)
  else if 0x90 ≤ k ∧ k < 0x98 then [Page.fmac, .fxp, .fcod, .fkey][k % 4]?.map (fun p => (p, (k - 0x90) / 4))
  else none

/-- PG_ACCESS of a page in the present ownership state (R96); the LID page and the key pages keep theirs in every state (R78–R80). -/
def Blk.pgAccess (b : Blk) (p : Page) (i : Nat) : Nat :=
  let a := ownedAccess p i
  let noO := a - (a &&& 0x0202)
  if p = .lid ∨ p = .nkey ∨ p = .fkey then a
  else match b.rd R.LID_OWN_STATE_STATE with
    | 1 => a
    | 0 => noO
    | 2 => if p = .pwc ∨ (p = .hoopg ∧ i = 0) then a else noO ||| 0x0808
    | _ => a - (a &&& 0x0A0A)

/-- Whether a class is kept from acting until an interrupted zeroisation has completed (R46, R77): at a start, every class but P. -/
def Blk.barred (b : Blk) (cls : Nat) : Bool := b.lid.zero.isSome && decide (b.boot.stage < 5) && cls != clsP

/-- Whether a class may read the page. -/
def Blk.mayRead (b : Blk) (cls : Nat) (p : Page) (i : Nat) : Bool := bits (b.pgAccess p i) 8 8 &&& cls != 0 && !b.barred cls

/-- Whether a class may write the page. -/
def Blk.mayWrite (b : Blk) (cls : Nat) (p : Page) (i : Nat) : Bool := bits (b.pgAccess p i) 0 8 &&& cls != 0 && !b.barred cls

/-! ## Block states (R86, R97) -/

/-- PG_STATE codes (R86). -/
def sOff : Nat := 0
def sReset : Nat := 1
def sReady : Nat := 2
def sServing : Nat := 3
def sQuiescing : Nat := 4
def sIsolated : Nat := 5
def sTesting : Nat := 6
def sFailed : Nat := 7

/-- A mask from bit numbers. -/
def maskOf (l : List Nat) : Nat := l.foldl (fun m i => m ||| 2 ^ i) 0

/-- PG_STATE of a page. -/
def Blk.st (b : Blk) (p : Page) (i : Nat := 0) : Nat := b.rd (R.PG_STATE_STATE p) i

/-- Whether a page is in SERVING. -/
def Blk.serving (b : Blk) (p : Page) (i : Nat := 0) : Bool := b.st p i == sServing

/-- Whether a page's accepted work runs on (R98): it is in SERVING or QUIESCING. -/
def Blk.runsOn (b : Blk) (p : Page) (i : Nat := 0) : Bool := b.st p i == sServing || b.st p i == sQuiescing

/-- The repair map in force: the copy with the newer sequence (R448). -/
def Flash.map (f : Flash) : Option RepairMap :=
  match f.repairA, f.repairB with
  | some a, some c => if c.seq < a.seq then some a else some c
  | some a, none => some a
  | none, c => c

/-- The role that the configuration record gives a wale (R9, R450): enabled, or an unused spare. -/
def Flash.cfgRole (f : Flash) (w : Nat) : Nat := if f.spares.contains w then 1 else 0

/-- The roles of R457: 0 enabled, 1 spare unused, 2 spare in use, 3 retired. The register holds how far a wale's role has left that of the record. -/
def Blk.role (b : Blk) (w : Nat) : Nat := if b.rd R.WALE_STATUS_ROLE w = 0 then b.flash.cfgRole w else b.rd R.WALE_STATUS_ROLE w

/-- Whether a wale is enabled (R9, R450): in the record's enabled set and not retired, or a spare in use. -/
def Blk.waleOn (b : Blk) (w : Nat) : Bool := decide (w < 200) && (b.role w == 0 || b.role w == 2)

/-- BEAT_COUNT (R106). -/
def Blk.beatCount (b : Blk) : Nat := b.rd64 R.BEAT_COUNT_LO R.BEAT_COUNT_HI

/-- What the module sends, appended. -/
def Blk.send (b : Blk) (o : Out) : Blk := { b with io := { b.io with out := b.io.out ++ [o] } }

/-- The next free value, and the block after it is drawn (log entry 9). -/
def Blk.draw (b : Blk) : Nat × Blk := (Config.free b.io.fv, { b with io := { b.io with fv := b.io.fv + 1 } })

/-- Entropy drawn: the counter behind nonces and secrets moves on. -/
def Blk.entUsed (b : Blk) : Blk := { b with io := { b.io with ent := b.io.ent + 1 } }

/-- The ownership state code (R78): 0 BLANK, 1 OWNED, 2 SERVICE, 3 SAFE. -/
def Blk.own (b : Blk) : Nat := b.rd R.LID_OWN_STATE_STATE

end Sys2Proof.Machine
end

