-- ==== Sys2Proof/Machine/Memory.lean ====
section
/-! DEFINITION. Physical memory (R234–R237, R252–R255, R506), its ciphers (R55–R57), the page-table walk (R240–R243) and the translation caches (R244). -/

namespace Sys2Proof.Machine

/-! ## Regions (R234) -/

/-- What a device physical address names. -/
inductive Region where
  | hbm (n : Nat) | slow (c : Nat) | waleSram (w : Nat) | waleSide (w : Nat) | stakeSram (j : Nat) | reg | none
  deriving DecidableEq, Repr

def hbmEnd : Nat := 0x090_0000_0000
def slowLo : Nat := 0x100_0000_0000
def slowEnd : Nat := 0x200_0000_0000
def waleLo : Nat := 0x200_0000_0000
def waleEnd : Nat := 0x200_C800_0000
def stakeLo : Nat := 0x300_0000_0000
def stakeEnd : Nat := 0x301_9000_0000
def regLo : Nat := 0x3F0_0000_0000
def regEnd : Nat := 0x3F0_0800_0000
/-- The firmware region (R237). -/
def fwLo : Nat := 0x08F_8000_0000

/-- The region of an address (R234, R235). -/
def region (pa : Nat) : Region :=
  if pa < hbmEnd then .hbm (pa / 0x00C_0000_0000)
  else if slowLo ≤ pa ∧ pa < slowEnd then .slow (pa / 4096 % 2)
  else if waleLo ≤ pa ∧ pa < waleEnd then
    let r := (pa - waleLo) % 0x100_0000
    if r < 0x80_0000 then .waleSram ((pa - waleLo) / 0x100_0000)
    else if r < 0x90_0000 then .waleSide ((pa - waleLo) / 0x100_0000) else .none
  else if stakeLo ≤ pa ∧ pa < stakeEnd then
    if (pa - stakeLo) % 0x10_0000 < 0x4_0000 then .stakeSram ((pa - stakeLo) / 0x10_0000) else .none
  else if regLo ≤ pa ∧ pa < regEnd then .reg
  else .none

/-- Whether the address lies behind an inline engine (R55). -/
def isDram (pa : Nat) : Bool := match region pa with | .hbm _ => true | .slow _ => true | _ => false

/-- Whether an address lies in the firmware region (R237). -/
def isFw (pa : Nat) : Bool := decide (fwLo ≤ pa) && decide (pa < hbmEnd)

/-- The unit of ECC at an address: the 64-byte line of HBM and the slow tier, the 8-byte word of SRAM (R252, R253). -/
def eccUnit (pa : Nat) : Nat := if isDram pa then 64 else 8

/-- The base of the ECC unit that holds an address. -/
def eccBase (pa : Nat) : Nat := pa / eccUnit pa * eccUnit pa

/-- The physical window of a wale and of a stake (R132, R234). -/
def waleWin (w : Nat) : Nat := waleLo + 0x100_0000 * w
def stakeWin (j : Nat) : Nat := stakeLo + 0x10_0000 * j

/-- Whether a block's crossings are closed (R128) or the block is fenced (R100): OFF, RESET, ISOLATED or FAILED. -/
def Blk.closedAt (b : Blk) (p : Page) (i : Nat) : Bool := [sOff, sReset, sIsolated, sFailed].contains (b.st p i)

/-- Whether the SRAM windows of a wale answer: it is enabled (R9, R235) and not closed (R100, R128). -/
def Blk.windowOk (b : Blk) (w : Nat) : Bool := b.waleOn w && !b.closedAt .wale w

/-- The class ACCESS_DENIED where an access of a class may not reach an address (R49, R235, R237), or the block that holds it is closed or fenced (R100, R128);
0 where it may. -/
def Blk.memGate (b : Blk) (cls pa : Nat) : Nat :=
  match region pa with
  | .hbm n => if b.closedAt .hbm n || (cls == clsV) != isFw pa then eDenied else 0
  | .slow c => if b.closedAt .slow c || cls == clsV then eDenied else 0
  | .waleSram w => if b.windowOk w && (cls == clsO || cls == clsH) then 0 else eDenied
  | .waleSide w => if b.windowOk w && !b.closedAt .row w && (cls == clsO || cls == clsH) then 0 else eDenied
  | .stakeSram j => if b.windowOk (j / 32) && !b.closedAt .stake j && (cls == clsO || cls == clsH) then 0 else eDenied
  | .reg | .none => eDenied

/-- The gate of an access of `n` bytes: both of its ends are checked; no region of R234 ends inside an access that starts and ends in windows that answer. -/
def Blk.memGateN (b : Blk) (cls pa n : Nat) : Nat :=
  if b.memGate cls pa ≠ 0 then b.memGate cls pa else b.memGate cls (pa + (n - 1))

/-! ## Bytes -/

/-- The key generation of a memory domain (R53, R58). The key of the cold start counts as 0 (log entry 48). -/
def Blk.domGen (b : Blk) (d : Nat) : Nat := SMap.get 0 b.lid.domGen d

/-- A memory domain's key of some generation (R53). -/
def Mem.key (m : Mem) (dom gen : Nat) : Nat := Config.domainKey m.power dom gen

/-- The tweak of the data unit that holds an address (R56): device physical address bits [41:6], zero-extended. -/
def tweak (pa : Nat) : Nat := bits pa 6 36

/-- Byte `k` of a little-endian number. -/
def byteOf (v k : Nat) : Byte := BitVec.ofNat 8 (v / 256 ^ k)

/-- The byte that the cells of an address hold, in the plaintext of whoever wrote it. -/
def Mem.raw (m : Mem) (pa : Nat) : Byte := SMap.get 0 m.bytes pa

/-- The canonical form of memory: no address listed twice, keys rising, nothing listed that reads as an unlisted address does. -/
def Mem.wf (m : Mem) : Bool := SMap.wf 0 m.bytes && SMap.wf m.base m.lines && SMap.wf false m.ue

/-- What the line that holds an address holds. -/
def Mem.line (m : Mem) (pa : Nat) : LineSt := SMap.get m.base m.lines (pa / 64)

/-- Bytes `l`, first at the lowest place, as a number (little-endian). -/
def leNat : List Byte → Nat
  | [] => 0
  | x :: l => x.toNat + 256 * leNat l

/-- A number as `n` little-endian bytes. -/
def natLe : (n v : Nat) → List Byte
  | 0, _ => []
  | n + 1, v => BitVec.ofNat 8 v :: natLe n (v / 256)

/-- The 16-byte cipher block at an address as a number, in the plaintext of whoever wrote it (R56). -/
def Mem.cipherBlock (m : Mem) (pa : Nat) : Nat := leNat ((List.range 16).map (fun k => m.raw (pa / 16 * 16 + k)))

/-- The ciphertext of a 16-byte block under a key (R56): its data unit's tweak and its place in the unit. -/
def xtsEnc (key pa block : Nat) : Nat := Config.xtsEnc key (tweak pa) (pa / 16 % 4) block

/-- What the ciphertext of a 16-byte block decrypts to under a key (R56, R57). -/
def xtsDec (key pa block : Nat) : Nat := Config.xtsDec key (tweak pa) (pa / 16 % 4) block

/-- The ciphertext that the cells of the block at an address hold (R55, R56). -/
def Mem.cipherAt (m : Mem) (pa : Nat) : Nat :=
  match m.line pa with
  | .keyed d g => xtsEnc (m.key d g) pa (m.cipherBlock pa)
  | .zeroCipher => 0
  | .cold => Config.coldCipher m.power (pa / 16)

/-- The byte that a read of an address under a domain's key returns (R55–R57, R76, R506): the ciphertext decrypted under that key, which is the plaintext again
where the same key wrote it. SRAM is not encrypted (R58). -/
def Blk.byteAt (b : Blk) (dom pa : Nat) : Byte :=
  if isDram pa then
    match b.mem.line pa with
    | .keyed d g =>
      if d = dom ∧ g = b.domGen dom then b.mem.raw pa else byteOf (xtsDec (b.mem.key dom (b.domGen dom)) pa (b.mem.cipherAt pa)) (pa % 16)
    | _ => byteOf (xtsDec (b.mem.key dom (b.domGen dom)) pa (b.mem.cipherAt pa)) (pa % 16)
  else b.mem.raw pa

/-- Whether the ECC unit that holds an address reads as uncorrectable (R252–R255, R506). -/
def Blk.ueAt (b : Blk) (pa : Nat) : Bool :=
  SMap.get false b.mem.ue (eccBase pa) || (isDram pa && b.mem.line pa == .cold && Config.coldUe b.mem.power (pa / 64 * 64))

/-- The first address of `[pa, pa + n)` whose ECC unit is uncorrectable. -/
def Blk.firstUe (b : Blk) (pa n : Nat) : Option Nat := ((List.range n).map (pa + ·)).find? b.ueAt

/-- `n` bytes read under a domain's key, lowest address first. -/
def Blk.readBytes (b : Blk) (dom pa n : Nat) : List Byte := (List.range n).map (fun k => b.byteAt dom (pa + k))

/-- `n` bytes read as a little-endian number. -/
def Blk.readNat (b : Blk) (dom pa n : Nat) : Nat := leNat (b.readBytes dom pa n)

/-- Bytes stored from an address on. -/
def Mem.storeRaw (m : Mem) (pa : Nat) : List Byte → Mem
  | [] => m
  | x :: l => Mem.storeRaw { m with bytes := SMap.set 0 m.bytes pa x } (pa + 1) l

/-- Bytes written inside one ECC unit: a partial write of a unit merges with what the unit reads as under the writer's key, and the whole unit is then correct
and ciphered under that key (R252, R254). -/
def Blk.writeUnit (b : Blk) (dom pa : Nat) (l : List Byte) : Blk :=
  let base := eccBase pa
  let u := eccUnit pa
  let keyed := isDram pa && !(b.mem.line pa == .keyed dom (b.domGen dom))
  let m0 := if keyed && l.length < u then b.mem.storeRaw base (b.readBytes dom base u) else b.mem
  let m1 := m0.storeRaw pa l
  let m2 := { m1 with ue := SMap.set false m1.ue base false }
  { b with mem := if isDram pa then { m2 with lines := SMap.set m2.base m2.lines (pa / 64) (.keyed dom (b.domGen dom)) } else m2 }

/-- The bytes written unit by unit in ascending order. A write of part of an uncorrectable unit is refused with ECC_UNCORRECTED at its address, and the units
before it stay written (R252, R254; the order among the units of one access is the model's, log entry 5). `fuel` bounds the units. -/
def Blk.writeGo (b : Blk) (dom : Nat) : (fuel pa : Nat) → List Byte → Blk × Option Nat
  | 0, _, _ => (b, none)
  | fuel + 1, pa, l =>
    match l with
    | [] => (b, none)
    | _ :: _ =>
      let n := min (eccUnit pa - pa % eccUnit pa) l.length
      if n < eccUnit pa ∧ b.ueAt pa then (b, some pa)
      else (b.writeUnit dom pa (l.take n)).writeGo dom fuel (pa + n) (l.drop n)

/-- Bytes written from an address on under a domain's key. -/
def Blk.writeBytes (b : Blk) (dom pa : Nat) (l : List Byte) : Blk × Option Nat := b.writeGo dom l.length pa l

/-- A little-endian number of `n` bytes written. -/
def Blk.writeNat (b : Blk) (dom pa n v : Nat) : Blk := (b.writeBytes dom pa (natLe n v)).1

/-- The same, left out as a whole where a unit of it is uncorrectable. -/
def Blk.tryNat (b : Blk) (dom pa n v : Nat) : Blk :=
  match b.writeBytes dom pa (natLe n v) with
  | (b', none) => b'
  | (_, some _) => b

/-- An ECC unit marked uncorrectable. -/
def Blk.markUe (b : Blk) (pa : Nat) : Blk := { b with mem := { b.mem with ue := SMap.set false b.mem.ue (eccBase pa) true } }

/-- A range of SRAM zeroed: no byte listed, no unit uncorrectable (R233, R76). -/
def Blk.zeroRange (b : Blk) (lo n : Nat) : Blk :=
  { b with mem := { b.mem with bytes := b.mem.bytes.filter (fun e => !(decide (lo ≤ e.1) && decide (e.1 < lo + n))),
                               ue := b.mem.ue.filter (fun e => !(decide (lo ≤ e.1) && decide (e.1 < lo + n))) } }

/-! ## The walk (R240–R243) -/

/-- Address bits that an entry at a level covers (R240): L3 39, L2 30, L1 21, L0 16. -/
def levelShift : Nat → Nat
  | 0 => 16 | 1 => 21 | 2 => 30 | _ => 39

/-- Index bits at a level (R240). -/
def levelIdx : Nat → Nat
  | 0 => 5 | _ => 9

/-- Bytes of a table at a level (R240). -/
def tableSize : Nat → Nat
  | 0 => 256 | _ => 4096

/-- ADDR of an entry (R241), in place. -/
def pteAddr (e : Nat) : Nat := bits e 8 34 * 256

/-- Detail 0x04 (R242): the leaf's page lies in the register window or, for a class other than V (R237; log entry 16), in the firmware region, or outside every
region. -/
def pageBad (cls base size : Nat) : Bool :=
  let inside := fun lo hi => decide (lo ≤ base) && decide (base + size ≤ hi)
  !(inside 0 hbmEnd || inside slowLo slowEnd || inside waleLo waleEnd || inside stakeLo stakeEnd)
    || (cls != clsV && decide (base < hbmEnd) && decide (fwLo < base + size))

/-- The checks of a leaf on an access, in the order of R242: 0x04, 0x05, 0x06; 0 where all pass. -/
def leafDetail (cls : Nat) (write : Bool) (size e : Nat) : Nat :=
  if pageBad cls (pteAddr e) size then 0x04
  else if (cls == clsV) != (bits e 4 3 == 0) then 0x05
  else if !bit e 2 || (write && !bit e 3) then 0x06
  else 0

/-- The checks of one entry at a level, in the order of R242; 0 where all pass. -/
def entryDetail (cls : Nat) (write : Bool) (level e : Nat) : Nat :=
  if !bit e 0 then 0x01
  else if bit e 7 || bits e 42 22 != 0 || (level == 3 && bit e 1) || (level == 0 && !bit e 1) then 0x02
  else if bit e 1 then
    if pteAddr e % 2 ^ levelShift level != 0 then 0x02 else leafDetail cls write (2 ^ levelShift level) e
  else if bits e 2 5 != 0 || pteAddr e % tableSize (level - 1) != 0 then 0x02
  else if pteAddr e + tableSize (level - 1) > fwLo then 0x03
  else 0

/-- A walk from the table of a level on: the non-leaf entries it read, and its outcome. Table reads use the domain of XLT_PT_DOMAIN; an uncorrectable table read
ends the walk with ECC_UNCORRECTED (R243). -/
def Blk.walkGo (b : Blk) (cls : Nat) (write : Bool) (va : Nat) : (level table : Nat) → List WalkEnt × Xlate
  | level, table =>
    let ea := table + 8 * (va / 2 ^ levelShift level % 2 ^ levelIdx level)
    if b.ueAt ea then ([], .bad eEcc 0 0 ea)
    else
      let e := b.readNat (b.rd R.XLT_PT_DOMAIN) ea 8
      let d := entryDetail cls write level e
      if d ≠ 0 then ([], .bad eXlate d e ea)
      else if bit e 1 then
        ([], .ok (pteAddr e + va % 2 ^ levelShift level) (bits e 4 3) (levelShift level) e)
      else
        match level with
        | 0 => ([], .bad eXlate 0x02 e ea)
        | l + 1 =>
          let r := b.walkGo cls write va l (pteAddr e)
          (⟨l, va / 2 ^ levelShift (l + 1) * 2 ^ levelShift (l + 1), pteAddr e⟩ :: r.1, r.2)

/-- The root table (R263). -/
def Blk.xltRoot (b : Blk) : Nat := b.rdAddr R.XLT_ROOT_LO_ADDR R.XLT_ROOT_HI

/-- A walk through a walk cache: with XLT_ROOT.VALID 0 it fails (R242, R263; V and O walk the same root); it starts at the lowest level whose table the cache names
(R244), otherwise at the root. -/
def Blk.walk (b : Blk) (x : Xl) (cls : Nat) (write : Bool) (va : Nat) : List WalkEnt × Xlate :=
  let hit := fun l => x.walks.find? (fun w => w.level == l && w.va == va / 2 ^ levelShift (l + 1) * 2 ^ levelShift (l + 1))
  if !b.on R.XLT_ROOT_LO_VALID then ([], .bad eXlate 0x01 0 0)
  else match hit 0, hit 1, hit 2 with
  | some w, _, _ => b.walkGo cls write va 0 w.table
  | none, some w, _ => b.walkGo cls write va 1 w.table
  | none, none, some w => b.walkGo cls write va 2 w.table
  | none, none, none => if b.xltRoot + 4096 > fwLo then ([], .bad eXlate 0x03 0 0) else b.walkGo cls write va 3 b.xltRoot

/-! ## The caches (R244) -/

/-- The module translation cache's number beside those of wales 0–199. -/
def modXl : Nat := 200

def Blk.xl (b : Blk) (u : Nat) : Xl := SMap.get {} b.xlt.caches u

def Blk.setXl (b : Blk) (u : Nat) (x : Xl) : Blk := { b with xlt := { b.xlt with caches := SMap.set {} b.xlt.caches u x } }

/-- The leaf of a cache that maps an address. -/
def Xl.find (x : Xl) (va : Nat) : Option Leaf := x.leafs.find? (fun l => va / 2 ^ l.bits * 2 ^ l.bits == l.va)

/-- A list with an entry put in front; where the cache is full, or its sets conflict, one entry leaves, which one being free (R244; log entry 13). -/
def cachePut {α : Type} (victim : Option Nat) (cap : Nat) (l : List α) (x : α) : List α :=
  let l' := match victim with
    | some v => if l.length = 0 then l else l.eraseIdx (v % l.length)
    | none => if cap ≤ l.length then l.dropLast else l
  x :: l'

/-- Leaf entries of a cache: 1,024 per wale, 4,096 in the module's (R244). -/
def leafCap (u : Nat) : Nat := if u = modXl then 4096 else 1024

/-- Walk-cache entries: 64 per wale, 256 in the module's (R244). -/
def walkCap (u : Nat) : Nat := if u = modXl then 256 else 64

/-- A free victim for a cache of `n` entries. -/
def Blk.victim (b : Blk) (n : Nat) : Option Nat × Blk :=
  (Config.cacheVictim b.io.fv n, { b with io := { b.io with fv := b.io.fv + 1 } })

/-- A cache after a walk: the leaf and the non-leaf entries it read go in. The caches hold no failed walks (R244). -/
def Blk.xlFill (b : Blk) (u va : Nat) (ws : List WalkEnt) (r : Xlate) : Blk :=
  match r with
  | .bad .. => b
  | .ok _ _ bts pte =>
    let x := b.xl u
    let v := b.victim x.leafs.length
    let v2 := v.2.victim x.walks.length
    let ws' := ws.filter (fun w => !(x.walks.any (fun y => y.level == w.level && y.va == w.va)))
    v2.2.setXl u
      { leafs := cachePut v.1 (leafCap u) (x.leafs.filter (fun l => !(l.va == va / 2 ^ bts * 2 ^ bts && l.bits == bts))) ⟨va / 2 ^ bts * 2 ^ bts, bts, pte⟩,
        walks := ws'.foldl (fun acc w => cachePut v2.1 (walkCap u) acc w) x.walks }

/-- One address translated by the translator `u` for a class: a hit on a cached leaf that permits the access, or a walk, which drops a cached leaf that did not
permit it (R244). A wale's page counts hits and walks (R265). -/
def Blk.xlate1 (b : Blk) (u cls : Nat) (write : Bool) (va : Nat) : Blk × Xlate :=
  let x := b.xl u
  let hit := match x.find va with
    | some l => if leafDetail cls write (2 ^ l.bits) l.pte = 0 then some l else none
    | none => none
  match hit with
  | some l =>
    ((if u = modXl then b else b.add64 R.WXLT_HIT_LO R.WXLT_HIT_HI 1 u), .ok (pteAddr l.pte + va % 2 ^ l.bits) (bits l.pte 4 3) l.bits l.pte)
  | none =>
    let x' := { x with leafs := x.leafs.filter (fun l => va / 2 ^ l.bits * 2 ^ l.bits != l.va) }
    let b1 := b.setXl u x'
    let r := b1.walk x' cls write va
    let b2 := if u = modXl then b1 else b1.inc R.WXLT_MISS_CNT u
    let b3 := b2.xlFill u va r.1 r.2
    match r.2 with
    | .ok .. => (b3, r.2)
    | .bad .. => ((if u = modXl then b3 else b3.inc R.WXLT_FAULT_CNT u), r.2)

/-- A piece of a translated range. -/
structure Piece where
  va : Nat
  pa : Nat
  len : Nat
  dom : Nat
  deriving DecidableEq, Repr

/-- A virtual range translated page by page. A range that crosses into a page that fails answers detail 0x07 (R242). `fuel` bounds the pages. -/
def Blk.xlateGo (u cls : Nat) (write : Bool) : (fuel : Nat) → Blk → (first : Bool) → (va n : Nat) → Blk × Except Xlate (List Piece)
  | 0, b, _, _, _ => (b, .ok [])
  | fuel + 1, b, first, va, n =>
    if n = 0 then (b, .ok [])
    else
      match b.xlate1 u cls write va with
      | (b', .bad c d e a) => (b', .error (.bad c (if c = eXlate && !first then 0x07 else d) e a))
      | (b', .ok pa dom bts _) =>
        let k := min n (2 ^ bts - va % 2 ^ bts)
        match Blk.xlateGo u cls write fuel b' false (va + k) (n - k) with
        | (b'', .error e) => (b'', .error e)
        | (b'', .ok ps) => (b'', .ok (⟨va, pa, k, dom⟩ :: ps))

/-- A virtual range of `n` bytes translated by the translator `u`. -/
def Blk.xlateRange (b : Blk) (u cls : Nat) (write : Bool) (va n : Nat) : Blk × Except Xlate (List Piece) :=
  Blk.xlateGo u cls write (n / 65536 + 2) b true va n

/-! ## Access outcomes -/

/-- What an access that failed reports: class, detail, virtual and physical address, entry. -/
structure Fail where
  cls : Nat
  detail : Nat := 0
  va : Nat := 0
  pa : Nat := 0
  pte : Nat := 0
  deriving DecidableEq, Repr

/-- The UE counters and the address registers of the controller whose line a requester found uncorrectable (R255, R266). -/
def Blk.noteUe (b : Blk) (pa : Nat) : Blk :=
  match region pa with
  | .hbm n => ((b.inc R.HBM_UE_CNT n).wr64 R.HBM_UE_ADDR_LO R.HBM_UE_ADDR_HI (pa / 64 * 64) n)
  | .slow c => ((b.inc R.SLOW_UE_CNT c).wr64 R.SLOW_UE_ADDR_LO R.SLOW_UE_ADDR_HI (pa / 64 * 64) c)
  | _ => b

/-- The virtual address of a byte of a piece; 0 for a local or physical piece, which has none (R258). -/
def Piece.vaOf (p : Piece) (a : Nat) : Nat := if p.va = 0 then 0 else p.va + (a - p.pa)

/-- The pieces of a translated range read under each leaf's domain. -/
def Blk.readPieces (b : Blk) (cls : Nat) : List Piece → Except Fail (List Byte)
  | [] => .ok []
  | p :: ps =>
    if b.memGateN cls p.pa p.len ≠ 0 then .error { cls := eDenied, va := p.va, pa := p.pa }
    else match b.firstUe p.pa p.len with
      | some a => .error { cls := eEcc, va := p.vaOf a, pa := a }
      | none =>
        match b.readPieces cls ps with
        | .error e => .error e
        | .ok l => .ok (b.readBytes p.dom p.pa p.len ++ l)

/-- Bytes written over the pieces of a translated range, piece by piece. -/
def Blk.writePieces (cls : Nat) : List Piece → Blk → List Byte → Blk × Option Fail
  | [], b, _ => (b, none)
  | p :: ps, b, l =>
    if b.memGateN cls p.pa p.len ≠ 0 then (b, some { cls := eDenied, va := p.va, pa := p.pa })
    else match b.writeBytes p.dom p.pa (l.take p.len) with
      | (b', some a) => (b', some { cls := eEcc, va := p.vaOf a, pa := a })
      | (b', none) => Blk.writePieces cls ps b' (l.drop p.len)

/-- A translation's failure as a report. -/
def xlateFail (va : Nat) : Xlate → Fail
  | .bad c d e a => { cls := c, detail := d, va := va, pa := a, pte := e }
  | .ok .. => { cls := 0 }

/-- A virtual range read by a class through the translator `u`. -/
def Blk.readVa (b : Blk) (u cls va n : Nat) : Blk × Except Fail (List Byte) :=
  match b.xlateRange u cls false va n with
  | (b', .error e) => (b', .error (xlateFail va e))
  | (b', .ok ps) => (b', b'.readPieces cls ps)

/-- Bytes written at a virtual address by a class through the translator `u`; `dom`, where given, replaces the leaf's domain (R71, R259, R460). -/
def Blk.writeVa (b : Blk) (u cls va : Nat) (l : List Byte) (dom : Option Nat := none) : Blk × Option Fail :=
  match b.xlateRange u cls true va l.length with
  | (b', .error e) => (b', some (xlateFail va e))
  | (b', .ok ps) => Blk.writePieces cls (ps.map (fun p => { p with dom := dom.getD p.dom })) b' l

/-- A physical range read by a class under a domain's key. -/
def Blk.readPa (b : Blk) (cls dom pa n : Nat) : Except Fail (List Byte) := b.readPieces cls [⟨0, pa, n, dom⟩]

/-- Bytes written at a physical address by a class under a domain's key. -/
def Blk.writePa (b : Blk) (cls dom pa : Nat) (l : List Byte) : Blk × Option Fail := Blk.writePieces cls [⟨0, pa, l.length, dom⟩] b l

end Sys2Proof.Machine
end

