-- ==== Sys2Proof/Machine/RakWire.lean ====
section
/-! DEFINITION. What Rakline carries in bytes (R462, R465, R467, R469–R473): frames, their seal, the layouts of commands and messages; the CRC-32C of every link. -/

namespace Sys2Proof.Machine

/-! ## Bytes -/

/-- `n` bytes at an offset, as a little-endian number. -/
def fieldAt (l : List Byte) (off n : Nat) : Nat := leNat ((l.drop off).take n)

/-- CRC-32C: one bit, one byte, a string of bytes. -/
def crc32cBit (c : Nat) : Nat := if bit c 0 then (c / 2) ^^^ 0x82F6_3B78 else c / 2
def crc32cByte (c : Nat) (x : Byte) : Nat := (List.range 8).foldl (fun c _ => crc32cBit c) (c ^^^ x.toNat)
def crc32c (l : List Byte) : Nat := l.foldl crc32cByte 0xFFFF_FFFF ^^^ 0xFFFF_FFFF

/-- The 16 bytes of an event record (R472). -/
def EvtRec.bytes (r : EvtRec) : List Byte :=
  natLe 4 (pageBase r.page r.inst) ++ natLe 4 r.event ++ natLe 4 r.errFirst ++ natLe 4 r.beat

/-! ## Commands from the node (R467, R469) -/

/-- The head of a REG command, and a command of two or more registers behind it (R467). -/
def regHead (op count tag off : Nat) : List Byte := natLe 1 op ++ natLe 1 count ++ natLe 2 tag ++ natLe 4 off ++ natLe 8 0

/-- The fields of a REG command (R467): COUNT, TAG, OFFSET, the data of a WRITE. -/
def regCount (m : List Byte) : Nat := fieldAt m 1 1
def regTag (m : List Byte) : Nat := fieldAt m 2 2
def regOff (m : List Byte) : Nat := fieldAt m 4 4
def regData (m : List Byte) : List Nat := (List.range (regCount m)).map (fun k => fieldAt m (16 + 4 * k) 4)

/-- Whether a frame's payload is a REG command of an OP. -/
def regCmd (op : Nat) (m : List Byte) : Bool := decide (16 ≤ m.length) && decide (m.length ≤ 4096) && fieldAt m 0 1 == op

/-- Whether a REG command has the form that R467 gives, `data` words behind its head. -/
def regForm (m : List Byte) (data : Nat) : Bool :=
  regOff m % 4 == 0 && decide (regOff m < 2 ^ 27) && decide (1 ≤ regCount m) && decide (regCount m ≤ 64) && fieldAt m 8 8 == 0
    && m.length == 16 + 4 * data

/-- A BULK command (R469): 32 bytes with OP, TRANSFER, virtual address and length; the spec gives bytes 2–7 and 24–31 no field. -/
def bulkCmd (op : Nat) (m : List Byte) : Bool := m.length == 32 && fieldAt m 0 1 == op
def bulkK (m : List Byte) : Nat := fieldAt m 1 1
def bulkVa (m : List Byte) : Nat := fieldAt m 8 8 % 2 ^ 48
def bulkLen (m : List Byte) : Nat := fieldAt m 16 8

/-- A BULK data frame (R469): a 16-byte sub-header and at most 4,080 bytes. -/
def bulkFrameOk (m : List Byte) : Bool := decide (16 ≤ m.length) && decide (m.length ≤ 4096)

/-! ## Messages to the node -/

/-- The payload bytes of a message (R63, R465, R467–R472). -/
def RakMsg.size : RakMsg → Nat
  | .regResp _ _ _ _ d => 16 + 4 * d.length
  | .bulkData _ _ d | .exportData d => 16 + d.length
  | .sessionReply .. => 1568 + 50624
  | .quote .. => 50624
  | .nonce _ => 32
  | .console d => d.length
  | _ => 16

/-- The frames that a message spans, at most 4,096 bytes each (R462, R473). -/
def RakMsg.frames : RakMsg → Nat
  | .certs _ => 1 + Config.certFrames
  | m => max 1 ((m.size + 4095) / 4096)

/-- A message's number among its kinds, and its fields as numbers, for what the spec gives no layout. -/
def RakMsg.nats : RakMsg → Nat × List Nat
  | .ack n => (0, [n]) | .nak n => (1, [n]) | .credit c n => (2, [c, n]) | .bulkEnd k c n => (3, [k, c, n]) | .bulkData k o _ => (4, [k, o])
  | .exportData _ => (5, []) | .nonce n => (6, [n]) | .sessionReply c q s => (7, c :: s :: q.map (·.toNat)) | .quote q s => (8, s :: q.map (·.toNat))
  | .certs c => (9, [c]) | .accepted => (10, []) | .merged => (11, []) | .authFail => (12, []) | _ => (13, [])

/-- Bytes of a message that no rule lays out (log entry 7). -/
def RakMsg.free (m : RakMsg) (part n : Nat) : List Byte := natLe n (Config.recordBody (64 + m.nats.1) (part :: m.nats.2))

/-- The payload of frame `j` of a message. REG responses, data, events and console bytes have a layout (R467, R469, R471, R472, R474); a completion has 16 bytes
(R470); what LINK and ATTEST frames hold is free. -/
def RakMsg.payload (m : RakMsg) (j : Nat) : List Byte :=
  match m with
  | .regResp op status tag index data => regHead op status tag index ++ data.flatMap (natLe 4)
  | .bulkData k off data => natLe 1 k ++ m.free 0 7 ++ natLe 8 off ++ data
  | .exportData data => natLe 1 0xFF ++ m.free 0 15 ++ data
  | .bulkEnd .. => m.free 0 16
  | .event r => r.bytes
  | .console data => data
  | m => m.free j (Config.recordBody 63 (j :: m.nats.2) % 4097)

/-- The clear header of a frame (R462). -/
def rakHeader (chan : Nat) (clear : Bool) (len seq : Nat) : List Byte := natLe 1 1 ++ natLe 1 (chan + 128 * b2n clear) ++ natLe 2 len ++ natLe 4 0 ++ natLe 8 seq

/-- A frame from the module (R462): the header, which is authenticated; the payload and its tag under the session key and the nonce of direction 1 and SEQUENCE, or
the payload and 16 zero bytes where CLEAR is 1; the CRC. -/
def rakBytes (key chan : Nat) (clear : Bool) (seq : Nat) (payload : List Byte) : List Byte :=
  let h := rakHeader chan clear payload.length seq
  let l := h ++ (if clear then payload ++ natLe 16 0 else natLe (payload.length + 16) (Config.gcm key (2 ^ 95 + seq % 2 ^ 64) h payload))
  l ++ natLe 4 (crc32c l)

/-- The frames of a message from a SEQUENCE on. -/
def RakMsg.wire (m : RakMsg) (key chan : Nat) (clear : Bool) (seq : Nat) : List (List Byte) :=
  (List.range m.frames).map (fun j => rakBytes key chan clear (seq + j) (m.payload j))

/-! ## Frames from the node (R462, R463) -/

/-- The header of a frame from the node: its channel, CLEAR, its SEQUENCE. -/
def rakChan (h : List Byte) : Nat := fieldAt h 1 1 % 8
def rakClear (h : List Byte) : Bool := bit (fieldAt h 1 1) 7
def rakSeq (h : List Byte) : Nat := fieldAt h 8 8

/-- Whether 16 bytes have the layout of a frame's header (R462). -/
def rakHdrOk (h : List Byte) : Bool :=
  h.length == 16 && fieldAt h 0 1 == 1 && bits (fieldAt h 1 1) 3 4 == 0 && decide (fieldAt h 2 2 ≤ 4096) && fieldAt h 4 4 == 0

end Sys2Proof.Machine
end

