-- ==== Sys2Proof/Machine/Flags.lean ====
section
/-! DEFINITION. What the module reports: PG_EVENT and its delivery (R86, R90–R92, R460, R472), error capture (R91), both logs (R70, R71), fault records and their
queues (R258–R261). -/

namespace Sys2Proof.Machine

/-! ## Rakline frames out (R462, R464) -/

/-- A message sent on Rakline: its frames take the next SEQUENCEs, are sealed under the session key and stay in the replay buffer until
acknowledged; SAFE sends nothing but LINK frames (R463). -/
def Blk.rakSend (b : Blk) (chan : Nat) (clear : Bool) (m : RakMsg) : Blk :=
  if b.own = 3 ∧ chan ≠ 0 then b
  else
    let seq := b.rak.txSeq
    let b := b.add64 R.RAK_TX_FRAMES_LO R.RAK_TX_FRAMES_HI m.frames
    let w := m.wire b.rak.key chan clear seq
    (Blk.send { b with rak := { b.rak with txSeq := seq + m.frames, replay := b.rak.replay ++ [RakFrame.mk chan clear seq m w 0] } } (.rak chan clear seq m w))

/-- Whether a Rakline session is established (R465). -/
def Blk.rakUp (b : Blk) : Bool := b.rd R.RAK_STATUS_SESSION != 0

/-- A LINK frame from the module (R464, R466); its CLEAR follows the session (log entry 45). -/
def Blk.rakLink (b : Blk) (m : RakMsg) : Blk := b.rakSend 0 (!b.rakUp) m

/-- An event for the owner on Rakline (R472): an EVENT frame, or, without credit, a frame that waits and takes in later events of its page. -/
def Blk.rakEvent (b : Blk) (r : EvtRec) : Blk :=
  if !(b.on R.RAK_EVENT_CTRL && b.rakUp && b.rd R.RAK_STATUS_SESSION == 1) then b
  else if b.rak.evtCred > 0 ∧ b.rak.evtPend = [] then
    ({ b with rak := { b.rak with evtCred := b.rak.evtCred - 1 } }).rakSend 3 false (.event r)
  else if b.rak.evtPend.any (fun e => e.page == r.page && e.inst == r.inst) then
    let p := b.rak.evtPend.map (fun e => if e.page == r.page && e.inst == r.inst then { e with event := e.event ||| r.event } else e)
    ({ b with rak := { b.rak with evtPend := p } }).inc R.RAK_EVENT_MERGED
  else { b with rak := { b.rak with evtPend := b.rak.evtPend ++ [r] } }

/-! ## Events (R86, R92, R460) -/

/-- PG_EVENT as one word. -/
def Blk.pgEvent (b : Blk) (p : Page) (i : Nat) : Nat :=
  b.rd (R.PG_EVENT_STATE_CHANGE p) i + 2 * b.rd (R.PG_EVENT_ERROR p) i + 4 * b.rd (R.PG_EVENT_QUIESCE_TIMEOUT p) i + 8 * b.rd (R.PG_EVENT_CE p) i
    + 65536 * b.rd (R.PG_EVENT_BLOCK p) i

/-- PG_ERR_FIRST as one word. -/
def Blk.pgErrFirst (b : Blk) (p : Page) (i : Nat) : Nat := b.rd (R.PG_ERR_FIRST_CLASS p) i + 256 * b.rd (R.PG_ERR_FIRST_STEP p) i

/-- The class under which hoop group `g` writes its rings. -/
def groupCls (g : Nat) : Nat := if g = 0 then clsV else clsO

/-- PG_OWNER of a page (R86, R87). -/
def Blk.owner (b : Blk) (p : Page) (i : Nat := 0) : Nat := b.rd (R.PG_OWNER p) i

/-- Whether an event ring has room (R460). -/
def Blk.evtRoom (b : Blk) (g : Nat) : Bool :=
  !ringFull 16 (b.rd R.HOOP_G_EVT_PUT g) (b.rd R.HOOP_G_EVT_GET g) (2 ^ b.rd R.HOOP_G_EVT_SIZE g)

/-- PG_EVENT bits set, without delivery. -/
def Blk.setEvent (b : Blk) (p : Page) (i : Nat) (mask : Nat) : Blk :=
  let b := if bit mask 0 then b.wr (R.PG_EVENT_STATE_CHANGE p) 1 i else b
  let b := if bit mask 1 then b.wr (R.PG_EVENT_ERROR p) 1 i else b
  let b := if bit mask 2 then b.wr (R.PG_EVENT_QUIESCE_TIMEOUT p) 1 i else b
  let b := if bit mask 3 then b.wr (R.PG_EVENT_CE p) 1 i else b
  if mask / 65536 = 0 then b else b.orBits (R.PG_EVENT_BLOCK p) (mask / 65536) i

/-- An error: its class, the step context of the block, its detail words, the address (bit 63 set for a virtual one), and the class detail of R71. -/
structure Err where
  cls : Nat
  step : Option Nat := none
  attempt : Option Nat := none
  info0 : Nat := 0
  info1 : Nat := 0
  info2 : Nat := 0
  addr : Nat := 0
  silent : Bool := false
  detail0 : Nat := 0
  detail1 : Nat := 0
  deriving DecidableEq, Repr

/-- Error capture of a page (R86, R91): the first error since capture was armed, and the count and class of later ones. -/
def Blk.capture (b : Blk) (p : Page) (i : Nat) (e : Err) : Blk :=
  if b.on (R.PG_EVENT_ERROR p) i then (b.inc (R.PG_ERR_INFO3_MORE p) i).wr (R.PG_ERR_INFO3_LAST p) e.cls i
  else
    ((((b.wr (R.PG_ERR_FIRST_CLASS p) e.cls i).wr (R.PG_ERR_FIRST_STEP p) (e.step.getD 0) i).wr (R.PG_ERR_INFO0 p) e.info0 i).wr
      (R.PG_ERR_INFO1 p) e.info1 i).wr (R.PG_ERR_INFO2 p) e.info2 i

/-- The key of a sanitised count: page type, instance, class (R70). -/
def sanKey (ptype inst cls : Nat) : Nat := (65536 * ptype + inst) * 256 + cls

/-- The sanitised record of an error counts in its 1 s window (R70). -/
def Blk.sanitise (b : Blk) (ptype inst cls : Nat) : Blk :=
  { b with lid := { b.lid with san := SMap.modify 0 b.lid.san (sanKey ptype inst cls) (· + 1) } }

/-- A full record into the lid's buffer of 64, or dropped and counted (R71). -/
def Blk.logBuffer (b : Blk) (r : LogRec) : Blk :=
  if b.lid.logBuf.length < 64 then { b with lid := { b.lid with logBuf := b.lid.logBuf ++ [r] } } else b.inc R.LID_LOG_DROP_CNT

/-- An uncorrectable line that a requester met, as its controller keeps it: the counter, the address registers, the first error of the page, ERROR and UE, and both
records, for an access whose own failure keeps the events of the page from going out (R255, R266; log entry 17). -/
def Blk.ueQuiet (b : Blk) (pa cls : Nat) : Blk :=
  let v := b.draw
  let e : Err := { cls := eEcc, info0 := pa % 2 ^ 32, info1 := pa / 2 ^ 32, info2 := cls + 2 ^ 16 * (v.1 % 2 ^ 15), addr := pa }
  let go := fun (p : Page) (n : Nat) =>
    let b1 := ((((v.2.noteUe pa).capture p n e).setEvent p n 0x2_0002).sanitise (pageType p) n eEcc)
    b1.logBuffer { cls := eEcc, ptype := pageType p, inst := n, beat := b.beatCount, addr := pa, info0 := e.info0, info1 := e.info1, info2 := e.info2 }
  match region pa with
  | .hbm n => go .hbm n
  | .slow c => go .slow c
  | _ => b

/-- The MSI of an event (R460): none for identity 0, or while the core is not in the group. -/
def Blk.evtMsi (b : Blk) (g : Nat) : Blk :=
  let eiid := b.rd R.HOOP_G_EVT_CTRL_EIID g
  let core := b.rd R.HOOP_G_EVT_CTRL_CORE g
  if eiid ≠ 0 ∧ b.coreGroup core = g then b.send (.msi core eiid) else b

/-- One event record written into a group's ring, with its MSI, and whether the write succeeded. -/
def Blk.evtWrite (b : Blk) (g : Nat) (r : EvtRec) : Blk × Bool :=
  let put := b.rd R.HOOP_G_EVT_PUT g
  let va := b.rdAddr R.HOOP_G_EVT_BASE_LO R.HOOP_G_EVT_BASE_HI g + put % 2 ^ b.rd R.HOOP_G_EVT_SIZE g * 16
  match b.writeVa modXl (groupCls g) va r.bytes (some (b.owner .hoopg g)) with
  | (b', none) => ((b'.addW R.HOOP_G_EVT_PUT 1 g).evtMsi g, true)
  | (_, some f) => (if f.cls = eEcc then b.ueQuiet f.pa (groupCls g) else b, false)

/-- Records waiting for a group's ring. -/
def Blk.evtQueue (b : Blk) (g : Nat) : List EvtRec := SMap.get [] b.io.evtHeld g

def Blk.setEvtQueue (b : Blk) (g : Nat) (l : List EvtRec) : Blk := { b with io := { b.io with evtHeld := SMap.set [] b.io.evtHeld g l } }

/-- An event for a hoop group: into the ring, or held, one record per page, merged by OR (R460). A ring write that fails also holds the record (log entry 17). -/
def Blk.evtPost (b : Blk) (g : Nat) (r : EvtRec) : Blk :=
  let q := b.evtQueue g
  if q.any (fun e => e.page == r.page && e.inst == r.inst) then
    (b.setEvtQueue g (q.map (fun e => if e.page == r.page && e.inst == r.inst then { e with event := e.event ||| r.event } else e))).inc
      R.HOOP_G_EVT_MERGED g
  else if q = [] ∧ b.evtRoom g then
    match b.evtWrite g r with
    | (b', true) => b'
    | (b', false) => b'.setEvtQueue g (q ++ [r])
  else b.setEvtQueue g (q ++ [r])

/-- Held records of a group sent in order while the ring has room (R460). -/
def Blk.evtDrain (b : Blk) (g : Nat) : (fuel : Nat) → Blk
  | 0 => b
  | fuel + 1 =>
    match b.evtQueue g with
    | [] => b
    | r :: q =>
      if b.evtRoom g then
        match b.evtWrite g r with
        | (b', true) => (b'.setEvtQueue g q).evtDrain g fuel
        | (b', false) => b'
      else b

/-- The group of 1–3 that receives the owner's events: the lowest with EVT_CTRL.EN 1 (R460). -/
def Blk.ownerGroup (b : Blk) : Option Nat := [1, 2, 3].find? (fun g => b.on R.HOOP_G_EVT_CTRL_EN g)

/-- The bits of PG_EVENT that a class may read: TEL's bits [21:16] name V, P and S (R436). -/
def eventMask (cls : Nat) (p : Page) : Nat := if p = .tel ∧ cls = clsO then 0xFFC0_FFFF else 0xFFFF_FFFF

/-- An enabled event delivered to the classes that may read the page (R92): V through group 0, O through the enabled group of 1–3 and as a Rakline frame. -/
def Blk.deliver (b : Blk) (p : Page) (i : Nat) (mask : Nat) : Blk :=
  let r : EvtRec := ⟨p, i, b.pgEvent p i, b.pgErrFirst p i, b.beatCount % 2 ^ 32⟩
  let b1 := if b.mayRead clsV p i && b.on R.HOOP_G_EVT_CTRL_EN 0 then b.evtPost 0 r else b
  if b.mayRead clsO p i && (mask &&& eventMask clsO p) != 0 then
    let r' := { r with event := r.event &&& eventMask clsO p }
    let b2 := match b1.ownerGroup with
      | some g => b1.evtPost g r'
      | none => b1
    b2.rakEvent r'
  else b1

/-- Whether an event ring stands full. -/
def Blk.evtFull (b : Blk) (g : Nat) : Bool := !b.evtRoom g

/-- Hardware sets PG_EVENT bits of a page, and an enabled one is delivered (R92). An event ring that this fills sets EVT_HELD in its group's page, whose own
event then goes the same way (R459). -/
def Blk.raise (b : Blk) (p : Page) (i : Nat) (mask : Nat) : Blk :=
  let b1 := b.setEvent p i mask
  if b1.rd (R.PG_EVENT_EN p) i &&& mask = 0 then b1
  else
    let b2 := b1.deliver p i (b1.rd (R.PG_EVENT_EN p) i &&& mask)
    b2.each [0, 1, 2, 3] (fun b3 g =>
      if b3.evtFull g && !b1.evtFull g then
        let b4 := b3.setEvent .hoopg g 0x8_0000
        if bit (b4.rd (R.PG_EVENT_EN .hoopg) g) 19 then b4.deliver .hoopg g 0x8_0000 else b4
      else b3)

/-- A block-specific event bit (16–31) of a page. -/
def Blk.event (b : Blk) (p : Page) (n : Nat) (i : Nat := 0) : Blk := b.raise p i (2 ^ n)

/-- PG_STATE moves, and STATE_CHANGE is set (R86). -/
def Blk.setSt (b : Blk) (p : Page) (i s : Nat) : Blk := (b.wr (R.PG_STATE_STATE p) s i).raise p i 1

/-! ## The logs (R70, R71) -/

/-- The attempt that a log entry names (R71): the reporting block's, or the border's current attempt of the step, or 0. -/
def Blk.logAttempt (b : Blk) (r : LogRec) : Nat :=
  match r.attempt, r.step with
  | some a, _ => a
  | none, some s => match b.steps.find? (fun x => x.step == s) with | some x => x.attempt | none => 0
  | none, none => 0

/-- The 64 bytes of a full log entry (R71). -/
def Blk.logBytes (b : Blk) (r : LogRec) : List Byte :=
  natLe 1 r.cls ++ natLe 1 (b2n r.silent) ++ natLe 2 r.ptype ++ natLe 2 r.inst ++ natLe 2 0 ++ natLe 4 b.lid.logSeq
    ++ natLe 4 (r.step.getD 0 % 2 ^ 24 + b.logAttempt r % 256 * 2 ^ 24) ++ natLe 8 r.beat ++ natLe 8 r.addr
    ++ natLe 4 r.info0 ++ natLe 4 r.info1 ++ natLe 4 r.info2 ++ natLe 4 0 ++ natLe 8 r.detail0 ++ natLe 8 r.detail1

/-- A ring write of the lid that failed (R71): not retried until LID_LOG_BASE is written; the LID page takes the failed write's class with the slot's virtual
address, and its own record joins the buffer. -/
def Blk.logFault (b : Blk) (va : Nat) (f : Fail) : Blk :=
  let e : Err := { cls := f.cls, info0 := va % 2 ^ 32, info1 := va / 2 ^ 32 % 2 ^ 16, addr := va + 2 ^ 63 }
  let b1 := { b with lid := { b.lid with logBroken := true } }
  let b2 := ((b1.capture .lid 0 e).raise .lid 0 2).sanitise (pageType .lid) 0 f.cls
  b2.logBuffer { cls := f.cls, ptype := pageType .lid, inst := 0, beat := b.beatCount, addr := e.addr, info0 := e.info0, info1 := e.info1 }

/-- Buffered full records written to the owner's ring in order, while it has room and is not broken (R71). -/
def Blk.logDrain (b : Blk) : (fuel : Nat) → Blk
  | 0 => b
  | fuel + 1 =>
    match b.lid.logBuf with
    | [] => b
    | r :: l =>
      let put := b.rd R.LID_LOG_PUT
      if b.lid.logBroken || ringFull 32 put (b.rd R.LID_LOG_GET) (2 ^ b.rd R.LID_LOG_SIZE) then b
      else
        let va := b.rdAddr R.LID_LOG_BASE_LO R.LID_LOG_BASE_HI + put % 2 ^ b.rd R.LID_LOG_SIZE * 64
        match b.writeVa modXl clsO va (b.logBytes r) (some (b.rd R.LID_LOG_DOMAIN)) with
        | (b', none) =>
          let b2 := { b' with lid := { b'.lid with logBuf := l, logSeq := (b'.lid.logSeq + 1) % 2 ^ 32 } }
          (b2.addW R.LID_LOG_PUT 1).logDrain fuel
        | (_, some f) => (if f.cls = eEcc then b.ueQuiet f.pa clsO else b).logFault va f

/-- An error record written twice (R70): the sanitised count, and the full record. -/
def Blk.log (b : Blk) (ptype inst : Nat) (e : Err) : Blk :=
  let r : LogRec := { cls := e.cls, silent := e.silent, ptype := ptype, inst := inst, step := e.step, attempt := e.attempt, beat := b.beatCount,
                      addr := e.addr, info0 := e.info0, info1 := e.info1, info2 := e.info2, detail0 := e.detail0, detail1 := e.detail1 }
  ((b.sanitise ptype inst e.cls).logBuffer r).logDrain 65

/-- An error of a block: captured in its page, ERROR set, logged twice (R70, R91). -/
def Blk.error (b : Blk) (p : Page) (i : Nat) (e : Err) : Blk :=
  ((b.capture p i e).raise p i 2).log (pageType p) i e

/-- An uncorrectable line met by a requester: counted, its address kept, and an error of the controller's page, with the requester's class and UNIT (R255, R266). -/
def Blk.memUe (b : Blk) (pa cls unit : Nat) : Blk :=
  let e : Err := { cls := eEcc, info0 := pa % 2 ^ 32, info1 := pa / 2 ^ 32, info2 := cls + 2 ^ 16 * unit, addr := pa }
  match region pa with
  | .hbm n => ((b.noteUe pa).error .hbm n e).event .hbm 17 n
  | .slow c => ((b.noteUe pa).error .slow c e).event .slow 17 c
  | _ => b

/-- What an access that failed leaves at the controller of an uncorrectable line (R255): the requester's UNIT, or, for a requester that R258 gives none, a free
one. -/
def Blk.ueOf (b : Blk) (f : Fail) (cls : Nat) (unit : Option Nat) : Blk :=
  if f.cls ≠ eEcc then b
  else match unit with
    | some u => b.memUe f.pa cls u
    | none => b.draw.2.memUe f.pa cls (b.draw.1 % 2 ^ 15)

/-- A range of physical memory that a read has found uncorrectable leaves its mark at its controller; a range that reads well leaves none. -/
def Blk.ueIn (b : Blk) (cls : Nat) (unit : Option Nat) (pa n : Nat) : Blk :=
  match b.firstUe pa n with
  | some a => b.ueOf { cls := eEcc, pa := a } cls unit
  | none => b

/-- A virtual range read by a class for a unit, an uncorrectable line leaving its mark at its controller. -/
def Blk.loadVa (b : Blk) (u cls : Nat) (unit : Option Nat) (va n : Nat) : Blk × Except Fail (List Byte) :=
  match b.readVa u cls va n with
  | (b', .error f) => (b'.ueOf f cls unit, .error f)
  | (b', .ok l) => (b', .ok l)

/-- Bytes written at a virtual address by a class for a unit, an uncorrectable line leaving its mark at its controller. -/
def Blk.storeVa (b : Blk) (u cls : Nat) (unit : Option Nat) (va : Nat) (l : List Byte) (dom : Option Nat := none) : Blk × Option Fail :=
  match b.writeVa u cls va l dom with
  | (b', some f) => (b'.ueOf f cls unit, some f)
  | (b', none) => (b', none)

/-- Bytes written at a physical address by a class for a unit, an uncorrectable line leaving its mark at its controller. -/
def Blk.storePa (b : Blk) (cls : Nat) (unit : Option Nat) (dom pa : Nat) (l : List Byte) : Blk × Option Fail :=
  match b.writePa cls dom pa l with
  | (b', some f) => (b'.ueOf f cls unit, some f)
  | (b', none) => (b', none)

/-- An authentication failure at the lid (R45, R62): counted, and an error of the LID page. -/
def Blk.authFail (b : Blk) : Blk := (b.inc R.LID_AUTH_FAIL_CNT).error .lid 0 { cls := eAuth }

/-! ## Fault records (R257–R261) -/

/-- The 64 bytes of a fault record (R258). -/
def FaultRec.bytes (r : FaultRec) (seq : Nat) : List Byte :=
  natLe 1 r.cls ++ natLe 1 r.detail ++ natLe 1 (r.kind + 16 * b2n r.resumable) ++ natLe 1 (r.thread + 8 * r.slot) ++ natLe 4 seq ++ natLe 2 r.unit
    ++ natLe 2 0 ++ natLe 4 r.pc ++ natLe 8 (r.va % 2 ^ 48) ++ natLe 8 (r.pa % 2 ^ 42) ++ natLe 8 r.pte ++ natLe 4 r.beat ++ natLe 4 (r.step % 2 ^ 24)
    ++ natLe 16 0

/-- The queues' registers: the owner's in XLT, the firmware's in hoop group 0 (R260). -/
def fqPut (fw : Bool) : Fld := if fw then R.HOOP_G_FQ_PUT else R.XLT_FQ_PUT
def fqGet (fw : Bool) : Fld := if fw then R.HOOP_G_FQ_GET else R.XLT_FQ_GET
def fqSize (fw : Bool) : Fld := if fw then R.HOOP_G_FQ_SIZE else R.XLT_FQ_SIZE
def fqLo (fw : Bool) : Fld := if fw then R.HOOP_G_FQ_BASE_LO else R.XLT_FQ_BASE_LO
def fqHi (fw : Bool) : Fld := if fw then R.HOOP_G_FQ_BASE_HI else R.XLT_FQ_BASE_HI
def fqWait (fw : Bool) : Fld := if fw then R.HOOP_G_FQ_WAIT else R.XLT_FQ_WAIT
def fqPage (fw : Bool) : Page := if fw then .hoopg else .xlt

def Blk.fqBroken (b : Blk) (fw : Bool) : Bool := if fw then b.xlt.brokenV else b.xlt.brokenO

/-- A ring marked broken or mended (R259, R262). -/
def Blk.setFqBroken (b : Blk) (fw v : Bool) : Blk :=
  { b with xlt := if fw then { b.xlt with brokenV := v } else { b.xlt with brokenO := v } }

/-- Whether a fault queue takes a record now: its ring has room and is not broken (R259). -/
def Blk.fqRoom (b : Blk) (fw : Bool) : Bool :=
  !b.fqBroken fw && !ringFull 32 (b.rd (fqPut fw)) (b.rd (fqGet fw)) (2 ^ b.rd (fqSize fw))

/-- One record written into its ring (R259, R264); a write that fails marks the ring broken and is an error of the ring's page. -/
def Blk.fqWrite (b : Blk) (r : FaultRec) : Blk × Bool :=
  let put := b.rd (fqPut r.fw)
  let va := b.rdAddr (fqLo r.fw) (fqHi r.fw) + put % 2 ^ b.rd (fqSize r.fw) * 64
  match b.writeVa modXl (if r.fw then clsV else clsO) va (r.bytes put) (some (b.owner (fqPage r.fw))) with
  | (b', none) =>
    let empty := put == b.rd (fqGet r.fw)
    let b1 := b'.addW (fqPut r.fw) 1
    let b2 := if r.fw then b1 else b1.inc R.XLT_FAULT_CNT
    let b3 := if r.resumable then { b2 with xlt := { b2.xlt with susp := b2.xlt.susp ++ [⟨r.kind, r.unit, r.fw⟩] } } else b2
    let b4 := if r.resumable && !r.fw then b3.inc R.XLT_SUSPENDED else b3
    ((if empty then b4.event (fqPage r.fw) (if r.fw then 18 else 16) else b4), true)
  | (_, some f) =>
    let b1 := ((b.ueOf f (if r.fw then clsV else clsO) none).setFqBroken r.fw true).error (fqPage r.fw) 0
      { cls := f.cls, info0 := va % 2 ^ 32, info1 := va / 2 ^ 32 % 2 ^ 16, addr := va + 2 ^ 63 }
    ((if r.fw then b1 else b1.event .xlt 19), false)

/-- A unit holds its record, stays stopped and counts as waiting (R259); the first wait sets FQ_FULL (R264). -/
def Blk.fqHold (b : Blk) (r : FaultRec) : Blk :=
  let first := b.rd (fqWait r.fw) == 0
  let b1 := { b with xlt := { b.xlt with held := b.xlt.held ++ [r] } }
  let b2 := b1.inc (fqWait r.fw)
  if first && !r.fw then b2.event .xlt 17 else b2

/-- A fault record sent to its queue, or held in order (R259). -/
def Blk.sendFault (b : Blk) (r : FaultRec) : Blk :=
  let r := { r with beat := b.beatCount % 2 ^ 32 }
  if b.xlt.held.any (fun x => x.fw == r.fw) || !b.fqRoom r.fw then b.fqHold r
  else match b.fqWrite r with
    | (b', true) => b'
    | (b', false) => b'.fqHold r

/-- Held records of a queue sent in the order they arose, while the ring has room (R259). -/
def Blk.fqDrain (b : Blk) (fw : Bool) : (fuel : Nat) → Blk
  | 0 => b
  | fuel + 1 =>
    match b.xlt.held.find? (fun r => r.fw == fw) with
    | none => b
    | some r =>
      if !b.fqRoom fw then b
      else match b.fqWrite r with
        | (b', true) => (({ b' with xlt := { b'.xlt with held := b'.xlt.held.erase r } }).dec (fqWait fw)).fqDrain fw fuel
        | (b', false) => b'

/-- Whether a unit's record is in a queue, so that XLT_FAULT_CMD may act on it (R261). -/
def Blk.suspOut (b : Blk) (kind unit : Nat) : Bool := b.xlt.susp.any (fun x => x.kind == kind && x.unit == unit)

/-- Whether a unit holds a record for a full or broken ring: it stays stopped until the record has gone out (R259). `thread` tells the threads of a stake apart. -/
def Blk.recHeld (b : Blk) (kind unit : Nat) (thread : Nat := 0) : Bool :=
  b.xlt.held.any (fun r => r.kind == kind && r.unit == unit && (kind != 0 || r.thread == thread))

/-- A unit is no longer suspended with a record in a queue. -/
def Blk.unsusp (b : Blk) (kind unit : Nat) : Blk :=
  match b.xlt.susp.find? (fun x => x.kind == kind && x.unit == unit) with
  | none => b
  | some x =>
    let b1 := { b with xlt := { b.xlt with susp := b.xlt.susp.erase x } }
    if x.fw then b1 else b1.dec R.XLT_SUSPENDED

/-- The records that units of a kind hold are withdrawn (R262). -/
def Blk.unhold (b : Blk) (kind unit : Nat) : Blk :=
  let gone := b.xlt.held.filter (fun r => r.kind == kind && r.unit == unit)
  let b1 := { b with xlt := { b.xlt with held := b.xlt.held.filter (fun r => !(r.kind == kind && r.unit == unit)) } }
  b1.each gone (fun b r => b.dec (fqWait r.fw))

/-! ## Platform events (R480, R481) -/

/-- What a state sensor shows (R480). -/
def Blk.stateSensor (b : Blk) (k : Nat) : Nat :=
  match k with
  | 0x0100 => b.own
  | 0x0101 => b.rd R.TEL_STATUS_SUPPLY_WARN + 2 * b.rd R.TEL_STATUS_ALERT + 4 * b.rd R.TEL_STATUS_UNTRUSTED + 8 * b.rd R.TEL_STATUS_LEAK
      + 16 * b.rd R.TEL_STATUS_INLET_RANGE
  | _ => b.rd R.BOOT_STATUS_PHASE

/-- A platform event (R481): sent to the receiver and held until acknowledged, at most 32; beyond that a newer event replaces the held one of its sensor. -/
def Blk.platformEvent (b : Blk) (sensor value : Nat) : Blk :=
  let l : List PlatEvt := b.mgmt.events
  let others := l.filter (fun (e : PlatEvt) => e.sensor != sensor)
  let put := fun (l : List PlatEvt) => (({ b with mgmt := { b.mgmt with events := l } }).wr R.MGMT_EVT_PEND l.length).send (.platformEvent sensor value)
  if l.length < 32 then put (l ++ [PlatEvt.mk sensor value])
  else if others.length < l.length then put (others ++ [PlatEvt.mk sensor value])
  else b

/-- The changes of the state sensors since they were last reported, while a receiver is set (R481): every operation that changes one ends with it. -/
def Blk.stateEvents (b : Blk) : Blk :=
  if b.rd R.MGMT_STATUS_RX_EID = 0 then b
  else [0x0100, 0x0101, 0x0102].foldl (fun (b : Blk) k =>
    let v := b.stateSensor k
    if SMap.get 0 b.mgmt.seen k = v then b
    else ({ b with mgmt := { b.mgmt with seen := SMap.set 0 b.mgmt.seen k v } }).platformEvent k v) b

end Sys2Proof.Machine
end

