-- ==== Sys2Proof/Machine/Threads.lean ====
section
/-! DEFINITION. Threads (R131–R135, R146–R163): their registers and token slots, local memory, instruction fetch, sleeping and waking, faults, states. -/

namespace Sys2Proof.Machine

/-! ## Homes -/

/-- A thread's place: eight to a stake. -/
def tkey (t : Tid) : Nat := t.stake * 8 + t.thread

/-- The threads that exist (R8, R131). -/
def tidOk (t : Tid) : Bool := decide (t.stake < 6400) && decide (t.thread < 8)

/-- The thread at a place. -/
def tidAt (k : Nat) : Tid := ⟨k / 8, k % 8⟩

/-- The wale of a stake, and the die of a wale (R8). -/
def waleOf (s : Nat) : Nat := s / 32
def dieOf (w : Nat) : Nat := w / 50

def Blk.thread (b : Blk) (t : Tid) : Thread := SMap.get {} b.threads (tkey t)
def Blk.setThread (b : Blk) (t : Tid) (x : Thread) : Blk := { b with threads := SMap.set {} b.threads (tkey t) x }
def Blk.stake (b : Blk) (s : Nat) : Stake := SMap.get {} b.stakes s
def Blk.setStake (b : Blk) (s : Nat) (x : Stake) : Blk := { b with stakes := SMap.set {} b.stakes s x }
def Blk.wale (b : Blk) (w : Nat) : Wale := SMap.get {} b.wales w
def Blk.setWale (b : Blk) (w : Nat) (x : Wale) : Blk := { b with wales := SMap.set {} b.wales w x }

/-- Thread state codes (R159). -/
def tIdle : Nat := 0
def tRun : Nat := 1
def tBwait : Nat := 2
def tPaused : Nat := 3
def tFault : Nat := 4
def tKilling : Nat := 5

/-- The threads of a wale that are not as at reset. -/
def Blk.waleThreads (b : Blk) (w : Nat) : List Tid := (b.threads.filter (fun e => e.1 / 256 == w)).map (fun e => tidAt e.1)

/-- A scalar register; s0 reads as 0 (R131). -/
def Thread.reg (th : Thread) (r : Nat) : Nat := if r = 0 then 0 else SMap.get 0 th.regs r

/-- A scalar register written, wrapping at 64 bits; a write to s0 is discarded (R131). -/
def Thread.setReg (th : Thread) (r v : Nat) : Thread := if r = 0 then th else { th with regs := SMap.set 0 th.regs r (v % 2 ^ 64) }

/-- A token slot. -/
def Thread.tok (th : Thread) (i : Nat) : Tok := SMap.get .idle th.toks i

/-- A token slot set. -/
def Thread.setTok (th : Thread) (i : Nat) (x : Tok) : Thread := { th with toks := SMap.set .idle th.toks i x }

/-- The error class that a slot holds, undelivered; 0 where none. -/
def Tok.err : Tok → Nat
  | .done e => e
  | _ => 0

/-- The slots of a mask that are pending, and those that are done. -/
def Thread.pendingIn (th : Thread) (mask : Nat) : List Nat := (setBits 16 mask).filter (fun i => th.tok i == .pending)
def Thread.doneIn (th : Thread) (mask : Nat) : List Nat :=
  (setBits 16 mask).filter (fun i => match th.tok i with | .done _ => true | _ => false)

/-- The lowest slot of a mask that holds an undelivered error. -/
def Thread.firstErr (th : Thread) (mask : Nat) : Option Nat := (setBits 16 mask).find? (fun i => (th.tok i).err != 0)

def allSlots : Nat := 0xFFFF

/-! ## Local memory (R132, R222) -/

/-- Kinds of local access. -/
inductive LAcc where
  | fetch | load | store | atomic
  deriving DecidableEq, Repr

/-- The physical address of `n` bytes at a local address, or the fault detail of R163: 0x04 outside the map of R132, 0x05 a store to a context area or an AMO
outside wale SRAM. -/
def localPa (s addr n : Nat) (k : LAcc) : Except Nat Nat :=
  if addr + n ≤ 0x3_8000 then (if k = .atomic then .error 0x05 else .ok (stakeWin s + addr))
  else if 0x3_8000 ≤ addr ∧ addr + n ≤ 0x4_0000 then
    match k with
    | .load => .ok (stakeWin s + addr)
    | .fetch => .error 0x04
    | _ => .error 0x05
  else if 0x80_0000 ≤ addr ∧ addr + n ≤ 0x100_0000 then .ok (waleWin (waleOf s) + (addr - 0x80_0000))
  else .error 0x04

/-- A read of a thread's or engine's local memory at a physical address: its value, or the error response's class and address (R235, R252). -/
def Blk.sramRead (b : Blk) (pa n : Nat) : Except (Nat × Nat) Nat :=
  if b.memGateN clsO pa n ≠ 0 then .error (eDenied, pa)
  else match b.firstUe pa n with
    | some a => .error (eEcc, a)
    | none => .ok (b.readNat 0 pa n)

/-- A write of local memory at a physical address. -/
def Blk.sramWrite (b : Blk) (pa n v : Nat) : Except (Nat × Nat) Blk :=
  if b.memGateN clsO pa n ≠ 0 then .error (eDenied, pa)
  else match b.writeBytes 0 pa (natLe n v) with
    | (b', none) => .ok b'
    | (_, some a) => .error (eEcc, a)

/-! ## Faults (R163, R170, R172, R257) -/

/-- A thread faults: it stops in FAULT before its instruction retires, what it slept in is over, the STAKE page and, for details 0x08 and 0x09, the SCHED page
record the error, and its record goes to the owner's fault queue. -/
def Blk.threadFault (b : Blk) (t : Tid) (cls det : Nat) (slot : Nat := 0) (pa : Nat := 0) : Blk :=
  let th := b.thread t
  let w := waleOf t.stake
  let b := b.setThread t { th with st := tFault, sleep := .awake, held := false, fCls := cls, fDet := det, fSlot := slot }
  let b := b.error .stake t.stake
    { cls := cls, info0 := t.thread + 2 ^ 8 * det + 2 ^ 16 * slot, info1 := th.pc, addr := pa }
  let b := (b.event .stake 16 t.stake).event .sched 18 w
  let b := if det = 0x08 ∨ det = 0x09 then
      b.error .sched w { cls := cls, info0 := t.stake % 32 + 2 ^ 5 * t.thread + 2 ^ 8 * det, info1 := th.pc } else b
  let b := if det = 0x09 then (b.inc R.SCHED_CREDIT_TO_CNT w).event .sched 19 w else b
  b.sendFault { cls := cls, detail := det, kind := 0, thread := t.thread, slot := slot, unit := t.stake, pc := th.pc, pa := pa }

/-- An operation error delivered to its thread (R148): the fault clears the slot's error and leaves the slot done. -/
def Blk.deliverErr (b : Blk) (t : Tid) (slot : Nat) : Blk :=
  let th := b.thread t
  (b.setThread t (th.setTok slot (.done 0))).threadFault t (th.tok slot).err 0x07 slot

/-! ## Retiring, sleeping, waking -/

/-- An instruction retires with the thread at `pc` (R131: 32 bits), awake; STAKE_ISSUE counts it. -/
def Blk.retire (b : Blk) (t : Tid) (th : Thread) (pc : Nat) : Blk :=
  (b.setThread t { th with pc := pc % 2 ^ 32, sleep := .awake }).add64 R.STAKE_ISSUE_LO R.STAKE_ISSUE_HI 1 t.stake

/-- The thread retires its instruction and goes on to the next. -/
def Blk.next (b : Blk) (t : Tid) (th : Thread) : Blk := b.retire t th (th.pc + 8)

/-- An entry of a work list applied to a thread (R157): start PC, CONTINUE, argument. It waits on a thread in RUN or KILLING. -/
def Thread.apply (th : Thread) (e : Nat × Bool × Nat) : Thread :=
  let th := { th with member := true }
  if th.st = tRun ∨ th.st = tKilling then { th with entry := some e }
  else
    let th1 := if th.st = tIdle ∨ !e.2.1 then { (th.setReg 1 e.2.2) with pc := e.1 % 2 ^ 32 } else th
    if th.st = tIdle ∨ th.st = tBwait then { th1 with st := tRun, entry := none, held := false } else { th1 with entry := none, held := false }

/-- The thread's part of the unit ends, or a waiting entry is applied (R153, R155, R157). -/
def Thread.endPart (th : Thread) : Thread :=
  match th.entry with
  | some e => Thread.apply { th with entry := none } e
  | none => { th with member := false }

/-- BWAIT completes: the thread sleeps until a work list names it, its PC after the BWAIT (R153, R161). -/
def Blk.beatWait (b : Blk) (t : Tid) : Blk :=
  let b := b.next t (b.thread t)
  b.setThread t (Thread.endPart { b.thread t with st := tBwait })

/-- A thread enters IDLE by HALT or KILL (R155, R160, R172). After a kill the posted results are discarded. -/
def Blk.toIdle (b : Blk) (t : Tid) (killed : Bool) : Blk :=
  let th := b.thread t
  let th := { th with st := tIdle, sleep := .awake,
                      toks := if killed then th.toks.map (fun e => (e.1, match e.2 with | .done _ => .done 0 | x => x)) else th.toks }
  (b.setThread t (Thread.endPart th)).event .stake 17 t.stake

/-- HALT completes, or faults with the error of the lowest slot (R155). -/
def Blk.haltEnd (b : Blk) (t : Tid) : Blk :=
  let th := b.thread t
  match th.firstErr allSlots with
  | some i => b.deliverErr t i
  | none => (b.next t th).toIdle t false

/-- TWAIT wakes (R148): DEST receives the done slots of the mask, or the thread faults with the error of the lowest one that holds one. -/
def Blk.twaitEnd (b : Blk) (t : Tid) (dest mask : Nat) : Blk :=
  let th := b.thread t
  match th.firstErr mask with
  | some i => b.deliverErr t i
  | none => b.next t (th.setReg dest (maskOf (th.doneIn mask)))

/-- Whether a TWAIT is satisfied (R148). -/
def Thread.twaitDone (th : Thread) (mask : Nat) (any : Bool) : Bool :=
  (th.pendingIn mask).isEmpty || (any && !(th.doneIn mask).isEmpty)

/-- A thread looks again at what it sleeps in after one of its slots has posted. -/
def Blk.wakeTok (b : Blk) (t : Tid) : Blk :=
  let th := b.thread t
  let clear := (th.pendingIn allSlots).isEmpty
  if th.st = tKilling then (if clear then b.toIdle t true else b)
  else if th.st ≠ tRun then b
  else match th.sleep with
    | .twait dest mask any => if th.twaitDone mask any then b.twaitEnd t dest mask else b
    | .drain => if clear then b.beatWait t else b
    | .halt => if clear then b.haltEnd t else b
    | _ => b

/-- An operation's AFTER slot has posted (R147): the operation holds the class that it posted with, whatever becomes of the slot. -/
def QOp.latch (t : Tid) (slot err : Nat) (op : QOp) : QOp :=
  if op.tid = t ∧ op.after = some slot then { op with after := none, gate := err } else op

/-- The queued operations that wait for a slot as their AFTER take its class (R147). -/
def Blk.latchAfter (b : Blk) (t : Tid) (slot err : Nat) : Blk :=
  let k := b.stake t.stake
  let b1 := b.setStake t.stake { k with matQ := k.matQ.map (·.latch t slot err), vecQ := k.vecQ.map (·.latch t slot err) }
  let w := b1.wale (waleOf t.stake)
  b1.setWale (waleOf t.stake)
    { w with rowQ := w.rowQ.map (·.latch t slot err), dmaQ := w.dmaQ.map (·.latch t slot err), sumQ := w.sumQ.map (·.latch t slot err) }

/-- An operation posts its slot as done, with an error class or 0 (R146); one whose slot a reset took back posts nothing (R164). -/
def Blk.post (b : Blk) (op : QOp) (err : Nat) : Blk :=
  if op.live then
    let th := b.thread op.tid
    ((b.setThread op.tid (th.setTok op.slot (.done err))).latchAfter op.tid op.slot err).wakeTok op.tid
  else b

/-- What AFTER says at an operation's start (R147): none until its slot has posted, then the error class that ends the operation, or 0. -/
def afterGate (op : QOp) : Option Nat := if op.after.isSome && op.live then none else some (if op.live then op.gate else 0)

/-! ## Fetch (R132, R134, R135) -/

/-- The 64-bit instruction word at the thread's PC: from stake SRAM directly, from wale SRAM through the stake's instruction cache, whose miss fills the 64-byte
line (not where a word of it is uncorrectable). An error names class, detail and physical address. -/
def Blk.fetch (b : Blk) (t : Tid) : Blk × Except (Nat × Nat × Nat) Nat :=
  let pc := (b.thread t).pc
  if pc % 8 ≠ 0 then (b, .error (eDenied, 0x03, 0))
  else match localPa t.stake pc 8 .fetch with
    | .error d => (b, .error (eDenied, d, 0))
    | .ok pa =>
      if pc < 0x80_0000 then
        match b.sramRead pa 8 with
        | .ok v => (b, .ok v)
        | .error (c, a) => (b, .error (c, 0x0B, a))
      else
        let sk := b.stake t.stake
        match SMap.get none sk.icache (pc / 64) with
        | some line => (b, .ok (bits line (pc % 64 * 8) 64))
        | none =>
          match b.sramRead (pa / 64 * 64) 64 with
          | .ok line =>
            let v := b.victim sk.icache.length
            let ic := match v.1 with
              | some k => sk.icache.eraseIdx (k % (sk.icache.length + 1))
              | none => if 256 ≤ sk.icache.length then sk.icache.dropLast else sk.icache
            (v.2.setStake t.stake { sk with icache := SMap.set none ic (pc / 64) (some line) }, .ok (bits line (pc % 64 * 8) 64))
          | .error _ =>
            match b.sramRead pa 8 with
            | .ok v => (b, .ok v)
            | .error (c, a) => (b, .error (c, 0x0B, a))

/-- The instruction cache of a stake invalidated (R134). -/
def Blk.icacheInval (b : Blk) (s : Nat) : Blk := b.setStake s { b.stake s with icache := [] }

/-- The fields of an instruction word (R135). -/
def insOf (w : Nat) : Ins := { dest := bits w 52 5, src1 := bits w 47 5, src2 := bits w 42 5, mod := bits w 32 10, imm := bits w 0 32 }

/-- The fields that an opcode uses: DEST, SRC1, SRC2, the modifier bits, the immediate bits (R135, R136, R138). -/
def opUses : Nat → Option (Bool × Bool × Bool × Nat × Nat)
  | 0x00 => some (false, false, false, 0, 0)
  | 0x12 => some (true, false, false, 0, 0xFFFF_FFFF)
  | 0x13 => some (true, true, false, 0, 0xFFFF_FFFF)
  | 0x14 => some (true, true, true, 0, 0)
  | 0x26 => some (true, false, false, 0, 0xFFFF_FFFF)
  | 0x27 => some (true, true, false, 0, 0xFFFF_FFFF)
  | 0x28 => some (true, true, false, 7, 0xFFFF_FFFF)
  | 0x29 => some (false, true, true, 3, 0xFFFF_FFFF)
  | 0x2A => some (true, true, true, 7, 0xFFFF_FFFF)
  | 0x38 => some (true, false, false, 1, 0xFFFF)
  | 0x39 => some (false, false, false, 1, 0)
  | 0x3A => some (false, false, false, 0, 0xF)
  | 0x3B => some (false, false, false, 1, 0)
  | 0x3C => some (false, false, false, 0, 0)
  | 0x40 => some (true, true, false, 0, 0xFFFF_FFFF)
  | 0x41 => some (true, false, false, 0, 0xFFFF_FFFF)
  | 0x42 => some (false, false, false, 0, 0x3F)
  | o =>
    if 0x01 ≤ o ∧ o ≤ 0x11 then some (true, true, true, 1, 0xFFFF_FFFF)
    else if 0x20 ≤ o ∧ o ≤ 0x25 then some (false, true, true, 0, 0xFFFF_FFFF)
    else if 0x30 ≤ o ∧ o ≤ 0x34 then some (false, true, false, 0x1FF, 0xFFFF_FFFF)
    else none

/-- Whether every field that the opcode does not use is 0 (R135), with the modifiers that R136 reserves: of SRC2 and IMM an ALU operation uses the one that
MOD[0] selects; AMO has no operation 7; RDID has selectors 0–4. -/
def fieldsOk (opc : Nat) (i : Ins) : Bool :=
  match opUses opc with
  | none => false
  | some (d, a, c, m, im) =>
    (d || i.dest == 0) && (a || i.src1 == 0) && (c || i.src2 == 0) && (i.mod &&& m == i.mod) && (i.imm &&& im == i.imm)
      && (if 0x01 ≤ opc ∧ opc ≤ 0x11 then (if bit i.mod 0 then i.src2 == 0 else i.imm == 0) else true)
      && !(opc == 0x2A && i.mod == 7) && !(opc == 0x41 && decide (i.imm > 4))

/-- The common part of a thread's instruction rows (R137, R161; log entry 4): the thread is in RUN, does not sleep, and the word that it fetches has the row's
opcode. A fetch that fails or a field that breaks R135 faults it. -/
def Blk.insn (b : Blk) (t : Tid) (opc : Nat) (f : Blk → Ins → Blk) : Blk :=
  let th := b.thread t
  if th.st ≠ tRun ∨ !(th.sleep == .awake || th.sleep == .stall) then b
  else match b.fetch t with
    | (b', .error (c, d, pa)) => b'.threadFault t c d 0 pa
    | (b', .ok w) =>
      if bits w 57 7 ≠ opc then b
      else if fieldsOk opc (insOf w) then f b' (insOf w) else b'.threadFault t eDenied 0x02

/-! ## Barriers (R151, R152) -/

/-- The threads of a wale that sleep at a barrier. -/
def Blk.atBar (b : Blk) (w k : Nat) : List Tid := (b.waleThreads w).filter (fun t => (b.thread t).sleep == .bar k && (b.thread t).st == tRun)

/-- A barrier's generation is complete: its sleeping arrivals wake and retire their BAR. -/
def Blk.barRelease (b : Blk) (w k : Nat) : Blk := b.each (b.atBar w k) (fun b t => b.next t (b.thread t))

/-- The count of a barrier in the current unit. -/
def Blk.barCount (b : Blk) (w k : Nat) : Nat := SMap.get 0 (b.wale w).bars k

/-! ## Commands of a hoop core (R160–R162) -/

/-- STAKE_CMD (R160). A command that is not valid in the thread's state is ignored and counted, and so is a release of a thread that holds its fault record, which stays
stopped (R259; log entry 61). -/
def Blk.stakeCmd (b : Blk) (t : Tid) (cmd : Nat) : Blk :=
  let th := b.thread t
  let ignored := b.inc R.STAKE_CMD_IGN_CNT t.stake
  match cmd with
  | 1 => if th.st = tIdle then b.setThread t { th with st := tRun, sleep := .awake, member := false } else ignored
  | 2 =>
    if th.st = tRun then b.setThread t { th with st := tPaused, sleep := .awake }
    else if th.st = tBwait then b.setThread t { th with st := tPaused, held := true } else ignored
  | 3 => if th.st = tPaused then b.setThread t { th with st := if th.held then tBwait else tRun, held := false } else ignored
  | 4 => if th.st = tFault ∧ !b.recHeld 0 t.stake t.thread then b.setThread t { th with st := tRun } else ignored
  | 5 => if th.st = tFault ∧ !b.recHeld 0 t.stake t.thread then b.setThread t { th with st := tRun, pc := (th.pc + 8) % 2 ^ 32 } else ignored
  | 6 =>
    if th.st = tIdle then ignored
    else if th.st = tKilling then b.setThread t { th with entry := none, member := false }
    else
      let b := b.setThread t { th with st := tKilling, sleep := .awake, entry := none, member := false, held := false }
      if (th.pendingIn allSlots).isEmpty then b.toIdle t true else b
  | _ => b

/-- A strict overrun reaches a thread whose part has not ended (R113): it stops before its instruction and faults; a thread in FAULT keeps its fault. One
that a reset has put in IDLE has no instruction to stop at and stays there (log entry 59). -/
def Blk.overrunFault (b : Blk) (t : Tid) : Blk :=
  let th := b.thread t
  if th.st = tRun ∨ th.st = tPaused then b.threadFault t eOverrun 0x08 else b

/-- Whether a hoop core may access a thread's registers and PC (R162). -/
def Thread.open (th : Thread) : Bool := th.st == tIdle || th.st == tPaused || th.st == tFault

/-- A thread after an isolation of its wale (`keep`) or a block reset: IDLE with no slot in use (R164). An isolation keeps what the STAKE page shows of it; a reset
discards that (R101, R171). Its part of the unit has not ended (R162): a member stays one. -/
def Thread.ended (keep : Bool) (th : Thread) : Thread :=
  if keep then { regs := th.regs, pc := th.pc, member := th.member, fCls := th.fCls, fDet := th.fDet, fSlot := th.fSlot } else { member := th.member }

end Sys2Proof.Machine
end

