-- ==== Sys2Proof/Machine/Scalar.lean ====
section
/-! DEFINITION. The scalar instructions of a thread (R136): arithmetic, branches, memory, waits. -/

namespace Sys2Proof.Machine

/-- The immediate sign-extended to 64 bits. -/
def immOf (i : Ins) : Nat := toBits 64 (sext 32 i.imm)

/-- Operand B of an ALU instruction (R136): SRC2, or the sign-extended immediate. -/
def aluB (th : Thread) (i : Ins) : Nat := if bit i.mod 0 then immOf i else th.reg i.src2

/-- An instruction that writes `f SRC1 B` to DEST and goes on. -/
def Blk.alu (b : Blk) (t : Tid) (opc : Nat) (f : Nat → Nat → Nat) : Blk :=
  b.insn t opc (fun b i =>
    let th := b.thread t
    b.next t (th.setReg i.dest (f (th.reg i.src1) (aluB th i))))

/-- An instruction that writes a value to DEST and goes on. -/
def Blk.value (b : Blk) (t : Tid) (opc : Nat) (f : Thread → Ins → Nat) : Blk :=
  b.insn t opc (fun b i =>
    let th := b.thread t
    b.next t (th.setReg i.dest (f th i)))

/-- The target of a relative branch: PC + sext(IMM) × 8. -/
def branchTo (pc imm : Nat) : Nat := toBits 32 ((pc : Int) + sext 32 imm * 8)

/-- A conditional branch on SRC1 and SRC2. -/
def Blk.branch (b : Blk) (t : Tid) (opc : Nat) (f : Nat → Nat → Bool) : Blk :=
  b.insn t opc (fun b i =>
    let th := b.thread t
    if f (th.reg i.src1) (th.reg i.src2) then b.retire t th (branchTo th.pc i.imm) else b.next t th)

/-- The address of a load, store or AMO: SRC1 + sext(IMM), wrapping at 64 bits. -/
def Thread.ea (th : Thread) (i : Ins) : Nat := (th.reg i.src1 + immOf i) % 2 ^ 64

/-- A thread's access of `n` bytes at a local address, with the checks of R163 in order: alignment, then the map. `f` receives the physical address; an error
response faults the thread with detail 0x0B (R257). -/
def Blk.access (b : Blk) (t : Tid) (addr n : Nat) (k : LAcc) (f : Nat → Except (Nat × Nat) Blk) : Blk :=
  if addr % n ≠ 0 then b.threadFault t eDenied 0x03
  else match localPa t.stake addr n k with
    | .error d => b.threadFault t eDenied d
    | .ok pa =>
      match f pa with
      | .ok b' => b'
      | .error (c, a) => b.threadFault t c 0x0B 0 a

/-- The value that an AMO stores (R136), where it stores one: operation, old value, SRC2, DEST before the instruction. -/
def amoNew (op old v dest : Nat) : Option Nat :=
  match op with
  | 0 => some ((old + v) % 2 ^ 64)
  | 1 => some v
  | 2 => some (old &&& v)
  | 3 => some (old ||| v)
  | 4 => some (if sext 64 old < sext 64 v then v else old)
  | 5 => some (if sext 64 v < sext 64 old then v else old)
  | _ => if old = dest then some v else none

/-- LD. -/
def Blk.ld (b : Blk) (t : Tid) : Blk :=
  b.insn t 0x28 (fun b i =>
    let th := b.thread t
    let n := 2 ^ bits i.mod 0 2
    b.access t (th.ea i) n .load (fun pa =>
      match b.sramRead pa n with
      | .error e => .error e
      | .ok v => .ok (b.next t (th.setReg i.dest (if bit i.mod 2 then toBits 64 (sext (8 * n) v) else v)))))

/-- ST. -/
def Blk.stI (b : Blk) (t : Tid) : Blk :=
  b.insn t 0x29 (fun b i =>
    let th := b.thread t
    let n := 2 ^ bits i.mod 0 2
    b.access t (th.ea i) n .store (fun pa =>
      match b.sramWrite pa n (th.reg i.src2) with
      | .error e => .error e
      | .ok b' => .ok (b'.next t th)))

/-- AMO. -/
def Blk.amo (b : Blk) (t : Tid) : Blk :=
  b.insn t 0x2A (fun b i =>
    let th := b.thread t
    b.access t (th.ea i) 8 .atomic (fun pa =>
      match b.sramRead pa 8 with
      | .error e => .error e
      | .ok old =>
        let th' := th.setReg i.dest old
        match amoNew i.mod old (th.reg i.src2) (th.reg i.dest) with
        | none => .ok (b.next t th')
        | some v =>
          match b.sramWrite pa 8 v with
          | .error e => .error e
          | .ok b' => .ok (b'.next t th')))

/-- TWAIT (R148). -/
def Blk.twait (b : Blk) (t : Tid) : Blk :=
  b.insn t 0x38 (fun b i =>
    let th := b.thread t
    if th.twaitDone i.imm (bit i.mod 0) then b.twaitEnd t i.dest i.imm
    else b.setThread t { th with sleep := .twait i.dest i.imm (bit i.mod 0) })

/-- FENCE (R150): the thread's accesses are visible as they are made; IFETCH invalidates the stake's instruction cache. -/
def Blk.fence (b : Blk) (t : Tid) : Blk :=
  b.insn t 0x39 (fun b i =>
    let b := if bit i.mod 0 then b.icacheInval t.stake else b
    b.next t (b.thread t))

/-- BAR (R151). -/
def Blk.bar (b : Blk) (t : Tid) : Blk :=
  b.insn t 0x3A (fun b i =>
    let w := waleOf t.stake
    let n := b.barCount w i.imm
    if n = 0 then b.threadFault t eDenied 0x0A
    else if n ≤ (b.atBar w i.imm).length + 1 then
      let b := b.barRelease w i.imm
      b.next t (b.thread t)
    else b.setThread t { b.thread t with sleep := .bar i.imm })

/-- BWAIT (R153). -/
def Blk.bwait (b : Blk) (t : Tid) : Blk :=
  b.insn t 0x3B (fun b i =>
    let th := b.thread t
    if bit i.mod 0 && !(th.pendingIn allSlots).isEmpty then b.setThread t { th with sleep := .drain } else b.beatWait t)

/-- HALT (R155). -/
def Blk.halt (b : Blk) (t : Tid) : Blk :=
  b.insn t 0x3C (fun b _ =>
    let th := b.thread t
    if (th.pendingIn allSlots).isEmpty then b.haltEnd t else b.setThread t { th with sleep := .halt })

/-- SUMRD (R136, R165). -/
def Blk.sumrd (b : Blk) (t : Tid) : Blk :=
  b.insn t 0x40 (fun b i =>
    let th := b.thread t
    let k := th.ea i
    if k > 255 then b.threadFault t eDenied 0x04
    else b.next t (th.setReg i.dest (SMap.get 0 (b.wale (waleOf t.stake)).slots k)))

/-- RDID (R136). -/
def Blk.rdid (b : Blk) (t : Tid) : Blk :=
  b.insn t 0x41 (fun b i =>
    let th := b.thread t
    let w := waleOf t.stake
    let v := match i.imm with
      | 0 => t.stake | 1 => t.thread | 2 => w | 3 => dieOf w | _ => (b.wale w).unitBeat % 2 ^ 32
    b.next t (th.setReg i.dest v))

/-- PHASE (R421). -/
def Blk.phaseI (b : Blk) (t : Tid) : Blk :=
  b.insn t 0x42 (fun b i =>
    let b := b.setStake t.stake { b.stake t.stake with phase := i.imm }
    b.next t (b.thread t))

/-- An opcode that R136 does not list faults the thread with detail 0x01 (R163). -/
def Blk.undefinedOp (b : Blk) (t : Tid) : Blk :=
  let th := b.thread t
  if th.st ≠ tRun ∨ th.sleep ≠ .awake then b
  else match b.fetch t with
    | (b', .error (c, d, pa)) => b'.threadFault t c d 0 pa
    | (b', .ok w) => if (opUses (bits w 57 7)).isNone then b'.threadFault t eDenied 0x01 else b

/-- NOP (R136). -/
def execNop (t : Tid) (s : State) : Host.Outcome State Fault Refusal := cmd (tidOk t) s (fun b => b.insn t 0x00 (fun b _ => b.next t (b.thread t)))

/-- ADD (R136). -/
def execAdd (t : Tid) (s : State) : Host.Outcome State Fault Refusal := cmd (tidOk t) s (fun b => b.alu t 0x01 (fun x y => x + y))

/-- SUB (R136). -/
def execSub (t : Tid) (s : State) : Host.Outcome State Fault Refusal := cmd (tidOk t) s (fun b => b.alu t 0x02 (fun x y => toBits 64 ((x : Int) - y)))

/-- MUL (R136). -/
def execMul (t : Tid) (s : State) : Host.Outcome State Fault Refusal := cmd (tidOk t) s (fun b => b.alu t 0x03 (fun x y => x * y))

/-- MULHU (R136). -/
def execMulhu (t : Tid) (s : State) : Host.Outcome State Fault Refusal := cmd (tidOk t) s (fun b => b.alu t 0x04 (fun x y => x * y / 2 ^ 64))

/-- AND (R136). -/
def execAndOp (t : Tid) (s : State) : Host.Outcome State Fault Refusal := cmd (tidOk t) s (fun b => b.alu t 0x05 (fun x y => x &&& y))

/-- OR (R136). -/
def execOrOp (t : Tid) (s : State) : Host.Outcome State Fault Refusal := cmd (tidOk t) s (fun b => b.alu t 0x06 (fun x y => x ||| y))

/-- XOR (R136). -/
def execXor (t : Tid) (s : State) : Host.Outcome State Fault Refusal := cmd (tidOk t) s (fun b => b.alu t 0x07 (fun x y => x ^^^ y))

/-- SLL (R136). -/
def execSll (t : Tid) (s : State) : Host.Outcome State Fault Refusal := cmd (tidOk t) s (fun b => b.alu t 0x08 (fun x y => x * 2 ^ (y % 64)))

/-- SRL (R136). -/
def execSrl (t : Tid) (s : State) : Host.Outcome State Fault Refusal := cmd (tidOk t) s (fun b => b.alu t 0x09 (fun x y => x / 2 ^ (y % 64)))

/-- SRA (R136). -/
def execSra (t : Tid) (s : State) : Host.Outcome State Fault Refusal := cmd (tidOk t) s (fun b => b.alu t 0x0A (fun x y => toBits 64 (sext 64 x / 2 ^ (y % 64))))

/-- MIN (R136). -/
def execMin (t : Tid) (s : State) : Host.Outcome State Fault Refusal := cmd (tidOk t) s (fun b => b.alu t 0x0B (fun x y => if sext 64 x < sext 64 y then x else y))

/-- MAX (R136). -/
def execMax (t : Tid) (s : State) : Host.Outcome State Fault Refusal := cmd (tidOk t) s (fun b => b.alu t 0x0C (fun x y => if sext 64 x < sext 64 y then y else x))

/-- MINU (R136). -/
def execMinu (t : Tid) (s : State) : Host.Outcome State Fault Refusal := cmd (tidOk t) s (fun b => b.alu t 0x0D (fun x y => min x y))

/-- MAXU (R136). -/
def execMaxu (t : Tid) (s : State) : Host.Outcome State Fault Refusal := cmd (tidOk t) s (fun b => b.alu t 0x0E (fun x y => max x y))

/-- SLT (R136). -/
def execSlt (t : Tid) (s : State) : Host.Outcome State Fault Refusal := cmd (tidOk t) s (fun b => b.alu t 0x0F (fun x y => b2n (decide (sext 64 x < sext 64 y))))

/-- SLTU (R136). -/
def execSltu (t : Tid) (s : State) : Host.Outcome State Fault Refusal := cmd (tidOk t) s (fun b => b.alu t 0x10 (fun x y => b2n (decide (x < y))))

/-- SEQ (R136). -/
def execSeq (t : Tid) (s : State) : Host.Outcome State Fault Refusal := cmd (tidOk t) s (fun b => b.alu t 0x11 (fun x y => b2n (x == y)))

/-- LI (R136). -/
def execLi (t : Tid) (s : State) : Host.Outcome State Fault Refusal := cmd (tidOk t) s (fun b => b.value t 0x12 (fun _ i => immOf i))

/-- LIH (R136). -/
def execLih (t : Tid) (s : State) : Host.Outcome State Fault Refusal := cmd (tidOk t) s (fun b => b.value t 0x13 (fun th i => th.reg i.src1 % 2 ^ 32 + 2 ^ 32 * i.imm))

/-- SEL (R136). -/
def execSel (t : Tid) (s : State) : Host.Outcome State Fault Refusal := cmd (tidOk t) s (fun b => b.insn t 0x14 (fun b i =>
    let th := b.thread t
    b.next t (if th.reg i.src1 = 0 then th else th.setReg i.dest (th.reg i.src2))))

/-- BEQ (R136). -/
def execBeq (t : Tid) (s : State) : Host.Outcome State Fault Refusal := cmd (tidOk t) s (fun b => b.branch t 0x20 (fun x y => x == y))

/-- BNE (R136). -/
def execBne (t : Tid) (s : State) : Host.Outcome State Fault Refusal := cmd (tidOk t) s (fun b => b.branch t 0x21 (fun x y => x != y))

/-- BLT (R136). -/
def execBlt (t : Tid) (s : State) : Host.Outcome State Fault Refusal := cmd (tidOk t) s (fun b => b.branch t 0x22 (fun x y => decide (sext 64 x < sext 64 y)))

/-- BGE (R136). -/
def execBge (t : Tid) (s : State) : Host.Outcome State Fault Refusal := cmd (tidOk t) s (fun b => b.branch t 0x23 (fun x y => decide (sext 64 y ≤ sext 64 x)))

/-- BLTU (R136). -/
def execBltu (t : Tid) (s : State) : Host.Outcome State Fault Refusal := cmd (tidOk t) s (fun b => b.branch t 0x24 (fun x y => decide (x < y)))

/-- BGEU (R136). -/
def execBgeu (t : Tid) (s : State) : Host.Outcome State Fault Refusal := cmd (tidOk t) s (fun b => b.branch t 0x25 (fun x y => decide (y ≤ x)))

/-- JAL (R136). -/
def execJal (t : Tid) (s : State) : Host.Outcome State Fault Refusal := cmd (tidOk t) s (fun b => b.insn t 0x26 (fun b i =>
    let th := b.thread t
    b.retire t (th.setReg i.dest (th.pc + 8)) (branchTo th.pc i.imm)))

/-- JALR (R136): the target has bits [2:0] cleared. -/
def execJalr (t : Tid) (s : State) : Host.Outcome State Fault Refusal := cmd (tidOk t) s (fun b => b.insn t 0x27 (fun b i =>
    let th := b.thread t
    b.retire t (th.setReg i.dest (th.pc + 8)) (th.ea i / 8 * 8)))

/-- LD (R136). -/
def execLd (t : Tid) (s : State) : Host.Outcome State Fault Refusal := cmd (tidOk t) s (fun b => b.ld t)

/-- ST (R136). -/
def execSt (t : Tid) (s : State) : Host.Outcome State Fault Refusal := cmd (tidOk t) s (fun b => b.stI t)

/-- AMO (R136). -/
def execAmo (t : Tid) (s : State) : Host.Outcome State Fault Refusal := cmd (tidOk t) s (fun b => b.amo t)

/-- TWAIT (R148). -/
def execTwait (t : Tid) (s : State) : Host.Outcome State Fault Refusal := cmd (tidOk t) s (fun b => b.twait t)

/-- FENCE (R150). -/
def execFence (t : Tid) (s : State) : Host.Outcome State Fault Refusal := cmd (tidOk t) s (fun b => b.fence t)

/-- BAR (R151). -/
def execBar (t : Tid) (s : State) : Host.Outcome State Fault Refusal := cmd (tidOk t) s (fun b => b.bar t)

/-- BWAIT (R153). -/
def execBwait (t : Tid) (s : State) : Host.Outcome State Fault Refusal := cmd (tidOk t) s (fun b => b.bwait t)

/-- HALT (R155). -/
def execHalt (t : Tid) (s : State) : Host.Outcome State Fault Refusal := cmd (tidOk t) s (fun b => b.halt t)

/-- SUMRD (R136). -/
def execSumrd (t : Tid) (s : State) : Host.Outcome State Fault Refusal := cmd (tidOk t) s (fun b => b.sumrd t)

/-- RDID (R136). -/
def execRdid (t : Tid) (s : State) : Host.Outcome State Fault Refusal := cmd (tidOk t) s (fun b => b.rdid t)

/-- PHASE (R421). -/
def execPhase (t : Tid) (s : State) : Host.Outcome State Fault Refusal := cmd (tidOk t) s (fun b => b.phaseI t)

/-- UNDEFINED_OPCODE (R163). -/
def execUndefinedOpcode (t : Tid) (s : State) : Host.Outcome State Fault Refusal := cmd (tidOk t) s (fun b => b.undefinedOp t)

end Sys2Proof.Machine
end

