-- ==== Sys2Proof/Machine/Num.lean ====
section
/-! DEFINITION. Number formats and exact arithmetic (R175–R199) and the functions of R216. -/

namespace Sys2Proof.Machine

/-! ## Formats and values -/

/-- A floating-point format: width, exponent bits, fraction bits, bias (R175). -/
structure Fmt where
  w : Nat
  eb : Nat
  fb : Nat
  bias : Nat
  deriving DecidableEq, Repr

/-- The format of a code (R175); code 0x8, INT8, has no exponent and is treated apart. -/
def fmtOf : Nat → Fmt
  | 0 => ⟨32, 8, 23, 127⟩ | 1 => ⟨16, 8, 7, 127⟩ | 2 => ⟨16, 5, 10, 15⟩ | 3 => ⟨8, 5, 2, 15⟩ | 4 => ⟨8, 4, 3, 7⟩ | 5 => ⟨6, 3, 2, 3⟩
  | 6 => ⟨6, 2, 3, 1⟩ | 7 => ⟨4, 2, 1, 1⟩ | _ => ⟨8, 0, 7, 0⟩

/-- Width in bits of the elements of a format (R175). -/
def fmtBits (c : Nat) : Nat := (fmtOf c).w

/-- Whether a format carries block scales (R175, R182). -/
def scaled (c : Nat) : Bool := decide (3 ≤ c) && decide (c ≤ 8)

/-- A value: NaN, an infinity, or (−1)^neg × m × 2^e. -/
inductive Num where
  | nan
  | inf (neg : Bool)
  | fin (neg : Bool) (m : Nat) (e : Int)
  deriving DecidableEq, Repr

def Num.zero (neg : Bool := false) : Num := .fin neg 0 0

/-- The sign of a value. -/
def Num.neg : Num → Bool
  | .nan => false | .inf n => n | .fin n _ _ => n

def Num.isZero : Num → Bool
  | .fin _ 0 _ => true | _ => false

def Num.isFinite : Num → Bool
  | .fin .. => true | _ => false

/-- A magnitude times a power of two. -/
def Num.scale (x : Num) (k : Int) : Num := match x with | .fin n m e => .fin n m (e + k) | y => y

/-- The value that an element of a floating-point format encodes (R176). -/
def decodeF (f : Fmt) (v : Nat) : Num :=
  let neg := v.testBit (f.w - 1)
  let ex := bits v f.fb f.eb
  let fr := bits v 0 f.fb
  if ex = 2 ^ f.eb - 1 then (if fr = 0 then .inf neg else .nan)
  else if ex = 0 then .fin neg fr (1 - (f.bias : Int) - f.fb)
  else .fin neg (2 ^ f.fb + fr) ((ex : Int) - f.bias - f.fb)

/-- An FP32 value read as a number: an exponent field of 0 reads as a zero of its sign (R180). -/
def f32 (v : Nat) : Num := if bits v 23 8 = 0 then .zero (v.testBit 31) else decodeF (fmtOf 0) v

/-- An element of a format under a block scale byte, exactly (R182, R183, R194). FP32 takes its flush. -/
def elemVal (c : Nat) (scale v : Nat) : Num :=
  if scaled c && scale == 0xFF then .nan
  else if c = 8 then
    let x := sext 8 v
    .fin (decide (x < 0)) x.natAbs ((scale : Int) - 127)
  else if c = 0 then f32 v
  else if scaled c then (decodeF (fmtOf c) v).scale ((scale : Int) - 127)
  else decodeF (fmtOf c) v

/-! ## Rounding (R195–R198) -/

/-- The rounding modes of R195, with the random bits of stochastic rounding. -/
inductive Rnd where
  | rne | rtz | sr (r : Nat)
  deriving DecidableEq, Repr

/-- `m × 2^(-k)` rounded to an integer by a mode (R195, R197). -/
def roundShift (mode : Rnd) (m k : Nat) : Nat :=
  let n := m / 2 ^ k
  let rem := m % 2 ^ k
  match mode with
  | .rne => if 2 * rem > 2 ^ k ∨ (2 * rem = 2 ^ k ∧ n % 2 = 1) then n + 1 else n
  | .rtz => n
  | .sr r => if r < rem * 65536 / 2 ^ k then n + 1 else n

/-- A magnitude `m × 2^e` in units of `2^q`, rounded by a mode. -/
def roundTo (mode : Rnd) (m : Nat) (e q : Int) : Nat :=
  if q ≤ e then m * 2 ^ (e - q).toNat else roundShift mode m (q - e).toNat

/-- Infinity of a format. -/
def infBits (f : Fmt) (neg : Bool) : Nat := (2 ^ f.eb - 1) * 2 ^ f.fb + b2n neg * 2 ^ (f.w - 1)

/-- The canonical NaN of a format (R177): exponent all ones, the top fraction bit. -/
def nanBits (f : Fmt) : Nat := (2 ^ f.eb - 1) * 2 ^ f.fb + 2 ^ (f.fb - 1)

/-- A value rounded into a floating-point format in an unbounded exponent range (R196); a format with subnormals keeps its subnormal step, FP32, which has none,
rounds at full width and then flushes (R180). -/
def toFmt (f : Fmt) (flush : Bool) (mode : Rnd) : Num → Nat
  | .nan => nanBits f
  | .inf n => infBits f n
  | .fin neg m e =>
    let s := b2n neg * 2 ^ (f.w - 1)
    if m = 0 then s
    else
      let k : Int := (Nat.log2 m : Int) + e
      let emin : Int := 1 - (f.bias : Int)
      let q : Int := (if flush then k else max k emin) - f.fb
      let n := roundTo mode m e q
      let n' := if n = 2 ^ (f.fb + 1) then 2 ^ f.fb else n
      let q' : Int := if n = 2 ^ (f.fb + 1) then q + 1 else q
      if n' < 2 ^ f.fb then (if flush then s else s + n')
      else
        let ex : Int := q' + f.fb + f.bias
        if ex ≤ 0 then s
        else if ex ≥ 2 ^ f.eb - 1 then infBits f neg
        else s + ex.toNat * 2 ^ f.fb + (n' - 2 ^ f.fb)

/-- A value rounded once to FP32, to nearest with ties to even, and flushed (R180, R186, R190). -/
def toF32 (x : Num) : Nat := toFmt (fmtOf 0) true .rne x

/-- A value converted to INT8: rounded to an integer and limited to ±127; NaN and infinity give 0 (R198). -/
def toInt8 (mode : Rnd) : Num → Nat
  | .fin neg m e =>
    let n := min (roundTo mode m e 0) 127
    if neg then (256 - n) % 256 else n
  | _ => 0

/-- A value converted to the format of a code (R195–R198). -/
def convert (c : Nat) (mode : Rnd) (x : Num) : Nat :=
  if c = 8 then toInt8 mode x else if c = 0 then toF32 x else toFmt (fmtOf c) false mode x

/-- The random value of stochastic rounding (R197). -/
def srRandom (step tensor index : Nat) : Nat :=
  let m := 2 ^ 64
  let x := (step % 2 ^ 32 * 2 ^ 32) ^^^ (tensor % 2 ^ 32)
  let x := x ^^^ (index % 2 ^ 48 * 0x9E37_79B9_7F4A_7C15 % m)
  let x := (x ^^^ (x / 2 ^ 30)) * 0xBF58_476D_1CE4_E5B9 % m
  let x := (x ^^^ (x / 2 ^ 27)) * 0x94D0_49BB_1331_11EB % m
  let x := x ^^^ (x / 2 ^ 31)
  x / 2 ^ 48

/-- The mode of an RND code for one element (R195). -/
def rndMode (code step tensor index : Nat) : Rnd :=
  match code with | 0 => .rne | 1 => .rtz | _ => .sr (srRandom step tensor index)

/-! ## Block scales (R184) -/

/-- The largest finite value of a format as `(m, e)` (R177). -/
def maxFin (c : Nat) : Nat × Int :=
  if c = 8 then (127, 0)
  else
    let f := fmtOf c
    (2 ^ (f.fb + 1) - 1, (2 ^ f.eb - 2 : Int) - f.bias - f.fb)

/-- Whether `m1 × 2^e1 ≤ m2 × 2^e2`. -/
def leMag (m1 : Nat) (e1 : Int) (m2 : Nat) (e2 : Int) : Bool :=
  let e := min e1 e2
  decide (m1 * 2 ^ (e1 - e).toNat ≤ m2 * 2 ^ (e2 - e).toNat)

/-- The largest magnitude of the finite elements of a list. -/
def amax : List Num → Nat × Int
  | [] => (0, 0)
  | x :: l =>
    let a := amax l
    match x with
    | .fin _ m e => if leMag m e a.1 a.2 then a else (m, e)
    | _ => a

/-- The block scale derived from data (R184): the smallest `s` with amax ≤ max × 2^s, biased and clamped. -/
def deriveScale (c : Nat) (l : List Num) : Nat :=
  let a := amax l
  let mx := maxFin c
  let E : Nat :=
    if a.1 = 0 then 0x7F
    else
      let s0 : Int := ((Nat.log2 a.1 : Int) + a.2) - ((Nat.log2 mx.1 : Int) + mx.2)
      let s := if leMag a.1 a.2 mx.1 (mx.2 + s0) then s0 else s0 + 1
      (max 0 (min 254 (s + 127))).toNat
  if c = 8 && l.any (fun x => !x.isFinite) then 0xFF else E

/-! ## FP32 operations (R186–R190) -/

/-- A finite value as an integer at exponent `e`, which is at most its own. -/
def signedAt (neg : Bool) (m : Nat) (e0 e : Int) : Int :=
  let v : Int := (m * 2 ^ (e0 - e).toNat : Nat)
  if neg then -v else v

/-- An exact sum (R186, R188). -/
def Num.add : Num → Num → Num
  | .nan, _ => .nan | _, .nan => .nan
  | .inf a, .inf b => if a = b then .inf a else .nan
  | .inf a, _ => .inf a | _, .inf b => .inf b
  | .fin n1 m1 e1, .fin n2 m2 e2 =>
    let e := min e1 e2
    let v := signedAt n1 m1 e1 e + signedAt n2 m2 e2 e
    if v = 0 then .zero (m1 == 0 && m2 == 0 && n1 && n2) else .fin (decide (v < 0)) v.natAbs e

/-- The value with its sign inverted. -/
def Num.negate : Num → Num
  | .nan => .nan | .inf n => .inf (!n) | .fin n m e => .fin (!n) m e

/-- An exact product (R186, R188). -/
def Num.mul : Num → Num → Num
  | .nan, _ => .nan | _, .nan => .nan
  | .inf a, .inf b => .inf (a != b)
  | .inf a, .fin b m _ => if m = 0 then .nan else .inf (a != b)
  | .fin a m _, .inf b => if m = 0 then .nan else .inf (a != b)
  | .fin a m1 e1, .fin b m2 e2 => .fin (a != b) (m1 * m2) (e1 + e2)

/-- FP32 addition, subtraction, multiplication and fused multiply-add of bit patterns (R190). -/
def fadd (a b : Nat) : Nat := toF32 ((f32 a).add (f32 b))
def fsub (a b : Nat) : Nat := toF32 ((f32 a).add (f32 b).negate)
def fmul (a b : Nat) : Nat := toF32 ((f32 a).mul (f32 b))
def ffma (a b c : Nat) : Nat := toF32 (((f32 a).mul (f32 b)).add (f32 c))

/-- The order of two values that are not NaN: whether `a < b`, and whether they are equal; −0 and +0 are equal (R189). -/
def Num.lt : Num → Num → Bool
  | .nan, _ => false | _, .nan => false
  | .inf a, .inf b => a && !b
  | .inf a, .fin .. => a
  | .fin .., .inf b => !b
  | .fin n1 m1 e1, .fin n2 m2 e2 => decide (signedAt n1 m1 e1 (min e1 e2) < signedAt n2 m2 e2 (min e1 e2))

def Num.eq (a b : Num) : Bool :=
  match a, b with
  | .nan, _ => false | _, .nan => false
  | a, b => !a.lt b && !b.lt a

def isNan32 (v : Nat) : Bool := bits v 23 8 == 255 && bits v 0 23 != 0
def isNonFinite32 (v : Nat) : Bool := bits v 23 8 == 255
def nan32 : Nat := 0x7FC0_0000
def one32 : Nat := 0x3F80_0000
def negInf32 : Nat := 0xFF80_0000

/-- Minimum and maximum: −0 is less than +0, and a NaN gives the canonical NaN (R189). -/
def fminmax (isMax : Bool) (a b : Nat) : Nat :=
  let x := f32 a
  let y := f32 b
  if x = .nan ∨ y = .nan then nan32
  else
    let aLess := x.lt y || (x.eq y && x.neg && !y.neg)
    toF32 (if aLess == isMax then y else x)

def fmin (a b : Nat) : Nat := fminmax false a b
def fmax (a b : Nat) : Nat := fminmax true a b

/-- Comparisons of bit patterns (R189). -/
def flt (a b : Nat) : Bool := (f32 a).lt (f32 b)
def feq (a b : Nat) : Bool := (f32 a).eq (f32 b)
def fle (a b : Nat) : Bool := flt a b || feq a b

/-- An element widened to FP32 (R181, R199); an FP32 element passes unchanged. -/
def widen (c scale v : Nat) : Nat := if c = 0 then v else toF32 (elemVal c scale v)

/-! ## Division and roots -/

/-- `a / b` of positive magnitudes, with enough bits that one more says whether any were lost. -/
def divMag (m1 : Nat) (e1 : Int) (m2 : Nat) (e2 : Int) : Nat × Int :=
  let k := Nat.log2 m2 + 96
  let q := m1 * 2 ^ k / m2
  (2 * q + b2n (m1 * 2 ^ k % m2 != 0), e1 - e2 - k - 1)

/-- An exact quotient as far as any rounding sees (R186, R190). -/
def Num.div : Num → Num → Num
  | .nan, _ => .nan | _, .nan => .nan
  | .inf _, .inf _ => .nan
  | .inf a, .fin b _ _ => .inf (a != b)
  | .fin a _ _, .inf b => .zero (a != b)
  | .fin a m1 e1, .fin b m2 e2 =>
    if m2 = 0 then (if m1 = 0 then .nan else .inf (a != b))
    else let r := divMag m1 e1 m2 e2; .fin (a != b) r.1 r.2

def fdiv (a b : Nat) : Nat := toF32 ((f32 a).div (f32 b))

/-- The integer square root, bit by bit from `2^k` down. -/
def isqrtGo (n : Nat) : (k r : Nat) → Nat
  | 0, r => if (r + 1) * (r + 1) ≤ n then r + 1 else r
  | k + 1, r => isqrtGo n k (if (r + 2 ^ (k + 1)) * (r + 2 ^ (k + 1)) ≤ n then r + 2 ^ (k + 1) else r)

def isqrt (n : Nat) : Nat := isqrtGo n (Nat.log2 n / 2 + 1) 0

/-- A square root as far as any rounding sees. A negative argument gives NaN, −0 gives −0. -/
def Num.sqrt : Num → Num
  | .nan => .nan
  | .inf n => if n then .nan else .inf false
  | .fin n m e =>
    if m = 0 then .zero n
    else if n then .nan
    else
      let odd := e % 2 != 0
      let m' := (if odd then 2 * m else m) * 2 ^ 160
      let r := isqrt m'
      .fin false (2 * r + b2n (r * r != m')) ((if odd then e - 1 else e) / 2 - 80 - 1)

def fsqrt (a : Nat) : Nat := toF32 (f32 a).sqrt

/-- RECIP and RSQRT (R216). -/
def frecip (a : Nat) : Nat := toF32 ((Num.fin false 1 0).div (f32 a))

/-- The reciprocal square root: its exact square is 1 / x, so the root is taken of the reciprocal's magnitude scaled by an even power of two. -/
def Num.rsqrt : Num → Num
  | .nan => .nan
  | .inf n => if n then .nan else .zero false
  | .fin n m e =>
    if m = 0 then .inf n
    else if n then .nan
    else
      let odd := e % 2 != 0
      let m' := if odd then 2 * m else m
      let k := 96 + Nat.log2 m'
      let q := 2 ^ (2 * k) / m'
      let r := isqrt q
      .fin false (2 * r + b2n (r * r * m' != 2 ^ (2 * k))) (-((if odd then e - 1 else e) / 2) - k - 1)

def frsqrt (a : Nat) : Nat := toF32 (f32 a).rsqrt

/-! ## Intervals for the transcendental functions (R216)

A value with an error bound, in units of `2^(-p)`: the exact value lies within `err` of `v`. -/

structure Apx where
  v : Int
  err : Nat
  deriving DecidableEq, Repr

/-- `x / 2^k` rounded down. -/
def shr (x : Int) (k : Nat) : Int := x / (2 ^ k : Int)

def Apx.add (a b : Apx) : Apx := ⟨a.v + b.v, a.err + b.err⟩
def Apx.sub (a b : Apx) : Apx := ⟨a.v - b.v, a.err + b.err⟩
def Apx.mul (p : Nat) (a b : Apx) : Apx :=
  ⟨shr (a.v * b.v) p, (a.v.natAbs * b.err + b.v.natAbs * a.err + a.err * b.err) / 2 ^ p + 2⟩
/-- Division by a positive number. -/
def Apx.divNat (a : Apx) (n : Nat) : Apx := ⟨a.v / (n : Int), a.err / n + 2⟩
/-- Division by a value above 1/2. -/
def Apx.div (p : Nat) (a b : Apx) : Apx :=
  let d := b.v.natAbs - b.err
  ⟨a.v * 2 ^ p / b.v, if d = 0 then 2 ^ (2 * p) else (a.err * 2 ^ p + b.err * (a.v.natAbs * 2 ^ p / d + 1)) / d + 2⟩

/-- `m × 2^e` at precision `p`. -/
def Apx.ofNum (p : Nat) (neg : Bool) (m : Nat) (e : Int) : Apx :=
  let k := e + p
  let a : Nat := if 0 ≤ k then m * 2 ^ k.toNat else m / 2 ^ (-k).toNat
  ⟨if neg then -(a : Int) else a, if 0 ≤ k then 0 else 1⟩

/-- ln 2 at precision `p`: the sum of 1 / (k 2^k). -/
def ln2Go (p : Nat) : (fuel k : Nat) → Apx → Apx
  | 0, _, s => ⟨s.v, s.err + 2⟩
  | f + 1, k, s => ln2Go p f (k + 1) (s.add ⟨2 ^ p / (k * 2 ^ k : Int), 1⟩)

def ln2 (p : Nat) : Apx := ln2Go p p 1 ⟨0, 0⟩

/-- The exponential of a small value (|t| < 1) by its series. -/
def expGo (p : Nat) (t : Apx) : (fuel k : Nat) → Apx → Apx → Apx
  | 0, _, _, s => ⟨s.v, s.err + 2⟩
  | f + 1, k, term, s =>
    let term' := (Apx.mul p term t).divNat k
    expGo p t f (k + 1) term' (s.add term')

def expSmall (p : Nat) (t : Apx) : Apx := expGo p t (p / 2 + 8) 1 ⟨2 ^ p, 0⟩ ⟨2 ^ p, 0⟩

/-- `2^n` times a value at the same precision. -/
def Apx.scaleBy (a : Apx) (n : Int) : Apx :=
  if 0 ≤ n then ⟨a.v * 2 ^ n.toNat, a.err * 2 ^ n.toNat⟩ else ⟨shr a.v (-n).toNat, a.err / 2 ^ (-n).toNat + 1⟩

/-- The exponential of a value of moderate size. -/
def expA (p : Nat) (t : Apx) : Apx :=
  let l := ln2 p
  let n : Int := t.v / l.v
  let r := t.sub ⟨l.v * n, l.err * n.natAbs⟩
  (expSmall p r).scaleBy n

/-- The inverse hyperbolic tangent's series, for |t| ≤ 1/3: the sum of t^(2k+1) / (2k+1). -/
def atanhGo (p : Nat) (t2 : Apx) : (fuel k : Nat) → Apx → Apx → Apx
  | 0, _, _, s => ⟨s.v, s.err + 2⟩
  | f + 1, k, pw, s =>
    let pw' := Apx.mul p pw t2
    atanhGo p t2 f (k + 2) pw' (s.add (pw'.divNat k))

/-- The error function's series without its factor: z Σ (2z²)^n / (2n+1)!!, all terms of one sign. -/
def erfGo (p : Nat) (z22 : Apx) : (fuel k : Nat) → Apx → Apx → Apx
  | 0, _, _, s => ⟨s.v, s.err + 2⟩
  | f + 1, k, term, s =>
    let term' := (Apx.mul p term z22).divNat k
    erfGo p z22 f (k + 2) term' (s.add term')

/-- π at precision `p` by Machin's formula: 4 (4 arctan 1/5 − arctan 1/239). -/
def arctanInvGo (p n : Nat) : (fuel k : Nat) → (sgn : Bool) → (pw : Nat) → Apx → Apx
  | 0, _, _, _, s => ⟨s.v, s.err + 2⟩
  | f + 1, k, sgn, pw, s =>
    let t : Int := (pw / k : Nat)
    arctanInvGo p n f (k + 2) (!sgn) (pw / (n * n)) (s.add ⟨if sgn then -t else t, 2⟩)

def piA (p : Nat) : Apx :=
  let a := arctanInvGo p 5 (p / 4 + 8) 1 false (2 ^ p / 5) ⟨0, 0⟩
  let b := arctanInvGo p 239 (p / 14 + 8) 1 false (2 ^ p / 239) ⟨0, 0⟩
  ⟨16 * a.v - 4 * b.v, 16 * a.err + 4 * b.err⟩

/-- The square root of a positive value. -/
def Apx.sqrt (p : Nat) (a : Apx) : Apx :=
  let r := isqrt (a.v.toNat * 2 ^ p)
  ⟨r, a.err * 2 ^ p / (r + 1) + 2⟩

/-- The standard normal distribution function at `x`, |x| ≤ 14: 1/2 + φ(x) Σ x^(2n+1) / (2n+1)!!. -/
def normCdf (p : Nat) (x : Apx) : Apx :=
  let x2 := Apx.mul p x x
  let s := erfGo p x2 (p + 800) 3 x x
  let phi := Apx.div p (expA p ⟨-(x2.v / 2), x2.err + 1⟩) (Apx.sqrt p ⟨2 * (piA p).v, 2 * (piA p).err⟩)
  (⟨2 ^ p / 2, 0⟩ : Apx).add (Apx.mul p phi s)

/-- The enclosure of a function of R216 at a finite non-zero argument. -/
def fnApx (fn p : Nat) (neg : Bool) (m : Nat) (e : Int) : Apx :=
  let x := Apx.ofNum p neg m e
  let one : Apx := ⟨2 ^ p, 0⟩
  match fn with
  | 1 => expA p (Apx.mul p x (ln2 p))
  | 2 =>
    let k0 : Int := (Nat.log2 m : Int)
    let big := decide (m * 2 > 3 * 2 ^ k0.toNat)
    let k := if big then k0 + 1 else k0
    let y := Apx.ofNum p false m (-k)
    let t := Apx.div p (y.sub one) (y.add one)
    let a := atanhGo p (Apx.mul p t t) (p / 2 + 8) 3 t t
    (Apx.div p ⟨2 * a.v, 2 * a.err⟩ (ln2 p)).add ⟨(e + k) * 2 ^ p, 0⟩
  | 5 =>
    let t := expA p ⟨-(2 * x.v.natAbs : Int), 2 * x.err⟩
    let r := Apx.div p (one.sub t) (one.add t)
    if neg then ⟨-r.v, r.err⟩ else r
  | 6 =>
    let q := expA p ⟨-(x.v.natAbs : Int), x.err⟩
    if neg then Apx.div p q (one.add q) else Apx.div p one (one.add q)
  | _ => Apx.mul p x (normCdf p x)

/-- The FP32 value that both ends of an enclosure round to, if they agree. -/
def Apx.decide? (p : Nat) (a : Apx) : Option Nat :=
  let end_ := fun (z : Int) => toF32 (.fin (decide (z < 0)) z.natAbs (-(p : Int)))
  if end_ (a.v - a.err) = end_ (a.v + a.err) then some (end_ (a.v - a.err)) else none

/-- The correctly rounded value at a finite non-zero argument where no shortcut applies. -/
def fnRound (fn v : Nat) (neg : Bool) (m : Nat) (e : Int) : Nat :=
  match (fnApx fn 448 neg m e).decide? 448 with
  | some r => r
  | none => match (fnApx fn 1024 neg m e).decide? 1024 with
    | some r => r
    | none => Config.fnUndecided fn v

/-- Whether a magnitude is at least `n`. -/
def magGe (m : Nat) (e : Int) (n : Nat) : Bool := leMag n 0 m e

/-- FN of the chain (R216): the special inputs of its table, the arguments whose result is a limit, and the correctly rounded value. -/
def fnOp (fn v : Nat) : Nat :=
  match fn, f32 v with
  | _, .nan => nan32
  | 1, .inf n => if n then 0 else 0x7F80_0000
  | 1, .fin n m e =>
    if m = 0 then one32 else if magGe m e 128 then (if n then (if magGe m e 160 then 0 else fnRound 1 v n m e) else 0x7F80_0000)
    else fnRound 1 v n m e
  | 2, .inf n => if n then nan32 else 0x7F80_0000
  | 2, .fin n m e =>
    if m = 0 then negInf32 else if n then nan32
    else if m = 2 ^ Nat.log2 m then toF32 (.fin (decide (e + (Nat.log2 m : Int) < 0)) (e + (Nat.log2 m : Int)).natAbs 0)
    else fnRound 2 v n m e
  | 3, x => toF32 ((Num.fin false 1 0).div x)
  | 4, x => toF32 x.rsqrt
  | 5, .inf n => if n then 0xBF80_0000 else one32
  | 5, .fin n m e =>
    if m = 0 then toF32 (.zero n) else if magGe m e 100 then (if n then 0xBF80_0000 else one32) else fnRound 5 v n m e
  | 6, .inf n => if n then 0 else one32
  | 6, .fin n m e =>
    if m = 0 then 0x3F00_0000 else if magGe m e 128 then (if n then 0 else one32) else fnRound 6 v n m e
  | _, .inf n => if n then 0x8000_0000 else 0x7F80_0000
  | _, .fin n m e =>
    if m = 0 then toF32 (.zero n) else if magGe m e 15 then (if n then 0x8000_0000 else v) else fnRound 7 v n m e

end Sys2Proof.Machine
end

