-- ==== Sys2Proof/Machine/Engine.lean ====
section
/-! DEFINITION. What the engines share: descriptor fields, operand reads, output writes (R510), leave requests (R418), suspension records (R257–R260), the dot
product of R191 and the lane tree of R217. -/

namespace Sys2Proof.Machine

/-! ## Descriptors -/

/-- A word of a descriptor, and a field of it. -/
def dword (d : List Nat) (k : Nat) : Nat := d.getD k 0
def dfield (d : List Nat) (k lo w : Nat) : Nat := bits (dword d k) lo w

/-- Whether every bit outside the masks of the eight words is 0. -/
def dclean (d masks : List Nat) : Bool := (List.range 8).all (fun k => dword d k &&& masks.getD k 0 == dword d k)

/-- The bits `lo + w - 1` to `lo` as a mask. -/
def fmask (lo w : Nat) : Nat := (2 ^ w - 1) * 2 ^ lo

/-- Local ranges: `n` bytes in stake SRAM general, or in wale SRAM (R132). -/
def inGeneral (addr n : Nat) : Bool := decide (addr + n ≤ 0x3_8000)
def inWale (addr n : Nat) : Bool := decide (0x80_0000 ≤ addr) && decide (addr + n ≤ 0x100_0000)

/-- The physical address of a local address in the map of R132. -/
def lpa (s addr : Nat) : Nat := if addr < 0x80_0000 then stakeWin s + addr else waleWin (waleOf s) + (addr - 0x80_0000)

/-- Bytes that `n` elements of `w` bits take. -/
def packedLen (w n : Nat) : Nat := (n * w + 7) / 8

/-! ## Reads and writes -/

/-- A read that failed: its class, local address and physical address. -/
structure RFail where
  cls : Nat
  addr : Nat
  pa : Nat
  deriving DecidableEq, Repr

/-- A read of an engine's operand at a local address, as a little-endian number. -/
def Blk.lread (b : Blk) (s addr n : Nat) : Except RFail Nat :=
  match b.sramRead (lpa s addr) n with
  | .ok v => .ok v
  | .error (c, a) => .error ⟨c, addr + (a - lpa s addr), a⟩

/-- `n` packed elements of `w` bits read from a local address on (R179). -/
def Blk.lelems (b : Blk) (s addr w n : Nat) : Except RFail (List Nat) :=
  match b.lread s addr (packedLen w n) with
  | .ok v => .ok ((List.range n).map (fun k => bits v (k * w) w))
  | .error e => .error e

/-- Every read of a list, or the first failure. -/
def allOk {α β ε : Type} (f : α → Except ε β) : List α → Except ε (List β)
  | [] => .ok []
  | x :: l =>
    match f x with
    | .error e => .error e
    | .ok y =>
      match allOk f l with
      | .error e => .error e
      | .ok ys => .ok (y :: ys)

/-- Packed elements as bytes (R179). -/
def packBytes (w : Nat) (l : List Nat) : List Byte :=
  natLe (packedLen w l.length) (l.foldr (fun v acc => v % 2 ^ w + acc * 2 ^ w) 0)

/-- An engine's output written word by word; a write that fails leaves its word unchanged and the others are made (R510). Answers the failed writes' classes and
local addresses. -/
def Blk.lwriteGo (s : Nat) : (fuel : Nat) → Blk → (addr : Nat) → List Byte → Blk × List (Nat × Nat)
  | 0, b, _, _ => (b, [])
  | fuel + 1, b, addr, l =>
    match l with
    | [] => (b, [])
    | _ :: _ =>
      let n := min (8 - addr % 8) l.length
      match b.sramWrite (lpa s addr) n (leNat (l.take n)) with
      | .ok b' => Blk.lwriteGo s fuel b' (addr + n) (l.drop n)
      | .error (c, _) =>
        let r := Blk.lwriteGo s fuel b (addr + n) (l.drop n)
        (r.1, (c, addr) :: r.2)

def Blk.lwrite (b : Blk) (s addr : Nat) (l : List Byte) : Blk × List (Nat × Nat) := Blk.lwriteGo s l.length b addr l

/-- Packed elements written from a local address on; bits of the last byte beyond the elements keep their contents. -/
def Blk.lwriteElems (b : Blk) (s addr w : Nat) (l : List Nat) : Blk × List (Nat × Nat) :=
  let n := packedLen w l.length
  let used := l.length * w
  let old := (b.byteAt 0 (lpa s (addr + (n - 1)))).toNat
  let v := leNat (packBytes w l)
  let v' := if used % 8 = 0 then v else v + old / 2 ^ (used % 8) * 2 ^ used
  b.lwrite s addr (natLe n v')

/-- The class that an operation posts for its failed output writes: the first one's, or 0 (R510). -/
def firstCls (l : List (Nat × Nat)) : Nat := match l with | [] => 0 | e :: _ => e.1

/-- The failed output writes of a stake's engine recorded in its STAKE page (R510). -/
def Blk.stakeWriteErrs (b : Blk) (op : QOp) (l : List (Nat × Nat)) : Blk :=
  b.each l (fun b e => b.error .stake op.tid.stake
    { cls := e.1, info0 := op.tid.thread + 2 ^ 16 * op.slot, info2 := e.2, addr := lpa op.tid.stake e.2 })

/-! ## Leave (R418, R419) -/

/-- The die whose arbiter a requester asks (R206, R250, R269, R376). -/
def lvDie : LvReq → Nat
  | .bank n => n / 3
  | .coder k => if k < 16 then k / 4 else if k < 18 then 0 else 2
  | .row w => dieOf w
  | .dma c => dieOf (c / 64)
  | .mat s => dieOf (waleOf s)

def Blk.lvReqs (b : Blk) (d : Nat) : List LvReq := SMap.get [] b.leave.reqs d

/-- A request entered, once. -/
def Blk.lvAsk (b : Blk) (r : LvReq) : Blk :=
  if (b.lvReqs (lvDie r)).contains r ∨ b.leave.granted.contains r then b
  else { b with leave := { b.leave with reqs := SMap.set [] b.leave.reqs (lvDie r) (b.lvReqs (lvDie r) ++ [r]) } }

/-- The rank of a requester among those of one mesh clock: its kind and its index (R418). -/
def lvRank : LvReq → Nat
  | .bank n => n
  | .coder k => 2 ^ 16 + k
  | .row w => 2 * 2 ^ 16 + w
  | .dma c => 3 * 2 ^ 16 + c
  | .mat s => 4 * 2 ^ 16 + s

/-- A request put before the first that ranks after it. -/
def lvInsert (r : LvReq) : List LvReq → List LvReq
  | [] => [r]
  | x :: l => if lvRank r < lvRank x then r :: x :: l else x :: lvInsert r l

/-- The last `n` requests that a die's arbiter took arrived in one mesh clock: they rank by kind and index (R418). -/
def Blk.lvTogether (b : Blk) (d n : Nat) : Blk :=
  let l := b.lvReqs d
  let k := l.length - n
  { b with leave := { b.leave with reqs := SMap.set [] b.leave.reqs d (l.take k ++ (l.drop k).foldr lvInsert []) } }

/-- Whether a requester holds a grant that it has not used. -/
def Blk.lvGranted (b : Blk) (r : LvReq) : Bool := b.leave.granted.contains r

/-- A requester's request and grant withdrawn, or its grant used. -/
def Blk.lvDrop (b : Blk) (r : LvReq) : Blk :=
  { b with leave := { reqs := SMap.set [] b.leave.reqs (lvDie r) ((b.lvReqs (lvDie r)).filter (· != r)),
                      granted := b.leave.granted.filter (· != r) } }

/-! ## Exact arithmetic over lists -/

/-- The exact sum of a non-empty list (R191 step 2, R192). -/
def sumNums : List Num → Num
  | [] => .zero
  | x :: l => l.foldl Num.add x

/-- The total of one K-block, rounded once to FP32 (R191, R192, R194). -/
def blockTotal (c ea eb : Nat) (as bs : List Nat) : Nat :=
  toF32 (sumNums ((as.zip bs).map (fun p => (elemVal c ea p.1).mul (elemVal c eb p.2))))

/-- A value in the lane tree, or a masked lane. -/
abbrev Lane := Option Nat

/-- One level of the lane tree: neighbours combined; a masked child yields the other (R217). -/
def treeLevel (f : Nat → Nat → Nat) : List Lane → List Lane
  | a :: c :: l =>
    (match a, c with
      | some x, some y => some (f x y)
      | some x, none => some x
      | none, y => y) :: treeLevel f l
  | l => l

/-- The total of one group of 64 lanes: six levels (R217). -/
def groupTree (f : Nat → Nat → Nat) (l : List Lane) : Lane :=
  ((List.range 6).foldl (fun acc _ => treeLevel f acc) l).headD none

/-- A list cut into groups of 64 lanes, the last one filled with masked lanes. -/
def groups (l : List Nat) : (fuel : Nat) → List (List Lane)
  | 0 => []
  | fuel + 1 =>
    match l with
    | [] => []
    | _ :: _ => ((l.take 64).map some ++ List.replicate (64 - min 64 l.length) none) :: groups (l.drop 64) fuel

/-- Group totals combined in ascending order, masked ones skipped (R217). -/
def combineTotals (f : Nat → Nat → Nat) (l : List Lane) : Lane :=
  l.foldl (fun acc u => match acc, u with
    | some x, some y => some (f x y)
    | some x, none => some x
    | none, y => y) none

/-- The lane tree over a row of values (R217, R224). -/
def treeOf (f : Nat → Nat → Nat) (l : List Nat) : Nat :=
  (combineTotals f ((groups l (l.length / 64 + 1)).map (groupTree f))).getD 0

end Sys2Proof.Machine
end

