-- ==== Sys2Proof/Machine/Matrix.lean ====
section
/-! DEFINITION. The matrix unit (R200–R210, R510): descriptor, adapter entries, K-blocks, output, suspension and the context area. -/

namespace Sys2Proof.Machine

/-- The matrix descriptor (R201). Pitches of data rows are in bytes here. -/
structure MatDesc where
  fa : Nat
  fb : Nat
  fc : Nat
  rnd : Nat
  ta : Bool
  tb : Bool
  accInit : Bool
  adapt : Nat
  m : Nat
  n : Nat
  variant : Nat
  k : Nat
  aP : Nat
  bP : Nat
  cP : Nat
  aSP : Nat
  aA : Nat
  bA : Nat
  cA : Nat
  atab : Nat
  aS : Nat
  bS : Nat
  cS : Nat
  bSP : Nat
  cSP : Nat
  srStep : Nat
  srTensor : Nat
  srBase : Nat
  srPitch : Nat
  deriving DecidableEq, Repr

/-- The fields of a matrix descriptor's words. -/
def matDesc (d : List Nat) : MatDesc :=
  let f := dfield d
  { fa := f 0 0 4, fb := f 0 4 4, fc := f 0 8 4, rnd := f 0 12 2, ta := f 0 14 1 == 1, tb := f 0 15 1 == 1, accInit := f 0 16 1 == 1,
    adapt := f 0 17 2, m := f 0 20 4 + 1, n := f 0 24 5 + 1, variant := f 0 32 8, k := f 0 48 16,
    aP := f 1 0 16 * 64, bP := f 1 16 16 * 64, cP := f 1 32 16 * 64, aSP := f 1 48 16, aA := f 2 0 32, bA := f 2 32 32, cA := f 3 0 32,
    atab := f 3 32 32, aS := f 4 0 32, bS := f 4 32 32, cS := f 5 0 32, bSP := f 5 32 16, cSP := f 5 48 16, srStep := f 6 0 32,
    srTensor := f 6 32 32, srBase := f 7 0 48, srPitch := f 7 48 16 }

/-- The bits that R201 names. -/
def matMasks : List Nat :=
  [fmask 0 19 + fmask 20 4 + fmask 24 5 + fmask 32 8 + fmask 48 16, 2 ^ 64 - 1, 2 ^ 64 - 1, 2 ^ 64 - 1, 2 ^ 64 - 1, 2 ^ 64 - 1, 2 ^ 64 - 1, 2 ^ 64 - 1]

/-- An adapter entry (R207). -/
structure Adapter where
  uA : Nat
  vA : Nat
  uS : Nat
  vS : Nat
  uP : Nat
  vP : Nat
  uSP : Nat
  vSP : Nat
  rank : Nat
  pad : Nat
  alpha : Nat
  deriving DecidableEq, Repr

/-- The fields of an entry's 32 bytes. -/
def adapterOf (v : Nat) : Adapter :=
  { uA := bits v 0 32, vA := bits v 32 32, uS := bits v 64 32, vS := bits v 96 32, uP := bits v 128 16 * 64, vP := bits v 144 16 * 64,
    uSP := bits v 160 16, vSP := bits v 176 16, rank := bits v 192 8, pad := bits v 200 24, alpha := bits v 224 32 }

/-- An array of rows in stake SRAM general: alignment, pitch, place (R202). -/
def rowsOk (base n pitch len align : Nat) : Bool :=
  base % align == 0 && decide (len ≤ pitch) && inGeneral base ((n - 1) * pitch + len)

/-- The columns of C: N, or the rank under DOWN (R207). -/
def MatDesc.cols (d : MatDesc) (e : Option Adapter) : Nat := if d.adapt = 1 then (match e with | some x => x.rank | none => d.n) else d.n

/-- The checks of R202 over addresses, pitches and ranges, and those of R207 over an adapter entry where one is given. -/
def MatDesc.geom (d : MatDesc) (e : Option Adapter) : Bool :=
  let w := fmtBits d.fa
  let r := match e with | some x => x.rank | none => 0
  let ka := d.k + (if d.adapt = 2 then r else 0)
  let n := d.cols e
  let arr := fun (base pitch vecs len : Nat) (t : Bool) =>
    if t then rowsOk base len pitch (packedLen w vecs) 64 else rowsOk base vecs pitch (packedLen w len) 64
  let scl := fun (base pitch vecs len : Nat) => !scaled d.fa || rowsOk base vecs pitch ((len + 31) / 32) 1
  arr d.aA d.aP d.m ka d.ta && scl d.aS d.aSP d.m ka
    && (d.adapt == 1 || (arr d.bA d.bP n d.k (!d.tb) && scl d.bS d.bSP n d.k))
    && d.atab % 32 == 0 && (d.adapt == 0 || inGeneral (d.atab + 32 * d.variant) 32)
    && (match e with
        | none => true
        | some x =>
          (x.rank == 8 || x.rank == 16 || x.rank == 24 || x.rank == 32) && x.pad == 0
            && (if d.adapt = 1 then arr x.uA x.uP x.rank d.k (!d.tb) && scl x.uS x.uSP x.rank d.k
                else arr x.vA x.vP n x.rank (!d.tb) && scl x.vS x.vSP n x.rank))
    && d.cA % 64 == 0 && decide (packedLen (fmtBits d.fc) n ≤ d.cP)
    && (List.range d.m).all (fun i =>
        inGeneral (d.cA + i * d.cP) (packedLen (fmtBits d.fc) n) || inWale (d.cA + i * d.cP) (packedLen (fmtBits d.fc) n))
    && (!scaled d.fc || rowsOk d.cS d.m d.cSP ((n + 31) / 32) 1)

/-- Whether the matrix unit accepts a descriptor at issue (R185, R202). -/
def matValid (l : List Nat) : Bool :=
  let d := matDesc l
  dclean l matMasks && d.k != 0 && decide (d.fa ≤ 8) && d.fb == d.fa && decide (d.fc ≤ 8) && d.rnd != 3 && d.adapt != 3
    && !(d.accInit && d.fc != 0) && !(d.adapt == 2 && d.k % 32 != 0) && d.geom none

/-- K-blocks of the base operands, and of the whole operation: UP adds one (R207). -/
def MatDesc.base (d : MatDesc) : Nat := (d.k + 31) / 32
def MatDesc.blocks (d : MatDesc) : Nat := d.base + (if d.adapt = 2 then 1 else 0)

/-- Stake clocks per K-block (R206). -/
def blockClocks (fa : Nat) : Nat := if fa = 7 then 16 else if fa = 0 then 512 else if fa ≤ 2 then 64 else 32

/-- Whether an operation with `n` blocks to run asks for leave (R206, R210). -/
def MatDesc.needsLeave (d : MatDesc) (n : Nat) : Bool := decide (n * blockClocks d.fa > 256)

/-- Block `j` of `n` vectors along K, `kj` elements each: rows of elements along K, or rows of the n vectors' elements read transposed (R203). -/
def Blk.matVecs (b : Blk) (s base pitch : Nat) (byRow : Bool) (n j kj w : Nat) : Except RFail (List (List Nat)) :=
  if byRow then allOk (fun v => b.lelems s (base + v * pitch + 4 * w * j) w kj) (List.range n)
  else match allOk (fun t => b.lelems s (base + (32 * j + t) * pitch) w n) (List.range kj) with
    | .error e => .error e
    | .ok rows => .ok ((List.range n).map (fun v => rows.map (fun r => r.getD v 0)))

/-- The scale bytes of `n` vectors for block `j` (R204); 0x7F, the factor 1, in formats without. -/
def Blk.matScales (b : Blk) (s fa base pitch n j : Nat) : Except RFail (List Nat) :=
  if scaled fa then allOk (fun v => b.lread s (base + v * pitch + j) 1) (List.range n) else .ok (List.replicate n 0x7F)

/-- Where block `j` finds its second operand: address, pitch, scale array, scale pitch, block number in it (R207). -/
def MatDesc.second (d : MatDesc) (e : Option Adapter) (j : Nat) : Nat × Nat × Nat × Nat × Nat :=
  match e with
  | none => (d.bA, d.bP, d.bS, d.bSP, j)
  | some x => if d.adapt = 1 then (x.uA, x.uP, x.uS, x.uSP, j) else if j = d.base then (x.vA, x.vP, x.vS, x.vSP, 0) else (d.bA, d.bP, d.bS, d.bSP, j)

/-- The elements of block `j`. -/
def MatDesc.blockLen (d : MatDesc) (e : Option Adapter) (j : Nat) : Nat :=
  if j < d.base then min 32 (d.k - 32 * j) else (match e with | some x => x.rank | none => 0)

/-- One K-block added to the accumulators, row by row (R191). -/
def Blk.matBlock (b : Blk) (s : Nat) (d : MatDesc) (e : Option Adapter) (j : Nat) (acc : List Nat) : Except RFail (List Nat) :=
  let n := d.cols e
  let kj := d.blockLen e j
  let w := fmtBits d.fa
  let o := d.second e j
  match b.matVecs s d.aA d.aP (!d.ta) d.m j kj w, b.matScales s d.fa d.aS d.aSP d.m j, b.matVecs s o.1 o.2.1 d.tb n o.2.2.2.2 kj w,
      b.matScales s d.fa o.2.2.1 o.2.2.2.1 n o.2.2.2.2 with
  | .error x, _, _, _ => .error x
  | _, .error x, _, _ => .error x
  | _, _, .error x, _ => .error x
  | _, _, _, .error x => .error x
  | .ok a, .ok ea, .ok bb, .ok eb =>
    .ok ((List.range (d.m * n)).map (fun q =>
      let i := q / n
      let k := q % n
      fadd (acc.getD q 0) (blockTotal d.fa (ea.getD i 0) (eb.getD k 0) (a.getD i []) (bb.getD k []))))

/-- Blocks from `j` on, `fuel` of them; a failed read answers its block and the accumulators before it (R208). -/
def Blk.matRun (b : Blk) (s : Nat) (d : MatDesc) (e : Option Adapter) : (fuel j : Nat) → List Nat → Except (RFail × Nat × List Nat) (List Nat)
  | 0, _, acc => .ok acc
  | fuel + 1, j, acc =>
    match b.matBlock s d e j acc with
    | .error f => .error (f, j, acc)
    | .ok acc' => b.matRun s d e fuel (j + 1) acc'

/-- The accumulators before the first block: +0, or C's stored values (R201). -/
def Blk.matInit (b : Blk) (s : Nat) (d : MatDesc) (n : Nat) : Except RFail (List Nat) :=
  if d.accInit then
    match allOk (fun i => b.lelems s (d.cA + i * d.cP) 32 n) (List.range d.m) with
    | .ok rows => .ok rows.flatten
    | .error e => .error e
  else .ok (List.replicate (d.m * n) 0)

/-- One read of an operation's adapter entry (R207): its 32 bytes as a number, 0 where the operation uses none, or a failed read. -/
def Blk.matRead (b : Blk) (s : Nat) (d : MatDesc) : Except RFail Nat :=
  if d.adapt = 0 then .ok 0 else b.lread s (d.atab + 32 * d.variant) 32

/-- The adapter entry that an operation has read. -/
def MatDesc.entry (d : MatDesc) (v : Nat) : Option Adapter := if d.adapt = 0 then none else some (adapterOf v)

/-- The entry of a running operation: the one that it has read, else a read now (R207, R210). -/
def Blk.matEntry (b : Blk) (s : Nat) (d : MatDesc) (ent : Option Nat) : Except RFail Nat :=
  match ent with
  | some v => .ok v
  | none => b.matRead s d

/-- A block of FP32 values converted to a format, with its derived scale (R184, R195–R198). FP32 passes its bits. -/
def packBlock (c : Nat) (vals : List Nat) (mode : Nat → Rnd) : Nat × List Nat :=
  if c = 0 then (0x7F, vals)
  else
    let xs := vals.map f32
    let e := if scaled c then deriveScale c xs else 0x7F
    (e, (xs.zip (List.range xs.length)).map (fun p => convert c (mode p.2) (p.1.scale (127 - (e : Int)))))

/-- C written row by row (R205): the accumulators, times ALPHA under DOWN, converted, with one derived scale per row. -/
def Blk.matWrite (b : Blk) (s : Nat) (d : MatDesc) (e : Option Adapter) (acc : List Nat) : Blk × List (Nat × Nat) :=
  let n := d.cols e
  let acc := match e with | some x => if d.adapt = 1 then acc.map (fun v => fmul v x.alpha) else acc | none => acc
  (List.range d.m).foldl (fun r i =>
    let row := (acc.drop (i * n)).take n
    let p := packBlock d.fc row (fun k => rndMode d.rnd d.srStep d.srTensor (d.srBase + i * d.srPitch * 32 + k))
    let r1 := r.1.lwriteElems s (d.cA + i * d.cP) (fmtBits d.fc) p.2
    let r2 := if scaled d.fc then r1.1.lwrite s (d.cS + i * d.cSP) (natLe 1 p.1) else (r1.1, [])
    (r2.1, r.2 ++ r1.2 ++ r2.2)) (b, [])

/-! ## Suspension (R208–R210) -/

/-- The local address of a thread's context area (R132, R209). -/
def ctxArea (thread : Nat) : Nat := 0x3_8000 + 0x1000 * thread

/-- The context area of a suspended operation (R209). -/
def ctxBytes (op : QOp) (n next : Nat) (acc : List Nat) : List Byte :=
  natLe 4 1 ++ natLe 4 next ++ natLe 1 op.slot ++ natLe 55 0 ++ (List.range 8).flatMap (fun k => natLe 8 (dword op.desc k))
    ++ (List.range 512).flatMap (fun q => natLe 4 (if q % 32 < n ∧ q / 32 * n + q % 32 < acc.length then acc.getD (q / 32 * n + q % 32) 0 else 0))

/-- The unit's operation ends and its slot posts (R146). -/
def Blk.matEnd (b : Blk) (s : Nat) (op : QOp) (err : Nat) : Blk := (b.setStake s { b.stake s with mat := none }).post op err

/-- An operation is suspended before block `next`: its context area is written and its record goes to the fault queue (R208, R258). -/
def Blk.matSuspend (b : Blk) (s : Nat) (op : QOp) (ent : Option Nat) (n next : Nat) (acc : Option (List Nat)) (f : RFail) : Blk :=
  let b1 := b.setStake s { b.stake s with mat := some { op := op, st := .susp, next := next, acc := acc, cls := f.cls, ent := ent } }
  let b2 := (b1.writeBytes 0 (lpa s (ctxArea op.tid.thread)) (ctxBytes op n next (acc.getD []))).1
  let b3 := b2.error .stake s { cls := f.cls, info0 := op.tid.thread + 2 ^ 16 * op.slot, addr := f.pa }
  b3.sendFault { cls := f.cls, kind := 2, resumable := true, thread := op.tid.thread, slot := op.slot, unit := s, pc := next, pa := f.pa }

/-- The running operation's end (R205, R208): its remaining blocks, with the adapter entry that it read before it started, then C and its token; a read that fails
suspends it at its block. -/
def Blk.matFinish (b : Blk) (s : Nat) (r : Run) : Blk :=
  let d := matDesc r.op.desc
  let e := d.entry (r.ent.getD 0)
  let n := d.cols e
  match (match r.acc with | some a => Except.ok a | none => b.matInit s d n) with
  | .error f => b.matSuspend s r.op r.ent n r.next none f
  | .ok acc0 =>
    match b.matRun s d e (d.blocks - r.next) r.next acc0 with
    | .error (f, j, acc) => b.matSuspend s r.op r.ent n j (some acc) f
    | .ok acc =>
      let w := b.matWrite s d e acc
      (w.1.stakeWriteErrs r.op w.2).matEnd s r.op (firstCls w.2)

/-- Whether a block has a running matrix operation. -/
def Blk.matRunning (b : Blk) (s : Nat) : Option Run :=
  match (b.stake s).mat with
  | some r => if r.st = .run then some r else none
  | none => none

/-- The turn of the operation at the head of the queue with the unit idle (R141, R147, R206, R207): its AFTER slot, its adapter entry, read once, then its leave; it
starts when it needs none or has been granted it, and its credit returns. -/
def Blk.matStart (b : Blk) (s : Nat) : Blk :=
  let sk := b.stake s
  match sk.mat, sk.matQ with
  | none, op :: q =>
    let pop := b.setStake s { sk with matQ := q }
    match afterGate op, sk.matEnt with
    | none, _ => b
    | some (e + 1), _ => pop.post op (e + 1)
    | some 0, some v =>
      if b.lvGranted (.mat s) then (b.setStake s { sk with matQ := q, matEnt := none, mat := some { op := op, ent := some v } }).lvDrop (.mat s)
      else b.lvAsk (.mat s)
    | some 0, none =>
      let d := matDesc op.desc
      match b.matRead s d with
      | .error f => pop.matSuspend s op none d.n 0 none f
      | .ok v =>
        if !d.geom (d.entry v) then pop.post op eDenied
        else if d.needsLeave d.blocks then (b.setStake s { sk with matEnt := some v }).lvAsk (.mat s)
        else b.setStake s { sk with matQ := q, mat := some { op := op, ent := some v } }
  | _, _ => b

/-- Accumulators of a context area as rows of `n` (R209). -/
def ctxAcc (v m n : Nat) : List Nat := (List.range (m * n)).map (fun q => bits v ((0x80 + (q / n * 32 + q % n) * 4) * 8) 32)

/-- RESUME (R210): the unit reloads the context area, clears VALID and continues, after leave where the remaining blocks need it. An operation that has not read its
adapter entry yet reads it now (R207). A context area that cannot be read, or whose descriptor the unit would refuse, ends the operation (log entry 18). -/
def Blk.matResume (b : Blk) (s : Nat) (r : Run) : Blk :=
  let area := ctxArea r.op.tid.thread
  match b.lread s area 0x880 with
  | .error f => b.matEnd s r.op f.cls
  | .ok v =>
    let desc := (List.range 8).map (fun k => bits v ((0x40 + 8 * k) * 8) 64)
    let b1 := (b.writeBytes 0 (lpa s area) (natLe 4 0)).1
    if !matValid desc then b1.matEnd s r.op eDenied
    else
      let d := matDesc desc
      let next := bits v 32 32
      match b1.matEntry s d r.ent with
      | .error f => b1.matSuspend s { r.op with desc := desc } none d.n next r.acc f
      | .ok ent =>
        let e := d.entry ent
        if !d.geom e then b1.matEnd s r.op eDenied
        else
          let acc := if r.acc = none ∧ next = 0 then none else some (ctxAcc v d.m (d.cols e))
          let wait := d.needsLeave (d.blocks - next)
          let r' : Run := { op := { r.op with desc := desc }, st := if wait then .wait else .run, next := next, acc := acc, ent := some ent }
          let b2 := b1.setStake s { b1.stake s with mat := some r' }
          if wait then b2.lvAsk (.mat s) else b2

/-- VALID of a thread's context area cleared (R210). -/
def Blk.ctxClear (b : Blk) (s thread : Nat) : Blk := (b.writeBytes 0 (lpa s (ctxArea thread)) (natLe 4 0)).1

/-- DISCARD (R210): VALID is cleared, C is not written, the slot posts the fault's class. -/
def Blk.matDiscard (b : Blk) (s : Nat) (r : Run) : Blk := (b.ctxClear s r.op.tid.thread).matEnd s r.op r.cls

/-- The unit discarded by a reset (R101, R164, R210): queue and operation go; a suspended one leaves VALID 0. -/
def Blk.matReset (b : Blk) (s : Nat) : Blk :=
  let sk := b.stake s
  let b := match sk.mat with | some r => if r.st = RunSt.susp then b.ctxClear s r.op.tid.thread else b | none => b
  (b.setStake s { b.stake s with mat := none, matQ := [], matEnt := none }).lvDrop (.mat s)

/-! ## Commands -/

/-- MATRIX_OP_START (R206). -/
def execMatrixOpStart (k : Nat) (s : State) : Host.Outcome State Fault Refusal := cmd (decide (k < 6400)) s (fun b => b.matStart k)

/-- MATRIX_OP_END (R205). -/
def execMatrixOpEnd (k : Nat) (s : State) : Host.Outcome State Fault Refusal :=
  cmd (decide (k < 6400)) s (fun b => match b.matRunning k with | some r => b.matFinish k r | none => b)

/-- MATRIX_SUSPEND (R208): the word at a local address is uncorrectable; the operation is suspended at the block that reads it. -/
def execMatrixSuspend (k addr : Nat) (s : State) : Host.Outcome State Fault Refusal :=
  cmd (decide (k < 6400) && (inGeneral addr 1 || inWale addr 1)) s (fun b =>
    match b.matRunning k with
    | none => b
    | some r =>
      let b' := (b.markUe (lpa k addr)).matFinish k r
      match (b'.stake k).mat with
      | some r' => if r'.st == RunSt.susp && r'.op == r.op then b' else b
      | none => b)

end Sys2Proof.Machine
end

