-- ==== Sys2Proof/Machine/Chain.lean ====
section
/-! DEFINITION. The vector chain (R211–R221, R510): descriptor, stages, summary record, suspension. -/

namespace Sys2Proof.Machine

/-- The chain descriptor (R212). -/
structure ChDesc where
  count : Nat
  f0 : Nat
  f1 : Nat
  fo : Nat
  rnd : Nat
  in2 : Bool
  out2 : Bool
  immMode : Nat
  tag : Nat
  src0 : Nat
  src1 : Nat
  dst0 : Nat
  dst1 : Nat
  permOp : Nat
  permK : Nat
  op1 : Nat
  b1 : Nat
  op2 : Nat
  b2 : Nat
  fn : Nat
  sumKind : Nat
  sumEn : Bool
  sumSlot : Nat
  sc0 : Nat
  sc1 : Nat
  ds0 : Nat
  ds1 : Nat
  srStep : Nat
  srTensor : Nat
  srBase : Nat
  ptab : Nat
  deriving DecidableEq, Repr

/-- The fields of a chain descriptor's words. -/
def chDesc (d : List Nat) : ChDesc :=
  let f := dfield d
  { count := f 0 0 24, f0 := f 0 24 4, f1 := f 0 28 4, fo := f 0 32 4, rnd := f 0 36 2, in2 := f 0 38 1 == 1, out2 := f 0 39 1 == 1,
    immMode := f 0 40 2, tag := f 0 48 16, src0 := f 1 0 32, src1 := f 1 32 32, dst0 := f 2 0 32, dst1 := f 2 32 32,
    permOp := f 3 0 4, permK := f 3 4 6, op1 := f 3 16 5, b1 := f 3 21 2, op2 := f 3 24 5, b2 := f 3 29 2, fn := f 3 32 4,
    sumKind := f 3 40 3, sumEn := f 3 43 1 == 1, sumSlot := f 3 44 8, sc0 := f 4 0 32, sc1 := f 4 32 32, ds0 := f 5 0 32, ds1 := f 5 32 32,
    srStep := f 6 0 32, srTensor := f 6 32 32, srBase := f 7 0 48, ptab := f 7 48 16 * 64 }

/-- The bits that R212 names. -/
def chMasks : List Nat :=
  [fmask 0 42 + fmask 48 16, 2 ^ 64 - 1, 2 ^ 64 - 1, fmask 0 10 + fmask 16 7 + fmask 24 7 + fmask 32 4 + fmask 40 12, 2 ^ 64 - 1, 2 ^ 64 - 1,
    2 ^ 64 - 1, 2 ^ 64 - 1]

/-- Whether an ALU operation allows a B select (R215). -/
def bSelOk (op sel : Nat) : Bool :=
  if op = 5 then decide (sel ≤ 1)
  else if op = 6 ∨ op = 12 then sel == 1 || sel == 2
  else if 16 ≤ op then sel == 0
  else decide (sel ≤ 2)

/-- A range of `n` bytes in stake SRAM general or wale SRAM (R219). -/
def inEither (r : Nat × Nat) : Bool := inGeneral r.1 r.2 || inWale r.1 r.2

/-- The input ranges: streams, scale arrays, the permute table; and the output ranges (R212, R218). -/
def ChDesc.streamsIn (d : ChDesc) : List (Nat × Nat) := [(d.src0, packedLen (fmtBits d.f0) d.count)] ++ (if d.in2 then [(d.src1, packedLen (fmtBits d.f0) d.count)] else [])
def ChDesc.scalesIn (d : ChDesc) : List (Nat × Nat) :=
  if scaled d.f0 then [(d.sc0, (d.count + 31) / 32)] ++ (if d.in2 then [(d.sc1, (d.count + 31) / 32)] else []) else []
def ChDesc.tableIn (d : ChDesc) : List (Nat × Nat) := if d.permOp = 1 then [(d.ptab, 64)] else []
def ChDesc.streamsOut (d : ChDesc) : List (Nat × Nat) :=
  [(d.dst0, packedLen (fmtBits d.fo) d.count)] ++ (if d.out2 then [(d.dst1, packedLen (fmtBits d.fo) d.count)] else [])
def ChDesc.scalesOut (d : ChDesc) : List (Nat × Nat) :=
  if scaled d.fo then [(d.ds0, (d.count + 31) / 32)] ++ (if d.out2 then [(d.ds1, (d.count + 31) / 32)] else []) else []

/-- The alignment of a stream: 4 bytes, or 32 elements in a format with block scales (R219). -/
def streamAlign (f : Nat) : Nat := if scaled f then 4 * fmtBits f else 4

/-- Whether the chain accepts a descriptor at issue (R185, R219). -/
def chValid (l : List Nat) : Bool :=
  let d := chDesc l
  dclean l chMasks && d.count != 0 && decide (d.f0 ≤ 8) && decide (d.f1 ≤ 8) && decide (d.fo ≤ 8) && d.rnd != 3 && d.immMode != 3
    && !(d.in2 && d.f1 != d.f0) && decide (d.permOp ≤ 6) && decide (d.fn ≤ 7) && decide (d.sumKind ≤ 5)
    && decide (d.op1 ≤ 19) && bSelOk d.op1 d.b1 && decide (d.op2 ≤ 19) && bSelOk d.op2 d.b2
    && d.streamsIn.all (fun r => r.1 % streamAlign d.f0 == 0 && inEither r)
    && d.streamsOut.all (fun r => r.1 % streamAlign d.fo == 0 && inEither r)
    && (d.scalesIn ++ d.scalesOut).all (fun r => r.1 % 4 == 0 && inEither r)
    && d.tableIn.all (fun r => inGeneral r.1 r.2)

/-- Whether an output or output scale byte overlaps an input range (R221). -/
def ChDesc.overlap (d : ChDesc) : Bool :=
  (d.streamsOut ++ d.scalesOut).any (fun o => (d.streamsIn ++ d.scalesIn ++ d.tableIn).any (fun i =>
    decide (o.1 < i.1 + i.2) && decide (i.1 < o.1 + o.2)))

/-- The scalars of the immediate (R213); R180 applies to those that are read as numbers. -/
def chScalars (mode imm : Nat) : Nat × Nat :=
  match mode with
  | 0 => (toF32 (f32 imm), toF32 (f32 imm))
  | 1 => (widen 1 0x7F (imm % 2 ^ 16), widen 1 0x7F (imm / 2 ^ 16))
  | _ => (imm, imm)

/-- A lane: X, Y and whether it is masked (R211). -/
structure ChLane where
  x : Nat
  y : Nat
  masked : Bool
  deriving DecidableEq, Repr

/-- PERM over the 64 lanes of a group (R214). A lane that takes from two sources is masked if either is (log entry 5). -/
def permGroup (op k : Nat) (tab : List Nat) (g : List ChLane) : List ChLane :=
  let at' := fun i => g.getD i ⟨0, 0, true⟩
  (List.range 64).map (fun i =>
    match op with
    | 1 => at' (tab.getD i 0 % 64)
    | 2 => at' (i ^^^ k)
    | 3 => at' ((i + k) % 64)
    | 4 => { at' i with x := (at' ((at' i).y % 64)).x, masked := (at' i).masked || (at' ((at' i).y % 64)).masked }
    | 5 =>
      let a := at' (i / 2)
      let c := at' (32 + i / 2)
      ⟨if i % 2 = 0 then a.x else a.y, if i % 2 = 0 then c.x else c.y, a.masked || c.masked⟩
    | 6 =>
      let a := at' (2 * (i % 32))
      let c := at' (2 * (i % 32) + 1)
      ⟨if i < 32 then a.x else a.y, if i < 32 then c.x else c.y, a.masked || c.masked⟩
    | _ => at' i)

/-- One ALU stage on a lane (R215): operation, operand B, S1. -/
def aluLane (op : Nat) (sel s0 s1 : Nat) (l : ChLane) : ChLane :=
  let bv := match sel with | 0 => l.y | 1 => s0 | _ => s1
  let x := l.x
  match op with
  | 1 => { l with x := fadd x bv }
  | 2 => { l with x := fsub x bv }
  | 3 => { l with x := fsub bv x }
  | 4 => { l with x := fmul x bv }
  | 5 => { l with x := ffma x bv s1 }
  | 6 => { l with x := ffma x bv l.y }
  | 7 => { l with x := fmin x bv }
  | 8 => { l with x := fmax x bv }
  | 9 => { l with x := if flt x bv then one32 else 0 }
  | 10 => { l with x := if fle x bv then one32 else 0 }
  | 11 => { l with x := if feq x bv then one32 else 0 }
  | 12 => { l with x := if (f32 x).isZero then bv else l.y }
  | 13 => { l with x := x &&& bv }
  | 14 => { l with x := x ||| bv }
  | 15 => { l with x := x ^^^ bv }
  | 16 => { l with x := x % 2 ^ 31 }
  | 17 => { l with x := x ^^^ 2 ^ 31 }
  | 18 => { l with y := x }
  | 19 => { l with x := l.y, y := x }
  | _ => l

/-- IN for one stream of a group: elements unpacked, scaled and widened; FP32 passes its bits (R181, R214). -/
def Blk.chIn (b : Blk) (s f addr scale lo n : Nat) : Except RFail (List Nat) :=
  match b.lelems s (addr + lo * fmtBits f / 8) (fmtBits f) n with
  | .error e => .error e
  | .ok l =>
    if scaled f then
      match b.lread s (scale + lo / 32) ((n + 31) / 32) with
      | .error e => .error e
      | .ok sc => .ok ((l.zip (List.range n)).map (fun p => widen f (bits sc (p.2 / 32 * 8) 8) p.1))
    else .ok (l.map (widen f 0x7F))

/-- One group through IN, PERM, ALU1, FN and ALU2. -/
def Blk.chGroup (b : Blk) (s : Nat) (d : ChDesc) (sc : Nat × Nat) (tab : List Nat) (g : Nat) : Except RFail (List ChLane) :=
  let lo := 64 * g
  let n := min 64 (d.count - lo)
  match b.chIn s d.f0 d.src0 d.sc0 lo n with
  | .error e => .error e
  | .ok xs =>
    match (if d.in2 then b.chIn s d.f0 d.src1 d.sc1 lo n else Except.ok (List.replicate n 0)) with
    | .error e => .error e
    | .ok ys =>
      let l0 := (List.range 64).map (fun i => (⟨xs.getD i 0, ys.getD i 0, decide (n ≤ i)⟩ : ChLane))
      let l1 := if d.permOp = 0 then l0 else permGroup d.permOp d.permK tab l0
      let l2 := l1.map (fun l => if l.masked then l else aluLane d.op1 d.b1 sc.1 sc.2 l)
      let l3 := l2.map (fun l => if l.masked || d.fn = 0 then l else { l with x := fnOp d.fn l.x })
      .ok (l3.map (fun l => if l.masked then l else aluLane d.op2 d.b2 sc.1 sc.2 l))

/-- The groups from `g` on, `fuel` of them; a failed read answers the groups before it. -/
def Blk.chGroups (b : Blk) (s : Nat) (d : ChDesc) (sc : Nat × Nat) (tab : List Nat) : (fuel g : Nat) → List (List ChLane) × Option RFail
  | 0, _ => ([], none)
  | fuel + 1, g =>
    match b.chGroup s d sc tab g with
    | .error f => ([], some f)
    | .ok l =>
      let r := b.chGroups s d sc tab fuel (g + 1)
      (l :: r.1, r.2)

/-- Every group of the operation, the permute table read first (R214). -/
def Blk.chAll (b : Blk) (s : Nat) (d : ChDesc) (imm : Nat) : List (List ChLane) × Option RFail :=
  match (if d.permOp = 1 then b.lelems s d.ptab 8 64 else Except.ok []) with
  | .error f => ([], some f)
  | .ok tab => b.chGroups s d (chScalars d.immMode imm) tab ((d.count + 63) / 64) 0

/-- The FP32 combines and flag combines of a summary KIND, and a lane's contribution (R217). -/
def sumCombine (kind : Nat) (a c : Nat) : Nat :=
  match kind with
  | 0 => fadd a c | 1 => fmax a c | 2 => fmin a c | 3 => min (a + c) 0xFFFF_FFFF | 4 => a ||| c | _ => a &&& c

def sumLane (kind x : Nat) : Nat :=
  match kind with
  | 0 | 1 | 2 => toF32 (f32 x)
  | 3 => b2n (isNonFinite32 x)
  | _ => b2n (!(f32 x).isZero)

/-- A summary record (R165). -/
def sumRecord (value kind stake thread tag : Nat) : Nat :=
  value % 2 ^ 32 + 2 ^ 32 * kind + 2 ^ 35 + 2 ^ 36 * stake + 2 ^ 41 * thread + 2 ^ 48 * tag

/-- The record that SUM writes (R217): KIND INVALID where no lane was active. -/
def chRecord (d : ChDesc) (t : Tid) (gs : List (List ChLane)) : Nat :=
  let tot := combineTotals (sumCombine d.sumKind) (gs.map (fun g => groupTree (sumCombine d.sumKind)
    (g.map (fun l => if l.masked then none else some (sumLane d.sumKind l.x)))))
  match tot with
  | some v => sumRecord v d.sumKind (t.stake % 32) t.thread d.tag
  | none => sumRecord 0 7 (t.stake % 32) t.thread d.tag

/-- One packed element stored in place. -/
def Blk.putElem (b : Blk) (s base w e v : Nat) : Blk × List (Nat × Nat) :=
  let a := base + e * w / 8
  let sh := e * w % 8
  let n := (sh + w + 7) / 8
  let old := b.readNat 0 (lpa s a) n
  b.lwrite s a (natLe n (bits old 0 sh + v % 2 ^ w * 2 ^ sh + old / 2 ^ (sh + w) * 2 ^ (sh + w)))

/-- PACK and OUT for one output of one group (R218): the stored lanes, converted by blocks of 32 with their derived scales. -/
def Blk.chOut (b : Blk) (s : Nat) (d : ChDesc) (dst ds base g : Nat) (vals : List (Option Nat)) : Blk × List (Nat × Nat) :=
  let w := fmtBits d.fo
  (List.range ((vals.length + 31) / 32)).foldl (fun r j =>
    let blk := (vals.drop (32 * j)).take 32
    let idx := (List.range blk.length).filter (fun i => (blk.getD i none).isSome)
    let e0 := 64 * g + 32 * j
    let p := packBlock d.fo (idx.map (fun i => (blk.getD i none).getD 0)) (fun q => rndMode d.rnd d.srStep d.srTensor (base + e0 + idx.getD q 0))
    let r1 := if idx.length = blk.length then r.1.lwriteElems s (dst + e0 * w / 8) w p.2
      else (idx.zip p.2).foldl (fun acc q => let x := acc.1.putElem s dst w (e0 + q.1) q.2; (x.1, acc.2 ++ x.2)) (r.1, [])
    let r2 := if scaled d.fo then r1.1.lwrite s (ds + e0 / 32) (natLe 1 p.1) else (r1.1, [])
    (r2.1, r.2 ++ r1.2 ++ r2.2)) (b, [])

/-- The outputs of groups in order (R218); positions at or beyond COUNT and masked lanes are not stored (R211). -/
def Blk.chStore (b : Blk) (s : Nat) (d : ChDesc) (gs : List (List ChLane)) : Blk × List (Nat × Nat) :=
  (gs.zip (List.range gs.length)).foldl (fun r p =>
    let n := min 64 (d.count - 64 * p.2)
    let sel := fun (f : ChLane → Nat) => (p.1.take n).map (fun l => if l.masked then none else some (f l))
    let r1 := r.1.chOut s d d.dst0 d.ds0 d.srBase p.2 (sel (·.x))
    let r2 := if d.out2 then r1.1.chOut s d d.dst1 d.ds1 (d.srBase + d.count) p.2 (sel (·.y)) else (r1.1, [])
    (r2.1, r.2 ++ r1.2 ++ r2.2)) (b, [])

/-- A summary slot written; a write that reaches the store while the SUM page is in RESET is discarded (R166, R174). -/
def Blk.sumWrite (b : Blk) (w slot v : Nat) : Blk :=
  if b.st .sum w = sReset then b else b.setWale w { b.wale w with slots := SMap.set 0 (b.wale w).slots slot v }

/-- The class of the first failed write of an operation, where an earlier run of it may have met one (R510). -/
def firstErr (before now : Nat) : Nat := if before = 0 then now else before

/-- The chain's operation ends and its slot posts. -/
def Blk.chEnd (b : Blk) (s : Nat) (op : QOp) (err : Nat) : Blk := (b.setStake s { b.stake s with vec := none }).post op err

/-- An uncorrectable read stops the chain (R221): how many of the groups before it were stored is free, and their failed writes are recorded (R510). The operation is
suspended, or, where its outputs overlap its inputs, posts ECC_UNCORRECTED at once. -/
def Blk.chFault (b : Blk) (s : Nat) (r : Run) (d : ChDesc) (gs : List (List ChLane)) (f : RFail) : Blk :=
  let v := b.draw
  let o := v.2.chStore s d (gs.take (v.1 % (gs.length + 1)))
  let b1 := o.1.stakeWriteErrs r.op o.2
  let b2 := b1.error .stake s { cls := f.cls, info0 := r.op.tid.thread + 2 ^ 16 * r.op.slot, addr := f.pa }
  let rec0 : FaultRec := { cls := f.cls, kind := 3, resumable := !d.overlap, thread := r.op.tid.thread, slot := r.op.slot, unit := s, pa := f.pa }
  if d.overlap then (b2.sendFault rec0).chEnd s r.op f.cls
  else (b2.setStake s { b2.stake s with vec := some { r with st := .susp, cls := f.cls, err := firstErr r.err (firstCls o.2) } }).sendFault rec0

/-- The running chain operation's end (R217, R218, R510). -/
def Blk.chFinish (b : Blk) (s : Nat) (r : Run) : Blk :=
  let d := chDesc r.op.desc
  match b.chAll s d r.op.imm with
  | (gs, some f) => b.chFault s r d gs f
  | (gs, none) =>
    let o := b.chStore s d gs
    let b1 := o.1.stakeWriteErrs r.op o.2
    let b2 := if d.sumEn then b1.sumWrite (waleOf s) d.sumSlot (chRecord d r.op.tid gs) else b1
    b2.chEnd s r.op (firstErr r.err (firstCls o.2))

/-- The running chain operation. -/
def Blk.chRunning (b : Blk) (s : Nat) : Option Run :=
  match (b.stake s).vec with
  | some r => if r.st = .run then some r else none
  | none => none

/-- The head of the chain queue starts on an idle chain once its AFTER slot is done (R141, R147). -/
def Blk.chStart (b : Blk) (s : Nat) : Blk :=
  let sk := b.stake s
  match sk.vec, sk.vecQ with
  | none, op :: q =>
    match afterGate op with
    | none => b
    | some (e + 1) => (b.setStake s { sk with vecQ := q }).post op (e + 1)
    | some 0 => b.setStake s { sk with vecQ := q, vec := some { op := op } }
  | _, _ => b

/-- RESUME restarts from element 0; DISCARD posts the fault's class (R221). -/
def Blk.chResume (b : Blk) (s : Nat) (r : Run) : Blk := b.setStake s { b.stake s with vec := some { r with st := .run } }
def Blk.chDiscard (b : Blk) (s : Nat) (r : Run) : Blk := b.chEnd s r.op r.cls

/-- CHAIN_OP_START (R220). -/
def execChainOpStart (k : Nat) (s : State) : Host.Outcome State Fault Refusal := cmd (decide (k < 6400)) s (fun b => b.chStart k)

/-- CHAIN_OP_END (R217). -/
def execChainOpEnd (k : Nat) (s : State) : Host.Outcome State Fault Refusal :=
  cmd (decide (k < 6400)) s (fun b => match b.chRunning k with | some r => b.chFinish k r | none => b)

/-- CHAIN_SUSPEND (R221): the word at a local address is uncorrectable; where the running operation reads it, it stops. -/
def execChainSuspend (k addr : Nat) (s : State) : Host.Outcome State Fault Refusal :=
  cmd (decide (k < 6400) && (inGeneral addr 1 || inWale addr 1)) s (fun b =>
    match b.chRunning k with
    | none => b
    | some r =>
      let b' := b.markUe (lpa k addr)
      match (b'.chAll k (chDesc r.op.desc) r.op.imm).2 with
      | none => b
      | some _ => b'.chFinish k r)

end Sys2Proof.Machine
end

