-- ==== Sys2Proof/Machine/RowEngine.lean ====
section
/-! DEFINITION. The row engine (R223–R229, R232, R233, R510): descriptor, the seven operations, suspension, the side memory. -/

namespace Sys2Proof.Machine

/-- The row descriptor (R226). -/
structure RowDesc where
  op : Nat
  fx : Nat
  fdy : Nat
  fo : Nat
  rnd : Nat
  gbBf16 : Bool
  hasBeta : Bool
  accDg : Bool
  len : Nat
  rows : Nat
  stat : Nat
  x : Nat
  dy : Nat
  out : Nat
  gamma : Nat
  beta : Nat
  dgamma : Nat
  dbeta : Nat
  pitch : Nat
  srStep : Nat
  srTensor : Nat
  srBase : Nat
  deriving DecidableEq, Repr

/-- The fields of a row descriptor's words. -/
def rowDesc (d : List Nat) : RowDesc :=
  let f := dfield d
  { op := f 0 0 4, fx := f 0 4 4, fdy := f 0 8 4, fo := f 0 12 4, rnd := f 0 16 2, gbBf16 := f 0 18 1 == 1, hasBeta := f 0 19 1 == 1,
    accDg := f 0 20 1 == 1, len := f 0 32 17, rows := f 1 0 18, stat := f 1 32 17, x := f 2 0 32, dy := f 2 32 32, out := f 3 0 32,
    gamma := f 3 32 32, beta := f 4 0 32, dgamma := f 4 32 32, dbeta := f 5 0 32, pitch := f 5 32 32, srStep := f 6 0 32,
    srTensor := f 6 32 32, srBase := f 7 0 48 }

/-- The bits that R226 names. -/
def rowMasks : List Nat :=
  [fmask 0 21 + fmask 32 17, fmask 0 18 + fmask 32 17, 2 ^ 64 - 1, 2 ^ 64 - 1, 2 ^ 64 - 1, 2 ^ 64 - 1, 2 ^ 64 - 1, fmask 0 48]

/-- The operands that an operation uses (R223). -/
def RowDesc.usesDy (d : RowDesc) : Bool := d.op == 1 || d.op == 3 || d.op == 5 || d.op == 6
def RowDesc.usesGamma (d : RowDesc) : Bool := decide (2 ≤ d.op) && decide (d.op ≤ 5)
def RowDesc.usesBeta (d : RowDesc) : Bool := d.op == 2 && d.hasBeta
def RowDesc.usesDgamma (d : RowDesc) : Bool := d.op == 3 || d.op == 5
def RowDesc.usesDbeta (d : RowDesc) : Bool := d.op == 3 && d.hasBeta

/-- Bytes of a row in a format. -/
def RowDesc.bytes (d : RowDesc) (f : Nat) : Nat := d.len * fmtBits f / 8

/-- The range of an array of rows. -/
def RowDesc.range (d : RowDesc) (addr f : Nat) : Nat × Nat := (addr, (d.rows - 1) * d.pitch + d.bytes f)

/-- Bytes of γ and β. -/
def RowDesc.gbLen (d : RowDesc) : Nat := d.len * (if d.gbBf16 then 2 else 4)

/-- The input ranges and the further output ranges of an operation. -/
def RowDesc.inputs (d : RowDesc) : List (Nat × Nat) :=
  [d.range d.x d.fx] ++ (if d.usesDy then [d.range d.dy d.fdy] else []) ++ (if d.usesGamma then [(d.gamma, d.gbLen)] else [])
    ++ (if d.usesBeta then [(d.beta, d.gbLen)] else []) ++ (if d.op = 6 then [(d.beta, 8 * d.rows)] else [])
def RowDesc.outputs (d : RowDesc) : List (Nat × Nat) :=
  [d.range d.out d.fo] ++ (if d.usesDgamma then [(d.dgamma, 4 * d.len)] else []) ++ (if d.usesDbeta then [(d.dbeta, 4 * d.len)] else [])

/-- Whether an immediate is positive and finite, and whether it is finite and not negative (R227). -/
def immPositive (v : Nat) : Bool := match f32 v with | .fin n m _ => !n && m != 0 | _ => false
def immNotNegative (v : Nat) : Bool := match f32 v with | .fin n m _ => !n || m == 0 | _ => false

/-- Whether the row engine accepts a descriptor and its immediate at issue (R227). -/
def rowValid (l : List Nat) (imm : Nat) : Bool :=
  let d := rowDesc l
  let o := d.range d.out d.fo
  let hits := fun (r : Nat × Nat) => decide (o.1 < r.1 + r.2) && decide (r.1 < o.1 + o.2)
  dclean l rowMasks && decide (d.op ≤ 6) && decide (1 ≤ d.len) && decide (d.len ≤ 65536) && decide (1 ≤ d.rows) && decide (d.rows ≤ 131072)
    && decide (d.stat + d.rows ≤ 131072) && decide (d.fx ≤ 2) && decide (d.fo ≤ 2) && decide (d.fdy ≤ 8) && (!d.usesDy || d.fdy == d.fx) && d.rnd != 3
    && (if d.usesGamma then immNotNegative imm else immPositive imm)
    && d.pitch % 64 == 0 && decide (d.bytes d.fx ≤ d.pitch) && decide (d.bytes d.fo ≤ d.pitch)
    && (d.inputs ++ d.outputs).all (fun r => r.1 % 64 == 0 && inWale r.1 r.2)
    && d.inputs.all (fun r => !hits r || (r == d.range d.x d.fx && d.out == d.x))

/-! ## The operations (R224, R225) -/

/-- What a row's computation gives: its output, its statistics where it writes them, the addends of dγ and dβ, and whether it is an empty softmax row. -/
structure RowOut where
  out : List Nat
  stats : Option (Nat × Nat) := none
  dg : List (Nat × Nat) := []
  db : List Nat := []
  empty : Bool := false
  deriving DecidableEq, Repr

/-- The lane tree of R217 under SUM. -/
def tree (l : List Nat) : Nat := treeOf fadd l

/-- The FP32 value of ln 2 (R224), and +0 rows. -/
def ln2f : Nat := 0x3F31_7218
def exp2f (v : Nat) : Nat := fnOp 1 v
def frecipf (v : Nat) : Nat := fnOp 3 v
def frsqrtf (v : Nat) : Nat := fnOp 4 v

/-- The running maximum and sum of a softmax row (R224). -/
def softmaxStats (c : Nat) (x : List Nat) : Nat × Nat :=
  (groups x (x.length / 64 + 1)).foldl (fun (a : Nat × Nat) g =>
    let mn := fmax a.1 ((groupTree fmax g).getD negInf32)
    if mn = negInf32 then a
    else
      let s := fmul a.2 (exp2f (fmul c (fsub a.1 mn)))
      let t := (groupTree fadd (g.map (fun l => l.map (fun v => exp2f (fmul c (fsub v mn)))))).getD 0
      (mn, fadd s t)) (negInf32, 0)

/-- y of a softmax row from its statistics. -/
def softmaxY (c m s : Nat) (x : List Nat) : List Nat := x.map (fun v => fmul (exp2f (fmul c (fsub v m))) (frecipf s))

/-- One row (R224): the immediate, x, dy, γ, β, the statistics of the slot and of Ob. -/
def rowCompute (d : RowDesc) (imm : Nat) (x dy gamma beta : List Nat) (st stb : Nat × Nat) : RowOut :=
  let lr := frecipf (toF32 (.fin false d.len 0))
  let zeros := x.map (fun _ => 0)
  match d.op with
  | 0 =>
    let s := softmaxStats imm x
    if s.1 = negInf32 then { out := zeros, stats := some (negInf32, 0), empty := true }
    else { out := softmaxY imm s.1 s.2 x, stats := some s }
  | 1 =>
    if st.1 = negInf32 then { out := zeros, empty := true }
    else
      let y := softmaxY imm st.1 st.2 x
      let dd := tree ((dy.zip y).map (fun p => fmul p.1 p.2))
      let k := fmul imm ln2f
      { out := (y.zip dy).map (fun p => fmul k (fmul p.1 (fsub p.2 dd))) }
  | 2 =>
    let mu := fmul (tree x) lr
    let dl := x.map (fun v => fsub v mu)
    let rstd := frsqrtf (ffma (tree (dl.map (fun v => fmul v v))) lr imm)
    { out := (dl.zip (gamma.zip beta)).map (fun p => ffma (fmul p.1 rstd) p.2.1 p.2.2), stats := some (mu, rstd) }
  | 3 =>
    let xh := x.map (fun v => fmul (fsub v st.1) st.2)
    let g := (dy.zip gamma).map (fun p => fmul p.1 p.2)
    let a := fmul (tree g) lr
    let bb := fmul (tree ((g.zip xh).map (fun p => fmul p.1 p.2))) lr
    { out := (xh.zip g).map (fun p => fmul st.2 (ffma (p.1 ^^^ 2 ^ 31) bb (fsub p.2 a))), dg := dy.zip xh, db := dy }
  | 4 =>
    let rstd := frsqrtf (ffma (tree (x.map (fun v => fmul v v))) lr imm)
    { out := (x.zip gamma).map (fun p => fmul (fmul p.1 rstd) p.2), stats := some (0, rstd) }
  | 5 =>
    let xh := x.map (fun v => fmul v st.2)
    let g := (dy.zip gamma).map (fun p => fmul p.1 p.2)
    let bb := fmul (tree ((g.zip xh).map (fun p => fmul p.1 p.2))) lr
    { out := (xh.zip g).map (fun p => fmul st.2 (ffma (p.1 ^^^ 2 ^ 31) bb p.2)), dg := dy.zip xh }
  | _ =>
    let m := fmax st.1 stb.1
    if m = negInf32 then { out := zeros, stats := some (m, 0), empty := true }
    else
      let wa := fmul st.2 (exp2f (fmul imm (fsub st.1 m)))
      let wb := fmul stb.2 (exp2f (fmul imm (fsub stb.1 m)))
      let s := fadd wa wb
      { out := (x.zip dy).map (fun p => fmul (ffma p.1 wa (fmul p.2 wb)) (frecipf s)), stats := some (m, s) }

/-- Whether a row counts as non-finite (R225): a NaN or +∞ in a softmax row's x, or statistics that come out non-finite, an empty row aside. -/
def rowNonFinite (d : RowDesc) (x : List Nat) (r : RowOut) : Bool :=
  !r.empty && ((decide (d.op ≤ 1) && x.any (fun v => isNan32 v || v == 0x7F80_0000))
    || (match r.stats with | some s => isNonFinite32 s.1 || isNonFinite32 s.2 | none => false))

/-! ## Running -/

/-- The physical address of a statistics slot (R223). -/
def sideSlot (w k : Nat) : Nat := waleWin w + 0x80_0000 + 8 * k

/-- A statistics pair read. -/
def Blk.statRead (b : Blk) (pa addr : Nat) : Except RFail (Nat × Nat) :=
  match b.sramRead pa 8 with
  | .ok v => .ok (v % 2 ^ 32, v / 2 ^ 32)
  | .error (c, a) => .error ⟨c, addr, a⟩

/-- `n` FP32 values of a format at a local address, widened. -/
def Blk.rowVals (b : Blk) (s f addr n : Nat) : Except RFail (List Nat) :=
  match b.lelems s addr (fmtBits f) n with
  | .ok l => .ok (l.map (widen f 0x7F))
  | .error e => .error e

/-- The reads of one row, all made before any of its output (R227, R229). -/
structure RowIn where
  x : List Nat
  dy : List Nat
  gamma : List Nat
  beta : List Nat
  st : Nat × Nat
  stb : Nat × Nat
  dg : List Nat
  db : List Nat
  deriving DecidableEq, Repr

/-- A read made only where the operation uses it. -/
def readIf {α : Type} (c : Bool) (d : α) (r : Except RFail α) : Except RFail α := if c then r else .ok d

/-- Every read of row `i`. -/
def Blk.rowRead (b : Blk) (s : Nat) (d : RowDesc) (i : Nat) : Except RFail RowIn := do
  let gf := if d.gbBf16 then 1 else 0
  let x ← b.rowVals s d.fx (d.x + i * d.pitch) d.len
  let dy ← readIf d.usesDy [] (b.rowVals s d.fdy (d.dy + i * d.pitch) d.len)
  let gamma ← readIf d.usesGamma [] (b.rowVals s gf d.gamma d.len)
  let beta ← readIf d.usesBeta (List.replicate d.len 0) (b.rowVals s gf d.beta d.len)
  let st ← readIf (d.op == 1 || d.op == 3 || d.op == 5 || d.op == 6) (0, 0) (b.statRead (sideSlot (waleOf s) (d.stat + i)) 0)
  let stb ← readIf (d.op == 6) (0, 0) (b.statRead (lpa s (d.beta + 8 * i)) (d.beta + 8 * i))
  let stored := d.accDg || decide (0 < i)
  let dg ← readIf (d.usesDgamma && stored) (List.replicate d.len 0) (b.rowVals s 0 d.dgamma d.len)
  let db ← readIf (d.usesDbeta && stored) (List.replicate d.len 0) (b.rowVals s 0 d.dbeta d.len)
  return { x := x, dy := dy, gamma := gamma, beta := beta, st := st, stb := stb, dg := dg, db := db }

/-- A row's statistics kept in the row side memory (R224). -/
def Blk.rowStats (b : Blk) (s : Nat) (d : RowDesc) (i : Nat) : Option (Nat × Nat) → Blk
  | some st => b.writeNat 0 (sideSlot (waleOf s) (d.stat + i)) 8 (st.1 % 2 ^ 32 + 2 ^ 32 * st.2)
  | none => b

/-- One row written: output, statistics, then dγ and dβ (R224). -/
def Blk.rowWrite (b : Blk) (s : Nat) (d : RowDesc) (i : Nat) (r : RowIn) (o : RowOut) : Blk × List (Nat × Nat) :=
  let p := packBlock d.fo o.out (fun j => rndMode d.rnd d.srStep d.srTensor (d.srBase + i * d.len + j))
  let w1 := b.lwriteElems s (d.out + i * d.pitch) (fmtBits d.fo) p.2
  let b2 := w1.1.rowStats s d i o.stats
  let w3 := if d.usesDgamma then b2.lwriteElems s d.dgamma 32 ((o.dg.zip r.dg).map (fun q => ffma q.1.1 q.1.2 q.2)) else (b2, [])
  let w4 := if d.usesDbeta then w3.1.lwriteElems s d.dbeta 32 ((r.db.zip o.db).map (fun q => fadd q.1 q.2)) else (w3.1, [])
  (w4.1, w1.2 ++ w3.2 ++ w4.2)

/-- PG_ERR_INFO0 of the ROW page: the stake and the thread (R233). -/
def rowInfo0 (op : QOp) : Nat := op.tid.stake % 32 + 2 ^ 5 * op.tid.thread

/-- The ROW page of an operation that starts or continues, and of an idle engine (R232). -/
def Blk.rowShow (b : Blk) (w : Nat) (busy susp : Bool) (op : Option QOp) : Blk :=
  let f := match op with | some o => ((rowDesc o.desc).op, o.tid.stake % 32, o.tid.thread) | none => (0, 0, 0)
  ((((b.wr R.ROW_STATUS_BUSY (b2n busy) w).wr R.ROW_STATUS_SUSPENDED (b2n susp) w).wr R.ROW_STATUS_OP f.1 w).wr R.ROW_STATUS_STAKE f.2.1 w).wr
    R.ROW_STATUS_THREAD f.2.2 w

/-- The operation is suspended before row `i` (R229, R233, R258). -/
def Blk.rowSuspend (b : Blk) (w : Nat) (r : Run) (i : Nat) (f : RFail) : Blk :=
  let b1 := b.setWale w { b.wale w with row := some { r with st := .susp, next := i, cls := f.cls } }
  let b2 := (b1.rowShow w true true (some r.op)).wr R.ROW_CUR i w
  let b3 := (b2.error .row w { cls := f.cls, info0 := rowInfo0 r.op, info1 := f.addr, info2 := i, addr := f.pa }).event .row 16 w
  b3.sendFault { cls := f.cls, kind := 4, resumable := true, thread := r.op.tid.thread, slot := r.op.slot, unit := w, pc := i, pa := f.pa }

/-- The operation ends and its slot posts. -/
def Blk.rowEnd (b : Blk) (w : Nat) (op : QOp) (err : Nat) : Blk :=
  ((b.setWale w { b.wale w with row := none }).rowShow w false false none).post op err

/-- The counts of one completed row (R225, R232). -/
def Blk.rowCount (b : Blk) (w : Nat) (d : RowDesc) (x : List Nat) (o : RowOut) (i : Nat) : Blk :=
  let b1 := (b.add64 R.ROW_ROWS_LO R.ROW_ROWS_HI 1 w).wr R.ROW_CUR (i + 1) w
  let b2 := if o.empty then b1.inc R.ROW_EMPTY_CNT w else b1
  if rowNonFinite d x o then (b2.inc R.ROW_NONFINITE_CNT w).event .row 17 w else b2

/-- Rows from `i` on, `fuel` of them, then the operation's end; a row that cannot be read suspends it. -/
def Blk.rowGo (w : Nat) (d : RowDesc) : (fuel : Nat) → Blk → Run → (i : Nat) → Blk
  | 0, b, r, _ => (b.inc R.ROW_OPS_CNT w).rowEnd w r.op r.err
  | fuel + 1, b, r, i =>
    let s := r.op.tid.stake
    match b.rowRead s d i with
    | .error f => b.rowSuspend w r i f
    | .ok v =>
      let o := rowCompute d r.op.imm v.x v.dy v.gamma v.beta v.st v.stb
      let wr := b.rowWrite s d i v o
      let b1 := wr.1.each wr.2 (fun b e => b.error .row w { cls := e.1, info0 := rowInfo0 r.op, info1 := e.2, info2 := i, addr := lpa s e.2 })
      Blk.rowGo w d fuel (b1.rowCount w d v.x o i) { r with err := if r.err = 0 then firstCls wr.2 else r.err } (i + 1)

/-- The running row operation. -/
def Blk.rowRunning (b : Blk) (w : Nat) : Option Run :=
  match (b.wale w).row with
  | some r => if r.st = .run then some r else none
  | none => none

/-- The running operation's remaining rows and its end. -/
def Blk.rowFinish (b : Blk) (w : Nat) (r : Run) : Blk :=
  let d := rowDesc r.op.desc
  Blk.rowGo w d (d.rows - r.next) b r r.next

/-- The engine takes the head of the row queue (R228): held by AFTER, by the operation it runs and by a side-memory clear (R232); it then asks for leave, and its
start waits for the grant. -/
def Blk.rowStart (b : Blk) (w : Nat) : Blk :=
  let x := b.wale w
  match x.row, x.rowQ with
  | none, op :: q =>
    if b.on R.ROW_SIDE_CLR_BUSY_CLR w then b
    else match afterGate op with
      | none => b
      | some (e + 1) => (b.setWale w { x with rowQ := q }).post op (e + 1)
      | some 0 => (b.setWale w { x with rowQ := q, row := some { op := op, st := .wait } }).lvAsk (.row w)
  | _, _ => b

/-- Leave is granted: the operation starts (R228). -/
def Blk.rowGranted (b : Blk) (w : Nat) : Blk :=
  match (b.wale w).row with
  | some r => ((b.setWale w { b.wale w with row := some { r with st := .run } }).rowShow w true false (some r.op)).wr R.ROW_CUR r.next w
  | none => b

/-- RESUME continues at the row; DISCARD posts the fault's class and keeps the rows below (R229). -/
def Blk.rowResume (b : Blk) (w : Nat) (r : Run) : Blk :=
  (b.setWale w { b.wale w with row := some { r with st := .run } }).rowShow w true false (some r.op)
def Blk.rowDiscard (b : Blk) (w : Nat) (r : Run) : Blk := b.rowEnd w r.op r.cls

/-- A write of ROW_SIDE_CLR.START (R232): ignored while a clear runs. -/
def Blk.sideClear (b : Blk) (w : Nat) : Blk := b.wr R.ROW_SIDE_CLR_BUSY_CLR 1 w

/-- ROW_OP_START (R228). -/
def execRowOpStart (w : Nat) (s : State) : Host.Outcome State Fault Refusal := cmd (decide (w < 200)) s (fun b => b.rowStart w)

/-- ROW_OP_END (R224). -/
def execRowOpEnd (w : Nat) (s : State) : Host.Outcome State Fault Refusal :=
  cmd (decide (w < 200)) s (fun b => match b.rowRunning w with | some r => b.rowFinish w r | none => b)

/-- ROW_SUSPEND (R229): the word at a local address of the wale is uncorrectable; the running operation is suspended at the row that reads it. -/
def execRowSuspend (w addr : Nat) (s : State) : Host.Outcome State Fault Refusal :=
  cmd (decide (w < 200) && inWale addr 1) s (fun b =>
    match b.rowRunning w with
    | none => b
    | some r =>
      let b' := (b.markUe (lpa (w * 32) addr)).rowFinish w r
      match (b'.wale w).row with
      | some r' => if r'.st == RunSt.susp && r'.op == r.op then b' else b
      | none => b)

/-- SIDE_CLEAR_DONE (R232). -/
def execSideClearDone (w : Nat) (s : State) : Host.Outcome State Fault Refusal :=
  cmd (decide (w < 200)) s (fun b => b.when (b.on R.ROW_SIDE_CLR_BUSY_CLR w) (fun b =>
    ((b.zeroRange (waleWin w + 0x80_0000) 0x10_0000).wr R.ROW_SIDE_CLR_BUSY_CLR 0 w).event .row 18 w))

end Sys2Proof.Machine
end

