-- ==== Sys2Proof/Machine/Dma.lean ====
section
/-! DEFINITION. DMA streams (R246–R251, R459), translation walks, invalidation and the fault command (R244, R245, R261), patrol scrub (R256). -/

namespace Sys2Proof.Machine

/-! ## Descriptors (R247, R248) -/

/-- The stream descriptor (R247). -/
structure DmaDesc where
  op : Nat
  srcLocal : Bool
  dstLocal : Bool
  phys : Bool
  len : Nat
  src : Nat
  dst : Nat
  rows : Nat
  srcPitch : Nat
  dstPitch : Nat
  deriving DecidableEq, Repr

/-- The fields of a stream descriptor's words. -/
def dmaDesc (d : List Nat) : DmaDesc :=
  let f := dfield d
  { op := f 0 0 2, srcLocal := f 0 2 1 == 1, dstLocal := f 0 3 1 == 1, phys := f 0 4 1 == 1, len := f 0 32 32, src := f 1 0 48, dst := f 2 0 48,
    rows := f 3 0 24 + 1, srcPitch := f 4 0 48, dstPitch := f 5 0 48 }

/-- The bits that R247 names. -/
def dmaMasks : List Nat := [fmask 0 5 + fmask 32 32, fmask 0 48, fmask 0 48, fmask 0 24, fmask 0 48, fmask 0 48, 0, 0]

/-- Whether a local range of `n` bytes lies in the thread's local map (R132). -/
def inLocalMap (addr n : Nat) : Bool := decide (addr + n ≤ 0x4_0000) || inWale addr n

/-- Whether every row of a local array lies in the local map; past the map's 16 MiB the first row outside decides. -/
def localRows (addr pitch rows len : Nat) : Bool :=
  (List.range (if pitch = 0 then 1 else min rows (0x100_0000 / pitch + 2))).all (fun i => inLocalMap (addr + i * pitch) len)

/-- The first address of an array of rows at physical addresses that lies in the register window, if any (R81). -/
def physReg (addr pitch rows len : Nat) : Option Nat :=
  let i := if regLo < addr + len ∨ pitch = 0 then 0 else (regLo - (addr + len)) / pitch + 1
  if i < rows ∧ regLo < addr + i * pitch + len ∧ addr + i * pitch < regEnd then some (max regLo (addr + i * pitch)) else none

/-- Whether a stream descriptor is accepted (R248): from a thread, or from a hoop group's ring. -/
def dmaValid (l : List Nat) (thread : Bool) (cls : Nat) : Bool :=
  let d := dmaDesc l
  dclean l dmaMasks && decide (d.op ≤ 1) && d.len != 0 && !(d.op == 1 && (d.src != 0 || d.srcPitch != 0))
    && (d.phys == (cls == clsV)) && (thread || (!d.srcLocal && !d.dstLocal))
    && (!d.srcLocal || d.op == 1 || localRows d.src d.srcPitch d.rows d.len) && (!d.dstLocal || localRows d.dst d.dstPitch d.rows d.len)
    && decide (d.len * d.rows ≤ 2 ^ 40)

/-- The first physical address of a PHYS stream that lies in the register window: such a stream faults when it starts (R81). -/
def DmaDesc.regTarget (d : DmaDesc) : Option Nat :=
  if !d.phys then none
  else match (if d.op = 1 then none else physReg d.src d.srcPitch d.rows d.len) with
    | some a => some a
    | none => physReg d.dst d.dstPitch d.rows d.len

/-- Bytes that a stream moves, and its chunks (R249). -/
def DmaDesc.total (d : DmaDesc) : Nat := d.len * d.rows
def DmaDesc.chunks (d : DmaDesc) : Nat := (d.total + 4095) / 4096

/-! ## Contexts (R246) -/

def Blk.stream (b : Blk) (c : Nat) : Option Stream := SMap.get none b.streams c
def Blk.setStream (b : Blk) (c : Nat) (x : Option Stream) : Blk := { b with streams := SMap.set none b.streams c x }

/-- The translator of a context: its wale's, or the module's (R244). -/
def ctxXl (c : Nat) : Nat := if c < 12800 then c / 64 else modXl

/-- The class of a stream (R43, R49): V from hoop group 0, O otherwise. -/
def streamCls (x : Stream) : Nat := match x.orig with | .hoop 0 _ => clsV | _ => clsO

/-- The stake of a thread's stream. -/
def Stream.stake (x : Stream) : Nat := match x.orig with | .op q => q.tid.stake | _ => 0

/-! ## Running -/

/-- A piece of a chunk: its row, the offset in the row, and its length. -/
def chunkPieces (len : Nat) : (fuel pos left : Nat) → List (Nat × Nat × Nat)
  | 0, _, _ => []
  | fuel + 1, pos, left =>
    if left = 0 then []
    else
      let n := min left (len - pos % len)
      (pos / len, pos % len, n) :: chunkPieces len fuel (pos + n) (left - n)

/-- The pieces of chunk `k`. -/
def DmaDesc.pieces (d : DmaDesc) (k : Nat) : List (Nat × Nat × Nat) := chunkPieces d.len 4096 (4096 * k) (min 4096 (d.total - 4096 * k))

/-- The physical pieces of one address range of a stream: local, physical, or translated. -/
def Blk.dmaMap (b : Blk) (c : Nat) (x : Stream) (isLocal phys write : Bool) (addr n : Nat) : Blk × Except Fail (List Piece) :=
  if isLocal then (b, .ok [⟨0, lpa x.stake addr, n, 0⟩])
  else if phys then (b, .ok [⟨0, addr, n, 0⟩])
  else match b.xlateRange (ctxXl c) (streamCls x) write (addr % 2 ^ 48) n with
    | (b', .ok ps) => (b', .ok ps)
    | (b', .error e) =>
      let f := xlateFail (addr % 2 ^ 48) e
      (b'.ueOf f (streamCls x) (some c), .error f)

/-- Every range of a chunk mapped, in order. -/
def Blk.dmaMapAll (c : Nat) (x : Stream) (isLocal phys write : Bool) (base pitch : Nat) : Blk → List (Nat × Nat × Nat) → Blk × Except Fail (List Piece)
  | b, [] => (b, .ok [])
  | b, p :: ps =>
    match b.dmaMap c x isLocal phys write (base + p.1 * pitch + p.2.1) p.2.2 with
    | (b1, .error f) => (b1, .error f)
    | (b1, .ok l) =>
      match Blk.dmaMapAll c x isLocal phys write base pitch b1 ps with
      | (b2, .error f) => (b2, .error f)
      | (b2, .ok l') => (b2, .ok (l ++ l'))

/-- The source of a whole stream as physical pieces: what its chunks map to, as the translations now stand. -/
def Blk.dmaSource (b : Blk) (c : Nat) (x : Stream) : List Piece :=
  let d := dmaDesc x.desc
  if d.op = 1 then []
  else (List.range d.chunks).flatMap (fun k =>
    match Blk.dmaMapAll c x d.srcLocal d.phys false d.src d.srcPitch b (d.pieces k) with
    | (_, .ok ps) => ps
    | (_, .error _) => [])

/-- The physical addresses of pieces, byte by byte. -/
def pieceAddrs (ps : List Piece) : List Nat := ps.flatMap (fun p => (List.range p.len).map (p.pa + ·))

/-- Whether an address lies in a piece. -/
def inPieces (ps : List Piece) (a : Nat) : Bool := ps.any (fun p => decide (p.pa ≤ a) && decide (a < p.pa + p.len))

/-- The destination addresses of a chunk, byte by byte. -/
def DmaDesc.dstAddrs (d : DmaDesc) (k : Nat) : List Nat :=
  (d.pieces k).flatMap (fun p => (List.range p.2.2).map (fun j => d.dst + p.1 * d.dstPitch + p.2.1 + j))

/-- The bytes that a chunk writes: the source's, or FILL's immediate by destination address modulo 4; a destination byte that lies in the source range, under
whatever address either is named, is free (R249). -/
def Blk.dmaBytes (b : Blk) (c : Nat) (x : Stream) (k : Nat) (dp : List Piece) (src : List Byte) : Blk × List Byte :=
  let d := dmaDesc x.desc
  let l := if d.op = 1 then (d.dstAddrs k).map (fun a => BitVec.ofNat 8 (bits x.imm (a % 4 * 8) 8)) else src
  let as := pieceAddrs dp
  let hit := inPieces (b.dmaSource c x)
  if as.any hit then
    let v := b.draw
    (v.2, ((l.zip as).zip (List.range l.length)).map (fun p => if hit p.1.2 then BitVec.ofNat 8 (v.1 / 256 ^ p.2) else p.1.1))
  else (b, l)

/-- One chunk (R249): source and destination translated, every source byte read, then the chunk written. -/
def Blk.dmaChunk (b : Blk) (c : Nat) (x : Stream) (k : Nat) : Blk × Option Fail :=
  let d := dmaDesc x.desc
  let ps := d.pieces k
  match (if d.op = 1 then (b, Except.ok []) else Blk.dmaMapAll c x d.srcLocal d.phys false d.src d.srcPitch b ps) with
  | (b1, .error f) => (b1, some f)
  | (b1, .ok sp) =>
    match Blk.dmaMapAll c x d.dstLocal d.phys true d.dst d.dstPitch b1 ps with
    | (b2, .error f) => (b2, some f)
    | (b2, .ok dp) =>
      match b2.readPieces (streamCls x) sp with
      | .error f => (b2.ueOf f (streamCls x) (some c), some f)
      | .ok src =>
        let o := b2.dmaBytes c x k dp src
        match Blk.writePieces (streamCls x) dp o.1 o.2 with
        | (b3, some f) => (b3.ueOf f (streamCls x) (some c), some f)
        | (b3, none) => (b3, none)

/-- The page that records a context's faults: the wale's WXLT, the hoop group's, or XLT (R260, R265). -/
def ctxPage (c : Nat) : Page × Nat := if c < 12800 then (.wxlt, c / 64) else if c < 14848 then (.xlt, 0) else (.hoopg, (c - 14848) / 512)

/-- A stream faults at chunk `k` (R251): the context holds NEXT_CHUNK and its record goes to its queue. -/
def Blk.dmaFault (b : Blk) (c : Nat) (x : Stream) (k : Nat) (f : Fail) : Blk :=
  let b1 := b.setStream c (some { x with st := .susp, next := k, cls := f.cls })
  let pg := ctxPage c
  let b2 := b1.error pg.1 pg.2 { cls := f.cls, info0 := f.va % 2 ^ 32, info1 := f.va / 2 ^ 32, info2 := f.detail + 2 ^ 16 * c,
                                 addr := if f.va = 0 then f.pa else f.va + 2 ^ 63 }
  let b3 := if c < 12800 ∧ f.cls = eXlate then b2.event .wxlt 16 (c / 64) else b2
  let q := match x.orig with | .op q => (q.tid.thread, q.slot) | _ => (0, 0)
  b3.sendFault { cls := f.cls, detail := if f.cls = eXlate then f.detail else 0, kind := 1, resumable := true, thread := q.1, slot := q.2, unit := c,
                 pc := k, va := f.va, pa := f.pa, pte := f.pte, fw := streamCls x == clsV }

/-! ## Hoop rings (R459) -/

def Blk.hoopD (b : Blk) (g : Nat) : HoopDma := SMap.get {} b.hoopDma g
def Blk.setHoopD (b : Blk) (g : Nat) (x : HoopDma) : Blk := { b with hoopDma := SMap.set {} b.hoopDma g x }

/-- Held completions of a group written into its completion ring in order while it has room; a write that fails leaves the completion held. -/
def Blk.cqDrain (b : Blk) (g : Nat) : (fuel : Nat) → Blk
  | 0 => b
  | fuel + 1 =>
    let x := b.hoopD g
    match x.held with
    | [] => b
    | (tag, cls, n) :: l =>
      let put := b.rd R.HOOP_G_CQ_PUT g
      let size := 2 ^ b.rd R.HOOP_G_CQ_SIZE g
      if ringFull 16 put (b.rd R.HOOP_G_CQ_GET g) size then b
      else
        let va := b.rdAddr R.HOOP_G_CQ_BASE_LO R.HOOP_G_CQ_BASE_HI g + put % size * 16
        match b.storeVa modXl (groupCls g) none va (natLe 4 tag ++ natLe 1 cls ++ natLe 3 0 ++ natLe 8 n) (some (b.owner .hoopg g)) with
        | (b', some f) => b'.error .hoopg g { cls := f.cls, info0 := va % 2 ^ 32, info1 := va / 2 ^ 32, addr := va + 2 ^ 63 }
        | (b', none) =>
          let empty := put == b'.rd R.HOOP_G_CQ_GET g
          let b1 := (b'.setHoopD g { x with held := l }).addW R.HOOP_G_CQ_PUT 1 g
          (if empty then b1.event .hoopg 16 g else b1).cqDrain g fuel

/-- A completion for a group's ring (R459). -/
def Blk.hoopComplete (b : Blk) (g tag cls n : Nat) : Blk :=
  let x := b.hoopD g
  (b.setHoopD g { x with held := x.held ++ [(tag, cls, n)] }).cqDrain g (x.held.length + 1)

/-- The entry of a group's descriptor ring at a count: descriptor words, immediate, tag, and whether its last 56 bytes are zeros. -/
def Blk.ringEntry (b : Blk) (g count : Nat) : Blk × Except Fail (List Nat × Nat × Nat × Bool) :=
  let va := b.rdAddr R.HOOP_G_DQ_BASE_LO R.HOOP_G_DQ_BASE_HI g + count % 2 ^ b.rd R.HOOP_G_DQ_SIZE g * 128
  match b.loadVa modXl (groupCls g) none va 128 with
  | (b', .error f) => (b', .error f)
  | (b', .ok l) =>
    let v := leNat l
    (b', .ok ((List.range 8).map (fun k => bits v (64 * k) 64), bits v 512 32, bits v 544 32, v / 2 ^ 576 == 0))

/-- Entries that a doorbell makes available are checked (R248): a refused one posts a completion with ACCESS_DENIED. -/
def Blk.doorbellGo (g : Nat) : (fuel count : Nat) → Blk → Blk
  | 0, _, b => b
  | fuel + 1, count, b =>
    let b1 := match b.ringEntry g (count % 65536) with
      | (b', .error _) => b'
      | (b', .ok (d, _, tag, z)) =>
        if z && dmaValid d false (groupCls g) then b'
        else
          let x := b'.hoopD g
          (b'.setHoopD g { x with refused := x.refused ++ [count % 65536] }).hoopComplete g tag eDenied 0
    Blk.doorbellGo g fuel (count + 1) b1

/-- GET passes refused entries at the head of a group's ring. -/
def Blk.passRefused (b : Blk) (g : Nat) : (fuel : Nat) → Blk
  | 0 => b
  | fuel + 1 =>
    let x := b.hoopD g
    let get := b.rd R.HOOP_G_DQ_GET g
    if x.refused.contains get ∧ get ≠ b.rd R.HOOP_G_DQ_PUT g then
      ((b.setHoopD g { x with refused := x.refused.filter (· != get) }).addW R.HOOP_G_DQ_GET 1 g).passRefused g fuel
    else b

/-- The next entry of a group's ring starts in a free context (R246, R509). An entry that cannot be read is an error of the group's page and stays. -/
def Blk.hoopStart (b : Blk) (c g : Nat) : Blk :=
  let b0 := b.passRefused g 4096
  if !b0.serving .hoopg g || b0.rd R.HOOP_G_DQ_GET g == b0.rd R.HOOP_G_DQ_PUT g then b0
  else match b0.ringEntry g (b0.rd R.HOOP_G_DQ_GET g) with
    | (b1, .error f) => b1.error .hoopg g { cls := f.cls, info0 := f.va % 2 ^ 32, info1 := f.va / 2 ^ 32, addr := f.va + 2 ^ 63 }
    | (b1, .ok (d, imm, tag, z)) =>
      let b2 := b1.addW R.HOOP_G_DQ_GET 1 g
      if z && dmaValid d false (groupCls g) then
        let x : Stream := { orig := .hoop g tag, desc := d, imm := imm, started := true }
        match (dmaDesc d).regTarget with
        | some a => b2.dmaFault c x 0 { cls := eXlate, detail := 0x04, pa := a }
        | none => b2.setStream c (some x)
      else b2.hoopComplete g tag eDenied 0

/-! ## Start, end, resume -/

/-- The first operation of the DMA queue that AFTER does not hold (R147). -/
def Blk.dmaNext (b : Blk) (w : Nat) : Option QOp := (b.wale w).dmaQ.find? (fun op => (afterGate op).isSome)

/-- A wale's next stream takes a free context, asking for leave where it moves at least 1 MiB (R249, R250). -/
def Blk.dmaStart (b : Blk) (c : Nat) : Blk :=
  let w := c / 64
  match b.dmaNext w with
  | none => b
  | some op =>
    let b1 := b.setWale w { b.wale w with dmaQ := (b.wale w).dmaQ.erase op }
    match afterGate op with
    | some (e + 1) => b1.post op (e + 1)
    | _ =>
      let big := decide (2 ^ 20 ≤ (dmaDesc op.desc).total)
      let b2 := b1.setStream c (some { orig := .op op, desc := op.desc, imm := op.imm, st := if big then .wait else .run, started := !big })
      if big then b2.lvAsk (.dma c) else b2

/-- A stream leaves its context with a class, 0 where all went well. -/
def Blk.dmaDone (b : Blk) (c : Nat) (x : Stream) (cls moved : Nat) : Blk :=
  let b1 := b.setStream c none
  match x.orig with
  | .op op => b1.post op cls
  | .hoop g tag => b1.hoopComplete g tag cls moved
  | .border _ => b1

/-- Chunks from `k` on, `fuel` of them, then the stream's end; a chunk that fails suspends it. -/
def Blk.dmaGo (c : Nat) (x : Stream) : (fuel k : Nat) → Blk → Blk
  | 0, _, b => b.dmaDone c x 0 (dmaDesc x.desc).total
  | fuel + 1, k, b =>
    match b.dmaChunk c x k with
    | (b', some f) => b'.dmaFault c x k f
    | (b', none) => Blk.dmaGo c x fuel (k + 1) b'

/-- A running stream's remaining chunks (R249–R251). They move in one step: no other agent's access falls between them (log entry 58). -/
def Blk.dmaFinish (b : Blk) (c : Nat) (x : Stream) : Blk := Blk.dmaGo c x ((dmaDesc x.desc).chunks - x.next) x.next b

/-- The stream that runs in a context. -/
def Blk.dmaRunning (b : Blk) (c : Nat) : Option Stream :=
  match b.stream c with
  | some x => if x.st = .run then some x else none
  | none => none

/-- RESUME continues at the chunk, after leave where a wale stream has at least 1 MiB left; DISCARD posts the fault's class (R250, R251). -/
def Blk.dmaResume (b : Blk) (c : Nat) (x : Stream) : Blk :=
  let left := (dmaDesc x.desc).total - 4096 * x.next
  if c < 12800 ∧ 2 ^ 20 ≤ left then (b.setStream c (some { x with st := .wait })).lvAsk (.dma c)
  else b.setStream c (some { x with st := .run })
def Blk.dmaDiscard (b : Blk) (c : Nat) (x : Stream) : Blk := b.dmaDone c x x.cls (4096 * x.next)

/-- Leave is granted to a stream. -/
def Blk.dmaGranted (b : Blk) (c : Nat) : Blk :=
  match b.stream c with
  | some x => b.setStream c (some { x with st := .run, started := true })
  | none => b

/-! ## The fault command (R261) and invalidation (R245) -/

/-- XLT_FAULT_CMD: RESUME (1) or DISCARD (2) of a unit of KIND 1–4 whose record is in a queue; any other command is ignored and counted. -/
def Blk.faultCmd (b : Blk) (action kind unit : Nat) : Blk :=
  if action ≠ 1 ∧ action ≠ 2 then b
  else if !b.suspOut kind unit then b.inc R.XLT_FAULT_CMD_IGN_CNT
  else
    let b1 := b.unsusp kind unit
    let go := action == 1
    match kind with
    | 1 => match b1.stream unit with | some x => if go then b1.dmaResume unit x else b1.dmaDiscard unit x | none => b1
    | 2 => match (b1.stake unit).mat with | some r => if go then b1.matResume unit r else b1.matDiscard unit r | none => b1
    | 3 => match (b1.stake unit).vec with | some r => if go then b1.chResume unit r else b1.chDiscard unit r | none => b1
    | _ => match (b1.wale unit).row with | some r => if go then b1.rowResume unit r else b1.rowDiscard unit r | none => b1

/-- Whether a range of virtual addresses meets another. -/
def meets (a n c m : Nat) : Bool := decide (a < c + m) && decide (c < a + n)

/-- The entries that map part of a range dropped from a cache, or all of them. -/
def Xl.drop (x : Xl) (range : Option (Nat × Nat)) : Xl :=
  match range with
  | none => {}
  | some (va, n) =>
    { leafs := x.leafs.filter (fun l => !meets va n l.va (2 ^ l.bits)),
      walks := x.walks.filter (fun w => !meets va n w.va (2 ^ levelShift (w.level + 1))) }

/-- Every cache drops a range, or everything (R245 step 1); a walk in progress will enter no cache. -/
def Blk.xlDrop (b : Blk) (range : Option (Nat × Nat)) : Blk :=
  { b with xlt := { b.xlt with caches := (b.xlt.caches.map (fun e => (e.1, e.2.drop range))).filter (fun e => e.2 != {}),
                               walks := b.xlt.walks.map (fun w => { w with stale := true }) } }

/-- Walks that a walker runs at once: 8 in a wale's, 32 in the module's (R244). -/
def walkMax (u : Nat) : Nat := if u = modXl then 32 else 8

/-- The walks in progress in a walker. -/
def Blk.walksOf (b : Blk) (u : Nat) : List WalkRun := b.xlt.walks.filter (fun w => w.unit == u)

/-- A walk begins (R244, R245, R265): it reads its entries now, and holds what they gave until it ends. An access that hits a cached leaf needs none. -/
def Blk.walkBegin (b : Blk) (u va cls : Nat) (write : Bool) : Blk :=
  let x := b.xl u
  if walkMax u ≤ (b.walksOf u).length || (x.find va).any (fun l => leafDetail cls write (2 ^ l.bits) l.pte == 0) then b
  else
    let x' := { x with leafs := x.leafs.filter (fun l => va / 2 ^ l.bits * 2 ^ l.bits != l.va) }
    let b1 := b.setXl u x'
    let r := b1.walk x' cls write va
    let b2 := if u = modXl then b1 else b1.inc R.WXLT_MISS_CNT u
    { b2 with xlt := { b2.xlt with walks := b2.xlt.walks ++ [⟨u, va, cls, write, r.1, r.2, false⟩] } }

/-- What the end of a walk leaves (R244, R245, R265): a translation enters the cache, unless an invalidation came since the walk began. -/
def Blk.walkEnd (b : Blk) (w : WalkRun) : Blk × Xlate :=
  let b1 := { b with xlt := { b.xlt with walks := b.xlt.walks.erase w } }
  match w.res with
  | .ok .. => (if w.stale then b1 else b1.xlFill w.unit w.va w.ents w.res, w.res)
  | .bad .. => (if w.unit = modXl then b1 else b1.inc R.WXLT_FAULT_CNT w.unit, w.res)

/-- A wale's walk that failed, in its WXLT page (R265); the context that it was for is free. An uncorrectable table read also leaves its mark (R255). -/
def Blk.walkFailed (b : Blk) (u va cls c detail pa : Nat) : Blk :=
  if u = modXl then b.ueOf { cls := c, pa := pa } cls none
  else
    let ctx := 64 * u + b.draw.1 % 64
    let b1 := b.draw.2.ueOf { cls := c, pa := pa } cls (some ctx)
    let b2 := (b1.capture .wxlt u { cls := c, info0 := va % 2 ^ 32, info1 := va / 2 ^ 32, info2 := detail + 2 ^ 16 * ctx }).raise .wxlt u 2
    if c = eXlate then b2.event .wxlt 16 u else b2

/-- XLT_INVAL_CMD: scope 1 the range of XLT_INVAL_VA and PAGES × 64 KiB, scope 2 everything; ignored and counted while BUSY. -/
def Blk.inval (b : Blk) (scope pages : Nat) : Blk :=
  if b.on R.XLT_INVAL_STATUS_BUSY then b.inc R.XLT_INVAL_STATUS_IGNORED
  else if scope = 2 then (b.xlDrop none).wr R.XLT_INVAL_STATUS_BUSY 1
  else if scope = 1 ∧ pages ≠ 0 then
    (b.xlDrop (some (b.rdAddr R.XLT_INVAL_VA_LO R.XLT_INVAL_VA_HI, pages * 65536))).wr R.XLT_INVAL_STATUS_BUSY 1
  else b

/-! ## Patrol scrub (R253, R256, R266) -/

/-- A corrected line counted in its page (R253, R256, R266): the counter, the count of the current pass, and CE_THRESH when that reaches the threshold. -/
def Blk.ceCount (b : Blk) (p : Page) (n : Nat) (cnt pass thr : Fld) : Blk :=
  let b1 := (b.inc cnt n).inc pass n
  if b1.rd pass n = b1.rd thr n ∧ b.rd pass n ≠ b1.rd pass n ∧ b1.rd thr n ≠ 0 then b1.event p 16 n else b1

/-- A requester's read of a line that its controller corrects (R253). -/
def Blk.lineCe (b : Blk) (pa : Nat) : Blk :=
  match region pa with
  | .hbm n => b.ceCount .hbm n R.HBM_CE_CNT R.HBM_CE_PASS R.HBM_CE_THRESH
  | .slow n => b.ceCount .slow n R.SLOW_CE_CNT R.SLOW_CE_PASS R.SLOW_CE_THRESH
  | _ => b

/-- One line of a stack or controller scrubbed; `ce`: it was corrected and is rewritten; `last`: it ends the pass. Scrub is of class H (R42); R258 gives it no
UNIT, and PG_ERR_INFO2 shows a free one. -/
def Blk.scrub (b : Blk) (pa : Nat) (ce last : Bool) : Blk :=
  let go := fun (p : Page) (n : Nat) (en sr busy pass cecnt cepass thr sue lo hi : Fld) =>
    if !b.on en n || b.on sr n then b
    else
      let b1 := b.wr busy (b2n (!last)) n
      let b1 := if b.on busy n then b1 else b1.wr cepass 0 n
      let b2 := if b.ueAt pa then
          let v := b1.draw
          (((v.2.inc sue n).wr64 lo hi (pa / 64 * 64) n).error p n
            { cls := eEcc, info0 := pa / 64 * 64 % 2 ^ 32, info1 := pa / 2 ^ 32, info2 := clsH + 2 ^ 16 * (v.1 % 2 ^ 15), addr := pa / 64 * 64 }).event p 17 n
        else if ce then b1.ceCount p n cecnt cepass thr
        else b1
      if last then (b2.inc pass n).event p 18 n else b2
  match region pa with
  | .hbm n => go .hbm n R.HBM_SCRUB_CTRL_EN R.HBM_STATUS_SELF_REFRESH R.HBM_STATUS_SCRUB_BUSY R.HBM_SCRUB_PASS_CNT R.HBM_CE_CNT R.HBM_CE_PASS
      R.HBM_CE_THRESH R.HBM_SCRUB_UE_CNT R.HBM_UE_ADDR_LO R.HBM_UE_ADDR_HI
  | .slow n => go .slow n R.SLOW_SCRUB_CTRL_EN R.SLOW_STATUS_SELF_REFRESH R.SLOW_STATUS_SCRUB_BUSY R.SLOW_SCRUB_PASS_CNT R.SLOW_CE_CNT R.SLOW_CE_PASS
      R.SLOW_CE_THRESH R.SLOW_SCRUB_UE_CNT R.SLOW_UE_ADDR_LO R.SLOW_UE_ADDR_HI
  | _ => b

/-! ## Commands -/

/-- DMA_STREAM_START (R249): a context of a wale, or of a hoop group, takes the next stream. -/
def execDmaStreamStart (c : Nat) (s : State) : Host.Outcome State Fault Refusal :=
  cmd (decide (c < 16896) && !(decide (12800 ≤ c) && decide (c < 14848))) s (fun b =>
    if (b.stream c).isSome then b else if c < 12800 then b.dmaStart c else b.hoopStart c ((c - 14848) / 512))

/-- DMA_STREAM_END (R250). -/
def execDmaStreamEnd (c : Nat) (s : State) : Host.Outcome State Fault Refusal :=
  cmd (decide (c < 16896)) s (fun b => match b.dmaRunning c with | some x => b.dmaFinish c x | none => b)

/-- DMA_STREAM_FAULT (R251): the ECC unit at a physical address, where one is given, is uncorrectable; a running stream that meets a failing chunk is suspended at
it. -/
def execDmaStreamFault (c : Nat) (ue : Option Nat) (s : State) : Host.Outcome State Fault Refusal :=
  cmd (decide (c < 16896) && decide (ue.getD 0 < 2 ^ 42)) s (fun b =>
    match b.dmaRunning c with
    | none => b
    | some x =>
      let b' := (match ue with | some a => b.markUe a | none => b).dmaFinish c x
      match b'.stream c with
      | some x' => if x'.st == RunSt.susp then b' else b
      | none => b)

/-- TRANSLATION_WALK_END (R242, R244, R245): the walk of a stream's access that runs ahead ends: one that is in progress, or, where none is, one that begins and
ends here, after a lookup. -/
def execTranslationWalkEnd (u va : Nat) (write v : Bool) (s : State) : Host.Outcome State Fault Refusal :=
  cmd (decide (u ≤ modXl) && decide (va < 2 ^ 48)) s (fun b =>
    let cls := if v then clsV else clsO
    match (match b.xlt.walks.find? (fun w => w.unit == u && w.va == va && w.cls == cls && w.write == write) with
        | some w => b.walkEnd w
        | none => b.xlate1 u cls write va) with
    | (b', .ok ..) => b'
    | (b', .bad c d _ a) => b'.walkFailed u va cls c d a)

/-- INVAL_COMPLETE (R245). -/
def execInvalComplete (s : State) : Host.Outcome State Fault Refusal :=
  cmd true s (fun b => b.when (b.on R.XLT_INVAL_STATUS_BUSY) (fun b => (b.wr R.XLT_INVAL_STATUS_BUSY 0).event .xlt 18))

/-- SCRUB_LINE (R256). -/
def execScrubLine (pa : Nat) (ce last : Bool) (s : State) : Host.Outcome State Fault Refusal := cmd (isDram pa) s (fun b => b.scrub pa ce last)

end Sys2Proof.Machine
end

