-- ==== Sys2Proof/Machine/Summary.lean ====
section
/-! DEFINITION. The summary unit (R165–R168, R173, R174). -/

namespace Sys2Proof.Machine

/-- The summary descriptor (R167). -/
structure SumDesc where
  op : Nat
  dest : Nat
  base : Nat
  count : Nat
  stride : Nat
  tag : Nat
  deriving DecidableEq, Repr

/-- The fields of a summary descriptor. -/
def sumDesc (d : List Nat) : SumDesc :=
  let f := dfield d 0
  { op := f 0 4, dest := f 4 8, base := f 12 8, count := f 20 9, stride := f 29 8, tag := f 48 16 }

/-- Whether the summary unit accepts a descriptor at issue (R167). -/
def sumValid (l : List Nat) : Bool :=
  let d := sumDesc l
  dclean l [fmask 0 37 + fmask 48 16, 0, 0, 0, 0, 0, 0, 0] && decide (d.op ≤ 3) && decide (1 ≤ d.count) && decide (d.count ≤ 256) && d.stride != 0
    && decide (d.base + (d.count - 1) * d.stride ≤ 255)

/-- The source slots, in order. -/
def SumDesc.sources (d : SumDesc) : List Nat := (List.range d.count).map (fun i => d.base + i * d.stride)

/-- The fields of a record (R165). -/
def recValue (r : Nat) : Nat := r % 2 ^ 32
def recKind (r : Nat) : Nat := bits r 32 3
def recValid (r : Nat) : Bool := bit r 35

/-- A summary slot. -/
def Blk.slot (b : Blk) (w k : Nat) : Nat := SMap.get 0 (b.wale w).slots k

/-- The record that COMBINE writes (R168): none where it is INVALID. -/
def combineRecs (kind : Nat) : List Nat → Option Nat
  | [] => none
  | r :: l =>
    if (r :: l).all (fun x => recValid x && recKind x == kind) && kind != 7 then some (l.foldl (fun a x => sumCombine kind a (recValue x)) (recValue r))
    else none

/-- Whether the summary unit is idle, and its next operation with its AFTER slot done (R141, R147). -/
def Blk.sumHead (b : Blk) (w : Nat) : Option (QOp × List QOp × Nat) :=
  match (b.wale w).sum, (b.wale w).sumQ with
  | none, op :: q => match afterGate op with | some e => some (op, q, e) | none => none
  | _, _ => none

/-- The unit takes its next operation, if it is of the given kind, and `f` makes its effect; an error in its AFTER slot ends it without one. -/
def Blk.sumStart (b : Blk) (w kind : Nat) (f : Blk → QOp → SumDesc → Blk) : Blk :=
  match b.sumHead w with
  | none => b
  | some (op, q, e) =>
    let d := sumDesc op.desc
    if d.op ≠ kind then b
    else
      let b1 := b.setWale w { b.wale w with sumQ := q }
      if e ≠ 0 then b1.post op e else f (b1.setWale w { b1.wale w with sum := some { op := op, made := true } }) op d

/-- COMBINE (R168). -/
def Blk.combine (b : Blk) (w : Nat) (op : QOp) (d : SumDesc) : Blk :=
  let rs := d.sources.map (b.slot w)
  let kind := recKind (rs.headD 0)
  let st := op.tid.stake % 32
  match combineRecs kind rs with
  | some v => b.setWale w { b.wale w with slots := SMap.set 0 (b.wale w).slots d.dest (sumRecord v kind st op.tid.thread d.tag) }
  | none => (b.setWale w { b.wale w with slots := SMap.set 0 (b.wale w).slots d.dest (sumRecord 0 7 st op.tid.thread d.tag) }).inc R.SUM_INVALID_CNT w

/-- POST (R168): records from the next source on while the post FIFO of 64 has room; `fuel` bounds the sources. -/
def Blk.postGo (w : Nat) (op : QOp) (d : SumDesc) : (fuel i : Nat) → Blk → Blk
  | 0, i, b => b.setWale w { b.wale w with sum := some { op := op, next := i, made := true } }
  | fuel + 1, i, b =>
    let x := b.wale w
    if 64 ≤ x.post.length then (b.setWale w { x with sum := some { op := op, next := i, made := false } }).event .sum 17 w
    else
      let r := b.slot w (d.base + i * d.stride)
      let r' := if recValid r then r else sumRecord 0 7 (op.tid.stake % 32) op.tid.thread d.tag
      let b1 := b.setWale w { x with post := x.post ++ [r'] }
      Blk.postGo w op d fuel (i + 1) (if x.post.isEmpty then b1.event .sum 16 w else b1)

/-- A POST that waits goes on. -/
def Blk.postMore (b : Blk) (w : Nat) : Blk :=
  match (b.wale w).sum with
  | some r =>
    let d := sumDesc r.op.desc
    if r.made then b else Blk.postGo w r.op d (d.count - r.next) r.next b
  | none => b

/-- What a LOSS reads of its sources (R168): the values of those that are valid and FP32. -/
def Blk.lossRead (b : Blk) (w : Nat) (d : SumDesc) : List (Option Nat) :=
  d.sources.map (fun k => let r := b.slot w k; if recValid r && recKind r == 0 then some (recValue r) else none)

/-- What a LOSS sends as it ends (R168): a reset that ends it before leaves the monitor without any of it (R174). -/
def Blk.lossSend (b : Blk) (w : Nat) (l : List (Option Nat)) : Blk :=
  b.each l (fun b v => match v with
    | some x => { b with lossQ := b.lossQ ++ [x] }
    | none => b.inc R.SUM_LOSS_DROP_CNT w)

/-- SUM_POST_POP's effect (R173): the oldest record leaves the FIFO, and a waiting POST goes on. -/
def Blk.postPop (b : Blk) (w : Nat) : Nat × Blk :=
  match (b.wale w).post with
  | [] => (0, b)
  | r :: l => (r, (b.setWale w { b.wale w with post := l }).postMore w)

/-- SUM_COMBINE (R168). -/
def execSumCombine (w : Nat) (s : State) : Host.Outcome State Fault Refusal :=
  cmd (decide (w < 200)) s (fun b => b.sumStart w 0 (fun b op d => b.combine w op d))

/-- SUM_POST (R168). -/
def execSumPost (w : Nat) (s : State) : Host.Outcome State Fault Refusal :=
  cmd (decide (w < 200)) s (fun b => b.sumStart w 1 (fun b op d => Blk.postGo w op d d.count 0 b))

/-- SUM_CLEAR (R168). -/
def execSumClear (w : Nat) (s : State) : Host.Outcome State Fault Refusal :=
  cmd (decide (w < 200)) s (fun b => b.sumStart w 2 (fun b _ d =>
    b.setWale w { b.wale w with slots := (b.wale w).slots.filter (fun e => !d.sources.contains e.1) }))

/-- SUM_LOSS (R168). -/
def execSumLoss (w : Nat) (s : State) : Host.Outcome State Fault Refusal :=
  cmd (decide (w < 200)) s (fun b => b.sumStart w 3 (fun b op d => b.setWale w { b.wale w with sum := some { op := op, made := true, loss := b.lossRead w d } }))

/-- SUMMARY_OP_END (R168): the operation whose effect is made ends; a LOSS sends its values. -/
def execSummaryOpEnd (w : Nat) (s : State) : Host.Outcome State Fault Refusal :=
  cmd (decide (w < 200)) s (fun b =>
    match (b.wale w).sum with
    | some r =>
      if r.made then
        let b1 := (b.setWale w { b.wale w with sum := none }).lossSend w r.loss
        (if (sumDesc r.op.desc).op = 0 then b1.inc R.SUM_COMBINE_CNT w else b1).post r.op 0
      else b
    | none => b)

end Sys2Proof.Machine
end

