-- ==== Sys2Proof/Machine/Issue.lean ====
section
/-! DEFINITION. Issue (R138–R149): queues, credits, the scoreboard. -/

namespace Sys2Proof.Machine

/-- The five queues (R141). -/
inductive Queue where
  | mat | vec | row | dma | sum
  deriving DecidableEq, Repr

/-- Every operation of a wale that holds a scoreboard entry (R143): queued, running or suspended. -/
def Blk.flight (b : Blk) (w : Nat) : List QOp :=
  let x := b.wale w
  let ofRun := fun (r : Option Run) => match r with | some r => [r.op] | none => []
  let stakes := (List.range 32).flatMap (fun i =>
    let k := b.stake (w * 32 + i)
    k.matQ ++ k.vecQ ++ ofRun k.mat ++ ofRun k.vec)
  let dma := (List.range 64).flatMap (fun i => match b.stream (w * 64 + i) with | some ⟨.op q, _, _, _, _, _, _⟩ => [q] | _ => [])
  (stakes ++ x.rowQ ++ x.dmaQ ++ x.sumQ ++ ofRun x.row ++ (match x.sum with | some r => [r.op] | none => []) ++ dma).filter (·.live)

/-- Reserved entries that a stake uses, shared entries in use, and entries in use (R143, R169, R171). -/
def Blk.sbRes (b : Blk) (s : Nat) : Nat := ((b.flight (waleOf s)).filter (fun q => q.tid.stake == s && !q.shared)).length
def Blk.sbShared (b : Blk) (w : Nat) : Nat := ((b.flight w).filter (·.shared)).length
def Blk.sbUsed (b : Blk) (w : Nat) : Nat := (b.flight w).length

/-- Credits of a stake that are left in a queue (R141): those of operations that have not started are taken. -/
def Blk.credits (b : Blk) (s : Nat) (q : Queue) : Nat :=
  let x := b.wale (waleOf s)
  let k := b.stake s
  let mine := fun (l : List QOp) => (l.filter (fun q => q.live && q.tid.stake == s)).length
  match q with
  | .mat => 8 - mine k.matQ
  | .vec => 8 - mine k.vecQ
  | .row => 1 - (mine x.rowQ + (match x.row with | some r => if r.st = .wait then mine [r.op] else 0 | none => 0))
  | .dma => 2 - (mine x.dmaQ + ((List.range 64).map (fun i => match b.stream (waleOf s * 64 + i) with
      | some y => if y.started then 0 else (match y.orig with | .op q => mine [q] | _ => 0)
      | none => 0)).sum)
  | .sum => 2 - mine x.sumQ

/-- Whether the pages that R509 names for an issue are in SERVING. -/
def Blk.issueServing (b : Blk) (s : Nat) (q : Queue) : Bool :=
  let w := waleOf s
  b.serving .wale w && (match q with
    | .mat | .vec => b.serving .stake s
    | .row => b.serving .row w
    | .dma => b.serving .wxlt w
    | .sum => b.serving .sum w)

/-- Whether a queue is fenced (R98, R100): its page, or the wale's, is in ISOLATED. -/
def Blk.issueFenced (b : Blk) (s : Nat) (q : Queue) : Bool :=
  let w := waleOf s
  b.st .wale w == sIsolated || (match q with
    | .mat | .vec => b.st .stake s
    | .row => b.st .row w
    | .dma => b.st .wxlt w
    | .sum => b.st .sum w) == sIsolated

/-- Whether an engine accepts a descriptor (R140). -/
def issueValid (q : Queue) (d : List Nat) (imm : Nat) : Bool :=
  match q with
  | .mat => matValid d | .vec => chValid d | .row => rowValid d imm | .dma => dmaValid d true clsO | .sum => sumValid d

/-- An operation joins its queue. -/
def Blk.enqueue (b : Blk) (q : Queue) (op : QOp) : Blk :=
  let s := op.tid.stake
  let w := waleOf s
  match q with
  | .mat => b.setStake s { b.stake s with matQ := (b.stake s).matQ ++ [op] }
  | .vec => b.setStake s { b.stake s with vecQ := (b.stake s).vecQ ++ [op] }
  | .row => b.setWale w { b.wale w with rowQ := (b.wale w).rowQ ++ [op] }
  | .dma => b.setWale w { b.wale w with dmaQ := (b.wale w).dmaQ ++ [op] }
  | .sum => b.setWale w { b.wale w with sumQ := (b.wale w).sumQ ++ [op] }

/-- The issue is accepted (R138, R141, R143, R146): the slot is pending, a reserved entry is taken before a shared one, the peak follows, the instruction retires.
AFTER waits where its slot is pending, and takes an error that its slot holds undelivered (R147). -/
def Blk.issueAccept (b : Blk) (t : Tid) (q : Queue) (i : Ins) (desc : List Nat) : Blk :=
  let th := b.thread t
  let a := bits i.mod 5 4
  let op : QOp := { tid := t, slot := bits i.mod 0 4, after := if bit i.mod 4 && th.tok a == .pending then some a else none,
                    gate := if bit i.mod 4 then (th.tok a).err else 0, imm := i.imm, desc := desc, shared := decide (2 ≤ b.sbRes t.stake) }
  let b1 := (b.next t (th.setTok (bits i.mod 0 4) .pending)).enqueue q op
  let w := waleOf t.stake
  b1.wr R.SCHED_SB_STATUS_PEAK (max (b1.rd R.SCHED_SB_STATUS_PEAK w) (b1.sbUsed w)) w

/-- An issue instruction (R138–R149, R509): the pointer is checked; an error in the TOKEN slot is delivered; a pending TOKEN slot stalls, and so does a stake or wale
that does not serve, while a queue in ISOLATED answers with ACCESS_DENIED, of which the thread faults as of any other such answer (R100; log entry 60); the
descriptor is read and validated; then a credit and a scoreboard entry, or the thread stalls. -/
def Blk.issue (b : Blk) (t : Tid) (opc : Nat) (q : Queue) : Blk :=
  b.insn t opc (fun b i =>
    let th := b.thread t
    let slot := bits i.mod 0 4
    let addr := th.reg i.src1
    let stall := b.setThread t { th with sleep := .stall }
    if addr % 64 ≠ 0 then b.threadFault t eDenied 0x03
    else match localPa t.stake addr 64 .load with
      | .error d => b.threadFault t eDenied d
      | .ok pa =>
        if (th.tok slot).err ≠ 0 then b.deliverErr t slot
        else if th.tok slot == .pending then stall
        else if b.issueFenced t.stake q then b.threadFault t eDenied 0x0B
        else if (q == .mat || q == .vec) && !b.issueServing t.stake q then stall
        else match b.sramRead pa 64 with
          | .error (c, a) => b.threadFault t c 0x0B 0 a
          | .ok v =>
            let desc := (List.range 8).map (fun k => bits v (64 * k) 64)
            if !issueValid q desc i.imm then b.threadFault t eDenied 0x06
            else if b.credits t.stake q = 0 || !b.issueServing t.stake q || (decide (2 ≤ b.sbRes t.stake) && decide (64 ≤ b.sbShared (waleOf t.stake))) then stall
            else b.issueAccept t q i desc)

/-- ISS_MAT (R141). -/
def execIssMat (t : Tid) (s : State) : Host.Outcome State Fault Refusal := cmd (tidOk t) s (fun b => b.issue t 0x30 .mat)
/-- ISS_VEC (R141). -/
def execIssVec (t : Tid) (s : State) : Host.Outcome State Fault Refusal := cmd (tidOk t) s (fun b => b.issue t 0x31 .vec)
/-- ISS_ROW (R141). -/
def execIssRow (t : Tid) (s : State) : Host.Outcome State Fault Refusal := cmd (tidOk t) s (fun b => b.issue t 0x32 .row)
/-- ISS_DMA (R141). -/
def execIssDma (t : Tid) (s : State) : Host.Outcome State Fault Refusal := cmd (tidOk t) s (fun b => b.issue t 0x33 .dma)
/-- ISS_SUM (R141). -/
def execIssSum (t : Tid) (s : State) : Host.Outcome State Fault Refusal := cmd (tidOk t) s (fun b => b.issue t 0x34 .sum)

end Sys2Proof.Machine
end

