-- ==== Sys2Proof/Machine/NearFlit.lean ====
section
/-! DEFINITION. What the near ports send (R65, R300, R307, R313, R316, R317, R319, R320, R322, R324, R353): records and their layouts, flits, queues, credits, keys. -/

namespace Sys2Proof.Machine

def Blk.nport (b : Blk) (p : Nat) : NPort := SMap.get {} b.near p
def Blk.setNport (b : Blk) (p : Nat) (x : NPort) : Blk := { b with near := SMap.set {} b.near p x }

/-- Whether a near port's link is trained: UP or DEGRADED (R325, R330). -/
def Blk.nearUp (b : Blk) (p : Nat) : Bool := b.rd R.NLNK_STATUS_LINK p == 2 || b.rd R.NLNK_STATUS_LINK p == 3

/-! ## Layouts -/

/-- The 16-byte header of a gathered piece (R300). -/
def gatherHeader (version layer rank len : Nat) : List Byte := natLe 8 version ++ natLe 2 layer ++ natLe 2 rank ++ natLe 4 len

/-- The 16-byte header of a handover (R307). -/
def hoHeader (h : Handover) : List Byte :=
  natLe 4 h.step ++ natLe 2 h.mb ++ natLe 1 h.slot ++ natLe 1 (b2n h.back + 2 * b2n h.last) ++ natLe 1 h.variant ++ natLe 1 h.attempt ++ natLe 2 0
    ++ natLe 4 h.data.length

/-- A count record (R313). -/
def countRecord (step attempt xid rank n size : Nat) : List Byte :=
  natLe 4 (step + 2 ^ 24 * attempt) ++ natLe 2 xid ++ natLe 2 rank ++ natLe 4 n ++ natLe 4 size

/-- A switch record: its 16-byte header, and its values of 4 bytes, or 8 for GATHER_U64 (R353). -/
def swBytes (r : SwRec) : List Byte :=
  natLe 1 r.msg ++ natLe 1 r.channel ++ natLe 1 r.op ++ natLe 1 r.vals.length ++ natLe 4 (r.step + 2 ^ 24 * r.attempt) ++ natLe 2 r.seq ++ natLe 2 r.rank
    ++ natLe 2 r.group ++ natLe 2 r.members ++ r.vals.flatMap (natLe (if r.op = 4 then 8 else 4))

/-- The transport header ahead of every record (R324). -/
def transportHeader (dst src kind len : Nat) : List Byte := natLe 8 (dst % 2 ^ 14 + 2 ^ 16 * (src % 2 ^ 14) + 2 ^ 32 * (kind % 16) + 2 ^ 40 * len)

/-- The destination's site rank, where the record's class is relayed (R324). -/
def NMsg.dst : NMsg → Option Nat
  | .gatherReq d .. | .gatherPiece d .. | .count d .. | .tokens d .. | .digest d .. | .repairReq d .. | .repairChunk d _ | .relay d _ => some d
  | _ => none

/-- What names a bucket's record, as numbers. -/
def keyNats (k : BKey) : List Nat := [k.group, k.step, k.attempt, k.bucket]

/-- A message's number among its kinds, and its fields as numbers, for what the spec gives no layout. -/
def NMsg.nats : NMsg → Nat × List Nat
  | .nak e s => (0, [e, s]) | .credits l n => (1, n :: l.flatMap (fun e => [e.1, e.2])) | .keyNext e => (2, [e]) | .keyReady e => (3, [e]) | .keyRetire e => (4, [e])
  | .width w => (5, [w]) | .rate k => (6, [k]) | .abort s a c o g k => (7, [s, a, c, o, g, k]) | .openB k => (8, keyNats k) | .grantB k => (9, keyNats k)
  | .bucket k r l => (10, keyNats k ++ r :: l) | .coded k f n l => (11, keyNats k ++ f :: n :: l.map (·.toNat)) | .codedReq k f n => (12, keyNats k ++ [f, n])
  | .gatherReq d g l s h a => (13, [d, g, l, s, h, a]) | .gatherPiece d g l r v a _ => (14, [d, g, l, r, v, a]) | .handover h => (15, [h.step, h.mb])
  | .count d g s a x r n z => (16, [d, g, s, a, x, r, n, z]) | .tokens d g s a x r _ => (17, [d, g, s, a, x, r]) | .sw r => (18, [r.msg, r.channel])
  | .digest d h s x => (19, [d, h, s, x]) | .repairReq d h q c s => (20, [d, h, q, c, s]) | .repairChunk d c => (21, [d, c.shard, c.part, c.chunk, c.step])
  | .relay d _ => (22, [d]) | .slack _ => (23, [])

/-- A record's bytes behind its transport header, `len` of them where the spec gives no layout (log entry 66). -/
def NMsg.body (m : NMsg) (len : Nat) : List Byte :=
  match m with
  | .gatherPiece _ _ l r v _ data => gatherHeader v l r data.length ++ data
  | .handover h => hoHeader h ++ h.data
  | .count _ _ s a x r n z => countRecord s a x r n z
  | .tokens _ _ _ _ _ _ data => data
  | .sw r => swBytes r
  | .slack r => r
  | m => natLe len (Config.recordBody m.nats.1 m.nats.2)

/-- A record as it goes into flits: transport header and body; a relayed record goes on as it came. -/
def Blk.record (b : Blk) (p tc len : Nat) (m : NMsg) : List Byte :=
  if tc = 0 then natLe 240 (Config.recordBody m.nats.1 m.nats.2)
  else match m with
    | .relay _ bytes => bytes
    | m => transportHeader (m.dst.getD (Config.hopRank p)) (b.rd R.NRED_SITE_RANK) (Config.recordKind m.nats.1) (m.body len).length ++ m.body len

/-- Flits that payload bytes fill, 240 bytes each (R316). -/
def recFlits (n : Nat) : Nat := (n + 239) / 240

/-! ## Keys (R53, R54, R65) -/

/-- A 256-bit key in a key page's slots, written by the lid alone (R54). -/
def Blk.keyWrite (b : Blk) (f : Fld) (i slot key : Nat) : Blk := b.each (List.range 8) (fun b k => b.wr (f.at (8 * slot + k)) (bits key (32 * k) 32) i)
def Blk.keyRead (b : Blk) (f : Fld) (i slot : Nat) : Nat := ((List.range 8).map (fun k => b.rd (f.at (8 * slot + k)) i * 2 ^ (32 * k))).foldl (· + ·) 0

/-- The direction bit of a port's sent flits, and of those that it receives. -/
def txDir (p : Nat) : Nat := Config.nearDirection p % 2
def rxDir (p : Nat) : Nat := 1 - txDir p

/-- A near epoch key (R53): from the session secret, in the context of port, direction and epoch number. -/
def nearKey (secret p dir epoch : Nat) : Nat := Config.kdf secret "near epoch" [p, dir, epoch]

/-- The slots of a port's keys (log entry 66): transmit keys of even and odd epochs, then receive keys. -/
def txSlot (epoch : Nat) : Nat := epoch % 2
def rxSlot (epoch : Nat) : Nat := 2 + epoch % 2

/-- The lid derives an epoch's key and writes it into the port's key page. -/
def Blk.txInstall (b : Blk) (p epoch : Nat) : Blk := b.keyWrite R.NKEY_SLOT p (txSlot epoch) (nearKey ((b.nport p).secret.getD 0) p (txDir p) epoch)
def Blk.rxInstall (b : Blk) (p epoch : Nat) : Blk := b.keyWrite R.NKEY_SLOT p (rxSlot epoch) (nearKey ((b.nport p).secret.getD 0) p (rxDir p) epoch)

/-! ## Flits (R65, R317) -/

/-- The nonce of a flit (R65). -/
def flitNonce (dir p epoch seq : Nat) : Nat := 2 ^ 95 * dir + 2 ^ 92 * p + 2 ^ 32 * (epoch % 2 ^ 32) + seq % 2 ^ 32

/-- The 243 bytes of a flit that are encrypted (R317): TYPE and TC, the ACK field, the payload. -/
def flitPlain (type tc ack : Nat) (payload : List Byte) : List Byte := natLe 1 (type + 16 * tc) ++ natLe 2 ack ++ (payload ++ List.replicate (240 - payload.length) 0)

/-- A flit (R317): the EPOCH bit in clear, the ciphertext and its 64-bit tag, the CRC. -/
def flitBytes (key nonce epoch : Nat) (plain : List Byte) : List Byte :=
  let l := natLe 1 (epoch % 2) ++ natLe 251 (Config.gcm key nonce (natLe 1 (epoch % 2)) plain)
  l ++ natLe 4 (crc32c l)

/-- A flit of this port under its newest transmit key, with its ACK field. -/
def Blk.makeFlit (b : Blk) (p nonce type tc : Nat) (payload : List Byte) : List Byte :=
  let e := b.rd R.NKEY_TX_EPOCH p
  flitBytes (b.keyRead R.NKEY_SLOT p (txSlot e)) nonce e (flitPlain type tc (b.nport p).ackName payload)

/-! ## Sending (R319, R320, R322) -/

/-- Credits granted per class (R319). -/
def tcCredits : Nat → Nat
  | 0 => 96 | 1 => 1024 | 2 => 768 | 3 => 768 | 4 => 768 | 5 => 128 | 6 => 512 | _ => 32

/-- Whether the sender keeps a message's flits for replay: all but NAK and credit messages (R322). -/
def NMsg.kept : NMsg → Bool
  | .nak .. => false | .credits .. => false | _ => true

/-- Flits of a class that may leave now: its credits, or what is left of the reserve of TC 0, and, for flits that are kept, the room in the replay buffer. -/
def Blk.txRoom (b : Blk) (p tc : Nat) (kept : Bool) : Nat :=
  let x := b.nport p
  let c := if tc = 0 then 96 - (x.replay.filter (·.tc == 0)).length else b.rd (R.NLNK_CREDIT_AVAIL.at tc) p
  if kept then min c (4096 - x.replay.length) else c

/-- Whether a class travels: the page runs, the link is up, and outside OWNED only TC 0 and TC 7 (R98, R100, R328). -/
def Blk.tcOpen (b : Blk) (p tc : Nat) : Bool := b.runsOn .nlnk p && b.nearUp p && (b.own == 1 || tc == 0 || tc == 7)

/-- Whether some port carries a class now. -/
def Blk.tcAny (b : Blk) (tc : Nat) : Bool := (List.range 8).any (fun p => b.tcOpen p tc)

/-- Whether a port may send a message of a class: NAKs also in the replay of a retrain (R67, R325 step 5). -/
def Blk.txOpen (b : Blk) (p tc : Nat) (m : NMsg) : Bool := b.tcOpen p tc || (!m.kept && b.runsOn .nlnk p && (b.nport p).step == 5)

/-- `n` flits of the record at a queue's head leave: they are sealed in sequence and kept, or, not kept, sealed under a nonce that is free; credits are spent; an
epoch that has carried 2^LID_NEAR_REKEY_LOG2 flits makes a rekey due (R66). -/
def Blk.flitsOut (b : Blk) (p tc n : Nat) (r : NRec) : Blk :=
  let x := b.nport p
  let e := b.rd R.NKEY_TX_EPOCH p
  let type := if tc = 0 then 2 else 1
  let pay := fun k => (r.bytes.drop (240 * k)).take 240
  if !r.msg.kept then
    let d := b.draw
    d.2.send (.nearFlits p [d.2.makeFlit p (d.1 % 2 ^ 96) type tc (pay 0)])
  else
    let done := n == recFlits r.bytes.length
    let fl := (List.range n).map (fun k =>
      ({ epoch := e, seq := x.txSeq + k, tc := tc, msg := if done && k + 1 == n then some r.msg else none,
         bytes := b.makeFlit p (flitNonce (txDir p) p e (x.txSeq + k)) type tc (pay k) } : NFlit))
    let full := decide (x.txSeq < 2 ^ b.rd R.LID_NEAR_REKEY_LOG2) && decide (2 ^ b.rd R.LID_NEAR_REKEY_LOG2 ≤ x.txSeq + n)
    let b1 := b.setNport p { x with txSeq := x.txSeq + n, replay := x.replay ++ fl, rekeyDue := x.rekeyDue || full }
    let b2 := if tc = 0 then b1 else b1.wr (R.NLNK_CREDIT_AVAIL.at tc) (b1.rd (R.NLNK_CREDIT_AVAIL.at tc) p - n) p
    b2.send (.nearFlits p (fl.map (·.bytes)))

/-- Flits of a class whose payload has left the receive buffer (R320). -/
def Blk.freeFlits (b : Blk) (p tc n : Nat) : Blk := b.setNport p { b.nport p with freed := SMap.modify 0 (b.nport p).freed tc (· + n) }

/-- A record whose last flit has left; one that was relayed frees the buffer that held it. -/
def Blk.recordOut (b : Blk) (p tc : Nat) (r : NRec) : Blk :=
  let b1 := b.send (.near p tc r.msg)
  match r.origin with
  | some (q, c, n) => b1.freeFlits q c n
  | none => b1

/-- The head of a class's queue sent as far as credits reach. `fuel` bounds the queue. -/
def Blk.pumpTc (p tc : Nat) : (fuel : Nat) → Blk → Blk
  | 0, b => b
  | fuel + 1, b =>
    match SMap.get [] (b.nport p).queue tc with
    | [] => b
    | r :: rest =>
      let n := min (recFlits r.bytes.length) (b.txRoom p tc r.msg.kept)
      if !b.txOpen p tc r.msg || n = 0 then b
      else
        let done := n == recFlits r.bytes.length
        let b1 := b.flitsOut p tc n r
        let q := if done then rest else { r with bytes := r.bytes.drop (240 * n) } :: rest
        let b2 := b1.setNport p { b1.nport p with queue := SMap.set [] (b1.nport p).queue tc q }
        if done then Blk.pumpTc p tc fuel (b2.recordOut p tc r) else b2

/-- Every class of a port sent as far as credits reach. -/
def Blk.pumpAll (b : Blk) (p : Nat) : Blk :=
  b.each (List.range 8) (fun b tc => Blk.pumpTc p tc ((SMap.get [] (b.nport p).queue tc).length) b)

/-- A record joins its class's queue; a NAK or a credit message goes ahead. -/
def Blk.queueUp (b : Blk) (p tc len : Nat) (m : NMsg) (origin : Option (Nat × Nat × Nat) := none) : Blk :=
  let x := b.nport p
  let r : NRec := ⟨m, b.record p tc len m, origin⟩
  let q := SMap.get [] x.queue tc
  b.setNport p { x with queue := SMap.set [] x.queue tc (if m.kept then q ++ [r] else r :: q) }

/-- A rekey that is due begins (R66), unless one is under way or two epochs are live. -/
def Blk.rekeyStart (b : Blk) (p : Nat) : Blk :=
  let x := b.nport p
  if x.rekeyDue && !x.txAsked && !b.on R.NKEY_STATUS_TX_TWO p && b.rd R.NKEY_STATUS_SESSION p == 2 then
    ((b.setNport p { x with txAsked := true, rekeyDue := false }).queueUp p 0 8 (.keyNext (b.rd R.NKEY_TX_EPOCH p + 1))).pumpAll p
  else b

/-- Freed credits of every class returned in a CONTROL flit (R320). -/
def Blk.returnCredits (b : Blk) (p : Nat) : Blk :=
  let x := b.nport p
  if x.freed = [] then b else ((b.setNport p { x with freed := [] }).queueUp p 0 8 (.credits x.freed 0)).pumpAll p

/-- Credits go back once 64 flits in all are freed. -/
def Blk.returnFull (b : Blk) (p : Nat) : Blk :=
  if 64 ≤ ((b.nport p).freed.map (·.2)).foldl (· + ·) 0 then b.returnCredits p else b

/-- What a port may send leaves, a rekey that is due begins, and ports whose buffers that has freed return credits. -/
def Blk.pump (b : Blk) (p : Nat) : Blk := ((b.pumpAll p).rekeyStart p).each (List.range 8) Blk.returnFull

/-- A record of `len` bytes for a near port: it waits for credit; nothing is dropped (R320). -/
def Blk.nearSend (b : Blk) (p tc len : Nat) (m : NMsg) : Blk := (b.queueUp p tc len m).pump p

/-- A control message (one flit of TC 0). -/
def Blk.control (b : Blk) (p : Nat) (m : NMsg) : Blk := b.nearSend p 0 8 m

end Sys2Proof.Machine
end

