-- ==== Sys2Proof/Machine/Power.lean ====
section
/-! DEFINITION. The power controller (R411–R436): supply, alert, bubbles, leave windows, the cap and its division, shifting between modules, heat. -/

namespace Sys2Proof.Machine

/-! ## Errors of the PWC (R417) -/

/-- An error of the PWC page: captured and counted as any error, with its full record in the firmware log in place of the owner's (R417). -/
def Blk.pwcError (b : Blk) (e : Err) : Blk :=
  let r : LogRec := { cls := e.cls, ptype := pageType .pwc, inst := 0, beat := b.beatCount, info0 := e.info0 }
  let b1 := ((b.capture .pwc 0 e).raise .pwc 0 2).sanitise (pageType .pwc) 0 e.cls
  { b1 with pwr := { b1.pwr with fwLog := b1.pwr.fwLog ++ [r] } }

/-! ## Bubbles and power states (R416) -/

/-- Whether the PWC page works; until READY hardware holds every die at 60 bubbles and withholds leave (R434). -/
def Blk.pwcUp (b : Blk) : Bool := b.st .pwc == sReady || b.st .pwc == sServing || b.st .pwc == sQuiescing

def Pwr.ctlOf (x : Pwr) (d : Nat) : Nat := SMap.get 0 x.ctl d
def Pwr.rampOf (x : Pwr) (d : Nat) : Nat := SMap.get 0 x.ramp d
def Pwr.nbrOf (x : Pwr) (p : Nat) : Neighbour := SMap.get {} x.nbr p

/-- The thermal count of a die (R431). -/
def Blk.thermal (b : Blk) (d : Nat) : Nat := b.rd (R.PWC_DIE_BUBBLES_THERMAL.at d)

/-- The largest bubble demand in force on a die but the falling one after a release (R416): controller, WARNING floor, LOWEST, thermal count. -/
def Blk.demand (b : Blk) (d : Nat) : Nat :=
  max (max (b.pwr.ctlOf d) (b.thermal d)) (max (if b.pwr.warn then 32 else 0) (if b.pwr.alert then 60 else 0))

/-- The bubble count of a die (R416, R434): never above 60. -/
def Blk.bubbles (b : Blk) (d : Nat) : Nat := if b.pwcUp then min 60 (max (b.demand d) (b.pwr.rampOf d)) else 60

/-- The power state (R416): the highest whose condition holds. -/
def Blk.powerState (b : Blk) : Nat :=
  if b.pwr.alert then 3 else if b.pwr.warn then 2 else if [0, 1, 2, 3].any (fun d => b.pwr.ctlOf d != 0) then 1 else 0

/-- A balance register's value as an integer (R426). -/
def Blk.balance (b : Blk) (p : Nat) : Int := sext 16 (b.rd (R.PWC_BAL.at p))
def Blk.setBalance (b : Blk) (p : Nat) (v : Int) : Blk := b.wr (R.PWC_BAL.at p) (toBits 16 v)

/-- The effective cap (R426): the operator cap in force plus the balances. -/
def Blk.effCap (b : Blk) : Int := (b.pwr.cap : Int) + ((List.range 8).map b.balance).foldl (· + ·) 0

/-- PWC and TEL registers that show the controller's state (R435, R436), with STATE_POWER at a change of state. -/
def Blk.pwcShow (b : Blk) : Blk :=
  let old := b.rd R.PWC_STATE_STATE
  let st := b.powerState
  let b1 := (b.wr R.PWC_STATE_STATE st).wr R.PWC_STATE_THROTTLE (b2n ([0, 1, 2, 3].any (fun d => b.thermal d != 0)))
  let b2 := b1.each [0, 1, 2, 3] (fun x d => x.wr (R.PWC_DIE_BUBBLES_TOTAL.at d) (b.bubbles d))
  let b3 := (b2.wr R.PWC_EFF_CAP (b.effCap.toNat)).wr R.TEL_STATUS_SUPPLY_WARN (b2n b.pwr.warn)
  let b4 := (b3.wr R.TEL_STATUS_ALERT (b2n b.pwr.alert)).wr R.TEL_STATUS_UNTRUSTED (b.rd R.PWC_STATE_UNTRUSTED)
  (if st ≠ old then b4.event .pwc 16 else b4).stateEvents

/-- A change of the controller's own state, shown. -/
def Blk.setPwr (b : Blk) (x : Pwr) : Blk := ({ b with pwr := x }).pwcShow

/-- MOD_ALERT_N is asserted while any TEL event bit enabled in PG_EVENT_EN is set (R433). -/
def Blk.modAlert (b : Blk) : Bool := b.pgEvent .tel 0 &&& b.rd (R.PG_EVENT_EN .tel) != 0

/-- The demands of every die kept as falling ones (R413, R429), once a floor has gone. -/
def rampFrom (old : Blk) (x : Pwr) : Pwr :=
  { x with ramp := [0, 1, 2, 3].foldl (fun m d => SMap.set 0 m d (max (x.rampOf d) (old.bubbles d))) x.ramp }

/-- PG_ERR_INFO0 of a supply warning or an alert: a sensor index and a reading, which the spec states for no event that no sensor causes (R435): free values. -/
def powerInfo (v : Nat) : Nat := v % 256 + v / 256 % 2 ^ 16 * 2 ^ 16

/-- SUPPLY_WARN (R412, R414): WARNING, recorded once per entry. A fall below 42.0 V within WARNING stops the release timer. -/
def execSupplyWarn (s : State) : Host.Outcome State Fault Refusal :=
  cmd true s (fun b =>
    if b.pwr.warn then b.setPwr { b.pwr with relRun := false }
    else
      let (v, b) := b.draw
      (((b.setPwr { b.pwr with warn := true, relRun := false }).pwcError { cls := eSupply, info0 := powerInfo v }).inc
        R.TEL_SUPPLY_WARN_CNT).event .tel 16)

/-- SUPPLY_RECOVER (R413): the release timer starts. -/
def execSupplyRecover (s : State) : Host.Outcome State Fault Refusal :=
  cmd true s (fun b => b.when b.pwr.warn (fun b => b.setPwr { b.pwr with relRun := true }))

/-- WARNING_RELEASE (R413). -/
def execWarningRelease (s : State) : Host.Outcome State Fault Refusal :=
  cmd true s (fun b => b.when (b.pwr.warn && b.pwr.relRun) (fun b => b.setPwr (rampFrom b { b.pwr with warn := false, relRun := false })))

/-- BUBBLE_RAMP (R413, R429): the falling demands lose 1 of 64, until what the other conditions demand. -/
def execBubbleRamp (s : State) : Host.Outcome State Fault Refusal :=
  cmd true s (fun b => b.setPwr { b.pwr with
    ramp := [0, 1, 2, 3].foldl (fun m d => SMap.set 0 m d (if b.pwr.rampOf d ≤ b.demand d + 1 then 0 else b.pwr.rampOf d - 1)) b.pwr.ramp })

/-- LOWEST is entered (R428), recorded once per assertion. -/
def Blk.alertIn (b : Blk) : Blk :=
  let (v, b) := b.draw
  (((b.setPwr { b.pwr with alert := true }).pwcError { cls := eAlert, info0 := powerInfo v }).inc R.TEL_ALERT_CNT).event .tel 17

/-- PWR_ALERT (R428, R493): LOWEST, but for an assertion before the end of stage 1, which is recognised there. -/
def execPwrAlert (s : State) : Host.Outcome State Fault Refusal :=
  cmd true s (fun b => b.when (!b.pwr.alertPin) (fun b =>
    let b1 := { b with pwr := { b.pwr with alertPin := true } }
    if b.boot.stage < 2 ∨ b.boot.refHeld then b1 else b1.alertIn))

/-- ALERT_RELEASE (R429). -/
def execAlertRelease (s : State) : Host.Outcome State Fault Refusal :=
  cmd true s (fun b =>
    let b1 := { b with pwr := { b.pwr with alertPin := false } }
    if b.pwr.alert then b1.setPwr (rampFrom b { b1.pwr with alert := false }) else b1)

/-! ## The cap (R421–R424) -/

/-- Stake-driven demand (R422) in units of 2^-16 mW, over the enabled stakes. -/
def Blk.stakeDemand (b : Blk) : Int :=
  let t := fun p => ((SMap.get (0 : Nat) b.pwr.tab p : Nat) : Int)
  let base := ((List.range 200).filter b.waleOn).length * 32 * t 0
  (b.stakes.filter (fun e => b.waleOn (waleOf e.1))).foldl (fun acc e => acc + t e.2.phase - t 0) base

/-- The division of R422: the controller value of every die. -/
def Blk.divide (b : Blk) (nonStake : Nat) : Nat :=
  let d := b.stakeDemand
  let s := ((b.rd R.PWC_ETA : Int) * b.effCap - nonStake) * 65536
  if d ≤ s then 0 else if s ≤ 0 then 60 else min 60 ((64 * (d - s) + d - 1) / d).toNat

/-- A quotient rounded toward zero. -/
def towardZero (a n : Int) : Int := if 0 ≤ a then a / n else -((-a) / n)

/-- The phase table learns (R421). -/
def learn (tab : SMap Nat) (xs : List (Nat × Nat)) : SMap Nat :=
  xs.foldl (fun m e => SMap.modify 0 m e.1 (fun t => ((t : Int) + towardZero ((e.2 : Int) - t) 16).toNat)) tab

/-- PWC_PHASE_TAB shows every entry in whole mW (R421). -/
def Blk.showTab (b : Blk) : Blk :=
  b.each (List.range 64) (fun x p => x.wr (R.PWC_PHASE_TAB.at p) (min 0xFFFF (SMap.get 0 b.pwr.tab p / 65536)))

/-- A write of PWC_PHASE_TAB seeds its entry (R421). -/
def Blk.seedPhase (b : Blk) (k v : Nat) : Blk := { b with pwr := { b.pwr with tab := SMap.set 0 b.pwr.tab k (65536 * v) } }

/-- FAST_LOOP (R423, R424): the mean of the last ten samples, in mW, against the effective cap; it acts on the controller values only. -/
def execFastLoop (mw : Nat) (s : State) : Host.Outcome State Fault Refusal :=
  cmd true s (fun b => b.when (b.on R.PWC_CTRL_FAST && b.pwcUp) (fun b =>
    let un := b.on R.PWC_STATE_UNTRUSTED
    let cap := b.effCap
    let above := decide ((mw : Int) > cap * (if un then 900 else 1020))
    let below := decide ((mw : Int) < cap * (if un then 850 else 950))
    let x := b.pwr
    let ctl := [0, 1, 2, 3].foldl (fun m d => SMap.set 0 m d
      (if above then min 60 (x.ctlOf d + 1) else if below ∧ x.ctlOf d > x.div then x.ctlOf d - 1 else x.ctlOf d)) x.ctl
    let added := if above then ([0, 1, 2, 3].filter (fun d => decide (x.ctlOf d < 60))).length else 0
    let full := [0, 1, 2, 3].all (fun d => SMap.get 0 ctl d == 60)
    let slow := if full && above then true else if (mw : Int) < cap * 1000 then false else x.slow
    (b.add R.PWC_FAST_CNT added).setPwr { x with ctl := ctl, slow := slow }))

/-- ESTIMATE_COMPARE (R424): mean estimated and measured input power in mW above the last 1 ms. -/
def execEstimateCompare (e m : Nat) (s : State) : Host.Outcome State Fault Refusal :=
  cmd true s (fun b =>
    let bad := decide (((e : Int) - m).natAbs * 100 > 15 * m)
    if b.on R.PWC_STATE_UNTRUSTED then
      let good := if bad then 0 else b.pwr.good + 1
      if good ≥ 1000 then (b.wr R.PWC_STATE_UNTRUSTED 0).setPwr { b.pwr with good := 0, bad := 0 }
      else b.setPwr { b.pwr with good := good }
    else
      let n := if bad then b.pwr.bad + 1 else 0
      if n ≥ 10 then
        let b1 := ((b.wr R.PWC_STATE_UNTRUSTED 1).setPwr { b.pwr with bad := 0, good := 0 }).inc R.PWC_UNTRUSTED_CNT
        ((b1.event .pwc 17).inc R.TEL_UNTRUSTED_CNT).event .tel 19
      else b.setPwr { b.pwr with bad := n })

/-! ## Shifting power (R425–R427) -/

/-- WANT (R426). -/
def Blk.wantsPower (b : Blk) : Bool :=
  decide (b.rd R.PWC_SLACK ≤ b.rd R.PWC_SHIFT_CTRL_SLACK_LO) && decide (b.effCap + b.rd R.PWC_SHIFT_CTRL_STEP_W ≤ 2500)

/-- A sideband record (R426). -/
def Blk.sideband (b : Blk) (revert ack : Bool) (give : Nat) : List Byte :=
  natLe 1 (b.rd R.TEL_GROUP_GROUP) ++ natLe 1 (min 255 (b.rd R.PWC_SLACK)) ++ natLe 1 (b2n b.wantsPower + 2 * b2n revert + 4 * b2n ack) ++ natLe 1 0
    ++ natLe 2 give ++ natLe 10 0

def Blk.setNbr (b : Blk) (p : Nat) (x : Neighbour) : Blk := { b with pwr := { b.pwr with nbr := SMap.set {} b.pwr.nbr p x } }

/-- Every balance 0, and REVERT sent on every trained port (R427). -/
def Blk.revertAll (b : Blk) : Blk :=
  let b1 := b.each (List.range 8) (fun b p => (b.setBalance p 0).setNbr p { b.pwr.nbrOf p with back := 0 })
  (b1.each ((List.range 8).filter b1.nearUp) (fun b p =>
    (b.setNbr p { b.pwr.nbrOf p with reverting := true }).nearSend p 7 16 (.slack (b.sideband true false 0)))).pwcShow

/-- A link that leaves UP and DEGRADED: its balance is 0 (R427). -/
def Blk.powerLinkLost (b : Blk) (p : Nat) : Blk := ((b.setBalance p 0).setNbr p {}).pwcShow

/-- A GIVE that arrives (R426): added to the cap and balance, or kept to be returned where it would pass 2,500 W or SHIFT_MAX. -/
def Blk.give (b : Blk) (p g : Nat) : Blk :=
  if g = 0 ∨ (b.pwr.nbrOf p).reverting then b
  else if b.effCap + g > 2500 ∨ b.balance p + g > b.rd R.TEL_GROUP_SHIFT_MAX then b.setNbr p { b.pwr.nbrOf p with back := (b.pwr.nbrOf p).back + g }
  else b.setBalance p (b.balance p + g)

/-- SIDEBAND_RECORD (R426, R427). -/
def execSidebandRecord (p : Nat) (r : List Byte) (s : State) : Host.Outcome State Fault Refusal :=
  cmd (decide (p < 8) && r.length == 16) s (fun b =>
    let v := leNat r
    let grp := bits v 0 8
    b.when (b.nearUp p && grp == b.rd R.TEL_GROUP_GROUP && grp != 0) (fun b =>
      let x := b.pwr.nbrOf p
      let b1 := b.setNbr p { x with want := if bit v 16 then some (bits v 8 8) else none, reverting := x.reverting && !bit v 18 }
      let b2 := if bit v 17 then (b1.setBalance p 0).setNbr p { b1.pwr.nbrOf p with back := 0 } else b1
      let b3 := if bit v 17 then b2.nearSend p 7 16 (.slack (b2.sideband false true 0)) else b2
      (b3.give p (bits v 32 16)).pwcShow))

/-- The neighbour that a module with slack gives to (R426): the lowest slack, ties to the lower port. -/
def Blk.giveTo (b : Blk) : Option Nat :=
  let l := (List.range 8).filter (fun p => b.nearUp p && (b.pwr.nbrOf p).want.isSome)
  let w := fun p => (b.pwr.nbrOf p).want.getD 0
  let best := l.foldl (fun acc p => match acc with
    | some q => if w p < w q then some p else some q
    | none => some p) none
  match best with
  | none => none
  | some p =>
    let step := b.rd R.PWC_SHIFT_CTRL_STEP_W
    if b.effCap - step ≥ 800 ∧ (b.balance p - step).natAbs ≤ b.rd R.TEL_GROUP_SHIFT_MAX then some p else none

/-- The sideband records of a beat (R426). -/
def Blk.shiftPower (b : Blk) : Blk :=
  if b.rd R.TEL_GROUP_GROUP = 0 then b
  else
    let step := b.rd R.PWC_SHIFT_CTRL_STEP_W
    let dest := if b.rd R.PWC_SLACK ≥ b.rd R.PWC_SHIFT_CTRL_SLACK_HI then b.giveTo else none
    let b1 := match dest with | some p => b.setBalance p (b.balance p - step) | none => b
    let b2 := b1.each ((List.range 8).filter b1.nearUp) (fun b p =>
      let g := (b.pwr.nbrOf p).back + (if dest = some p then step else 0)
      (b.setNbr p { b.pwr.nbrOf p with back := 0 }).nearSend p 7 16 (.slack (b.sideband false false g)))
    b2.pwcShow

/-- What the tick does in the PWC (R108, R421, R422, R426, R434): the operator cap comes into force, the table learns, the cap is divided, records are sent. -/
def Blk.pwcTick (b : Blk) (m : TickMeasure) : Blk :=
  let b := ((b.wr R.PWC_POWER_EST_W m.estW).wr R.PWC_POWER_MEAS_W m.measW).wr R.PWC_SLACK (min 256 m.slack)
  let b := { b with pwr := { b.pwr with cap := b.rd R.TEL_CAP } }
  let go := b.pwcUp && !b.on R.PWC_STATE_UNTRUSTED
  let b := if go && b.on R.PWC_CTRL_LEARN then ({ b with pwr := { b.pwr with tab := learn b.pwr.tab m.perPhase } }).showTab else b
  let v := b.divide m.nonStake
  let b := if go then { b with pwr := { b.pwr with div := v, ctl := [0, 1, 2, 3].foldl (fun c d => SMap.set 0 c d v) b.pwr.ctl } } else b
  b.pwcShow.shiftPower

/-- A block reset of the PWC page (R434). -/
def Blk.pwcReset (b : Blk) : Blk :=
  (({ b with pwr := { b.pwr with tab := [], ctl := [], div := 0, slow := false, bad := 0, good := 0 } }).showTab).revertAll

/-! ## Heat (R430–R433) -/

def Blk.sensor (b : Blk) (k : Nat) : Sensor := SMap.get {} b.pwr.sensors k

/-- What a sensor reads (R430): nothing before its first reading, 105 °C once it has stopped. -/
def Sensor.reads (x : Sensor) : Option Int := if x.stopped then some 1680 else x.temp

/-- The sensors that a die's thermal count depends on (R431). -/
def dieSensors (d : Nat) : List Nat := (List.range 48).map (48 * d + ·) ++ (List.range 64).map (192 + ·)

/-- The direction of a die's thermal count (R431): 1 rising, 2 falling, 0 holding. -/
def Blk.thermDir (b : Blk) (d : Nat) : Nat :=
  let l := (dieSensors d).filterMap (fun k => (b.sensor k).reads)
  if l.any (fun t => decide (1680 ≤ t)) then 1 else if l.all (fun t => decide (t ≤ 1632)) then 2 else 0

/-- The hottest sensor now, lowest index first. -/
def Blk.hottest (b : Blk) : Nat × Int :=
  (b.pwr.sensors.filterMap (fun e => e.2.reads.map (fun t => (e.1, t)))).foldl
    (fun acc e => match acc with
      | some a => if a.2 < e.2 then some e else some a
      | none => some e) none |>.getD (0, 0)

/-- PG_ERR_INFO0 of a thermal record (R435). -/
def thermInfo (k : Nat) (t : Int) : Nat := k % 256 + toBits 16 t * 2 ^ 16

/-- One step of a die's thermal count; a first non-zero count of the module starts a throttle episode, which is recorded (R431). -/
def Blk.thermStep (b : Blk) (d : Nat) : Blk :=
  let c := b.thermal d
  let n := match SMap.get 0 b.pwr.dir d with | 1 => min 60 (c + 1) | 2 => c - 1 | _ => c
  let quiet := [0, 1, 2, 3].all (fun d => b.thermal d == 0)
  let b1 := b.wr (R.PWC_DIE_BUBBLES_THERMAL.at d) n
  let b2 := if quiet && n != 0 then
      ((b1.inc R.PWC_THROTTLE_CNT).event .pwc 18).pwcError { cls := eThermal, info0 := thermInfo b1.hottest.1 b1.hottest.2 } else b1
  b2.pwcShow

/-- The thermal counts after a sensor changed: a direction that begins moves its count at once (R431). -/
def Blk.thermals (b : Blk) : Blk :=
  let h := b.hottest
  let b1 := (b.wr R.PWC_THERM_MAX_TEMP (toBits 16 h.2)).wr R.PWC_THERM_MAX_SENSOR h.1
  b1.each [0, 1, 2, 3] (fun b d =>
    let n := b.thermDir d
    if n = SMap.get 0 b.pwr.dir d then b
    else ({ b with pwr := { b.pwr with dir := SMap.set 0 b.pwr.dir d n } }).thermStep d)

/-- A reading of a junction sensor (R430, R431); `full`: a stopped sensor has reported again for 1 s. -/
def Blk.sensorRead (b : Blk) (k : Nat) (t : Int) (full : Bool) : Blk :=
  ({ b with pwr := { b.pwr with sensors := SMap.set {} b.pwr.sensors k { temp := some t, stopped := (b.sensor k).stopped && !full } } }).thermals

/-- Whether a sensor is reporting (R430). -/
def Sensor.live (x : Sensor) : Bool := x.temp.isSome && !x.stopped

/-- A thermal trip is due (R432): a reporting sensor reads 115 °C or more. -/
def Blk.tripDue (b : Blk) (k : Nat) (t : Int) : Bool := !b.pwr.trip && (b.sensor k).live && decide (1840 ≤ t)

/-- The trip recorded (R432); the warm reset that it asserts is in Machine/Boot.lean. -/
def Blk.tripRecord (b : Blk) (k : Nat) (t : Int) : Blk :=
  let b1 := ({ b with pwr := { b.pwr with trip := true } }).pwcError { cls := eThermal, info0 := thermInfo k t }
  ((b1.inc R.TEL_TRIP_CNT).event .tel 18).event .pwc 19

/-- THERMAL_COUNT_STEP (R431). -/
def execThermalCountStep (d : Nat) (s : State) : Host.Outcome State Fault Refusal := cmd (decide (d < 4)) s (fun b => b.thermStep d)

/-- SENSOR_STOP (R430): a sensor silent for 10 ms, or that has not reported 10 ms after base stage 1. -/
def execSensorStop (k : Nat) (s : State) : Host.Outcome State Fault Refusal :=
  cmd (decide (k < 256)) s (fun b => b.when (!(b.sensor k).stopped) (fun b =>
    (({ b with pwr := { b.pwr with sensors := SMap.set {} b.pwr.sensors k { b.sensor k with stopped := true } } }).pwcError
      { cls := eThermal, info0 := thermInfo k 1680 }).thermals))

/-- TEL_STATUS.LEAK shows the leak sense input, with its event where it was not set (R433, R493). -/
def Blk.leakShow (b : Blk) : Blk :=
  if b.pwr.leakPin && !b.on R.TEL_STATUS_LEAK then ((b.wr R.TEL_STATUS_LEAK 1).event .tel 20).stateEvents else b

/-- INLET_SENSOR_READING (R433): outside 15–45 °C TEL_STATUS.INLET_RANGE is set, with its event where it was not. -/
def execInletSensorReading (t : Int) (s : State) : Host.Outcome State Fault Refusal :=
  cmd true s (fun b =>
    let out := decide (t < 240) || decide (720 < t)
    let was := b.on R.TEL_STATUS_INLET_RANGE
    let b1 := b.wr R.TEL_STATUS_INLET_RANGE (b2n out)
    (if out && !was then b1.event .tel 21 else b1).stateEvents)

/-- COOLANT_LEAK (R433). -/
def execCoolantLeak (s : State) : Host.Outcome State Fault Refusal :=
  cmd true s (fun b => b.when (!b.pwr.leakPin) (fun b => ({ b with pwr := { b.pwr with leakPin := true } }).leakShow))

/-- COOLANT_LEAK_DEASSERT (R433). -/
def execCoolantLeakDeassert (s : State) : Host.Outcome State Fault Refusal :=
  cmd true s (fun b => (({ b with pwr := { b.pwr with leakPin := false } }).wr R.TEL_STATUS_LEAK 0).stateEvents)

/-! ## Leave windows (R418, R419) -/

/-- Whether the arbiters withhold grants (R412, R428, R434). -/
def Blk.leaveHeld (b : Blk) : Bool := b.pwr.alert || b.pwr.warn || !b.pwcUp

/-- CREDIT_TIMEOUT (R145): the credit wait of a stalled thread reaches SCHED_CREDIT_LIMIT. The count stands still while its die withholds all leave grants (R419). -/
def execCreditTimeout (t : Tid) (s : State) : Host.Outcome State Fault Refusal :=
  cmd (tidOk t) s (fun b =>
    let th := b.thread t
    b.when (th.st == tRun && th.sleep == .stall && b.rd R.SCHED_CREDIT_LIMIT (waleOf t.stake) != 0 && !b.leaveHeld) (fun b => b.threadFault t eCredit 0x09))

/-- A granted start (R418): a stream or row operation that waits begins; a resumed matrix operation goes on; the other requesters hold the grant until they
start. -/
def Blk.grant (b : Blk) (r : LvReq) : Blk :=
  let keep := { b with leave := { b.leave with granted := b.leave.granted ++ [r] } }
  match r with
  | .dma c => b.dmaGranted c
  | .row w => b.rowGranted w
  | .mat k =>
    match (b.stake k).mat with
    | some x => if x.st == RunSt.wait then b.setStake k { b.stake k with mat := some { x with st := RunSt.run } } else keep
    | none => keep
  | _ => keep

/-- The slow mode of R423: since a comparison found every die at 60 bubbles and the mean too high, while the fast loop holds them there (R416). -/
def Blk.slowLeave (b : Blk) : Bool := b.pwr.slow && b.on R.PWC_CTRL_FAST && [0, 1, 2, 3].all (fun d => b.pwr.ctlOf d == 60)

/-- LEAVE_WINDOW (R418, R419): a die's arbiter grants at most 64 starts, or 8 in the slow mode of R423, oldest first; a window in which a request waits counts. -/
def execLeaveWindow (d : Nat) (s : State) : Host.Outcome State Fault Refusal :=
  cmd (decide (d < 4)) s (fun b =>
    let l := b.lvReqs d
    let n := if b.leaveHeld then 0 else if b.slowLeave then 8 else 64
    let b1 := { b with leave := { b.leave with reqs := SMap.set [] b.leave.reqs d (l.drop n) } }
    let b2 := (b1.each (l.take n) (fun b r => b.grant r)).add64 (R.PWC_LEAVE_GRANT_LO.at d) (R.PWC_LEAVE_GRANT_HI.at d) (l.take n).length
    if l.length > n then b2.inc (R.PWC_LEAVE_WAIT.at d) else b2)

end Sys2Proof.Machine
end

