-- ==== Sys2Proof/Machine/Sched.lean ====
section
/-! DEFINITION. The wale scheduler (R108, R111–R113, R154–R158) and the beat timer's SYNC tracking (R116–R119). -/

namespace Sys2Proof.Machine

/-! ## Units (R111–R113) -/

/-- The members of a wale's unit whose part has not ended. -/
def Blk.members (b : Blk) (w : Nat) : List Tid := (b.waleThreads w).filter (fun t => (b.thread t).member)

/-- Whether a wale's scheduler counts ticks and takes lists: its WALE and SCHED pages serve. -/
def Blk.schedUp (b : Blk) (w : Nat) : Bool := b.serving .wale w && b.serving .sched w

/-- An overrun (R111–R113, R115): counted, its mode that of the beat in which it began; in strict mode every thread of the unit that has not ended its part
faults. -/
def Blk.overrun (b : Blk) (w : Nat) : Blk :=
  let b := ((b.inc R.BEAT_OVERRUN_CNT).event .beat 18).inc R.SCHED_OVERRUN_CNT w
  let b := b.event .sched 20 w
  let strict := (b.wale w).ovMode.getD (b.on R.BEAT_CTRL_STRICT)
  let b := b.setWale w { b.wale w with ovMode := some strict }
  if strict then b.each (b.members w) Blk.overrunFault else b

/-- Whether a wale takes its next list (R112, R113): it lags, and its unit has ended, or a strict overrun's faulted threads have all been released or reset. -/
def Blk.mayTake (b : Blk) (w : Nat) : Bool :=
  b.schedUp w && b.rd R.SCHED_LAG w != 0
    && ((b.members w).isEmpty || ((b.wale w).ovMode == some true && (b.members w).all (fun t => (b.thread t).st != tFault)))

/-- A tick reaches a wale's scheduler (R108, R111, R112). A wale that takes its list at the tick keeps the lag it had. -/
def Blk.tickWale (b : Blk) (w : Nat) : Blk :=
  if !b.schedUp w then b
  else
    let b1 := b.inc R.SCHED_LAG w
    let b2 := if (b1.members w).isEmpty then b1 else b1.overrun w
    if !b2.mayTake w && b2.rd R.SCHED_LAG w == b2.rd R.BEAT_LAG_MAX then b2.event .beat 19 else b2

/-! ## The take (R154–R158) -/

/-- The physical address of a list slot (R154). -/
def Blk.listAt (b : Blk) (w get : Nat) : Nat :=
  waleWin w + (8192 * b.rd R.SCHED_WL_BASE w + 8192 * (get % 2 ^ b.rd R.SCHED_WL_SIZE w)) % 0x80_0000

/-- A list counted as bad, or an entry ignored (R156). -/
def Blk.listBad (b : Blk) (w : Nat) : Blk := (b.inc R.SCHED_WL_BAD_CNT w).event .sched 17 w

/-- Whether a list's header keeps R154: its counts at most 256, its reserved bytes 0. -/
def headOk (h : Nat) : Bool :=
  decide (bits h 0 16 ≤ 256) && bits h 16 48 == 0 && bits h 96 32 == 0 && bits h 384 128 == 0
    && (List.range 16).all (fun k => decide (bits h (128 + 16 * k) 16 ≤ 256))

/-- Whether an entry's reserved bits are 0. -/
def entryOk (e : Nat) : Bool := bits e 41 23 == 0

/-- One entry applied (R156, R157): a thread already named in this list counts as bad. -/
def Blk.takeEntry (w : Nat) (acc : Blk × List Tid) (e : Nat) : Blk × List Tid :=
  let t : Tid := ⟨w * 32 + bits e 32 5, bits e 37 3⟩
  if acc.2.contains t then (acc.1.listBad w, acc.2)
  else (acc.1.setThread t ((acc.1.thread t).apply (bits e 0 32, bit e 40, bits e 64 64)), t :: acc.2)

/-- A readable list taken: the beat tag, the instruction caches, the barrier counts with the arrivals that sleep carried into them, the entries (R152, R156).
Arrivals carried to a barrier whose count is 0 stay asleep (DESIGN CHOICE, log entry 56). -/
def Blk.takeList (b : Blk) (w pa h : Nat) (es : List Nat) : Blk :=
  let b := b.tryNat 0 (pa + 8) 4 b.beatCount
  let b := b.each (List.range 32) (fun b k => b.icacheInval (w * 32 + k))
  let b := b.setWale w { b.wale w with bars := (List.range 16).foldl (fun m k => SMap.set 0 m k (bits h (128 + 16 * k) 16)) [] }
  let b := b.each (List.range 16) (fun b k =>
    if b.barCount w k ≠ 0 ∧ b.barCount w k ≤ (b.atBar w k).length then b.barRelease w k else b)
  (es.foldl (Blk.takeEntry w) (b, [])).1

/-- A list whose entries have been read (R156). -/
def Blk.takeRead (b : Blk) (w pa h : Nat) : Except (Nat × Nat) Nat → Blk
  | .error _ => b.listBad w
  | .ok v =>
    let es := (List.range (bits h 0 16)).map (fun k => bits v (128 * k) 128)
    if es.all entryOk then b.takeList w pa h es else b.listBad w

/-- A list whose header has been read; one that breaks R154, or that cannot be read, is taken as empty (R156). -/
def Blk.takeHead (b : Blk) (w pa : Nat) : Except (Nat × Nat) Nat → Blk
  | .error _ => b.listBad w
  | .ok h =>
    if !headOk h then b.listBad w
    else if bits h 0 16 = 0 then b.takeList w pa h []
    else b.takeRead w pa h (b.sramRead (pa + 64) (16 * bits h 0 16))

/-- The list of a slot read and taken. -/
def Blk.takeAt (b : Blk) (w get : Nat) : Blk := b.takeHead w (b.listAt w get) (b.sramRead (b.listAt w get) 64)

/-- A take (R113, R156): the old unit's members are members no more, but those with an entry that waits. -/
def Blk.take (b : Blk) (w : Nat) : Blk :=
  let b := b.dec R.SCHED_LAG w
  let b := b.each (b.members w) (fun b t => let th := b.thread t; b.setThread t { th with member := th.entry.isSome })
  let b := b.setWale w { b.wale w with ovMode := none, unitBeat := b.beatCount }
  let get := b.rd R.SCHED_WL_GET w
  if b.rd R.SCHED_WL_PUT w = get then (b.inc R.SCHED_WL_EMPTY_CNT w).event .sched 16 w
  else (b.takeAt w get).addW R.SCHED_WL_GET 1 w

/-- WORK_LIST_TAKE (R112, R156). -/
def execWorkListTake (w : Nat) (s : State) : Host.Outcome State Fault Refusal :=
  cmd (decide (w < 200)) s (fun b => b.when (b.mayTake w) (fun b => b.take w))

/-! ## SYNC (R116–R119) -/

/-- The sync states (R117). -/
def syOff : Nat := 0
def syAcquiring : Nat := 1
def syLocked : Nat := 2
def syLost : Nat := 3

/-- Entry to LOCKED and to LOST (R119). -/
def Blk.toLocked (b : Blk) : Blk := (b.wr R.BEAT_SYNC_STATUS_STATE syLocked).event .beat 16
def Blk.toLost (b : Blk) : Blk := ((b.wr R.BEAT_SYNC_STATUS_STATE syLost).inc R.BEAT_SYNC_LOST_CNT).event .beat 17

/-- The effective offset (R116). -/
def Blk.syncOffset (b : Blk) : Nat := min (b.rd R.BEAT_SYNC_OFFSET) (b.beat.period / 4)

/-- An edge matched once the beat's length stands (R116), `x` ns after the beat's first tick: to that tick or to the next one, whichever is nearer, the earlier where
both are equally near; of the edges of one tick the first is accepted. OUTLIER is that of this edge (R129). -/
def Blk.syncMatch (b : Blk) (x : Nat) : Blk :=
  let e0 : Int := x + b.syncOffset
  let e1 : Int := e0 - b.beat.len
  let near := fun (e : Int) => decide (2 * e.natAbs ≤ b.beat.period)
  let b0 := b.wr R.BEAT_SYNC_STATUS_OUTLIER (b2n (decide (b.beat.period < 4 * min e0.natAbs e1.natAbs)))
  if near e0 ∧ (!near e1 ∨ e0.natAbs ≤ e1.natAbs) then
    match b.beat.acc with
    | some _ => b0.inc R.BEAT_SYNC_OUTLIER_CNT
    | none => ({ b0 with beat := { b0.beat with acc := some e0 } }).wr R.BEAT_PHASE_ERR (toBits 32 e0)
  else if near e1 then
    match b.beat.accNext with
    | some _ => b0.inc R.BEAT_SYNC_OUTLIER_CNT
    | none => ({ b0 with beat := { b0.beat with accNext := some e1 } }).wr R.BEAT_PHASE_ERR (toBits 32 e1)
  else b0.inc R.BEAT_SYNC_OUTLIER_CNT

/-- An edge in LOCKED or LOST (R116). The next tick's time stands only once the beat's length is evaluated (R118), so an edge before that which is not the first of the
beat's first tick waits for the evaluation. -/
def Blk.syncMatchEdge (b : Blk) (x : Nat) : Blk :=
  if b.beat.evaluated ∨ (2 * (x + b.syncOffset) ≤ b.beat.period ∧ b.beat.acc.isNone) then b.syncMatch x
  else { b with beat := { b.beat with early := b.beat.early ++ [x] } }

/-- The edges that waited for the beat's length, matched in order. -/
def Blk.syncFlush (b : Blk) : Blk := ({ b with beat := { b.beat with early := [] } }).each b.beat.early (fun b x => b.syncMatch x)

/-- The first edge in ACQUIRING (R117): the beat in progress ends at the edge plus the effective offset, one period later where it would be shorter than half a
period. Its length is set, so R118 does not set it again. The edge is the accepted edge of no tick and leaves BEAT_PHASE_ERR as it was, as it is accepted without
matching (log entry 54). -/
def Blk.syncAcquire (b : Blk) (x : Nat) : Blk :=
  let n := x + b.syncOffset
  let n := if 2 * n < b.beat.period then n + b.beat.period else n
  (({ b with beat := { b.beat with len := n, evaluated := true, acc := none, accNext := none, early := [], good := 0, outl := 0 } }).wr
    R.BEAT_SYNC_STATUS_OUTLIER 0).toLocked

/-- SYNC_EDGE (R116, R117), `x` ns after the latest tick. -/
def execSyncEdge (x : Nat) (s : State) : Host.Outcome State Fault Refusal :=
  cmd true s (fun b =>
    if !decide (x < b.beat.len) then b
    else match b.rd R.BEAT_SYNC_STATUS_STATE with
      | 1 => b.syncAcquire x
      | 2 | 3 => b.syncMatchEdge x
      | _ => b)

/-- The evaluation of R118: the length of the beat, and the moves between LOCKED and LOST. -/
def Blk.syncLength (b : Blk) : Blk :=
  let st := b.rd R.BEAT_SYNC_STATUS_STATE
  let p : Int := b.beat.period
  let b := { b with beat := { b.beat with evaluated := true } }
  match b.beat.acc with
  | none =>
    let n := min 4 (b.rd R.BEAT_SYNC_STATUS_MISSING + 1)
    let b1 := ({ b with beat := { b.beat with len := b.beat.period, good := 0 } }).wr R.BEAT_SYNC_STATUS_MISSING n
    if st = syLocked ∧ n = 4 then b1.toLost else b1
  | some e =>
    if 4 * e.natAbs ≤ b.beat.period then
      let n := p + max (-(p / 16)) (min (p / 16) e)
      let b1 := b.wr R.BEAT_SYNC_STATUS_MISSING 0
      let b2 := { b1 with beat := { b1.beat with len := n.toNat, outl := 0 } }
      if st = syLost then
        (if b2.beat.good + 1 = 2 then ({ b2 with beat := { b2.beat with good := 0 } }).toLocked
          else { b2 with beat := { b2.beat with good := b2.beat.good + 1 } })
      else b2
    else
      let b1 := b.inc R.BEAT_SYNC_OUTLIER_CNT
      let b2 := { b1 with beat := { b1.beat with len := b1.beat.period, outl := b1.beat.outl + 1, good := 0 } }
      if st = syLocked ∧ b2.beat.outl = 2 then b2.toLost else b2

/-- The evaluation at half a period, and the edges that waited for it. -/
def Blk.syncEval (b : Blk) : Blk := b.syncLength.syncFlush

/-- SYNC_EVALUATE (R118): once per tick, in LOCKED and LOST. -/
def execSyncEvaluate (s : State) : Host.Outcome State Fault Refusal :=
  cmd true s (fun b => b.when (!b.beat.evaluated && (b.rd R.BEAT_SYNC_STATUS_STATE == syLocked || b.rd R.BEAT_SYNC_STATUS_STATE == syLost)) Blk.syncEval)

/-- BEAT_CTRL.SYNC_EN (R117): 0 to 1 starts an acquisition, 0 puts the state in OFF. An acquisition starts with MISSING and the counts of R118 at 0; in OFF, MISSING and
OUTLIER keep what they showed (log entry 55). -/
def Blk.syncEnable (b : Blk) (old on : Bool) : Blk :=
  if !on then
    let b1 := b.wr R.BEAT_SYNC_STATUS_STATE syOff
    { b1 with beat := { b1.beat with acc := none, accNext := none, early := [], good := 0, outl := 0 } }
  else if old then b
  else
    let b1 := (b.wr R.BEAT_SYNC_STATUS_STATE syAcquiring).wr R.BEAT_SYNC_STATUS_MISSING 0
    { b1 with beat := { b1.beat with acc := none, accNext := none, early := [], good := 0, outl := 0 } }

/-! ## The tick (R106–R108) -/

/-- What a tick does to the timer: BEAT_COUNT, the period from this tick on, the beat that begins, SYNC_OUT (R106, R107, R121). -/
def Blk.tickTimer (b : Blk) : Blk :=
  let b := b.syncFlush
  let b := b.wr64 R.BEAT_COUNT_LO R.BEAT_COUNT_HI ((b.beatCount + 1) % 2 ^ 64)
  let p := b.rd R.BEAT_PERIOD
  let b := { b with beat := { b.beat with period := p, len := p, evaluated := false, acc := b.beat.accNext, accNext := none } }
  if b.on R.BEAT_CTRL_SYNC_OUT_EN then b.send .syncOut else b

end Sys2Proof.Machine
end

