-- ==== Sys2Proof/Machine/Coder.lean ====
section
/-! DEFINITION. The difference coder (R361–R373): quantisation, the prefix code, the block format, the checks of a block. -/

namespace Sys2Proof.Machine

/-- Coder parameters (R361, R362): the raw format (0 FP32, 1 BF16, 15 bytes), the symbol width, the scale exponent byte. -/
structure CodeP where
  raw : Nat
  bits : Nat
  scale : Nat
  deriving DecidableEq, Repr

/-- Lossless mode (R362). -/
def lossless : CodeP := ⟨15, 8, 0⟩

/-- Whether parameters lie inside R361 and R362. -/
def CodeP.ok (p : CodeP) : Bool :=
  (p.raw == 15 && p.bits == 8 && p.scale == 0)
    || ((p.raw == 0 || p.raw == 1) && decide (2 ≤ p.bits) && decide (p.bits ≤ 8) && p.scale != 0xFF)

/-- Bytes per raw element, and elements per full block (R362). -/
def CodeP.elemBytes (p : CodeP) : Nat := if p.raw = 0 then 4 else if p.raw = 1 then 2 else 1
def CodeP.perBlock (p : CodeP) : Nat := 2 ^ 20 / p.elemBytes

/-! ## Quantisation (R363, R364) -/

/-- The NaN symbol (R363). -/
def CodeP.nanSym (p : CodeP) : Nat := 2 ^ (p.bits - 1)

/-- A quantised element (R364): its symbol, the residual out, and whether it was clamped or not finite. `x` is the FP32 value, the residual added. -/
structure Quant where
  sym : Nat
  res : Nat := 0
  clamped : Bool := false
  nonFinite : Bool := false
  deriving DecidableEq, Repr

/-- Quantisation of one FP32 value (R364). -/
def quantise (p : CodeP) (x : Nat) : Quant :=
  if isNonFinite32 x then { sym := p.nanSym, nonFinite := true }
  else
    match (f32 x).scale (127 - (p.scale : Int)) with
    | .fin neg m e =>
      let top := 2 ^ (p.bits - 1) - 1
      let n := roundTo .rne m e 0
      let q := min n top
      let qs : Num := (Num.fin neg q 0).scale ((p.scale : Int) - 127)
      { sym := if neg then (2 ^ p.bits - q) % 2 ^ p.bits else q, res := toF32 ((f32 x).add qs.negate), clamped := decide (n > top) }
    | _ => { sym := p.nanSym, nonFinite := true }

/-- The dequantised FP32 value of a symbol (R364). -/
def dequantise (p : CodeP) (sym : Nat) : Nat :=
  if sym = p.nanSym then nan32
  else
    let q := sext p.bits sym
    if q = 0 then 0 else toF32 ((Num.fin (decide (q < 0)) q.natAbs 0).scale ((p.scale : Int) - 127))

/-- A block's symbols from its raw elements, with its residuals in, if any (R362, R364). -/
def quantBlock (p : CodeP) (raw : List Nat) (resIn : Option (List Nat)) : List Quant :=
  if p.raw = 15 then raw.map (fun v => { sym := v })
  else
    let xs := raw.map (fun v => if p.raw = 1 then v * 65536 else v)
    match resIn with
    | none => xs.map (quantise p)
    | some r => (xs.zip r).map (fun e => quantise p (fadd e.1 e.2))

/-- Raw elements from symbols (R364). -/
def rawOf (p : CodeP) (syms : List Nat) : List Nat :=
  if p.raw = 15 then syms else if p.raw = 1 then syms.map (fun s => dequantise p s / 65536) else syms.map (dequantise p)

/-! ## The prefix code (R367, R368) -/

/-- A node of the code tree: its weight, its smallest symbol, its leaves with their depths. -/
structure HNode where
  w : Nat
  low : Nat
  leaves : List (Nat × Nat)
  deriving DecidableEq, Repr

/-- Whether a node is taken before another (R367). -/
def HNode.before (a c : HNode) : Bool := decide (a.w < c.w) || (a.w == c.w && decide (a.low < c.low))

/-- A node put into a list in that order. -/
def HNode.insert (x : HNode) : List HNode → List HNode
  | [] => [x]
  | y :: l => if x.before y then x :: y :: l else y :: x.insert l

/-- The merges of a build. -/
def hMerge : (fuel : Nat) → List HNode → List HNode
  | 0, l => l
  | fuel + 1, a :: c :: l =>
    hMerge fuel (HNode.insert ⟨a.w + c.w, min a.low c.low, (a.leaves ++ c.leaves).map (fun e => (e.1, e.2 + 1))⟩ l)
  | _ + 1, l => l

/-- Code lengths from weights by one build; absent symbols have length 0. -/
def hBuild (ws : List Nat) : List Nat :=
  let ns := ((List.range ws.length).zip ws).filter (fun e => e.2 != 0)
  let l := ns.foldl (fun acc e => HNode.insert ⟨e.2, e.1, [(e.1, 0)]⟩ acc) []
  let leaves := match hMerge ns.length l with | x :: _ => x.leaves | [] => []
  (List.range ws.length).map (fun v => match leaves.find? (fun e => e.1 == v) with | some e => e.2 | none => 0)

/-- The builds of R367: lengths of at most 16, and how many builds it took. -/
def hLengths : (fuel : Nat) → (n : Nat) → List Nat → List Nat × Nat
  | 0, n, ws => (hBuild ws, n)
  | fuel + 1, n, ws =>
    let l := hBuild ws
    if l.all (fun d => decide (d ≤ 16)) then (l, n) else hLengths fuel (n + 1) (ws.map (fun w => if w = 0 then 0 else (w + 1) / 2))

/-- How often each symbol occurs. -/
def histogram (n : Nat) (syms : List Nat) : List Nat := (List.range n).map (fun v => (syms.filter (· == v)).length)

/-- Canonical codes (R368): symbol, length, code. -/
def canonGo (lens : List Nat) : (fuel len code : Nat) → List (Nat × Nat × Nat)
  | 0, _, _ => []
  | fuel + 1, len, code =>
    let vs := ((List.range lens.length).zip lens).filter (fun e => e.2 == len)
    ((List.range vs.length).zip vs).map (fun e => (e.2.1, len, code + e.1)) ++ canonGo lens fuel (len + 1) ((code + vs.length) * 2)

def canonCodes (lens : List Nat) : List (Nat × Nat × Nat) := canonGo lens 16 1 0

/-! ## Bit streams (R371) -/

/-- The `n` bits of a number, most significant first. -/
def bitsMsb (n v : Nat) : List Bool := (List.range n).map (fun k => v.testBit (n - 1 - k))

/-- Bits as bytes, most significant bit first, the last byte padded with 0. -/
def packMsb : (fuel : Nat) → List Bool → List Byte
  | 0, _ => []
  | fuel + 1, l =>
    match l with
    | [] => []
    | _ :: _ => BitVec.ofNat 8 ((List.range 8).foldl (fun acc k => acc * 2 + b2n (l.getD k false)) 0) :: packMsb fuel (l.drop 8)

/-- Bytes as bits, most significant first. -/
def unpackMsb (l : List Byte) : List Bool := l.flatMap (fun x => bitsMsb 8 x.toNat)

/-- Symbols of one width as one bit stream (R371). -/
def packSyms (w : Nat) (syms : List Nat) : List Byte :=
  let l := syms.flatMap (bitsMsb w)
  packMsb (l.length / 8 + 1) l

/-! ## Blocks (R370–R372) -/

/-- Sub-stream `j` of a block's symbols (R370). -/
def subStream (syms : List Nat) (j : Nat) : List Nat :=
  let s := (syms.length + 31) / 32
  (syms.drop (j * s)).take s

/-- A block as the encoder makes it: its mode (0 CODED, 1 STORED, 2 CONST), its bytes, and the builds of its table. -/
structure Coded where
  mode : Nat
  bytes : List Byte
  builds : Nat := 0
  deriving DecidableEq, Repr

/-- The 144-byte header of a block (R370). -/
def blockHead (p : CodeP) (mode sym symbols payload idx : Nat) (lens : List Nat) : List Byte :=
  natLe 4 (mode + p.raw * 4 + p.bits * 64 + 1024 * p.scale + 2 ^ 18 * sym) ++ natLe 4 symbols ++ natLe 4 payload ++ natLe 4 idx
    ++ (List.range 32).flatMap (fun j => natLe 4 (lens.getD j 0))

/-- A block encoded (R367–R372). -/
def encodeBlock (p : CodeP) (idx : Nat) (syms : List Nat) : Coded :=
  let n := syms.length
  let hist := histogram (2 ^ p.bits) syms
  let present := (List.range hist.length).filter (fun v => hist.getD v 0 != 0)
  match present with
  | [] => { mode := 2, bytes := blockHead p 2 0 0 0 idx [] }
  | [v] => { mode := 2, bytes := blockHead p 2 v n 0 idx [] }
  | _ =>
    let lb := hLengths 32 1 hist
    let codes := canonCodes lb.1
    let streams := (List.range 32).map (fun j => (subStream syms j).flatMap (fun v =>
      match codes.find? (fun c => c.1 == v) with | some c => bitsMsb c.2.1 c.2.2 | none => []))
    let payload := streams.flatMap (fun l => packMsb (l.length / 8 + 1) l)
    let stored := packSyms p.bits syms
    if 144 + 2 ^ p.bits + payload.length < 144 + stored.length then
      { mode := 0, builds := lb.2,
        bytes := blockHead p 0 0 n payload.length idx (streams.map List.length) ++ lb.1.flatMap (natLe 1) ++ payload }
    else { mode := 1, builds := lb.2, bytes := blockHead p 1 0 n stored.length idx [] ++ stored }

/-! ## Checking a block (R373) -/

/-- One code read from a bit string: the symbol and the rest, or none where the string ends inside a code. -/
def readCode (codes : List (Nat × Nat × Nat)) : (fuel len code : Nat) → List Bool → Option (Nat × List Bool)
  | 0, _, _, _ => none
  | _ + 1, _, _, [] => none
  | fuel + 1, len, code, x :: l =>
    let c := code * 2 + b2n x
    match codes.find? (fun e => e.2.1 == len + 1 && e.2.2 == c) with
    | some e => some (e.1, l)
    | none => readCode codes fuel (len + 1) c l

/-- `n` symbols read from a sub-stream: the symbols and the bits left, or none on an overrun. -/
def readShare (codes : List (Nat × Nat × Nat)) : (n : Nat) → List Bool → Option (List Nat × List Bool)
  | 0, l => some ([], l)
  | n + 1, l =>
    match readCode codes 16 0 0 l with
    | none => none
    | some (v, l') => match readShare codes n l' with
      | none => none
      | some (vs, r) => some (v :: vs, r)

/-- Where each sub-stream's bytes begin. -/
def subStarts (lens : List Nat) : (j : Nat) → Nat
  | 0 => 0
  | j + 1 => subStarts lens j + (lens.getD j 0 + 7) / 8

/-- The first of 32 sub-streams for which a test fails. -/
def firstSub (f : Nat → Bool) : Option Nat := (List.range 32).find? f

/-- Fixed-width symbols of a STORED payload. -/
def unpackSyms (w : Nat) : (n : Nat) → List Bool → List Nat
  | 0, _ => []
  | n + 1, l => ((l.take w).foldl (fun acc x => acc * 2 + b2n x) 0) :: unpackSyms w n (l.drop w)

/-- A CODED block's symbols after checks 0x05–0x07. -/
def decodeCoded (lens : List Nat) (table : List Nat) (n : Nat) (payload : List Byte) : Except (Nat × Nat) (List Nat) :=
  let codes := canonCodes table
  let s := (n + 31) / 32
  let share := fun j => min n ((j + 1) * s) - min n (j * s)
  let raw := fun j => unpackMsb ((payload.drop (subStarts lens j)).take ((lens.getD j 0 + 7) / 8))
  let got := (List.range 32).map (fun j => readShare codes (share j) ((raw j).take (lens.getD j 0)))
  match firstSub (fun j => match got.getD j none with | none => true | some _ => false) with
  | some j => .error (0x05, j)
  | none => match firstSub (fun j => match got.getD j none with | some (_, r) => !r.isEmpty | none => false) with
    | some j => .error (0x06, j)
    | none => match firstSub (fun j => ((raw j).drop (lens.getD j 0)).any id) with
      | some j => .error (0x07, j)
      | none => .ok (got.flatMap (fun g => match g with | some (vs, _) => vs | none => []))

/-- A block checked and decoded (R373): its symbols and its length, or the failing check and its sub-stream. `exact` is the received length of a near record,
`limit` what remains for a job; `idx` is the index expected. -/
def decodeBlock (p : CodeP) (idx : Option Nat) (exact limit : Option Nat) (l : List Byte) : Except (Nat × Nat) (List Nat × Nat) :=
  let w := fun k => leNat ((l.drop (4 * k)).take 4)
  let mode := bits (w 0) 0 2
  let sym := bits (w 0) 18 8
  let n := w 1
  let pay := w 2
  let lens := (List.range 32).map (fun j => w (4 + j))
  let h := if mode = 0 then 144 + 2 ^ p.bits else 144
  let headOk := mode != 3 && bits (w 0) 2 4 == p.raw && bits (w 0) 6 4 == p.bits && bits (w 0) 10 8 == p.scale && p.ok && decide (sym < 2 ^ p.bits)
    && (mode == 2 || sym == 0) && bits (w 0) 26 6 == 0 && decide (n ≤ p.perBlock) && (n != 0 || mode == 2)
    && (match idx with | some i => w 3 == i | none => true) && decide (144 ≤ l.length)
  let table := ((l.drop 144).take (2 ^ p.bits)).map (·.toNat)
  let kraft := (table.map (fun d => if d = 0 then 0 else 2 ^ (16 - d))).foldl (· + ·) 0
  let payload := (l.drop h).take pay
  if !headOk then .error (0x01, 0)
  else if (match exact with | some k => h + pay != k | none => false) || (match limit with | some k => decide (k < h + pay) | none => false) then .error (0x02, 0)
  else if mode = 0 ∧ !(table.all (fun d => decide (d ≤ 16)) && decide (2 ≤ (table.filter (· != 0)).length) && kraft == 65536) then .error (0x03, 0)
  else if (mode = 0 ∧ subStarts lens 32 ≠ pay) ∨ (mode = 1 ∧ !(lens.all (· == 0) && pay == (n * p.bits + 7) / 8))
      ∨ (mode = 2 ∧ !(lens.all (· == 0) && pay == 0)) then .error (0x04, 0)
  else if mode = 2 then .ok (List.replicate n sym, h)
  else if mode = 1 then
    let bs := unpackMsb payload
    if (bs.drop (n * p.bits)).any id then .error (0x07, 0) else .ok (unpackSyms p.bits n bs, h + pay)
  else match decodeCoded lens table n payload with
    | .error e => .error e
    | .ok syms => .ok (syms, h + pay)

/-! ## Counters of a coder page (R380) -/

/-- The encode counters of a near coder page after a block. -/
def Blk.ncodCount (b : Blk) (i : Nat) (rawBytes : Nat) (qs : List Quant) (c : Coded) : Blk :=
  let b := (b.inc (if c.mode = 0 then R.NCOD_ENC_CODED_CNT else if c.mode = 1 then R.NCOD_ENC_STORED_CNT else R.NCOD_ENC_CONST_CNT) i).wr
    R.NCOD_STATUS_BUILDS (if c.builds = 0 then b.rd R.NCOD_STATUS_BUILDS i else c.builds) i
  let b := (b.add64 R.NCOD_RAW_IN_LO R.NCOD_RAW_IN_HI rawBytes i).add64 R.NCOD_CODED_OUT_LO R.NCOD_CODED_OUT_HI c.bytes.length i
  let b := b.add R.NCOD_NONFINITE_CNT (qs.filter (·.nonFinite)).length i
  let cl := (qs.filter (·.clamped)).length
  if cl = 0 then b else (b.add R.NCOD_CLAMP_CNT cl i).event .ncod 18 i

/-- The encode counters of a far coder page after a block. -/
def Blk.fcodCount (b : Blk) (i : Nat) (rawBytes : Nat) (qs : List Quant) (c : Coded) : Blk :=
  let b := (b.inc (if c.mode = 0 then R.FCOD_ENC_CODED_CNT else if c.mode = 1 then R.FCOD_ENC_STORED_CNT else R.FCOD_ENC_CONST_CNT) i).wr
    R.FCOD_STATUS_BUILDS (if c.builds = 0 then b.rd R.FCOD_STATUS_BUILDS i else c.builds) i
  let b := (b.add64 R.FCOD_RAW_IN_LO R.FCOD_RAW_IN_HI rawBytes i).add64 R.FCOD_CODED_OUT_LO R.FCOD_CODED_OUT_HI c.bytes.length i
  let b := b.add R.FCOD_NONFINITE_CNT (qs.filter (·.nonFinite)).length i
  let cl := (qs.filter (·.clamped)).length
  if cl = 0 then b else (b.add R.FCOD_CLAMP_CNT cl i).event .fcod 18 i

end Sys2Proof.Machine
end

