-- ==== Sys2Proof/Machine/Quote.lean ====
section
/-! DEFINITION. Quotes, certificates and this module's capability record (R53, R59, R63, R327, R473). -/

namespace Sys2Proof.Machine

/-- An image's hash and security version as measured (R59, R63): the image in service, or the one installed at manufacture, whose values are the hardware's own. -/
def Blk.measured (b : Blk) (k : Nat) : Nat × Nat :=
  match SMap.get none b.lid.running k with | some im => (im.hash, im.secver) | none => (Config.crypto 4 [k], Config.crypto 5 [k])

/-- An image kind's entry in a quote: image hash, security version, anti-rollback counter (R63). -/
def Blk.quoteImage (b : Blk) (k : Nat) : List Byte :=
  natLe 32 (b.measured k).1 ++ natLe 4 (b.measured k).2 ++ natLe 4 (SMap.get 0 b.flash.rollback k)

/-- The hash of the owner policy record, 0 where absent (R63). -/
def policyHash : Option Policy → Nat
  | some p => Config.crypto 7 [p.exportKey, p.fedRoot, p.debugForbid]
  | none => 0

/-- Die `d`'s entry of a repair map (R448): retired wales, spares in use, spares left. -/
def RepairMap.die (m : RepairMap) (f : Flash) (d : Nat) : List Byte :=
  let mask := fun (r : Nat) => maskOf ((List.range 50).filter (fun w => SMap.get (f.cfgRole (50 * d + w)) m.roles (50 * d + w) == r))
  natLe 7 (mask 3) ++ natLe 7 (mask 2) ++ natLe 1 (((List.range 50).filter (fun w => SMap.get (f.cfgRole (50 * d + w)) m.roles (50 * d + w) == 1)).length) ++ natLe 1 0

/-- A copy of the repair map in module flash (R448): 96 bytes, and their signature with the device identity key. -/
def RepairMap.bytes (m : RepairMap) (f : Flash) : List Byte :=
  natLe 4 0x0780_0B01 ++ natLe 4 m.seq ++ natLe 4 m.boots ++ natLe 4 (b2n m.valid) ++ [0, 1, 2, 3].flatMap (m.die f)
    ++ natLe 4 (m.failedNear + 256 * m.failedFar) ++ natLe 4 m.tested ++ natLe 8 0
def RepairMap.record (m : RepairMap) (f : Flash) : List Byte := m.bytes f ++ natLe 49856 (Config.crypto 6 ((m.bytes f).map (·.toNat)))

/-- The hash of the repair map (R63); free where there is none. -/
def mapHash (f : Flash) : Nat := match f.map with | some m => Config.shake (m.record f) | none => Config.crypto 6 []

/-- The body of a quote, bytes 0x000–0x2FF (R63). -/
def Blk.quoteBody (b : Blk) (nonce : Nat) : List Byte :=
  natLe 4 0x0780_0001 ++ natLe 4 0x0300 ++ natLe 32 nonce ++ natLe 32 Config.identityHash.toNat
    ++ natLe 64 (Config.crypto 10 [b.lid.aliasKey.getD 0])
    ++ natLe 1 b.own ++ natLe 1 (b.rd R.LID_OWN_STATE_DEBUG_SCOPE) ++ natLe 2 0 ++ natLe 4 b.flash.epoch
    ++ natLe 32 (if b.own = 1 then b.flash.ownerHash.getD 0 else 0) ++ natLe 8 b.flash.boots ++ natLe 8 0
    ++ natLe 32 (Config.crypto 3 (b.flash.hbms :: b.flash.packages :: b.flash.spares)) ++ natLe 32 (mapHash b.flash)
    ++ (List.range 8).flatMap b.quoteImage ++ natLe 32 (policyHash b.flash.policy)
    ++ (List.range 8).flatMap (fun d => natLe 4 (b.domGen d)) ++ natLe 128 0

/-- The signature of a quote under the current alias key (R63). -/
def Blk.quoteSig (b : Blk) (body : List Byte) : Nat := Config.crypto 0 (b.lid.aliasKey.getD 0 :: body.map (·.toNat))

/-- The alias certificate chain (R63, R473): the alias key to the identity key to the certificate in flash (R51). -/
def Blk.aliasChain (b : Blk) : Nat := Config.crypto 11 [b.lid.aliasKey.getD 0, b2n b.flash.cert]

/-- This module's capability record for a partner that sent a challenge, bytes 0x00–0x9F (R327): nine number formats (R175), the near-port image's security version.
The coder table version has no stated value (log entry 66). -/
def Blk.capRecord (b : Blk) (challenge : Nat) : List Byte :=
  natLe 4 0x0780_0C01 ++ natLe 4 50016 ++ natLe 32 Config.identityHash.toNat ++ natLe 64 (Config.crypto 10 [b.lid.aliasKey.getD 0]) ++ natLe 2 0x0100 ++ natLe 1 8
    ++ natLe 1 0 ++ natLe 2 0x01FF ++ natLe 2 (Config.crypto 18 []) ++ natLe 4 7 ++ natLe 4 (b.measured 4).2 ++ natLe 4 0 ++ natLe 4 0 ++ natLe 32 challenge

/-- The capability record with its signature, the quote with its signature, and the alias chain, sent to a port's partner (R327). -/
def Blk.sendCap (b : Blk) (p challenge : Nat) : Blk :=
  let r := b.capRecord challenge
  let q := b.quoteBody challenge
  b.send (.nearCap p r (b.quoteSig r) q (b.quoteSig q) b.aliasChain)

end Sys2Proof.Machine
end

