-- ==== Sys2Proof/Machine/NearLink.lean ====
section
/-! DEFINITION. The link layer of the near ports (R65–R67, R316–R333): flits, replay, credits, key epochs, training, lanes, the cable supply. -/

namespace Sys2Proof.Machine

/-- LINK codes (R357). -/
def lkDown : Nat := 0
def lkTraining : Nat := 1
def lkUp : Nat := 2
def lkDegraded : Nat := 3
def lkRetraining : Nat := 4
def lkAuthFailed : Nat := 5
def lkLoadOff : Nat := 6

def Blk.link (b : Blk) (p : Nat) : Nat := b.rd R.NLNK_STATUS_LINK p

/-! ## Link state -/

/-- The link leaves service: LINK_DOWN, and the partner of the power exchange is lost (R358, R427). -/
def Blk.linkTo (b : Blk) (p st : Nat) : Blk :=
  let was := b.nearUp p
  let b1 := b.wr R.NLNK_STATUS_LINK st p
  if was && !b1.nearUp p then
    ((((b1.wr R.NLNK_STATUS_LANES 0 p).wr R.NLNK_STATUS_WIDTH 0 p).event .nlnk 17 p)).powerLinkLost p
  else b1

/-- The session ends: secret and keys erased, replay buffer discarded, with what was on its way in (R67, R79). Records not yet in flits stay. -/
def Blk.endSession (b : Blk) (p : Nat) : Blk :=
  let x := b.nport p
  let b1 := b.setNport p { x with replay := [], naked := false, failed := none, txAsked := false, rekeyDue := false, rxNext := none, accepted := false,
                                  secret := none, rx := [], freed := [] }
  let b2 := b1.each (List.range 4) (fun b k => b.keyWrite R.NKEY_SLOT p k 0)
  ((b2.wr R.NKEY_STATUS_SESSION 0 p).wr R.NKEY_STATUS_TX_TWO 0 p).wr R.NKEY_STATUS_RX_TWO 0 p

/-- Training from step 1 (R325). Keys and replay buffer stay until the partner proves to be another (R67). -/
def Blk.trainStart (b : Blk) (p : Nat) : Blk :=
  let b1 := b.linkTo p lkTraining
  b1.setNport p { b1.nport p with step := 1, waiting := false, retrain := false, accepted := false, naked := false, failed := none }

/-- The link goes down and stays so in the given state. -/
def Blk.linkDown (b : Blk) (p st : Nat) : Blk :=
  let b1 := b.linkTo p st
  b1.setNport p { b1.nport p with step := 0, waiting := false, retrain := false, accepted := false, naked := false, failed := none }

/-- NLNK_CTRL.TRAIN: 1 trains, 0 takes the link down (R325, R357). -/
def Blk.trainWrite (b : Blk) (p : Nat) (old on : Bool) : Blk :=
  if on && !old then b.trainStart p else if !on && old then b.linkDown p lkDown else b

/-! ## Replay (R322, R323) -/

/-- REPLAY_EXHAUSTED: recorded, and the port retrains by steps 2–7. -/
def Blk.replayExhausted (b : Blk) (p seq : Nat) : Blk :=
  let b1 := (b.error .nlnk p { cls := eReplay, info0 := seq }).inc R.NLNK_RETRAIN_CNT p
  let b2 := b1.linkTo p lkRetraining
  b2.setNport p { b2.nport p with step := 2, retrain := true, accepted := false, naked := false }

/-- The flits from a place in the replay buffer on are sent again, byte-identical, unless the first has been resent MAX times. -/
def Blk.replayFrom (b : Blk) (p : Nat) (skip : Nat) : Blk :=
  let x := b.nport p
  match x.replay.drop skip with
  | [] => b
  | f :: l =>
    if f.resends ≥ b.rd R.NLNK_REPLAY_CTRL_MAX p then b.replayExhausted p f.seq
    else
      let again := (f :: l).map (fun g => { g with resends := g.resends + 1 })
      let b1 := (b.setNport p { x with replay := x.replay.take skip ++ again }).inc R.NLNK_REPLAY_CNT p
      b1.send (.nearReplay p (again.map (·.bytes)))

/-- Whether flits pass a port now: the page runs, and the link is trained or replays in a retrain (R98, R100, R325). -/
def Blk.flitsPass (b : Blk) (p : Nat) : Bool := b.runsOn .nlnk p && (b.nearUp p || (b.nport p).step == 5)

/-- The place in the replay buffer from which a NAK asks: the flit that it names, or, where that one follows the last flit of its epoch, the first of the next. -/
def nakPlace (l : List NFlit) (bit seq : Nat) : Option Nat :=
  match l.findIdx? (fun f => f.epoch % 2 == bit && f.seq % 2 ^ 15 == seq) with
  | some k => some k
  | none => if l.any (fun f => f.epoch % 2 == bit) then none else if l = [] then none else some 0

/-- NAK (R322): the named flit and every later one. -/
def execNak (p bit seq : Nat) (s : State) : Host.Outcome State Fault Refusal :=
  cmd (decide (p < 8) && decide (bit < 2) && decide (seq < 2 ^ 15)) s (fun b =>
    match nakPlace (b.nport p).replay bit seq with
    | some k => b.when (b.flitsPass p) (fun b => b.replayFrom p k)
    | none => b)

/-- REPLAY_TIMEOUT (R322): from the oldest unacknowledged flit. -/
def execReplayTimeout (p : Nat) (s : State) : Host.Outcome State Fault Refusal :=
  cmd (decide (p < 8)) s (fun b => b.when (b.flitsPass p) (fun b => b.replayFrom p 0))

/-! ## Epochs (R65–R67) -/

/-- A rekey falls due (R66): it begins, or waits while two epochs are live. -/
def Blk.rekey (b : Blk) (p : Nat) : Blk := (b.setNport p { b.nport p with rekeyDue := true }).pump p

/-- NEAR_EPOCH_RETIRE: with every flit of the older epoch acknowledged, KEY_RETIRE is sent and its key erased. -/
def Blk.retireTx (b : Blk) (p : Nat) : Blk :=
  let e := b.rd R.NKEY_TX_EPOCH p
  if b.on R.NKEY_STATUS_TX_TWO p && (b.nport p).replay.all (fun f => f.epoch == e) then
    ((b.wr R.NKEY_STATUS_TX_TWO 0 p).keyWrite R.NKEY_SLOT p (txSlot (e - 1)) 0).control p (.keyRetire (e - 1))
  else b

def Blk.sessionUp (b : Blk) (p : Nat) : Bool := b.rd R.NKEY_STATUS_SESSION p == 2

/-- An epoch change is counted (R79). -/
def Blk.epochChange (b : Blk) (p : Nat) : Blk := (b.inc R.NKEY_REKEY_CNT p).event .nkey 16 p

/-- NEAR_REKEY_DUE (R66): the lid requests a new epoch. -/
def execNearRekeyDue (p : Nat) (s : State) : Host.Outcome State Fault Refusal :=
  cmd (decide (p < 8)) s (fun b => b.when (b.sessionUp p) (fun b => b.rekey p))

def execKeyNext (p e : Nat) (s : State) : Host.Outcome State Fault Refusal :=
  cmd (decide (p < 8)) s (fun b =>
    b.when (b.sessionUp p && e == b.rd R.NKEY_RX_EPOCH p + 1 && !b.on R.NKEY_STATUS_RX_TWO p) (fun b => b.setNport p { b.nport p with rxNext := some e }))

/-- NEAR_KEY_INSTALLED (R66): the lid has derived the key of the next epoch and installs it beside the present one. -/
def execNearKeyInstalled (p : Nat) (s : State) : Host.Outcome State Fault Refusal :=
  cmd (decide (p < 8)) s (fun b =>
    match (b.nport p).rxNext with
    | some e =>
      let b1 := (b.setNport p { b.nport p with rxNext := none }).rxInstall p e
      (((b1.wr R.NKEY_RX_EPOCH e p).wr R.NKEY_STATUS_RX_TWO 1 p).epochChange p).control p (.keyReady e)
    | none => b)

/-- KEY_READY (R66): every new flit goes under the new epoch, with its sequence from 0. -/
def execKeyReady (p e : Nat) (s : State) : Host.Outcome State Fault Refusal :=
  cmd (decide (p < 8)) s (fun b =>
    b.when ((b.nport p).txAsked && e == b.rd R.NKEY_TX_EPOCH p + 1) (fun b =>
      let b1 := (b.setNport p { b.nport p with txAsked := false, txSeq := 0 }).txInstall p e
      ((((b1.wr R.NKEY_TX_EPOCH e p).wr R.NKEY_STATUS_TX_TWO 1 p).epochChange p).retireTx p).pump p))

/-- KEY_RETIRE (R66): the older receive key is erased. -/
def execKeyRetire (p e : Nat) (s : State) : Host.Outcome State Fault Refusal :=
  cmd (decide (p < 8)) s (fun b => b.when (b.on R.NKEY_STATUS_RX_TWO p && e + 1 == b.rd R.NKEY_RX_EPOCH p) (fun b =>
    (b.wr R.NKEY_STATUS_RX_TWO 0 p).keyWrite R.NKEY_SLOT p (rxSlot e) 0))

/-! ## Receiving (R317, R318, R320) -/

/-- The fields of a flit's bytes 1–243 (R317). -/
def fType (f : FlitIn) : Nat := leNat (f.plain.take 1) % 16
def fTc (f : FlitIn) : Nat := bits (leNat (f.plain.take 1)) 4 3
def fAck (f : FlitIn) : Nat := leNat ((f.plain.drop 1).take 2)
def fPayload (f : FlitIn) : List Byte := (f.plain.drop 3).take 240

/-- Handovers whose last flit the partner has acknowledged are no longer on their way (R343). -/
def Blk.hoLanded (b : Blk) (p : Nat) (l : List NFlit) : Blk :=
  b.each l (fun b f => match f.msg with
    | some (.handover h) => { b with border := { b.border with hoOut := b.border.hoOut.filter (fun e => !(e.port == p && e.ho == { h with data := [] })) } }
    | _ => b)

/-- An ACK field (R317): every flit up to the named one is acknowledged. -/
def Blk.ackTo (b : Blk) (p bit seq : Nat) : Blk :=
  let x := b.nport p
  match x.replay.findIdx? (fun f => f.epoch % 2 == bit && f.seq % 2 ^ 15 == seq) with
  | some k => (((b.setNport p { x with replay := x.replay.drop (k + 1) }).hoLanded p (x.replay.take (k + 1))).retireTx p).pump p
  | none => b

/-- A NAK for the flit expected next; everything behind it is discarded until the replay. -/
def Blk.nakNow (b : Blk) (p : Nat) : Blk :=
  let x := b.nport p
  ((b.setNport p { x with naked := true }).queueUp p 0 8 (.nak x.rxEpoch x.rxSeq)).pumpAll p

/-- The port of the route table for a site rank (R324): none where the rank is this module's; an entry that cannot be read is an error. -/
def Blk.routeOf (b : Blk) (dst : Nat) : Except Fail (Option Nat) :=
  match b.readPa clsH (b.owner .nred) (b.rdAddr R.NRED_ROUTE_BASE_LO R.NRED_ROUTE_BASE_HI + dst) 1 with
  | .error f => .error f
  | .ok l => .ok (if bit (leNat l) 7 then none else some (leNat l % 8))

/-- RECORD_RELAY (R324): a whole record of TC 2, 4 or 6 for another module goes on, in its class, on the port that the route table names; its flits keep their
buffer until it has left. Any other record leaves the buffer at once: it is the command of its own row. -/
def Blk.relay (b : Blk) (p tc : Nat) (bytes : List Byte) : Blk :=
  let here := (b.freeFlits p tc (recFlits bytes.length)).returnFull p
  if tc ≠ 2 ∧ tc ≠ 4 ∧ tc ≠ 6 then here
  else
    let dst := bits (leNat (bytes.take 8)) 0 14
    match b.routeOf dst with
    | .error f => (here.ueOf f clsH none).error .nred p { cls := f.cls }
    | .ok none => here
    | .ok (some q) => (b.queueUp q tc 0 (.relay dst bytes) (some (p, tc, recFlits bytes.length))).pump q

/-- A DATA flit's payload joins the record that arrives in its class (R324); with its last byte the record is whole. -/
def Blk.recordIn (b : Blk) (p tc : Nat) (payload : List Byte) : Blk :=
  let buf := SMap.get [] (b.nport p).rx tc ++ payload
  let len := 8 + bits (leNat (buf.take 8)) 40 24
  let keep := fun (l : List Byte) => b.setNport p { b.nport p with rx := SMap.set [] (b.nport p).rx tc l }
  if len ≤ buf.length then (keep []).relay p tc (buf.take len) else keep buf

/-- A flit delivered in order: it is acknowledged from now on; a DATA flit brings its payload. -/
def Blk.deliverFlit (b : Blk) (p e seq : Nat) (f : FlitIn) : Blk :=
  let b1 := b.setNport p { b.nport p with rxEpoch := e, rxSeq := seq + 1, ackName := e % 2 * 2 ^ 15 + seq % 2 ^ 15, naked := false, failed := none }
  if fType f = 1 then b1.recordIn p (fTc f) (fPayload f) else b1

/-- A flit that fails its tag (R318): counted, NAKed; the second failure of one sequence takes the link down, and the port retrains. -/
def Blk.tagFail (b : Blk) (p e seq : Nat) : Blk :=
  let b1 := ((b.inc R.LID_AUTH_FAIL_CNT).inc R.NKEY_TAG_FAIL_CNT p).event .nkey 17 p
  if (b.nport p).failed = some (e, seq) then b1.trainStart p
  else (b1.setNport p { b1.nport p with failed := some (e, seq) }).nakNow p

/-- The epoch that an EPOCH bit names among the keys that the receiver holds (R318). -/
def Blk.rxEpochOf (b : Blk) (p bit : Nat) : Option Nat :=
  let e := b.rd R.NKEY_RX_EPOCH p
  if e % 2 = bit then some e else if b.on R.NKEY_STATUS_RX_TWO p then some (e - 1) else none

/-- Whether a flit is the one expected next: the following one of its epoch, or the first of the next epoch once no flit of the older one is missing (R66, R322). -/
def isNext (x : NPort) (e seq : Nat) (gap : Bool) : Bool := (e == x.rxEpoch && seq == x.rxSeq) || (e == x.rxEpoch + 1 && seq == 0 && !gap)

/-- The checks of R318 in order, then delivery in ascending order, each sequence number once. A flit that fails FEC or CRC is NAKed; behind an outstanding NAK only
where it is the replay of the flit that is missing. -/
def Blk.flit (b : Blk) (p : Nat) (f : FlitIn) : Blk :=
  let x := b.nport p
  let b := if f.corrected then b.add64 R.NLNK_FEC_CORR_LO R.NLNK_FEC_CORR_HI 1 p else b
  let e := (b.rxEpochOf p f.bit).getD x.rxEpoch
  let next := match f.seq with | some q => isNext x e q f.gap | none => !x.naked
  if !f.fecOk || !f.crcOk then (let b1 := b.inc R.NLNK_CRC_ERR_CNT p; if next then b1.nakNow p else b1)
  else if x.naked && !next then b
  else if (b.rxEpochOf p f.bit).isNone then b.inc R.NKEY_EPOCH_DROP_CNT p
  else if !f.tagOk then b.tagFail p e (f.seq.getD x.rxSeq)
  else
    let b1 := b.ackTo p (fAck f / 2 ^ 15) (fAck f % 2 ^ 15)
    match f.seq with
    | none => b1
    | some q =>
      if next then b1.deliverFlit p e q f
      else if e < x.rxEpoch || (e == x.rxEpoch && decide (q < x.rxSeq)) then b1
      else b1.nakNow p

/-- FLIT_RECEIVE (R317, R318, R320, R322, R324). -/
def execFlitReceive (p : Nat) (f : FlitIn) (s : State) : Host.Outcome State Fault Refusal :=
  cmd (decide (p < 8) && decide (f.bit < 2) && f.plain.length == 243) s (fun b => b.when (b.flitsPass p) (fun b => b.flit p f))

/-- CREDIT_RETURN_TIMER (R320): 1 µs has passed. -/
def execCreditReturnTimer (p : Nat) (s : State) : Host.Outcome State Fault Refusal :=
  cmd (decide (p < 8)) s (fun b => b.when (b.nearUp p) (fun b => b.returnCredits p))

/-! ## Lanes (R330, R331) -/

/-- The four lanes in service (R330), or none where fewer than four are good. -/
def fourLanes (bad : Nat) : Option Nat :=
  if bits bad 0 4 = 0 then some 0x0F
  else if bits bad 4 4 = 0 then some 0xF0
  else
    let good := (List.range 8).filter (fun k => !bit bad k)
    if good.length < 4 then none else some ((good.take 4).foldl (fun a k => a + 2 ^ k) 0)

/-- Four lanes in service (R330); fewer than four good lanes train the link from step 1. -/
def Blk.lanes4 (b : Blk) (p : Nat) : Blk :=
  match fourLanes (b.nport p).bad with
  | none => b.trainStart p
  | some m =>
    let b1 := ((b.wr R.NLNK_STATUS_LANES m p).wr R.NLNK_STATUS_WIDTH 4 p).wr R.NLNK_STATUS_LINK lkDegraded p
    if b.rd R.NLNK_STATUS_WIDTH p = 4 then b1 else b1.event .nlnk 18 p

/-- Eight lanes in service, where none has failed and neither end holds the link at four (R331). -/
def Blk.lanes8 (b : Blk) (p : Nat) : Blk :=
  if (b.nport p).bad ≠ 0 ∨ (b.nport p).narrow ∨ b.on R.NLNK_CTRL_FORCE4 p then b.lanes4 p
  else
    let b1 := ((b.wr R.NLNK_STATUS_LANES 0xFF p).wr R.NLNK_STATUS_WIDTH 8 p).wr R.NLNK_STATUS_LINK lkUp p
    if b.rd R.NLNK_STATUS_WIDTH p = 4 then b1.event .nlnk 19 p else b1

/-- LANE_FAIL (R330): counted, WIDTH(4) sent, both ends on four lanes. -/
def execLaneFail (p n : Nat) (s : State) : Host.Outcome State Fault Refusal :=
  cmd (decide (p < 8) && decide (n < 8)) s (fun b =>
    b.when (b.nearUp p && !bit (b.nport p).bad n) (fun b =>
      let b1 := (b.setNport p { b.nport p with bad := (b.nport p).bad + 2 ^ n }).inc R.NLNK_LANE_FAIL_CNT p
      (b1.control p (.width 4)).lanes4 p))

/-- WIDTH (R330, R331): with 4 the partner asks for four lanes, having seen the lanes `bad` fail or holding its port at 4; with 8 all lanes have passed at its end. -/
def execWidth (p w bad : Nat) (s : State) : Host.Outcome State Fault Refusal :=
  cmd (decide (p < 8) && (w == 4 || w == 8) && decide (bad < 256)) s (fun b =>
    b.when (b.nearUp p) (fun b =>
      if w = 8 then (b.setNport p { b.nport p with bad := 0, narrow := false }).lanes8 p
      else (b.setNport p { b.nport p with bad := (b.nport p).bad ||| bad, narrow := true }).lanes4 p))

/-- LANE_RETRAIN_ATTEMPT (R331): the failed lanes of the mask `good` lock again; they return to service with the others alone. -/
def execLaneRetrainAttempt (p good : Nat) (s : State) : Host.Outcome State Fault Refusal :=
  cmd (decide (p < 8) && decide (good < 256)) s (fun b =>
    b.when (b.link p == lkDegraded) (fun b =>
      let x := b.nport p
      b.setNport p { x with bad := x.bad - (x.bad &&& good) }))

/-- LANE_RESTORE (R331): all 8 lanes have passed 1 s of test pattern; the handshake of WIDTH(8) ends a partner's hold too. -/
def execLaneRestore (p : Nat) (s : State) : Host.Outcome State Fault Refusal :=
  cmd (decide (p < 8)) s (fun b =>
    b.when (b.link p == lkDegraded && (b.nport p).bad == 0 && !b.on R.NLNK_CTRL_FORCE4 p) (fun b => (b.control p (.width 8)).lanes8 p))

/-- NLNK_CTRL.FORCE4 (R331). -/
def Blk.force4 (b : Blk) (p : Nat) (old on : Bool) : Blk :=
  if on && !old && b.nearUp p then (b.control p (.width 4)).lanes4 p else b

/-! ## Training (R325–R328) -/

/-- The one-way delay of 64 echo exchanges in ps (R326): the mean of half of what each round trip exceeds the partner's turnaround by, rounded down. -/
def echoDelay (l : List (Nat × Nat)) : Nat := (l.map (fun e => e.1 - e.2)).foldl (· + ·) 0 / (2 * l.length)

/-- Step 3 begins (R326, R327): this end's challenge is sent. -/
def Blk.challenge (b : Blk) (p : Nat) : Blk :=
  let n := (Config.nonce b.io.ent).toNat
  let b1 := b.entUsed
  (b1.setNport p { b1.nport p with step := 3, challenge := some n }).send (.nearChallenge p n)

/-- A new session's secret and the keys of its epoch 0 (R53, R67). -/
def Blk.newSession (b : Blk) (p : Nat) : Blk :=
  let e := b.io.ent
  let b1 := b.entUsed
  let b2 := b1.setNport p { b1.nport p with secret := some (Config.crypto 19 [p, e]), txSeq := 0, rxEpoch := 0, rxSeq := 0, ackName := 0, txAsked := false,
                                            rekeyDue := false, rxNext := none }
  let b3 := ((((b2.keyWrite R.NKEY_SLOT p (txSlot 1) 0).keyWrite R.NKEY_SLOT p (rxSlot 1) 0).txInstall p 0).rxInstall p 0).wr R.NKEY_STATUS_SESSION 2 p
  ((((b3.wr R.NKEY_TX_EPOCH 0 p).wr R.NKEY_RX_EPOCH 0 p).wr R.NKEY_STATUS_TX_TWO 0 p).wr R.NKEY_STATUS_RX_TWO 0 p).inc R.NKEY_SESSION_CNT p

/-- The slots of this module's pool taken through a port (R308). -/
def Blk.slotsOf (b : Blk) (p : Nat) : Nat := (b.border.slots.filter (fun x => !x.mine && x.port == p)).length

/-- A slot credit granted to the partner of a port. -/
def Blk.slotCredit (b : Blk) (p n : Nat) : Blk := if n = 0 then b else b.control p (.credits [] n)

/-- Step 7 (R319, R325, R350): credits of both directions, the slot credits that this end grants, and the link is up. -/
def Blk.linkReady (b : Blk) (p : Nat) : Blk :=
  let b1 := b.each (List.range 8) (fun b tc =>
    (b.wr (R.NLNK_CREDIT_GRANTED.at tc) (tcCredits tc) p).wr (R.NLNK_CREDIT_AVAIL.at tc) (tcCredits tc) p)
  let b2 := b1.setNport p { b1.nport p with step := 0, retrain := false, freed := [], slotsIn := false }
  let b2 := { b2 with border := { b2.border with owed := SMap.set 0 b2.border.owed p 0 } }
  let b3 := ((((b2.wr R.NLNK_RATE_TX 8 p).wr R.NLNK_RATE_RX 8 p).wr R.NRED_SLOTS_CREDITS 0 p).lanes8 p).event .nlnk 16 p
  (b3.slotCredit p (b3.rd R.NRED_SLOTS_GRANT p - b3.slotsOf p)).pump p

/-- A step that has ended, and the one that begins (R325). Step 3 ends with its 64 echo exchanges, step 4 once the partner is accepted, step 5 once nothing is
unacknowledged. -/
def Blk.trainStep (b : Blk) (p : Nat) (r : TrainResult) : Blk :=
  let x := b.nport p
  let goTo := fun (b : Blk) (n : Nat) => b.setNport p { b.nport p with step := n }
  match x.step with
  | 1 => goTo (b.setNport p { x with bad := 0xFF - bits r.lanes 0 8, narrow := false }) 2
  | 2 =>
    let bad := x.bad ||| (0xFF - bits r.lanes 0 8)
    let b1 := b.setNport p { x with bad := bad }
    (match fourLanes bad with
    | none => b1.setNport p { b1.nport p with step := 0, waiting := true }
    | some _ => b1.challenge p)
  | 3 =>
    if r.echoes.length ≠ 64 then b
    else
      let d := echoDelay r.echoes
      let prop := r.cablePs.getD (b.rd R.NLNK_PROP_PS_PER_CM p)
      let b1 := (b.wr R.NLNK_DELAY d p).wr R.NLNK_PROP_FROM_CABLE (b2n r.cablePs.isSome) p
      let b2 := if prop = 0 then (let v := b1.draw; v.2.wr R.NLNK_CABLE v.1 p) else b1.wr R.NLNK_CABLE (min 65535 (d / prop)) p
      (goTo (b2.setNport p { b2.nport p with theirs := r.challenge }) 4).sendCap p r.challenge
  | 4 =>
    if !x.accepted then b
    else
      let b1 := goTo b 5
      if x.replay = [] then b1 else (b1.inc R.NLNK_REPLAY_CNT p).send (.nearReplay p (x.replay.map (·.bytes)))
  | 5 => if x.replay = [] then (goTo b 6).wr R.NKEY_STATUS_SESSION 1 p else b
  | 6 => goTo (b.newSession p) 7
  | 7 => b.linkReady p
  | _ => b

/-- TRAINING_STEP_DONE (R325). -/
def execTrainingStepDone (p : Nat) (r : TrainResult) (s : State) : Host.Outcome State Fault Refusal :=
  cmd (decide (p < 8)) s (fun b => b.trainStep p r)

/-- The partner's echo request in step 3 is answered with the turnaround that this end states (R326). -/
def Blk.echoIn (b : Blk) (p : Nat) : Blk :=
  if (b.nport p).step = 3 then (let d := b.draw; d.2.send (.nearEcho p (Config.turnaround d.1))) else b

/-- TRAINING_STEP_TIMEOUT (R325): training starts again from step 1 after 1 s. -/
def execTrainingStepTimeout (p : Nat) (s : State) : Host.Outcome State Fault Refusal :=
  cmd (decide (p < 8)) s (fun b =>
    b.when ((b.nport p).step != 0) (fun b => b.setNport p { b.nport p with step := 0, waiting := true }))

/-- TRAINING_RETRY (R325, R328). -/
def execTrainingRetry (p : Nat) (s : State) : Host.Outcome State Fault Refusal :=
  cmd (decide (p < 8)) s (fun b =>
    b.when ((b.nport p).waiting && b.on R.NLNK_CTRL_TRAIN p) (fun b =>
      (b.wr R.NLNK_STATUS_LINK lkTraining p).setNport p { b.nport p with step := 1, waiting := false }))

/-- Fields of a capability record (R327): format code, length, identity hash, protocol version, role, coder table version, security version, key window, nonce. -/
def capField (r : CapRecord) (off n : Nat) : Nat := leNat ((r.head.drop off).take n)
def capFormat (r : CapRecord) : Bool := r.head.length == 0xA0 && capField r 0x00 4 == 0x0780_0C01 && capField r 0x04 4 == 50016
def capIdentity (r : CapRecord) : Nat := capField r 0x08 32
def capVersion (r : CapRecord) : Nat := capField r 0x68 2
def capSwitch (r : CapRecord) : Bool := capField r 0x6B 1 == 1
def capCoder (r : CapRecord) : Nat := capField r 0x6E 2
def capSecver (r : CapRecord) : Nat := capField r 0x74 4
def capWindow (r : CapRecord) : Nat := capField r 0x79 1
def capNonce (r : CapRecord) : Nat := capField r 0x80 32

/-- The debug scopes that the owner policy record forbids a partner (R51, R64). -/
def Blk.debugForbidden (b : Blk) : Nat := match b.flash.policy with | some x => x.debugForbid | none => 0

/-- The first check of R328 that a partner's record fails, numbered in the order of its list; 0 where all hold. A record of another layout does not verify. -/
def Blk.capCheck (b : Blk) (p : Nat) (r : CapRecord) : Nat :=
  if !capFormat r || !r.sigOk then 1
  else if (b.nport p).challenge != some (capNonce r) then 2
  else if capVersion r / 256 != 1 || decide (capSecver r < b.rd R.NLNK_MIN_SECVER p) then 3
  else if !r.quoteOk || r.debug &&& b.debugForbidden != 0 then 4
  else if b.own = 1 ∧ !r.ownerOk then 5
  else 0

/-- CAPABILITY_RECORD (R328). A retrain with another partner erases the old session's keys and discards the replay buffer (R67, R323). -/
def execCapabilityRecord (p : Nat) (r : CapRecord) (s : State) : Host.Outcome State Fault Refusal :=
  cmd (decide (p < 8)) s (fun b =>
    b.when ((b.nport p).step == 4) (fun b =>
      let k := b.capCheck p r
      if k ≠ 0 then
        let b1 := ((b.inc R.LID_AUTH_FAIL_CNT).error .nlnk p { cls := eAuth, info0 := k }).wr R.NLNK_STATUS_LINK lkAuthFailed p
        b1.setNport p { b1.nport p with step := 0, waiting := true, retrain := false }
      else
        let id := capIdentity r
        let b1 := if (b.nport p).partner == some id then b else b.endSession p
        let b2 := b1.setNport p { b1.nport p with accepted := true, partner := some id, coder := capCoder r, window := capWindow r }
        (b2.wr64 R.NLNK_PARTNER_LO R.NLNK_PARTNER_HI (id % 2 ^ 64) p).wr R.NLNK_STATUS_SWITCH (b2n (capSwitch r)) p))

/-! ## Rate (R332) -/

/-- RATE(k): this end paces DATA flits to k eighths. -/
def execRate (p k : Nat) (s : State) : Host.Outcome State Fault Refusal :=
  cmd (decide (p < 8) && decide (2 ≤ k) && decide (k ≤ 8)) s (fun b => b.when (b.nearUp p) (fun b => b.wr R.NLNK_RATE_TX k p))

/-- BACKPRESSURE_PERIOD: this end has withheld credits, or its buffer has stayed below a quarter full. -/
def execBackpressurePeriod (p : Nat) (withheld low : Bool) (s : State) : Host.Outcome State Fault Refusal :=
  cmd (decide (p < 8)) s (fun b =>
    b.when (b.nearUp p) (fun b =>
      let k := b.rd R.NLNK_RATE_RX p
      let k' := if withheld then max 2 (k - 1) else if low then min 8 (k + 1) else k
      if k' = k then b else (b.wr R.NLNK_RATE_RX k' p).control p (.rate k')))

/-! ## The cable supply (R329, R497) -/

/-- The supply switch follows the cable, NLNK_LOAD_CTRL.EN and the trip. -/
def Blk.loadSwitch (b : Blk) (p : Nat) : Blk :=
  b.wr R.NLNK_LOAD_ON (b2n ((b.nport p).cable && b.on R.NLNK_LOAD_CTRL_EN p && !b.on R.NLNK_LOAD_TRIPPED p)) p

def execCblPresentN (p : Nat) (present : Bool) (s : State) : Host.Outcome State Fault Refusal :=
  cmd (decide (p < 8)) s (fun b => (b.setNport p { b.nport p with cable := present }).loadSwitch p)

/-- CABLE_OVERCURRENT: the switch opens, and the link is LOAD_OFF. -/
def execCableOvercurrent (p ma : Nat) (s : State) : Host.Outcome State Fault Refusal :=
  cmd (decide (p < 8) && decide (2000 < ma)) s (fun b =>
    b.when (b.on R.NLNK_LOAD_ON p) (fun b =>
      let b1 := ((b.wr R.NLNK_LOAD_MA (min 4095 ma) p).wr R.NLNK_LOAD_TRIPPED 1 p).loadSwitch p
      let b2 := (b1.setNport p { b1.nport p with trips := (b1.nport p).trips + 1 }).linkDown p lkLoadOff
      b2.event .nlnk 20 p))

/-- The switch closes again after a trip, and the link trains where TRAIN is 1. -/
def Blk.loadRetry (b : Blk) (p : Nat) : Blk :=
  let b1 := (b.wr R.NLNK_LOAD_TRIPPED 0 p).loadSwitch p
  if b1.link p = lkLoadOff then (if b1.on R.NLNK_CTRL_TRAIN p then b1.trainStart p else b1.linkTo p lkDown) else b1

def execLoadSwitchReclose (p : Nat) (s : State) : Host.Outcome State Fault Refusal :=
  cmd (decide (p < 8)) s (fun b => b.when (b.on R.NLNK_LOAD_TRIPPED p && (b.nport p).trips == 1) (fun b => b.loadRetry p))

/-- NLNK_LOAD_CTRL.RETRY: the switch closes again; the trips count from 0 again. -/
def Blk.loadRetryWrite (b : Blk) (p : Nat) : Blk :=
  b.when (b.on R.NLNK_LOAD_TRIPPED p) (fun b => (b.setNport p { b.nport p with trips := 0 }).loadRetry p)

end Sys2Proof.Machine
end

