-- ==== Sys2Proof/Machine/Bank.lean ====
section
/-! DEFINITION. The bank apply units (R267–R280, R290–R293). -/

namespace Sys2Proof.Machine

def Blk.bank (b : Blk) (n : Nat) : Bank := SMap.get {} b.banks n
def Blk.setBank (b : Blk) (n : Nat) (x : Bank) : Blk := { b with banks := SMap.set {} b.banks n x }

/-- BANK_STATUS.STATE codes (R293). -/
def bkIdle : Nat := 0
def bkRun : Nat := 1
def bkReduce : Nat := 2
def bkDigest : Nat := 3
def bkHold : Nat := 4
def bkLeave : Nat := 5
def bkExport : Nat := 6
def bkFetch : Nat := 7
def bkHalted : Nat := 8
def bkPaused : Nat := 9

/-! ## Descriptors (R267, R270, R271) -/

/-- Elements of a full chunk (R267). -/
def chunkLen : Nat := 262144

/-- An apply descriptor (R270). -/
structure ApplyDesc where
  opt : Nat
  group : Nat
  wfmt : Nat
  rnd : Nat
  domG : Nat
  domM : Nat
  domW : Nat
  domC : Nat
  nogate : Bool
  exp : Bool
  step : Nat
  part : Nat
  tensor : Nat
  elems : Nat
  grad : Nat
  mom : Nat
  master : Nat
  shard : Nat
  commit : Nat
  wcopy : Nat
  wscale : Nat
  index : Nat
  deriving DecidableEq, Repr

/-- The fields of a descriptor's words. -/
def applyDesc (d : List Nat) : ApplyDesc :=
  let f := dfield d
  { opt := f 0 0 4, group := f 0 4 6, wfmt := f 0 10 4, rnd := f 0 14 2, domG := f 0 16 3, domM := f 0 19 3, domW := f 0 22 3, domC := f 0 25 3,
    nogate := f 0 28 1 == 1, exp := f 0 29 1 == 1, step := f 0 32 24, part := f 0 56 8, tensor := f 1 0 32, elems := f 1 32 32, grad := f 2 0 42,
    mom := f 3 0 42, master := f 4 0 42, shard := f 4 42 8, commit := f 5 0 42, wcopy := f 6 0 42, wscale := f 7 0 42,
    index := f 3 42 22 * 2 ^ 22 + f 2 42 22 }

/-- The bits that R270 names. -/
def applyMasks : List Nat :=
  [fmask 0 30 + fmask 32 32, fmask 0 64, fmask 0 64, fmask 0 64, fmask 0 50, fmask 0 42, fmask 0 42, fmask 0 42]

/-- Chunks of a descriptor, and the elements of chunk `c`. -/
def ApplyDesc.chunks (d : ApplyDesc) : Nat := (d.elems + (chunkLen - 1)) / chunkLen
def ApplyDesc.count (d : ApplyDesc) (c : Nat) : Nat := min chunkLen (d.elems - c * chunkLen)

/-- Bytes of a chunk's working copy (R267). -/
def wcopyChunk (fmt : Nat) : Nat := chunkLen * fmtBits fmt / 8

/-- Whether a range lies in stack `n`'s HBM, clear of the firmware region; or in the slow tier. -/
def ownStack (n a len : Nat) : Bool :=
  decide (0x00C_0000_0000 * n ≤ a) && decide (a + len ≤ (n + 1) * 0x00C_0000_0000) && decide (a + len ≤ fwLo)
def inSlow (a len : Nat) : Bool := decide (slowLo ≤ a) && decide (a + len ≤ slowEnd)

/-- Whether unit `n` accepts a descriptor (R271). -/
def applyValid (n : Nat) (l : List Nat) : Bool :=
  let d := applyDesc l
  let c := d.chunks
  let own := fun a len => ownStack n a len || (d.opt == 4 && inSlow a len)
  let mib := 2 ^ 20
  dclean l applyMasks && decide (d.opt ≤ 5) && [0, 1, 3, 4, 5, 6].contains d.wfmt && decide (d.rnd ≤ 2)
    && d.domG != 0 && d.domM != 0 && d.domW != 0 && d.domC != 0 && (decide (d.opt < 4) || d.nogate) && d.elems != 0
    && d.grad % mib == 0 && d.mom % mib == 0 && d.master % mib == 0 && d.commit % 64 == 0
    && own d.grad (c * mib) && own d.mom (c * 4 * mib) && inSlow d.master (c * 2 * mib) && own d.commit (c * 64)
    && (d.wfmt == 0 || (d.wcopy % 64 == 0 && ownStack n d.wcopy (c * wcopyChunk d.wfmt)))
    && (d.wfmt == 0 || d.wfmt == 1 || (d.wscale % 64 == 0 && ownStack n d.wscale (8192 * c)))

/-- The places of chunk `c` (R267): gradient, moment `k` (0 m, 1 v) and master of a slot, commit record. -/
def ApplyDesc.gradAt (d : ApplyDesc) (c : Nat) : Nat := d.grad + 2 ^ 20 * c
def ApplyDesc.momAt (d : ApplyDesc) (c slot k : Nat) : Nat := d.mom + 2 ^ 22 * c + 2 ^ 21 * slot + 2 ^ 20 * k
def ApplyDesc.masterAt (d : ApplyDesc) (c slot : Nat) : Nat := d.master + 2 ^ 21 * c + 2 ^ 20 * slot
def ApplyDesc.recAt (d : ApplyDesc) (c : Nat) : Nat := d.commit + c * 64

/-- Whether the optimiser keeps v, and whether it keeps moments at all (R275, R278). -/
def keepsV (opt : Nat) : Bool := decide (opt ≤ 1)
def keepsM (opt : Nat) : Bool := opt != 5

/-! ## Words and lines -/

/-- FP32 words of bytes. -/
def wordsOf (n : Nat) (l : List Byte) : List Nat := (List.range n).map (fun k => leNat ((l.drop (4 * k)).take 4))

/-- Words as bytes, zeros up to a whole 64-byte line (R267). -/
def padLine (l : List Byte) : List Byte := l ++ List.replicate ((64 - l.length % 64) % 64) 0
def wordBytes (l : List Nat) : List Byte := l.flatMap (fun w => natLe 4 w)

/-- Words read by an apply unit, which acts for H (R43). -/
def Blk.readWords (b : Blk) (dom pa n : Nat) : Except Fail (List Nat) :=
  match b.readPa clsH dom pa (4 * n) with
  | .ok l => .ok (wordsOf n l)
  | .error f => .error f

/-- Whole lines written by an apply unit. -/
def Blk.writeLines (b : Blk) (dom pa : Nat) (l : List Byte) : Blk := (b.writePa clsH dom pa (padLine l)).1

/-! ## The commit record (R274) -/

/-- A commit record. -/
structure CommitRec where
  slot : Nat := 0
  valid : Bool := false
  xp : Bool := false
  opt : Nat := 0
  group : Nat := 0
  step : Nat := 0
  crcCur : Nat := 0
  crcOld : Nat := 0
  count : Nat := 0
  deriving DecidableEq, Repr

/-- The record that 64 bytes hold; with VALID 0 slot A is current. -/
def commitOf (l : List Byte) : CommitRec :=
  let v := leNat l
  let valid := bit v 1
  { slot := if valid then bits v 0 1 else 0, valid := valid, xp := bit v 2, opt := bits v 8 4, group := bits v 16 8, step := bits v 32 24,
    crcCur := bits v 64 64, crcOld := bits v 128 64, count := bits v 192 32 }

def CommitRec.bytes (r : CommitRec) : List Byte :=
  natLe 1 (r.slot + 2 * b2n r.valid + 4 * b2n r.xp) ++ natLe 1 r.opt ++ natLe 1 r.group ++ natLe 1 0 ++ natLe 4 r.step ++ natLe 8 r.crcCur
    ++ natLe 8 r.crcOld ++ natLe 4 r.count ++ natLe 36 0

/-- A chunk's commit record. -/
def Blk.readRec (b : Blk) (d : ApplyDesc) (c : Nat) : Except Fail CommitRec :=
  match b.readPa clsH d.domM (d.recAt c) 64 with
  | .ok l => .ok (commitOf l)
  | .error f => .error f

def Blk.writeRec (b : Blk) (d : ApplyDesc) (c : Nat) (r : CommitRec) : Blk := b.writeLines d.domM (d.recAt c) r.bytes

/-! ## The chunk CRC and the digest (R284, R285) -/

/-- Shifts of CRC-64/ECMA-182. -/
def crcShift : (k crc : Nat) → Nat
  | 0, c => c
  | k + 1, c => crcShift k (if bit c 63 then (c * 2 % 2 ^ 64) ^^^ 0x42F0_E1EB_A9EA_3693 else c * 2)

/-- One 64-bit word fed, most significant byte first. -/
def crcWord (crc w : Nat) : Nat := crcShift 64 (crc ^^^ w)

/-- Words 2i and 2i + 1 as one 64-bit word. -/
def pairWords : List Nat → List Nat
  | [] => []
  | [x] => [x]
  | x :: y :: l => (x + 2 ^ 32 * y) :: pairWords l

/-- The chunk CRC of a master (R284). -/
def chunkCrc (l : List Nat) : Nat := (pairWords l).foldl crcWord 0

/-- A 64-bit rotation to the left. -/
def rotl64 (x n : Nat) : Nat := x % 2 ^ (64 - n % 64) * 2 ^ (n % 64) + x / 2 ^ (64 - n % 64)

/-- The digest of a descriptor (R285). -/
def descDigest (crcs : List Nat) : Nat := crcs.foldl (fun d c => rotl64 d 1 ^^^ c) 0

/-! ## Optimisers (R278) -/

/-- The negative of an FP32 value. -/
def fneg (x : Nat) : Nat := x ^^^ 0x8000_0000

/-- The sign of LION. -/
def fsign (x : Nat) : Nat :=
  if isNan32 x then nan32 else if (f32 x).isZero then 0 else if bit x 31 then 0xBF80_0000 else one32

/-- m', v' and u of ADAMW. -/
def adamU (c : List Nat) (g m v : Nat) : Nat × Nat × Nat :=
  let k := fun i => c.getD i 0
  let m' := ffma (k 1) m (fmul (k 8) g)
  let v' := ffma (k 2) v (fmul (k 9) (fmul g g))
  (m', v', fdiv (fmul m' (k 5)) (fadd (fsqrt (fmul v' (k 6))) (k 3)))

/-- One element: w', m', v' from the gradient after GSCALE and the old values. -/
def applyElem (opt : Nat) (c : List Nat) (g w m v : Nat) : Nat × Nat × Nat :=
  let k := fun i => c.getD i 0
  match opt with
  | 0 => let r := adamU c g m v; (ffma (fneg (k 0)) (ffma (k 4) w r.2.2) w, r.1, r.2.1)
  | 1 => let r := adamU c (ffma (k 4) w g) m v; (ffma (fneg (k 0)) r.2.2 w, r.1, r.2.1)
  | 2 =>
    let u := fsign (ffma (k 1) m (fmul (k 8) g))
    (ffma (fneg (k 0)) (ffma (k 4) w u) w, ffma (k 2) m (fmul (k 9) g), v)
  | 3 => let m' := ffma (k 1) m g; (ffma (fneg (k 0)) (ffma (k 4) w m') w, m', v)
  | 4 => let m' := ffma (k 1) m g; (ffma (fneg (k 0)) (ffma (k 1) m' g) w, m', v)
  | _ => (w, m, v)

/-- The latched coefficients: C0–C7, D1 = 1 − C1, D2 = 1 − C2 (R273, R278). -/
def Blk.coefs (b : Blk) (n g : Nat) : List Nat :=
  let c := (List.range 8).map (fun k => b.rd (R.BANK_COEF.at2 g k) n)
  c ++ [fsub one32 (c.getD 1 0), fsub one32 (c.getD 2 0)]

/-! ## The working copy (R280) -/

/-- A chunk's working copy and scales from its master: per 32 elements one derived scale for FP8 and FP6. -/
def wcopyBlocks (d : ApplyDesc) (c step : Nat) : (fuel k : Nat) → List Nat → List (Nat × List Nat)
  | 0, _, _ => []
  | fuel + 1, k, l =>
    match l with
    | [] => []
    | _ :: _ =>
      packBlock d.wfmt (l.take 32) (fun j => rndMode d.rnd step d.tensor (d.index + c * chunkLen + 32 * k + j))
        :: wcopyBlocks d c step fuel (k + 1) (l.drop 32)

/-- Working copy and scales written for the SR step `step`. -/
def Blk.writeWcopy (b : Blk) (d : ApplyDesc) (c step : Nat) (master : List Nat) : Blk :=
  if d.wfmt = 0 then b
  else
    let l := wcopyBlocks d c step (master.length + 1) 0 master
    let b1 := b.writeLines d.domC (d.wcopy + c * wcopyChunk d.wfmt) (packBytes (fmtBits d.wfmt) (l.flatMap (·.2)))
    if d.wfmt = 1 then b1 else b1.writeLines d.domC (d.wscale + 8192 * c) (l.map (fun e => BitVec.ofNat 8 e.1))

/-! ## Export (R290, R291) -/

/-- A new export session (R53): a fresh key, encapsulated to the owner's export public key. -/
def Blk.exportSession (b : Blk) : Blk :=
  let pub := match b.flash.policy with | some p => p.exportKey | none => 0
  let e := b.io.ent
  ({ b.entUsed with lid := { b.lid with exportKey := some (Config.crypto 16 [pub, e]), exportCnt := 0 } }).send
    (.exportSession (Config.crypto 17 [pub, e]))

/-- The session in which the next export record is sealed: the present one, or a new one where there is none or it has sealed 2^32 records (R53). -/
def Blk.exportReady (b : Blk) : Blk := if b.lid.exportKey.isNone ∨ 2 ^ 32 ≤ b.lid.exportCnt then b.exportSession else b

/-- An export record's coded payload: the words, coded in the coder's lossless mode block by block (R362), with the counts of the coder page of the route. -/
def Blk.codeLossless (f : Nat) : (fuel idx : Nat) → Blk → List Byte → Blk × List Byte
  | 0, _, b, _ => (b, [])
  | fuel + 1, idx, b, l =>
    match l with
    | [] => (b, [])
    | _ :: _ =>
      let blk := l.take (2 ^ 20)
      let c := encodeBlock lossless idx (blk.map (·.toNat))
      let r := Blk.codeLossless f fuel (idx + 1) (b.fcodCount f blk.length [] c) (l.drop (2 ^ 20))
      (r.1, c.bytes ++ r.2)

/-- The far port whose coder an export route uses (R362). -/
def Blk.expCoder (b : Blk) (n : Nat) : Nat := if b.rd R.BANK_EXP_ROUTE n = 2 then 1 else 0

/-- An export record (R290); its export sequence is filled in when it is appended. `flags`: 1 REPAIR, 2 REBUILT. -/
def Blk.expRec (b : Blk) (n : Nat) (d : ApplyDesc) (c flags step opt count crcOld crcCur : Nat) (diff : List Nat) : Blk × ExpRec :=
  let r := Blk.codeLossless (b.expCoder n) (diff.length + 1) 0 b (wordBytes diff)
  (r.1, { payload := r.2,
          header := natLe 4 0x0780_0E01 ++ natLe 4 r.2.length ++ natLe 1 n ++ natLe 1 d.shard ++ natLe 1 d.part ++ natLe 1 flags ++ natLe 4 c ++ natLe 4 step
            ++ natLe 4 count ++ natLe 8 crcOld ++ natLe 8 crcCur ++ natLe 8 0 ++ natLe 1 opt ++ natLe 15 0 })

/-- The bytes of a sealed record: header, payload and tag (R290). -/
def ExpRec.len (r : ExpRec) : Nat := r.header.length + r.payload.length + 16

/-- The record with its export sequence. -/
def ExpRec.plain (r : ExpRec) (seq : Nat) : List Byte := r.header.take 40 ++ natLe 8 seq ++ r.header.drop 48 ++ r.payload

/-- Sealed under the export session key (R290): ciphertext and tag; the nonce is the record's number in its session (log entry 7). -/
def ExpRec.seal (r : ExpRec) (key num seq : Nat) : List Byte := natLe r.len (Config.gcm key num [] (r.plain seq))

/-- The room of a sealed record in the export ring: whole 64-byte lines, so that a write never reads (R276; log entry 65). -/
def ringLen (n : Nat) : Nat := (n + 63) / 64 * 64

/-- Whether the export ring has room for a record (R291). -/
def Blk.expRoom (b : Blk) (n : Nat) (r : ExpRec) : Bool :=
  decide ((b.bank n).expPut - (b.bank n).expGet + ringLen r.len ≤ 2 ^ b.rd R.BANK_EXP_SIZE n)

/-- Sealed bytes stored in the ring as whole lines, wrapping at its end. -/
def Blk.expStore (b : Blk) (n base size put : Nat) (l : List Byte) : Blk :=
  let k := min (ringLen l.length) (size - put % size)
  (b.writeLines (b.owner .bank n) (base + put % size) (l.take k)).writeLines (b.owner .bank n) base (l.drop k)

/-- The XP of a record's chunk clears (R275). -/
def Blk.xpClear (b : Blk) : Option (List Nat × Nat) → Blk
  | none => b
  | some (l, c) =>
    match b.readRec (applyDesc l) c with
    | .ok r => if r.xp then b.writeRec (applyDesc l) c { r with xp := false } else b
    | .error _ => b

/-- A record appended: it is sealed, BANK_EXP_SEQ counts it, and its chunk's XP clears. -/
def Blk.expAppend (b : Blk) (n : Nat) (r : Staged) : Blk :=
  let b := b.exportReady
  let x := b.bank n
  let bytes := r.record.seal (b.lid.exportKey.getD 0) b.lid.exportCnt (b.rd64 R.BANK_EXP_SEQ_LO R.BANK_EXP_SEQ_HI n)
  let b1 := b.expStore n (b.rdAddr R.BANK_EXP_BASE_LO R.BANK_EXP_BASE_HI n) (2 ^ b.rd R.BANK_EXP_SIZE n) x.expPut bytes
  let b2 := { b1.setBank n { x with expPut := x.expPut + ringLen bytes.length, expQ := x.expQ ++ [bytes] } with
    lid := { b1.lid with exportCnt := b1.lid.exportCnt + 1 } }
  (b2.add64 R.BANK_EXP_SEQ_LO R.BANK_EXP_SEQ_HI 1 n).xpClear r.chunk

/-- A record appended where the ring has room and no record waits before it, and otherwise held: the unit enters WAIT_EXPORT (R291). -/
def Blk.expPost (b : Blk) (n : Nat) (r : Staged) : Blk :=
  let x := b.bank n
  if x.staged = [] ∧ b.expRoom n r.record then b.expAppend n r
  else
    let b1 := b.setBank n { x with staged := x.staged ++ [r] }
    if x.staged = [] then ((b1.wr R.BANK_STATUS_STATE bkExport n).inc R.BANK_EXP_STALL_CNT n).event .bank 20 n else b1

/-! ## Gates (R272, R282, R287) -/

/-- Whether `a − b` modulo 2^24 lies in 0 to 2^23 − 1: step `a` is at or above step `b`. -/
def stepGe (a c : Nat) : Bool := decide ((a + 2 ^ 24 - c % 2 ^ 24) % 2 ^ 24 < 2 ^ 23)

def Blk.shardSt (b : Blk) (k : Nat) : ShardSt := SMap.get {} b.dig.shards k

/-- The digest gate: a comparison of an earlier step is due for the shard, or the shard has lost one and is not repaired (R272, R289). -/
def Blk.digestHeld (b : Blk) (shard step : Nat) : Bool :=
  b.dig.cmps.any (fun c => c.shard == shard && c.step != step && stepGe step c.step) || b.dig.fetch.any (fun f => f.shard == shard)

/-- The first closed gate's STATE, or 0. -/
def Blk.gate (b : Blk) (n : Nat) (d : ApplyDesc) : Nat :=
  if d.nogate then 0
  else if !(b.on R.BANK_REDUCED_STEP_VALID n && stepGe (b.rd R.BANK_REDUCED_STEP_STEP n) d.step) then bkReduce
  else if b.digestHeld d.shard d.step then bkDigest
  else if b.on R.LOSS_FLAG_HELD && stepGe d.step (b.rd R.LOSS_FLAG_STEP) then bkHold
  else 0

/-- A chunk's outstanding repair fetch (R275, R289): at a loser any apply of a chunk that it still fetches waits; at a winner a chunk that is still being fetched holds the
next write into the slot that holds the compared step, the apply after the next. -/
def Blk.chunkFetched (b : Blk) (d : ApplyDesc) (c : Nat) (r : CommitRec) : Bool :=
  b.dig.fetch.any (fun f => f.shard == d.shard && f.chunks.contains (d.part, c))
    || b.dig.serve.any (fun f => f.shard == d.shard && f.chunks.contains (d.part, c) && r.step == (f.step + 1) % 2 ^ 24)

/-! ## The chunk (R275) -/

/-- An uncorrectable read, or another failed one, aborts the chunk (R276): a KIND 5 record, then a retry or HALTED. -/
def Blk.bankAbort (b : Blk) (n : Nat) (d : ApplyDesc) (f : Fail) : Blk :=
  let x := b.bank n
  let b1 := (b.ueOf f clsH (some n)).inc R.BANK_ABORT_CNT n
  let b2 := b1.error .bank n { cls := f.cls, step := some d.step, info0 := x.chunk, info1 := b.rd R.BANK_RING_GET n, addr := f.pa }
  let b3 := b2.sendFault { cls := f.cls, kind := 5, unit := n, pc := x.chunk, pa := f.pa, step := d.step }
  if x.retries < b.rd R.BANK_RETRY_MAX n then b3.setBank n { x with retries := x.retries + 1, waiting := true, work := none }
  else ((b3.setBank n { x with halted := true, work := none }).wr R.BANK_STATUS_STATE bkHalted n).event .bank 17 n

/-- The exclusive-or of two lists of words. -/
def xorWords (p q : List Nat) : List Nat := (p.zip q).map (fun e => e.1 ^^^ e.2)

/-- The new values of a chunk from the slots that its record names. -/
def Blk.chunkCompute (b : Blk) (n : Nat) (d : ApplyDesc) (c : Nat) (r : CommitRec) : Except Fail ChunkWork :=
  let k := d.count c
  match b.readWords d.domW (d.masterAt c r.slot) k with
  | .error f => .error f
  | .ok w =>
    if d.opt = 5 then
      match b.readWords d.domW (d.masterAt c (1 - r.slot)) k with
      | .error f => .error f
      | .ok o => .ok { slot := r.slot, master := w, m := [], v := [], crc := chunkCrc w, crcOld := chunkCrc o, diff := List.replicate (2 * k) 0, nfG := 0,
                       nfM := (w.filter isNonFinite32).length }
    else
      match b.readWords d.domG (d.gradAt c) k, b.readWords d.domM (d.momAt c r.slot 0) k,
        (if keepsV d.opt then b.readWords d.domM (d.momAt c r.slot 1) k else .ok (List.replicate k 0)) with
      | .ok g, .ok m, .ok v =>
        let cf := (b.bank n).coef
        let gs := g.map (fun x => fmul x (cf.getD 7 0))
        let o := ((gs.zip w).zip (m.zip v)).map (fun e => applyElem d.opt cf e.1.1 e.1.2 e.2.1 e.2.2)
        let w' := o.map (·.1)
        let m' := o.map (·.2.1)
        let v' := o.map (·.2.2)
        .ok { slot := 1 - r.slot, master := w', m := m', v := if keepsV d.opt then v' else [], crc := chunkCrc w', crcOld := r.crcCur,
              diff := xorWords w w' ++ xorWords m m' ++ (if keepsV d.opt then xorWords v v' else []), nfG := (gs.filter isNonFinite32).length,
              nfM := (w'.filter isNonFinite32).length }
      | .error f, _, _ => .error f
      | _, .error f, _ => .error f
      | _, _, .error f => .error f

/-- The export record of a chunk committed before a reset, from its two slots (R291): the optimiser is the record's. -/
def Blk.rebuildDiff (b : Blk) (d : ApplyDesc) (c : Nat) (r : CommitRec) : Except Fail (List Nat) :=
  let k := r.count
  let both : Nat → (Nat → Nat) → Except Fail (List Nat) := fun dom at' =>
    match b.readWords dom (at' 0) k, b.readWords dom (at' 1) k with
    | .ok x, .ok y => .ok (xorWords x y)
    | .error f, _ => .error f
    | _, .error f => .error f
  if r.opt = 5 then .ok (List.replicate (2 * k) 0)
  else match both d.domW (d.masterAt c), both d.domM (fun s => d.momAt c s 0),
      (if keepsV r.opt then both d.domM (fun s => d.momAt c s 1) else .ok []) with
    | .ok w, .ok m, .ok v => .ok (w ++ m ++ v)
    | .error f, _, _ => .error f
    | _, .error f, _ => .error f
    | _, _, .error f => .error f

/-- A descriptor ends (R276, R293): LAST, DONE, GET. -/
def Blk.bankEnd (b : Blk) (n last : Nat) : Blk :=
  let x := b.bank n
  let b1 := (b.setBank n { expPut := x.expPut, expGet := x.expGet, expQ := x.expQ, staged := x.staged }).lvDrop (.bank n)
  (((b1.wr R.BANK_STATUS_LAST last n).wr R.BANK_STATUS_STATE bkIdle n).addW R.BANK_RING_GET 1 n).event .bank 16 n

/-- Whether a step is one of comparison (R287). -/
def Blk.cmpStep (b : Blk) (step : Nat) : Bool := b.on R.DIG_CTRL && step % b.rd R.DIG_INTERVAL == 0

/-- The entry of the shard table (R286): MEMBERS, KEEPER, SELF, PARTS and the members' site ranks. One that cannot be read or breaks the table describes one
member with one part. -/
def Blk.shardEntry (b : Blk) (shard : Nat) : Nat × Nat × Nat × Nat × List Nat :=
  match b.readPa clsH (b.owner .dig) (b.rdAddr R.DIG_TABLE_LO R.DIG_TABLE_HI + 32 * shard) 32 with
  | .error _ => (1, 0, 0, 1, [])
  | .ok l =>
    let v := leNat l
    let mem := bits v 0 4
    let parts := bits v 16 8
    let zero := fun lo w => bits v lo w == 0
    if 1 ≤ mem ∧ mem ≤ 8 ∧ 1 ≤ parts ∧ bits v 8 3 < mem ∧ bits v 11 3 < mem ∧ zero 4 4 ∧ zero 14 2 ∧ zero 24 40 ∧ zero 192 64 then
      (mem, bits v 8 3, bits v 11 3, parts, (List.range mem).map (fun i => bits v (64 + 16 * i) 16))
    else (1, 0, 0, 1, [])

/-- The mark that an uncorrectable entry of the shard table leaves at its controller (R255). -/
def Blk.shardTouch (b : Blk) (shard : Nat) : Blk :=
  match b.readPa clsH (b.owner .dig) (b.rdAddr R.DIG_TABLE_LO R.DIG_TABLE_HI + 32 * shard) 32 with
  | .error f => b.ueOf f clsH none
  | .ok _ => b

/-- A part has committed its step (R285): its D replaces the part's last one. The first gated part of a comparison step makes a comparison due (R272, R287). -/
def Blk.partDone (b : Blk) (n : Nat) (l : List Nat) (crcs : List Nat) : Blk :=
  let d := applyDesc l
  let b := if !d.nogate && b.cmpStep d.step then b.shardTouch d.shard else b
  let p : DigPart := { shard := d.shard, part := d.part, step := d.step, d := descDigest crcs, unit := n, desc := l, nogate := d.nogate }
  let g := { b.dig with parts := b.dig.parts.filter (fun q => !(q.shard == d.shard && q.part == d.part)) ++ [p] }
  let due := !d.nogate && b.cmpStep d.step && decide (2 ≤ (b.shardEntry d.shard).1) && !(g.cmps.any (fun c => c.shard == d.shard && c.step == d.step))
  if due then
    { b with dig := { g with cmps := g.cmps ++ [{ shard := d.shard, step := d.step }],
                             shards := SMap.modify {} g.shards d.shard (fun s => { s with state := 1 }) } }
  else { b with dig := g }

/-- The chunk ends and the next one's head comes. -/
def Bank.nextChunk (x : Bank) (crc : Nat) : Bank :=
  { x with chunk := x.chunk + 1, retries := 0, waiting := false, halted := false, work := none, crcs := x.crcs ++ [crc] }

/-- The new values of a chunk computed, or its read failed (R275, R276). -/
def Blk.bankWork (b : Blk) (n : Nat) (d : ApplyDesc) (x : Bank) (here : Nat × Nat) : Except Fail ChunkWork → Blk
  | .error f => (b.setBank n { x with begun := some here }).bankAbort n d f
  | .ok w => b.setBank n { x with begun := some here, work := some w }

/-- The chunk begins: a repeated one is counted (R276). -/
def Blk.bankBegin (b : Blk) (n : Nat) (d : ApplyDesc) (x : Bank) (r : CommitRec) : Blk :=
  let b1 := (b.lvDrop (.bank n)).wr R.BANK_STATUS_STATE bkRun n
  let here := (b1.rd R.BANK_RING_GET n, x.chunk)
  let b2 := if x.begun = some here then b1.inc R.BANK_REDO_CNT n else b1
  b2.bankWork n d x here (b2.chunkCompute n d x.chunk r)

/-- The record of a chunk committed before a reset is rebuilt and appended, or waits for room (R291). The flag says whether the unit goes on. -/
def Blk.bankRebuilt (b : Blk) (n : Nat) (l : List Nat) (x : Bank) (r : CommitRec) : Except Fail (List Nat) → Blk × Bool
  | .error f => (b.bankAbort n (applyDesc l) f, false)
  | .ok diff =>
    let e := b.expRec n (applyDesc l) x.chunk 2 r.step r.opt r.count r.crcOld r.crcCur diff
    (e.1.expPost n ⟨e.2, some (l, x.chunk)⟩, true)

/-- The head of a chunk whose commit record has been read: a committed chunk is skipped, another begins once nothing holds it (R272, R275). -/
def Blk.bankHead (b : Blk) (n : Nat) (l : List Nat) (x : Bank) : Except Fail CommitRec → Blk × Bool
  | .error f => (b.bankAbort n (applyDesc l) f, false)
  | .ok r =>
    let d := applyDesc l
    if r.valid && r.xp then b.bankRebuilt n l x r (b.rebuildDiff d x.chunk r)
    else if r.valid && r.step == d.step && r.opt == d.opt && r.group == d.group then (b.setBank n (x.nextChunk r.crcCur), true)
    else if b.chunkFetched d x.chunk r then (b.wr R.BANK_STATUS_STATE bkFetch n, false)
    else if !b.lvGranted (.bank n) then ((b.lvAsk (.bank n)).wr R.BANK_STATUS_STATE bkLeave n, false)
    else (b.bankBegin n d x r, false)

/-- The unit past its gates: the end of the descriptor, PAUSE, or the head of the chunk. -/
def Blk.bankNext (b : Blk) (n : Nat) (l : List Nat) (x : Bank) : Blk × Bool :=
  let d := applyDesc l
  let b1 := (b.setBank n x).wr R.BANK_STATUS_CHUNK x.chunk n
  if x.chunk ≥ d.chunks then ((b1.partDone n l x.crcs).bankEnd n 1, false)
  else if b1.on R.BANK_CTRL_PAUSE n then (b1.wr R.BANK_STATUS_STATE bkPaused n, false)
  else b1.bankHead n l x (b1.readRec d x.chunk)

/-- One move of the unit: a held export record, the gates, what follows them. -/
def Blk.bankStep (b : Blk) (n : Nat) : Blk × Bool :=
  let x := b.bank n
  match x.staged, x.desc with
  | r :: rest, _ => if b.expRoom n r.record then ((b.setBank n { x with staged := rest }).expAppend n r, true) else (b.wr R.BANK_STATUS_STATE bkExport n, false)
  | [], none => (b.wr R.BANK_STATUS_STATE bkIdle n, false)
  | [], some l =>
    if x.halted then (b.wr R.BANK_STATUS_STATE bkHalted n, false)
    else if x.waiting || x.work.isSome then (b.wr R.BANK_STATUS_STATE bkRun n, false)
    else
      let g := if x.passed then 0 else b.gate n (applyDesc l)
      if g ≠ 0 then (b.wr R.BANK_STATUS_STATE g n, false) else b.bankNext n l { x with passed := true }

/-- The unit goes on from where it stands until something holds it (R272, R275). `fuel` bounds the chunks. -/
def Blk.bankGo (n : Nat) : (fuel : Nat) → Blk → Blk
  | 0, b => b
  | fuel + 1, b =>
    let r := b.bankStep n
    if r.2 then Blk.bankGo n fuel r.1 else r.1

/-- Enough steps for a descriptor: every chunk may be rebuilt and skipped. -/
def Blk.bankRun (b : Blk) (n : Nat) : Blk :=
  let k := (b.bank n).staged.length + 1
  match (b.bank n).desc with
  | none => Blk.bankGo n k b
  | some l => Blk.bankGo n (3 * (applyDesc l).chunks + 3 + k) b

/-- The computed chunk is written and committed (R275). -/
def Blk.bankCommit (b : Blk) (n : Nat) (l : List Nat) (w : ChunkWork) : Blk :=
  let d := applyDesc l
  let x := b.bank n
  let c := x.chunk
  let b1 := if keepsM d.opt then b.writeLines d.domM (d.momAt c w.slot 0) (wordBytes w.m) else b
  let b2 := if keepsV d.opt then b1.writeLines d.domM (d.momAt c w.slot 1) (wordBytes w.v) else b1
  let b3 := if d.opt = 5 then b2 else b2.writeLines d.domW (d.masterAt c w.slot) (wordBytes w.master)
  let b4 := b3.writeWcopy d c d.step w.master
  let b5 := b4.writeRec d c { slot := w.slot, valid := true, xp := d.exp, opt := d.opt, group := d.group, step := d.step, crcCur := w.crc,
                              crcOld := w.crcOld, count := d.count c }
  let b6 := b5.add64 R.BANK_CHUNKS_LO R.BANK_CHUNKS_HI 1 n
  let b7 := (b6.add (R.BANK_NF_GRAD.at d.group) w.nfG n).add (R.BANK_NF_MASTER.at d.group) w.nfM n
  let b8 := if w.nfG + w.nfM = 0 then b7 else b7.event .bank 19 n
  let b9 := b8.setBank n (x.nextChunk w.crc)
  let b10 := if d.exp then (let e := b9.expRec n d c 0 d.step d.opt (d.count c) w.crcOld w.crc w.diff; e.1.expPost n ⟨e.2, some (l, c)⟩) else b9
  b10.bankRun n

/-! ## Commands -/

/-- A ring entry (R270), read in the domain of the page's owner. -/
def Blk.bankEntry (b : Blk) (n : Nat) : Except Fail (List Nat) :=
  let a := b.rdAddr R.BANK_RING_BASE_LO R.BANK_RING_BASE_HI n + b.rd R.BANK_RING_GET n % 2 ^ b.rd R.BANK_RING_SIZE n * 64
  match b.readPa clsH (b.owner .bank n) a 64 with
  | .error f => .error f
  | .ok l => .ok ((List.range 8).map (fun k => leNat ((l.drop (8 * k)).take 8)))

/-- A descriptor refused (R271), or ended by a forced isolation (R99). -/
def Blk.bankRefuse (b : Blk) (n cls : Nat) : Blk :=
  let b1 := (b.wr R.BANK_STATUS_LAST 4 n).error .bank n { cls := cls, info1 := b.rd R.BANK_RING_GET n }
  (b1.addW R.BANK_RING_GET 1 n).event .bank 18 n

/-- APPLY_DESCRIPTOR_TAKE (R271–R273): the next ring descriptor is refused, or latched with its coefficients, and its gates follow. -/
def execApplyDescriptorTake (n : Nat) (s : State) : Host.Outcome State Fault Refusal :=
  cmd (decide (n < 12)) s (fun b =>
    b.when (b.serving .bank n && (b.bank n).desc.isNone && b.rd R.BANK_RING_PUT n != b.rd R.BANK_RING_GET n) (fun b =>
      match b.bankEntry n with
      | .error f => (b.ueOf f clsH (some n)).bankRefuse n f.cls
      | .ok l =>
        if !applyValid n l then b.bankRefuse n eDenied
        else (b.setBank n { b.bank n with desc := some l, coef := b.coefs n (applyDesc l).group }).bankRun n))

/-- APPLY_CHUNK_START (R272, R275): the unit looks again at what it waits for, and reads and computes its chunk once nothing holds it. -/
def execApplyChunkStart (n : Nat) (s : State) : Host.Outcome State Fault Refusal :=
  cmd (decide (n < 12)) s (fun b => b.when (b.bank n).desc.isSome (fun b => b.bankRun n))

/-- APPLY_CHUNK_COMMIT (R275): the unit does not go on while an export record waits for room (R291). -/
def execApplyChunkCommit (n : Nat) (s : State) : Host.Outcome State Fault Refusal :=
  cmd (decide (n < 12)) s (fun b =>
    match (b.bank n).desc, (b.bank n).work with
    | some l, some w => b.when (b.bank n).staged.isEmpty (fun b => b.bankCommit n l w)
    | _, _ => b)

/-- Whether an address is one that the unit reads for its chunk: gradient, the current slot's master and moments. -/
def chunkReads (d : ApplyDesc) (c slot a : Nat) : Bool :=
  let inside := fun lo => decide (lo ≤ a) && decide (a < lo + 4 * d.count c)
  inside (d.masterAt c slot) || (keepsM d.opt && (inside (d.gradAt c) || inside (d.momAt c slot 0))) || (keepsV d.opt && inside (d.momAt c slot 1))

/-- APPLY_CHUNK_ABORT (R276): the line at `a`, which the chunk reads, proves uncorrectable. -/
def execApplyChunkAbort (n a : Nat) (s : State) : Host.Outcome State Fault Refusal :=
  cmd (decide (n < 12)) s (fun b =>
    match (b.bank n).desc, (b.bank n).work with
    | some l, some w =>
      let d := applyDesc l
      let slot := if d.opt = 5 then w.slot else 1 - w.slot
      if chunkReads d (b.bank n).chunk slot a then (b.markUe a).bankAbort n d { cls := eEcc, pa := a } else b
    | _, _ => b)

/-- APPLY_RETRY (R276): the chunk is taken again 1 µs after its abort, or once the unit's fault record has gone out (R259). -/
def execApplyRetry (n : Nat) (s : State) : Host.Outcome State Fault Refusal :=
  cmd (decide (n < 12)) s (fun b =>
    b.when ((b.bank n).waiting && !b.recHeld 5 n) (fun b => (b.setBank n { b.bank n with waiting := false }).bankRun n))

/-- The halted chunk's working copy written from the current slot's master words, and the descriptor ends. -/
def Blk.bankRecopy (b : Blk) (n : Nat) (d : ApplyDesc) (c step : Nat) : Except Fail (List Nat) → Blk
  | .error _ => b.bankEnd n 5
  | .ok w => (b.writeWcopy d c step w).bankEnd n 2

/-- The same, from the chunk's commit record. -/
def Blk.bankReslot (b : Blk) (n : Nat) (d : ApplyDesc) (c : Nat) : Except Fail CommitRec → Blk
  | .error _ => b.bankEnd n 5
  | .ok r => b.bankRecopy n d c r.step (b.readWords d.domW (d.masterAt c r.slot) (d.count c))

/-- BANK_CMD ABANDON (R276): the halted chunk's working copy comes from the current slot again. -/
def Blk.bankAbandon (b : Blk) (n : Nat) (l : List Nat) : Blk :=
  b.bankReslot n (applyDesc l) (b.bank n).chunk (b.readRec (applyDesc l) (b.bank n).chunk)

/-- BANK_CMD (R276, R293): 1 RESUME and 2 ABANDON in HALTED, 3 SKIP at a gate; anything else is ignored. A unit that holds its fault record stays stopped: RESUME and
ABANDON are ignored (R259). -/
def Blk.bankCmd (b : Blk) (n action : Nat) : Blk :=
  let x := b.bank n
  match x.desc, action with
  | some _, 1 => b.when (x.halted && !b.recHeld 5 n) (fun b => (b.setBank n { x with halted := false, retries := 0 }).bankRun n)
  | some l, 2 => b.when (x.halted && !b.recHeld 5 n) (fun b => b.bankAbandon n l)
  | some l, 3 => b.when (!x.passed && b.gate n (applyDesc l) != 0) (fun b => b.bankEnd n 3)
  | _, _ => b

/-- The next export record has left (R291): its room is free, and a unit in WAIT_EXPORT goes on. -/
def Blk.expSent (b : Blk) (n : Nat) (r : List Byte) (rest : List (List Byte)) : Blk :=
  (b.setBank n { b.bank n with expQ := rest, expGet := (b.bank n).expGet + ringLen r.length }).bankRun n

end Sys2Proof.Machine
end

