-- ==== Sys2Proof/Machine/Replica.lean ====
section
/-! DEFINITION. The loss monitor (R281–R283, R294), the fold digest unit, replica comparison and repair (R285–R289, R295). -/

namespace Sys2Proof.Machine

/-- Every unit that waits at a gate, at a fetched chunk or for export room looks again. -/
def Blk.wakeBanks (b : Blk) : Blk := b.each (List.range 12) (fun b n => if (b.bank n).desc.isSome then b.bankRun n else b)

/-! ## The loss monitor (R281, R282) -/

/-- flag(kind): true for SPIKE, false for NONFINITE. -/
def Blk.lossRaise (b : Blk) (spike : Bool) (x : Nat) : Blk :=
  let b1 := if spike then (b.inc R.LOSS_SPIKE_CNT).event .loss 16 else (b.inc R.LOSS_NONFINITE_CNT).event .loss 17
  if b1.lossFlag then b1
  else
    let b2 := ((b1.wr R.LOSS_FLAG_STEP (b1.rd R.LOSS_STEP)).wr R.LOSS_FLAG_SPIKE (b2n spike)).wr R.LOSS_FLAG_NONFINITE (b2n !spike)
    let b3 := { b2.wr R.LOSS_FLAG_VALUE x with lossFlag := true }
    if b3.on R.LOSS_CTRL_HOLD_EN then (b3.wr R.LOSS_FLAG_HELD 1).event .loss 18 else b3

/-- A value folded into the statistics. -/
def Blk.lossFold (b : Blk) (x : Nat) : Blk :=
  let mu := b.rd R.LOSS_MEAN
  let var := b.rd R.LOSS_VAR
  let al := b.rd R.LOSS_ALPHA
  let d := fsub x mu
  ((b.wr R.LOSS_MEAN (ffma al d mu)).wr R.LOSS_VAR (fmul (fsub one32 al) (ffma (fmul al d) d var))).wr R.LOSS_N (min (b.rd R.LOSS_N + 1) 0xFFFF)

/-- One value (R281). -/
def Blk.lossValue (b : Blk) (x : Nat) : Blk :=
  let b := b.inc R.LOSS_IN_CNT
  if !b.on R.LOSS_CTRL_EN then b
  else
    let b := b.wr R.LOSS_LAST x
    let n := b.rd R.LOSS_N
    if isNonFinite32 x then b.lossRaise false x
    else if n = 0 then ((b.wr R.LOSS_MEAN x).wr R.LOSS_VAR 0).wr R.LOSS_N 1
    else
      let spike := decide (b.rd R.LOSS_WARMUP ≤ n) && flt (fmul (b.rd R.LOSS_K) (fsqrt (b.rd R.LOSS_VAR))) (fsub x (b.rd R.LOSS_MEAN))
      let b := if spike then b.lossRaise true x else b
      if spike && !b.on R.LOSS_CTRL_FOLD_SPIKES then b else b.lossFold x

/-- LOSS_VALUE (R281): the oldest value that threads have sent. -/
def execLossValue (s : State) : Host.Outcome State Fault Refusal :=
  cmd true s (fun b =>
    match b.lossQ with
    | [] => b
    | x :: q => ({ b with lossQ := q }).lossValue x)

/-- LOSS_RELEASE.GO (R282): HELD clears, LOSS_FLAG is armed again, the held units go on. -/
def Blk.lossRelease (b : Blk) : Blk := ({ b.wr R.LOSS_FLAG_HELD 0 with lossFlag := false }).wakeBanks

/-- LOSS_CTRL.RESET (R294). -/
def Blk.lossReset (b : Blk) : Blk := ((b.wr R.LOSS_N 0).wr R.LOSS_MEAN 0).wr R.LOSS_VAR 0

/-! ## Records to other modules (R324, R351) -/

/-- A record to a site rank on the port that the route table names. -/
def Blk.sendTo (b : Blk) (tc dst len : Nat) (m : NMsg) : Blk :=
  match b.routeOf dst with
  | .error f => (b.ueOf f clsH none).error .nred 0 { cls := f.cls }
  | .ok none => b
  | .ok (some q) => b.nearSend q tc len m

/-! ## Comparison (R287, R288) -/

def Blk.setShard (b : Blk) (k : Nat) (x : ShardSt) : Blk := { b with dig := { b.dig with shards := SMap.set {} b.dig.shards k x } }

/-- How many of the digests present equal `d`. -/
def holders (l : List (Nat × Nat)) (d : Nat) : Nat := (l.filter (fun e => e.2 == d)).length

/-- The winning digest (R287): `some none` is MATCH, `none` is UNDECIDED. -/
def digWinner (members keeper : Nat) (l : List (Nat × Nat)) : Option (Option Nat) :=
  match l with
  | [] => none
  | e :: r =>
    if r.all (fun x => x.2 == e.2) then some none
    else match l.find? (fun x => decide (members < 2 * holders l x.2)) with
      | some x => some (some x.2)
      | none => match l.find? (fun x => x.1 == keeper) with
        | some x => some (some x.2)
        | none => none

/-- The member whose digest wins: the keeper where it holds that digest, otherwise the lowest member that does. -/
def digHolder (keeper : Nat) (l : List (Nat × Nat)) (d : Nat) : Nat :=
  if l.contains (keeper, d) then keeper else ((List.range 8).find? (fun i => l.contains (i, d))).getD 0

/-- The chunks of a shard, as (part, chunk), in ascending order of the parts that this module applies. -/
def Blk.shardChunks (b : Blk) (shard : Nat) : List (Nat × Nat) :=
  (b.dig.parts.filter (fun p => p.shard == shard)).flatMap (fun p => (List.range (applyDesc p.desc).chunks).map (fun c => (p.part, c)))

/-- REPAIR_FETCH (R289): a loser requests every chunk of the shard from the winner. -/
def Blk.repairFetch (b : Blk) (shard step rank digest : Nat) : Blk :=
  let l := b.shardChunks shard
  let b1 := { b with dig := { b.dig with fetch := b.dig.fetch ++ [Fetch.mk shard step rank digest l] } }
  b1.each l (fun b e => b.sendTo 6 rank 16 (.repairReq rank shard e.1 e.2 step))

/-- DIGEST_DECIDE (R287, R288). -/
def Blk.decideCmp (b : Blk) (c : DigCmp) (own : Nat) : Blk :=
  let e := b.shardEntry c.shard
  let keeper := e.2.1
  let self := e.2.2.1
  let l := (self, own) :: c.got
  let b0 := { b with dig := { b.dig with cmps := b.dig.cmps.filter (fun x => !(x.shard == c.shard && x.step == c.step)) } }
  let goTo := fun (b : Blk) (st : Nat) => b.setShard c.shard { b.shardSt c.shard with state := st }
  (match digWinner e.1 keeper l with
  | none => ((goTo b0 6).inc R.DIG_UNDECIDED_CNT).event .dig 18
  | some none => (goTo b0 2).inc R.DIG_MATCH_CNT
  | some (some w) =>
    let h := digHolder keeper l w
    let b1 := ((b0.inc R.DIG_MISMATCH_CNT).error .dig 0
      { cls := eDigest, step := some c.step, info0 := c.shard + 2 ^ 8 * h, info1 := own % 2 ^ 32, info2 := w % 2 ^ 32, silent := true, detail0 := own,
        detail1 := w }).event .dig 16
    if own = w then goTo b1 3 else (goTo b1 4).repairFetch c.shard c.step (e.2.2.2.2.getD h 0) w).wakeBanks

/-- A comparison decided once every member's digest is present. -/
def Blk.tryDecide (b : Blk) (shard step : Nat) : Blk :=
  match b.dig.cmps.find? (fun c => c.shard == shard && c.step == step) with
  | some c =>
    match c.own with
    | some own => if c.got.length + 1 = (b.shardEntry shard).1 then b.decideCmp c own else b
    | none => b
  | none => b

def Blk.setCmp (b : Blk) (c : DigCmp) : Blk :=
  { b with dig := { b.dig with cmps := b.dig.cmps.map (fun x => if x.shard = c.shard ∧ x.step = c.step then c else x) } }

/-- The step at which every part of a shard stands, and the shard digest (R285). -/
def Blk.shardReady (b : Blk) (shard : Nat) : Option (Nat × Nat) :=
  let ps := b.dig.parts.filter (fun p => p.shard == shard)
  let n := (b.shardEntry shard).2.2.2.1
  match ps with
  | [] => none
  | p :: _ =>
    if (List.range n).all (fun i => ps.any (fun q => q.part == i && q.step == p.step)) then
      some (p.step, (ps.filter (fun q => decide (q.part < n))).foldl (fun a q => a ^^^ rotl64 q.d q.part) 0)
    else none

/-- DIGEST_READY (R285, R287): the shard digest is taken; where a comparison is due it is sent to every other member. -/
def Blk.digestReady (b : Blk) (shard : Nat) : Blk :=
  let b := b.shardTouch shard
  match b.shardReady shard with
  | none => b
  | some (step, d) =>
    let st := b.shardSt shard
    let e := b.shardEntry shard
    let cmp := b.dig.cmps.find? (fun c => c.shard == shard && c.step == step)
    match cmp with
    | none => if e.1 = 1 then b.setShard shard ⟨7, step, d, true⟩ else b.setShard shard { st with step := step, digest := d, ready := true }
    | some c =>
      if c.own.isSome then b
      else
        let here := b.dig.early.filter (fun x => x.1 == shard && x.2.1 == step)
        let got := here.foldl (fun a x => if a.any (fun y => y.1 == x.2.2.1) then a else a ++ [(x.2.2.1, x.2.2.2)]) c.got
        let b1 := (b.setShard shard ⟨1, step, d, true⟩).setCmp { c with own := some d, got := got }
        let b2 := { b1 with dig := { b1.dig with early := b1.dig.early.filter (fun x => !(x.1 == shard && x.2.1 == step)) } }
        let b3 := b2.each (e.2.2.2.2.zipIdx) (fun b m => if m.2 = e.2.2.1 then b else b.sendTo 6 m.1 16 (.digest m.1 shard step d))
        b3.tryDecide shard step

def execDigestReady (shard : Nat) (s : State) : Host.Outcome State Fault Refusal :=
  cmd (decide (shard < 256)) s (fun b => b.digestReady shard)

/-- DIGEST_RECEIVE (R287): a member's digest, by its site rank. One that comes before its comparison is due is kept; one of no member, or a second one of a member, is dropped. -/
def Blk.digestReceive (b : Blk) (src shard step d : Nat) : Blk :=
  let b := b.shardTouch shard
  let e := b.shardEntry shard
  match e.2.2.2.2.findIdx? (· == src) with
  | none => b
  | some i =>
    if i = e.2.2.1 then b
    else match b.dig.cmps.find? (fun c => c.shard == shard && c.step == step) with
      | some c =>
        if c.got.any (fun x => x.1 == i) then b else (b.setCmp { c with got := c.got ++ [(i, d)] }).tryDecide shard step
      | none =>
        if stepGe (b.shardSt shard).step step && (b.shardSt shard).state != 0 then b
        else { b with dig := { b.dig with early := b.dig.early ++ [(shard, step, i, d)] } }

def execDigestReceive (src shard step d : Nat) (s : State) : Host.Outcome State Fault Refusal :=
  cmd (decide (shard < 256) && decide (step < 2 ^ 24) && decide (d < 2 ^ 64)) s (fun b => b.when (b.tcAny 6) (fun b => b.digestReceive src shard step d))

/-- DIGEST_WAIT_EXPIRE (R287): DIG_WAIT beats after its own digest the unit decides without the missing members. -/
def execDigestWaitExpire (shard step : Nat) (s : State) : Host.Outcome State Fault Refusal :=
  cmd (decide (shard < 256)) s (fun b =>
    match b.dig.cmps.find? (fun c => c.shard == shard && c.step == step) with
    | some c =>
      match c.own with
      | some own => b.when (decide (b.rd R.DIG_WAIT ≤ c.waited)) (fun b => b.decideCmp c own)
      | none => b
    | none => b)

/-- The beats that a comparison has waited since its own digest was ready (R287), at a tick. -/
def Blk.tickDigest (b : Blk) : Blk :=
  { b with dig := { b.dig with cmps := b.dig.cmps.map (fun c => if c.own.isSome then { c with waited := c.waited + 1 } else c) } }

/-! ## Repair (R289) -/

/-- The part of a shard that this module applies. -/
def Blk.digPart (b : Blk) (shard part : Nat) : Option DigPart := b.dig.parts.find? (fun p => p.shard == shard && p.part == part)

/-- Chunks that are outstanding for a fetch, with one more or one less. -/
def Fetch.put (f : Fetch) (e : Nat × Nat) : Fetch := if f.chunks.contains e then f else { f with chunks := f.chunks ++ [e] }
def Fetch.drop (f : Fetch) (e : Nat × Nat) : Fetch := { f with chunks := f.chunks.filter (· != e) }

/-- A request for a chunk arrives: the chunk counts as being fetched until it is served. -/
def Blk.serveBegin (b : Blk) (src shard part chunk step : Nat) : Blk :=
  let hit := fun (f : Fetch) => f.shard == shard && f.step == step && f.rank == src
  let l := if b.dig.serve.any hit then b.dig.serve.map (fun f => if hit f then f.put (part, chunk) else f)
    else b.dig.serve ++ [Fetch.mk shard step src 0 [(part, chunk)]]
  { b with dig := { b.dig with serve := l } }

/-- The chunk as it stood at the compared step: the current slot while the record names that step, the other one while it names the next (R289). -/
def Blk.serveChunk (b : Blk) (q : DigPart) (chunk step : Nat) : Except Fail RepairChunk :=
  let d := applyDesc q.desc
  match b.readRec d chunk with
  | .error f => .error f
  | .ok r =>
    if r.step ≠ step ∧ r.step ≠ (step + 1) % 2 ^ 24 then .error { cls := eDenied }
    else
      let slot := if r.step = step then r.slot else 1 - r.slot
      let k := r.count
      match b.readWords d.domW (d.masterAt chunk slot) k, (if keepsM r.opt then b.readWords d.domM (d.momAt chunk slot 0) k else .ok []),
        (if keepsV r.opt then b.readWords d.domM (d.momAt chunk slot 1) k else .ok []) with
      | .ok w, .ok m, .ok v =>
        .ok { shard := q.shard, part := q.part, chunk := chunk, step := step, opt := r.opt, group := r.group,
              crc := if r.step = step then r.crcCur else r.crcOld, count := k, master := w, m := m, v := v }
      | .error f, _, _ => .error f
      | _, .error f, _ => .error f
      | _, _, .error f => .error f

/-- REPAIR_SERVE (R289): a request for a chunk arrives (`served` false), and later the winner has served it (`served` true). -/
def execRepairServe (src shard part chunk step : Nat) (served : Bool) (s : State) : Host.Outcome State Fault Refusal :=
  cmd (decide (shard < 256)) s (fun b =>
    match b.digPart shard part with
    | none => b
    | some q =>
      if !decide (chunk < (applyDesc q.desc).chunks) then b
      else if !served then b.when (b.tcAny 6) (fun b => b.serveBegin src shard part chunk step)
      else if !b.dig.serve.any (fun f => f.shard == shard && f.step == step && f.rank == src && f.chunks.contains (part, chunk)) then b
      else match b.serveChunk q chunk step with
        | .error f => (b.ueOf f clsH (some q.unit)).error .dig 0 { cls := f.cls, step := some step, info0 := shard }
        | .ok c =>
          let l := (b.dig.serve.map (fun f => if f.shard = shard ∧ f.step = step ∧ f.rank = src then f.drop (part, chunk) else f)).filter
            (fun f => !f.chunks.isEmpty)
          (((({ b with dig := { b.dig with serve := l } }).inc R.DIG_SERVE_CNT).sendTo 6 src (64 + 4 * (c.master.length + c.m.length + c.v.length))
            (.repairChunk src c))).wakeBanks)

/-- The descriptor of a shard's part that waits at a unit's digest gate, and otherwise the last one applied (R289). -/
def Blk.repairDesc (b : Blk) (q : DigPart) : ApplyDesc :=
  match (b.bank q.unit).desc with
  | some l => if (applyDesc l).shard = q.shard ∧ (applyDesc l).part = q.part then applyDesc l else applyDesc q.desc
  | none => applyDesc q.desc

/-- A fetched chunk's words, record and working copy written into the current slot. -/
def Blk.repairStore (b : Blk) (d : ApplyDesc) (c : RepairChunk) (r : CommitRec) : Blk :=
  let b1 := b.writeLines d.domW (d.masterAt c.chunk r.slot) (wordBytes c.master)
  let b2 := if keepsM c.opt then b1.writeLines d.domM (d.momAt c.chunk r.slot 0) (wordBytes c.m) else b1
  let b3 := if keepsV c.opt then b2.writeLines d.domM (d.momAt c.chunk r.slot 1) (wordBytes c.v) else b2
  let b4 := b3.writeRec d c.chunk { slot := r.slot, valid := true, xp := false, opt := c.opt, group := c.group, step := c.step, crcCur := c.crc,
                                    crcOld := r.crcCur, count := c.count }
  b4.writeWcopy d c.chunk c.step c.master

/-- The words of a slot as they stand; those that cannot be read count as 0. -/
def Blk.wordsAt (b : Blk) (dom pa n : Nat) : List Nat := match b.readWords dom pa n with | .ok l => l | .error _ => List.replicate n 0

/-- What a fetched chunk changes in the current slot. -/
def Blk.repairDiff (b : Blk) (d : ApplyDesc) (c : RepairChunk) (r : CommitRec) : List Nat :=
  xorWords (b.wordsAt d.domW (d.masterAt c.chunk r.slot) c.master.length) c.master
    ++ xorWords (b.wordsAt d.domM (d.momAt c.chunk r.slot 0) c.m.length) c.m ++ xorWords (b.wordsAt d.domM (d.momAt c.chunk r.slot 1) c.v.length) c.v


/-- A loser's fetch has one chunk less; with none left the shard is REPAIRED. -/
def Blk.fetched (b : Blk) (c : RepairChunk) : Blk :=
  let l := b.dig.fetch.map (fun f => if f.shard = c.shard ∧ f.step = c.step then f.drop (c.part, c.chunk) else f)
  let done := l.find? (fun f => f.shard == c.shard && f.chunks.isEmpty)
  let b1 := { b with dig := { b.dig with fetch := l.filter (fun f => !f.chunks.isEmpty) } }
  match done with
  | none => b1
  | some f =>
    (((b1.setShard c.shard { b1.shardSt c.shard with state := 5, digest := f.digest }).inc R.DIG_REPAIR_CNT).event .dig 17).wakeBanks

/-- A fetched chunk written into the slot that its commit record names, with its record, its working copy and, where export is on, its REPAIR record (R289, R291).
One whose commit record cannot be read is not written and stays outstanding. -/
def Blk.repairWith (b : Blk) (q : DigPart) (c : RepairChunk) : Except Fail CommitRec → Blk
  | .error f => (b.ueOf f clsH (some q.unit)).error .dig 0 { cls := f.cls, step := some c.step, info0 := c.shard }
  | .ok r =>
    let d := b.repairDesc q
    let b1 := b.repairStore d c r
    let e := b1.expRec q.unit (applyDesc q.desc) c.chunk 1 c.step c.opt c.count r.crcCur c.crc (b.repairDiff d c r)
    (if (applyDesc q.desc).exp then e.1.expPost q.unit ⟨e.2, none⟩ else b1).fetched c

/-- REPAIR_CHUNK_RECEIVE (R289). -/
def execRepairChunkReceive (c : RepairChunk) (s : State) : Host.Outcome State Fault Refusal :=
  cmd (decide (c.shard < 256) && decide (c.count ≤ chunkLen) && c.master.length == c.count) s (fun b =>
    if !b.tcAny 6 || !b.dig.fetch.any (fun f => f.shard == c.shard && f.step == c.step && f.chunks.contains (c.part, c.chunk)) then b
    else match b.digPart c.shard c.part with
      | none => b
      | some q => b.repairWith q c (b.readRec (b.repairDesc q) c.chunk))

end Sys2Proof.Machine
end

