-- ==== Sys2Proof/Machine/Reduce.lean ====
section
/-! DEFINITION. In-link reduction (R335–R348): groups, attempts and aborts (R297, R344, R345), posts, bucket contexts, hop entries, coded hops (R342, R365, R374),
switch channels (R352–R356), the step close (R347). -/

namespace Sys2Proof.Machine

def Blk.setBorder (b : Blk) (x : Border) : Blk := { b with border := x }

/-! ## Groups (R335–R337, R361) -/

/-- The fields of a group descriptor's 256 bytes. -/
def groupOf (l : List Byte) : Group :=
  let v := leNat l
  let f := fun off lo w => bits v (8 * off + lo) w
  { kind := f 0 0 8, switch := f 1 0 1 == 1, channel := f 1 1 2, coded := f 1 4 1 == 1, gate := f 1 5 1 == 1, bf16 := f 1 6 1 == 1, deadline := f 2 0 8,
    members := f 4 0 16, self := f 6 0 16, buckets := f 8 0 16, bits := f 10 0 4, ef := f 10 4 1 == 1, scale := f 10 8 8, layers := f 12 0 16,
    hopTab := f 16 0 64, memTab := f 24 0 64, auxTab := f 32 0 64 }

/-- The coder parameters of a coded group (R361). -/
def Group.code (g : Group) : CodeP := ⟨if g.bf16 then 1 else 0, g.bits, g.scale⟩

/-- Whether a descriptor keeps the table of R335, with the coder parameters of R361. -/
def groupOk (l : List Byte) : Bool :=
  let v := leNat l
  let g := groupOf l
  let z := fun off n => bits v (8 * off) (8 * n) == 0
  decide (g.kind ≤ 4) && bits v 15 1 == 0 && !(g.coded && g.switch) && g.deadline != 0 && decide (1 ≤ bits v 24 8) && decide (bits v 24 8 ≤ 8)
    && decide (1 ≤ g.members) && decide (g.members ≤ 16384) && decide (g.self < g.members) && g.buckets != 0 && z 14 2 && z 40 216
    && (!g.coded || (g.code.ok && bits v (8 * 10 + 5) 3 == 0))

/-- The bytes of a table of the border, in the domain of NRED's owner (R335); a read that fails gives its class, and an uncorrectable line its mark (R255). -/
def Blk.borderLoad (b : Blk) (pa n : Nat) : Blk × Except Nat (List Byte) :=
  match b.readPa clsH (b.owner .nred) pa n with
  | .ok l => (b, .ok l)
  | .error f => (b.ueOf f clsH none, .error f.cls)

/-- A table of the border, where it can be read. -/
def Blk.borderRead (b : Blk) (pa n : Nat) : Option (List Byte) :=
  match b.readPa clsH (b.owner .nred) pa n with
  | .ok l => some l
  | .error _ => none

/-- Where a group's descriptor lies (R335). -/
def Blk.groupPa (b : Blk) (g : Nat) : Nat := b.rdAddr R.NRED_GRP_BASE_LO R.NRED_GRP_BASE_HI + 256 * g

/-- A group's descriptor, where it can be read and keeps R335. -/
def Blk.groupAt (b : Blk) (g : Nat) : Option Group :=
  match b.borderRead (b.groupPa g) 256 with
  | some l => if groupOk l then some (groupOf l) else none
  | none => none

/-- A group's descriptor that a read has found uncorrectable leaves its mark at its controller. -/
def Blk.groupUe (b : Blk) (g : Nat) : Blk := b.ueIn clsH none (b.groupPa g) 256

/-- An entry of a hop table (R337). -/
def hopOf (v : Nat) : Hop :=
  { op := bits v 0 8, left := bits v 8 8, right := bits v 16 8, level := bits v 24 8, out := bits v 32 16, first := bits v 48 16, count := bits v 64 16, coded := bit v 80 }

/-- The hop table (R337): it ends at the first entry with OP 0, or after 128 entries, which are as many as source codes can name. -/
def Blk.hopsFrom (b : Blk) (g : Group) : (fuel e : Nat) → Except Fail (List Hop)
  | 0, _ => .ok []
  | fuel + 1, e =>
    match b.readPa clsH (b.owner .nred) (g.hopTab + 16 * e) 16 with
    | .error f => .error f
    | .ok l =>
      if (hopOf (leNat l)).op = 0 then .ok []
      else match b.hopsFrom g fuel (e + 1) with
        | .error f => .error f
        | .ok t => .ok (hopOf (leNat l) :: t)

/-- Entries of a member table (R336) as (site rank, piece length). -/
def membersIn (n : Nat) (l : List Byte) : List (Nat × Nat) :=
  (List.range n).map (fun r => let v := leNat ((l.drop (8 * r)).take 8); (bits v 0 14, bits v 16 32))

/-- The member table, where it can be read. -/
def Blk.membersOf (b : Blk) (g : Group) : List (Nat × Nat) :=
  match b.borderRead g.memTab (8 * g.members) with
  | none => []
  | some l => membersIn g.members l

/-- The ports that a source code or an OUT field names. -/
def srcPorts (c : Nat) : List Nat := if 0x10 ≤ c ∧ c < 0x18 then [c - 0x10] else []
def Hop.ports (h : Hop) : List Nat := srcPorts h.left ++ (if h.op = 1 then srcPorts h.right else []) ++ setBits 8 h.out

/-- The ports of a hop table, each once. -/
def hopPorts (l : List Hop) : List Nat := (List.range 8).filter (fun p => l.any (fun h => h.ports.contains p))

/-- Whether an entry's operands travel coded (R342). -/
def Hop.isCoded (h : Hop) (g : Group) : Bool := g.coded && h.coded && h.level == 2

/-- An entry of the error-feedback table, where it lets a group with EF work (R365). -/
def Blk.efEntry (b : Blk) (g : Nat) : Blk × Except Fail (Nat × Nat × Nat) :=
  match b.loadVa modXl clsO none (b.rdAddr R.NCOD_EF_TABLE_LO R.NCOD_EF_TABLE_HI + 32 * g) 32 with
  | (b', .error f) => (b', .error f)
  | (b', .ok l) =>
    let v := leNat l
    (b', if 1 ≤ bits v 128 32 ∧ bits v 128 32 ≤ 64 then .ok (bits v 0 48, bits v 64 48, bits v 128 32) else .error { cls := eDenied })

/-- A group with its hop table and pieces as a bucket names it: those of a group that codes need partners with a coder, and error feedback its table's entry (R365). -/
def Blk.groupCoder (b : Blk) (k : Nat) (g : Group) (hops : List Hop) (mem : List (Nat × Nat)) : Blk × Except Nat (Group × List Hop × List (Nat × Nat)) :=
  let codedPorts := (List.range 8).filter (fun p => hops.any (fun h => h.isCoded g && h.ports.contains p))
  if codedPorts.any (fun p => (b.nport p).coder != 1) then (b, .error eDenied)
  else if g.coded && g.ef then
    match b.efEntry k with
    | (b', .ok _) => (b', .ok (g, hops, mem))
    | (b', .error f) => (b', .error f.cls)
  else (b, .ok (g, hops, mem))

/-- A group as a bucket names it: descriptor, hop table and pieces, or the class with which it is refused: ACCESS_DENIED where it breaks its rules, else that of the
table that cannot be read (R335, R361, R365). -/
def Blk.groupUse (b : Blk) (k : Nat) : Blk × Except Nat (Group × List Hop × List (Nat × Nat)) :=
  match b.borderLoad (b.groupPa k) 256 with
  | (b1, .error c) => (b1, .error c)
  | (b1, .ok l) =>
    if !groupOk l then (b1, .error eDenied)
    else match b1.hopsFrom (groupOf l) 128 0 with
      | .error f => (b1.ueOf f clsH none, .error f.cls)
      | .ok hops => match b1.borderLoad (groupOf l).memTab (8 * (groupOf l).members) with
        | (b2, .error c) => (b2, .error c)
        | (b2, .ok m) => b2.groupCoder k (groupOf l) hops (membersIn (groupOf l).members m)

/-- Bytes per element of a group's values. -/
def Group.size (g : Group) : Nat := if g.bf16 then 2 else 4

/-! ## Attempts (R297, R344, R345) -/

def Blk.stepRec (b : Blk) (s : Nat) : Option StepRec := b.steps.find? (fun x => x.step == s)

/-- The step with the lowest number of a list, in the order of R296. -/
def oldest : List StepRec → Option StepRec
  | [] => none
  | x :: l => match oldest l with
    | some y => if stepGe x.step y.step then some y else some x
    | none => some x

/-- A step seen in a post or a message: the four most recent keep their attempt counts; none for an older one (R344). -/
def Blk.seeStep (b : Blk) (s : Nat) : Blk × Option StepRec :=
  match b.stepRec s with
  | some x => (b, some x)
  | none =>
    let x : StepRec := { step := s }
    if b.steps.length < 4 then ({ b with steps := b.steps ++ [x] }, some x)
    else match oldest b.steps with
      | some o =>
        if stepGe o.step s then (b, none)
        else
          let b1 := { b with steps := b.steps.filter (fun (y : StepRec) => y.step != o.step) ++ [x] }
          (b1.setBorder { b1.border with done := b1.border.done.filter (fun k => k.step != o.step) }, some x)
      | none => (b, some x)

def Blk.setStep (b : Blk) (x : StepRec) : Blk := { b with steps := b.steps.map (fun y => if y.step = x.step then x else y) }

/-- NRED_STEP and NRED_ABORT.EXHAUSTED follow the step of the latest post (R359). -/
def Blk.showStep (b : Blk) : Blk :=
  match b.stepRec (b.rd R.NRED_STEP_STEP) with
  | some x => (b.wr R.NRED_STEP_ATTEMPT x.attempt).wr R.NRED_ABORT_EXHAUSTED (b2n x.exhausted)
  | none => b

/-- What a record's attempt makes of it: 0 in order, 1 discarded and counted, 2 held (R297, R344, R345). -/
def Blk.attemptGate (b : Blk) (s a : Nat) : Blk × Nat :=
  match b.seeStep s with
  | (b', none) => (b', 1)
  | (b', some x) => (b', if x.exhausted || decide (a < x.attempt) then 1 else if x.attempt < a then 2 else 0)

/-! ## Contexts (R340) -/

/-- Contexts of a port in use. -/
def Blk.openCount (b : Blk) (p : Nat) : Nat := (b.border.buckets.filter (fun x => x.ports.contains p)).length

/-- NRED_OPEN shows the contexts; OPEN_FULL when they first reach 64 (R359, R360). -/
def Blk.showOpen (b : Blk) : Blk :=
  b.each (List.range 8) (fun b p =>
    let n := b.openCount p
    if n = b.rd R.NRED_OPEN_OPEN p then b
    else
      let b1 := (b.wr R.NRED_OPEN_OPEN n p).wr R.NRED_OPEN_PEAK (max n (b.rd R.NRED_OPEN_PEAK p)) p
      if n = 64 then b1.event .nred 20 p else b1)

def Blk.bucket? (b : Blk) (k : BKey) : Option Bucket := b.border.buckets.find? (fun x => x.key == k)

def Blk.setBucket (b : Blk) (x : Bucket) : Blk :=
  b.setBorder { b.border with buckets := b.border.buckets.map (fun y => if y.key = x.key then x else y) }

/-- A bucket put in progress. -/
def Blk.addBucket (b : Blk) (x : Bucket) : Blk := b.setBorder { b.border with buckets := b.border.buckets ++ [x] }

/-- An OPEN of a partner granted: the bucket holds a context of the port (R340). -/
def Blk.grantCtx (b : Blk) (p : Nat) (k : BKey) : Blk :=
  match b.bucket? k with
  | none => b
  | some x => ((b.setBucket { x with ports := if x.ports.contains p then x.ports else x.ports ++ [p] }).showOpen).control p (.grantB k)

/-- OPENs that waited are granted in the order they arrived, on ports whose NRED page serves (R98). -/
def Blk.openDrain (b : Blk) : Blk :=
  b.border.openWait.foldl (fun b e =>
    if b.serving .nred e.1 && decide (b.openCount e.1 < 64) then
      (b.setBorder { b.border with openWait := b.border.openWait.erase e }).grantCtx e.1 e.2
    else b) b

/-! ## Addition and records (R337, R338) -/

/-- Two operands added, left plus right, in FP32, rounded to BF16 in a BF16 group. -/
def addVals (g : Group) (l r : List Nat) : List Nat :=
  (l.zip r).map (fun e =>
    if g.bf16 then convert 1 .rne (f32 (fadd (widen 1 0x7F e.1) (widen 1 0x7F e.2))) else fadd e.1 e.2)

def Bucket.get (x : Bucket) (src r : Nat) : Option (List Nat) := (x.vals.find? (fun e => e.1 == src && e.2.1 == r)).map (·.2.2)
def Bucket.put (x : Bucket) (src r : Nat) (v : List Nat) : Bucket :=
  match x.get src r with
  | some _ => x
  | none => { x with vals := x.vals ++ [(src, r, v)] }

/-- A piece's first element in the bucket. -/
def Bucket.offset (x : Bucket) (r : Nat) : Nat := (x.lens.take r).foldl (· + ·) 0

/-- A record of a bucket for a port: sent once the partner has granted the bucket, after an OPEN (R340). -/
def Blk.toPort (b : Blk) (x : Bucket) (p len : Nat) (m : NMsg) : Blk × Bucket :=
  if x.granted.contains p then (b.nearSend p 1 len m, x)
  else
    let x1 := { x with hold := x.hold ++ [(p, len, m)] }
    if x.asked.contains p then (b, x1) else (b.control p (.openB x.key), { x1 with asked := x1.asked ++ [p] })

/-- A message for several ports. -/
def Blk.toPorts (x : Bucket) (len : Nat) (m : NMsg) : List Nat → Blk → Blk × Bucket
  | [], b => (b, x)
  | p :: ps, b => let r := b.toPort x p len m; Blk.toPorts r.2 len m ps r.1

/-- Piece `r` of entry `e` is complete: sent to OUT, and kept as a result where OUT or DELIVER says so. -/
def Blk.emit (b : Blk) (x : Bucket) (e : Nat) (h : Hop) (r : Nat) (v : List Nat) : Blk × Bucket :=
  let x1 := x.put (0x80 + e) r v
  let x2 := if h.op = 3 || bit h.out 8 then { x1 with res := x1.res ++ [(r, v)] } else x1
  if h.op = 3 then (b, x2) else Blk.toPorts x2 (16 + x.grp.size * v.length) (.bucket x.key r v) (setBits 8 h.out) b

/-- The value of an uncoded entry's piece once its operands are complete. -/
def hopValue (x : Bucket) (h : Hop) (r : Nat) : Option (List Nat) :=
  match x.get h.left r with
  | none => none
  | some l => if h.op = 1 then (x.get h.right r).map (addVals x.grp l) else some l

/-- The pieces of a hop entry. -/
def Hop.pieces (h : Hop) : List Nat := (List.range h.count).map (h.first + ·)

/-- One pass over an uncoded entry. -/
def Blk.runHop (e : Nat) (h : Hop) : List Nat → Blk → Bucket → Blk × Bucket
  | [], b, x => (b, x)
  | r :: rs, b, x =>
    match x.get (0x80 + e) r, hopValue x h r with
    | none, some v => let o := b.emit x e h r v; Blk.runHop e h rs o.1 o.2
    | _, _ => Blk.runHop e h rs b x

/-! ## Coded hops (R342, R365, R374, R376) -/

/-- The elements of a coded entry, in piece order, once all are complete. -/
def codedVals (x : Bucket) (h : Hop) : Option (List Nat) :=
  let l := h.pieces.map (hopValue x h)
  if l.all Option.isSome then some (l.flatMap (fun o => o.getD [])) else none

/-- Whether an operand of an entry arrived coded (R365): it came from a port, or from an entry whose own operands did. -/
def Bucket.arrivedCoded (x : Bucket) (c : Nat) : Bool :=
  decide (0x10 ≤ c) && decide (c < 0x18) && x.hops.any (fun h => h.isCoded x.grp && (h.left == c || (h.op == 1 && h.right == c)))

/-- The port whose coder codes an entry: the first port of OUT, else of its operands, else N0. -/
def Hop.coder (h : Hop) : Nat := match setBits 8 h.out ++ srcPorts h.left ++ srcPorts h.right with | p :: _ => p | [] => 0

/-- The blocks of an element count (R362): an empty operand is one block. -/
def blockCount (p : CodeP) (n : Nat) : Nat := max 1 ((n + (p.perBlock - 1)) / p.perBlock)

/-- Work for a near port's encoder (`dec` false) or decoder, which asks for leave (R376). -/
def Blk.codeTask (b : Blk) (dec : Bool) (p : Nat) (t : CodeTask) : Blk :=
  let x := b.border
  let b1 := b.setBorder (if dec then { x with dec := SMap.modify [] x.dec p (· ++ [t]) } else { x with enc := SMap.modify [] x.enc p (· ++ [t]) })
  b1.lvAsk (.coder (2 * p + b2n dec))

/-- A coded SEND of blocks that arrived coded forwards them unchanged; any other coded entry is coded block by block. -/
def Blk.runCoded (b : Blk) (x : Bucket) (e : Nat) (h : Hop) : Blk × Bucket :=
  if x.coding.contains e then (b, x)
  else match codedVals x h with
    | none => (b, x)
    | some v =>
      let x1 := { x with coding := x.coding ++ [e] }
      if h.op ≠ 1 && x.arrivedCoded h.left then
        let blks := x1.inBlocks.filter (fun k => k.1 == h.left - 0x10 && k.2.1 == h.first)
        let o := blks.foldl (fun (o : Blk × Bucket) k =>
          let o1 := if h.op = 3 then o else Blk.toPorts o.2 (16 + k.2.2.2.length) (.coded x.key h.first k.2.2.1 k.2.2.2) (setBits 8 h.out) o.1
          (o1.1, { o1.2 with outBlocks := o1.2.outBlocks ++ [(e, k.2.2.1, k.2.2.2)] })) (b, x1)
        (o.1, h.pieces.foldl (fun y r =>
          let w := (hopValue x h r).getD []
          let y1 := y.put (0x80 + e) r w
          if h.op = 3 || bit h.out 8 then { y1 with res := y1.res ++ [(r, w)] } else y1) o.2)
      else
        ((List.range (blockCount x.grp.code v.length)).foldl (fun b k => b.codeTask false h.coder ⟨x.key, e, k, []⟩) b, x1)

/-- Every entry, `fuel` times over, so that outputs of entries reach later and earlier entries. -/
def Blk.runHops : (fuel : Nat) → Blk → Bucket → Blk × Bucket
  | 0, b, x => (b, x)
  | fuel + 1, b, x =>
    let o := (x.hops.zipIdx).foldl (fun (o : Blk × Bucket) h =>
      if h.1.isCoded x.grp then o.1.runCoded o.2 h.2 h.1 else Blk.runHop h.2 h.1 h.1.pieces o.1 o.2) (b, x)
    Blk.runHops fuel o.1 o.2

/-! ## The local contribution and the result (R338, R339, R341) -/

/-- Elements of bytes. -/
def elemsOf (size : Nat) (l : List Byte) : List Nat := (List.range (l.length / size)).map (fun k => leNat ((l.drop (size * k)).take size))

/-- The border's next free stream context (R246); the last 16 belong to bulk transfers (R469). -/
def Blk.borderCtx (b : Blk) : Nat := ((List.range 2032).find? (fun k => (b.stream (12800 + k)).isNone)).getD 0 + 12800

/-- The descriptor of a border stream (R247): `n` bytes read from, or written to, a virtual address. -/
def borderDesc (n src dst : Nat) : List Nat := [2 ^ 32 * n, src, dst, 0, 0, 0, 0, 0]

/-- A border stream that fails at chunk `k` suspends in a context, with its record (R251). -/
def Blk.borderFault (b : Blk) (x : Bucket) (desc : List Nat) (k : Nat) (f : Fail) : Blk × Bucket :=
  let c := b.borderCtx
  (b.dmaFault c { orig := .border x.key, desc := desc, started := true } k f, { x with fault := some c })

/-- The contributions of the dies present, `n` bytes each, read chunk by chunk from where the reading stands (R249); a chunk that fails suspends it. -/
def Blk.readDies (n : Nat) : (fuel : Nat) → Blk → Bucket → Blk × Bucket
  | 0, b, x => (b, x)
  | fuel + 1, b, x =>
    let at' := x.read.length
    match (x.dies.filterMap id)[at' / n]? with
    | none => (b, x)
    | some va =>
      match b.loadVa modXl clsO (some b.borderCtx) (va + at' % n) (min 4096 (n - at' % n)) with
      | (b1, .error f) => b1.borderFault x (borderDesc n va 0) (at' % n / 4096) f
      | (b1, .ok l) => Blk.readDies n fuel b1 { x with read := x.read ++ l }

/-- A die's contribution of those read, if the die is present: its place is among those before it that are. -/
def Bucket.ofDie (x : Bucket) (n k : Nat) : Option (List Nat) :=
  match x.dies.getD k none with
  | none => none
  | some _ => some (elemsOf x.grp.size ((x.read.drop (n * ((x.dies.take k).filterMap id).length)).take n))

/-- Two terms of the module line; an absent one is skipped (R23, R338). -/
def addOpt (g : Group) : Option (List Nat) → Option (List Nat) → Option (List Nat)
  | some x, some y => some (addVals g x y)
  | some x, none => some x
  | none, y => y

/-- The local contribution formed and cut into pieces (R336, R338). -/
def Blk.loadLocal (b : Blk) (x : Bucket) : Blk × Bucket :=
  if !x.posted || x.loaded || x.fault.isSome then (b, x)
  else
    let e := x.lens.foldl (· + ·) 0
    let n := e * x.grp.size
    let o := if n = 0 then (b, x) else Blk.readDies n (4 * (n / 4096 + 1)) b x
    let y := o.2
    if y.fault.isSome then o
    else
      let d := y.ofDie n
      let v := (addOpt x.grp (addOpt x.grp (d 0) (d 1)) (addOpt x.grp (d 2) (d 3))).getD (List.replicate e 0)
      (o.1, (List.range y.lens.length).foldl (fun z r => z.put 0x01 r ((v.drop (y.offset r)).take (y.lens.getD r 0))) { y with loaded := true, read := [] })

/-- A result piece written chunk by chunk from byte `at'` on: how far it has come, and what failed, if anything (R249, R251). -/
def Blk.writeChunks (va : Nat) (l : List Byte) : (fuel at' : Nat) → Blk → Blk × Nat × Option Fail
  | 0, at', b => (b, at', none)
  | fuel + 1, at', b =>
    if l.length ≤ at' then (b, at', none)
    else match b.storeVa modXl clsO (some b.borderCtx) (va + at') ((l.drop at').take 4096) with
      | (b1, some f) => (b1, at', some f)
      | (b1, none) => Blk.writeChunks va l fuel (at' + 4096) b1

/-- Results written at the result address (R341); a chunk that fails suspends the stream, which goes on at that chunk. -/
def Blk.writeRes (x : Bucket) : List (Nat × List Nat) → Blk → Blk × Bucket
  | [], b => (b, x)
  | (r, v) :: l, b =>
    if x.written.contains r then Blk.writeRes x l b
    else
      let va := x.result + x.offset r * x.grp.size
      let bytes := v.flatMap (natLe x.grp.size)
      match Blk.writeChunks va bytes (bytes.length / 4096 + 1) x.wrote b with
      | (b1, k, some f) => b1.borderFault { x with wrote := k } (borderDesc bytes.length 0 va) (k / 4096) f
      | (b1, _, none) => Blk.writeRes { x with written := x.written ++ [r], wrote := 0 } l b1

def Blk.flushRes (b : Blk) (x : Bucket) : Blk × Bucket :=
  if x.grp.kind = 4 || !x.posted || x.fault.isSome then (b, x) else Blk.writeRes x x.res b

/-! ## Switch channels (R352–R356) -/

/-- The port that leads to the reduction switch: the lowest whose partner is one. -/
def Blk.swPort (b : Blk) : Option Nat := (List.range 8).find? (fun p => b.nearUp p && b.on R.NLNK_STATUS_SWITCH p)

def swKey (channel group : Nat) : Nat := channel * 256 + group

/-- Keys outstanding on a channel. -/
def Blk.swOut (b : Blk) (c : Nat) : Nat :=
  (b.border.buckets.filter (fun x => x.grp.switch && x.grp.channel == c && x.swSent && !x.complete)).length

/-- A bucket of a switch group: JOIN once, then its CONTRIB within the window (R354, R355). SUM_FP32 is the operation of every group. -/
def Blk.swRun (b : Blk) (x : Bucket) : Blk × Bucket :=
  match b.swPort with
  | none => (b, x)
  | some p =>
    let k := swKey x.grp.channel x.key.group
    let v := (List.range x.lens.length).flatMap (fun r => (x.get 0x01 r).getD [])
    let rec' := fun msg vals => ({ msg := msg, channel := x.grp.channel, op := 0, step := x.key.step, attempt := x.key.attempt, seq := x.key.bucket,
                                   rank := x.grp.self, group := x.key.group, members := x.grp.members, vals := vals } : SwRec)
    match SMap.get 0 b.border.join k with
    | 0 => ((b.setBorder { b.border with join := SMap.set 0 b.border.join k 1 }).nearSend p 5 16 (.sw (rec' 1 [])), x)
    | 2 =>
      if x.swSent || !x.loaded || decide (min (b.rd R.NRED_SW_WINDOW p) (max 1 (b.nport p).window) ≤ b.swOut x.grp.channel) then (b, x)
      else (b.nearSend p 5 (16 + 4 * v.length) (.sw (rec' 3 (if x.grp.bf16 then v.map (widen 1 0x7F) else v))), { x with swSent := true })
    | _ => (b, x)

/-! ## Completion (R340, R341) -/

/-- Whether every piece of an entry is done. -/
def Bucket.hopDone (x : Bucket) (e : Nat) (h : Hop) : Bool := h.pieces.all (fun r => (x.get (0x80 + e) r).isSome)

/-- The ports whose last hop entry has not completed. -/
def Bucket.busyPorts (x : Bucket) : List Nat :=
  x.ports.filter (fun p => (x.hops.zipIdx).any (fun h => h.1.ports.contains p && !x.hopDone h.2 h.1))

/-- Whether the bucket is complete at this member, but for a close, whose result decides (R341, R347). -/
def Bucket.isDone (x : Bucket) : Bool :=
  let all := x.grp.switch || (x.hops.zipIdx).all (fun h => x.hopDone h.2 h.1)
  if x.grp.kind = 1 then x.posted && x.written.contains x.grp.self && all
  else if x.grp.kind = 4 then (x.res.map (·.1)).contains 0
  else x.posted && (List.range x.lens.length).all (fun r => x.written.contains r)

/-- A close result that equals MEMBERS closes the step: BANK_REDUCED_STEP of every unit, STEP_CLOSED (R347). -/
def Blk.stepClosed (b : Blk) (x : Bucket) (v : Nat) : Blk × Bool :=
  let want := toF32 (Num.fin false x.grp.members 0)
  let got := if x.grp.bf16 then widen 1 0x7F v else v
  if got ≠ want then (b, false)
  else
    let b1 := match b.stepRec x.key.step with | some s => b.setStep { s with closed := true } | none => b
    let b2 := b1.each (List.range 12) (fun b n => (b.wr R.BANK_REDUCED_STEP_STEP x.key.step n).wr R.BANK_REDUCED_STEP_VALID 1 n)
    ((b2.event .nred 17 ((hopPorts x.hops).headD 0)).wakeBanks, true)

/-- A bucket looks at what it can do: local contribution, hop entries, switch, results, completion, contexts. -/
def Blk.runBucket (b : Blk) (k : BKey) : Blk :=
  match b.bucket? k with
  | none => b
  | some x =>
    let o1 := b.loadLocal x
    let o2 := if x.grp.switch then o1.1.swRun o1.2 else Blk.runHops (o1.2.hops.length + 1) o1.1 o1.2
    let o3 := o2.1.flushRes o2.2
    let y := o3.2
    let b4 := o3.1.setBucket y
    let r := if y.complete || !y.isDone then (b4, y.complete)
      else if y.grp.kind = 4 then b4.stepClosed y (((y.res.find? (fun e => e.1 == 0)).map (·.2)).getD [] |>.headD 0)
      else (b4.setBorder { b4.border with done := b4.border.done ++ [k] }, true)
    let z := { y with complete := r.2, ports := y.busyPorts }
    let b5 := r.1.setBucket z
    let gone := z.complete && z.ports.isEmpty && (z.grp.switch || (z.hops.zipIdx).all (fun h => z.hopDone h.2 h.1))
    let b6 := if gone then b5.setBorder { b5.border with buckets := b5.border.buckets.filter (fun w => w.key != k) } else b5
    b6.showOpen.openDrain

/-- Every bucket of a switch channel or a step looks again. -/
def Blk.runBuckets (b : Blk) (p : Bucket → Bool) : Blk := b.each ((b.border.buckets.filter p).map (·.key)) Blk.runBucket

/-! ## The step close (R347) -/

/-- The groups whose buckets the close waits for: every group of the table with APPLY_GATE 1. -/
def Blk.gateGroups (b : Blk) : List (Nat × Group) :=
  (List.range 256).filterMap (fun k =>
    match b.groupAt k with
    | some g => if g.gate && decide (g.kind ≤ 1) then some (k, g) else none
    | none => none)

/-- A descriptor that cannot be read, which keeps the close waiting, since it might name one of those groups. -/
def Blk.gateUnread (b : Blk) : Option Nat := (List.range 256).find? (fun k => (b.borderRead (b.groupPa k) 256).isNone)

/-- The border contributes 1 to the close group's key (R347). -/
def Blk.contribute (b : Blk) (s a : Nat) (st : StepRec) : Blk :=
  let c := b.rd R.NRED_CLOSE
  match b.groupUse c with
  | (b1, .error e) => b1.error .nred 0 { cls := e, step := some s, attempt := some a, info1 := c }
  | (b1, .ok (g, hops, _)) =>
    if g.kind ≠ 4 then b1.error .nred 0 { cls := eDenied, step := some s, attempt := some a, info1 := c }
    else
      let k : BKey := ⟨c, s, a, 0⟩
      let one := if g.bf16 then 0x3F80 else one32
      let b2 := b1.setStep { st with contributed := true }
      let x : Bucket := (b2.bucket? k).getD { key := k, grp := g, hops := hops, lens := [1] }
      let b3 := if (b2.bucket? k).isSome then b2 else b2.addBucket x
      ((b3.setBucket { ({ x with posted := true, loaded := true }).put 0x01 0 [one] with ports := (hopPorts hops) }).showOpen).runBucket k

/-- Every bucket of every gate group has completed for (s, a): the border contributes 1 to the close group's key. -/
def Blk.tryClose (b : Blk) (s a : Nat) : Blk :=
  match b.stepRec s with
  | none => b
  | some st =>
    if st.contributed || st.attempt != a || st.exhausted then b
    else
      let gs := b.gateGroups
      let full := !gs.isEmpty && gs.all (fun g => (List.range g.2.buckets).all (fun i => b.border.done.contains ⟨g.1, s, a, i⟩))
      if !full then b
      else match b.gateUnread with
        | some k => b.groupUe k
        | none => b.contribute s a st

/-- Buckets that can go on, and the closes that they allow. -/
def Blk.advance (b : Blk) (k : BKey) : Blk := (b.runBucket k).tryClose k.step k.attempt

/-! ## Aborts (R344, R345) -/

/-- Bytes written into the version table; a write that fails is an error of the NRED page. -/
def Blk.versWrite (b : Blk) (s a pa : Nat) (l : List Byte) : Blk :=
  match b.storePa clsH none (b.owner .nred) pa l with
  | (b1, none) => b1
  | (b1, some f) => b1.error .nred 0 { cls := f.cls, step := some s, attempt := some a, addr := pa }

/-- The version-table entries of an aborted attempt lose VALID (R344). -/
def Blk.dropVers (b : Blk) (s a : Nat) : Blk :=
  let hit := fun (e : Nat × Nat × Nat) => e.1 == s && decide (e.2.1 ≤ a)
  let b1 := b.each (b.border.vers.filter hit) (fun b e => b.versWrite s a (e.2.2 + 9) [0])
  b1.setBorder { b1.border with vers := b1.border.vers.filter (fun e => !hit e) }

/-- Slots of an aborted attempt are free at both ends (R308). -/
def Blk.dropSlots (b : Blk) (s a : Nat) : Blk :=
  let hit := fun (x : Slot) => x.step == s && decide (x.attempt ≤ a)
  let back := b.border.slots.filter hit
  let b1 := b.each back (fun b x =>
    if x.mine then if x.back then b else b.wr R.NRED_SLOTS_CREDITS (min 24 (b.rd R.NRED_SLOTS_CREDITS x.port + 1)) x.port else b.dec R.NRED_SLOTS_HELD x.port)
  b1.setBorder { b1.border with slots := b1.border.slots.filter (fun x => !hit x), seen := b1.border.seen.filter (fun e => e.2.1 != s),
                                hoHeld := b1.border.hoHeld.filter (fun e => !(e.ho.step == s && decide (e.ho.attempt ≤ a))),
                                hoOut := b1.border.hoOut.filter (fun e => !(e.ho.step == s && decide (e.ho.attempt ≤ a))) }

/-- Everything else of an aborted attempt that the border holds. -/
def Blk.dropAttempt (b : Blk) (s a : Nat) : Blk :=
  let old := fun (k : BKey) => k.step == s && decide (k.attempt ≤ a)
  let x := b.border
  let tasks := fun (m : SMap (List CodeTask)) =>
    (List.range 8).foldl (fun m p => SMap.modify [] m p (fun l => l.filter (fun t => !old t.key))) m
  let ctx := (x.buckets.filter (fun y => old y.key)).filterMap (·.fault)
  let b1 := b.setBorder { x with buckets := x.buckets.filter (fun y => !old y.key), openWait := x.openWait.filter (fun e => !old e.2),
                                 done := x.done.filter (fun k => !old k), enc := tasks x.enc, dec := tasks x.dec,
                                 retries := x.retries.filter (fun e => !old e.2.1),
                                 gexp := x.gexp.filter (fun e => !(e.step == s && decide (e.attempt ≤ a))),
                                 xch := x.xch.filter (fun e => !(e.step == s && decide (e.attempt ≤ a))),
                                 xsend := x.xsend.filter (fun e => !(e.step == s && decide (e.attempt ≤ a))) }
  let b2 := b1.each ctx (fun b c => ((b.setStream c none).unsusp 1 c).unhold 1 c)
  ((b2.dropVers s a).dropSlots s a).showOpen

/-- The origin of an abort as the record names it (R360). -/
structure AbortCause where
  cls : Nat
  origin : Nat
  group : Nat := 0
  bucket : Nat := 0
  deriving DecidableEq, Repr

/-- ABORT(s, a) on every trained port but the one it came from, and on every switch channel joined. -/
def Blk.sendAbort (b : Blk) (s a : Nat) (from' : Option Nat) (c : AbortCause) : Blk :=
  let b1 := b.each (List.range 8) (fun b p =>
    if b.nearUp p && !b.on R.NLNK_STATUS_SWITCH p && from' != some p then b.control p (.abort s a c.cls c.origin c.group c.bucket) else b)
  match b1.swPort with
  | none => b1
  | some p =>
    let chans := (List.range 4).filter (fun c => b1.border.join.any (fun e => e.1 / 256 == c && e.2 == 2))
    b1.each chans (fun b ch => if from' == some p then b else
      b.nearSend p 5 16 (.sw { msg := 5, channel := ch, op := 0, step := s, attempt := a, seq := 0, rank := 0, group := 0, members := 0, vals := [] }))

/-- STEP_ABORT acted on (R344), with STEP_EXHAUSTED (R345). `p` is the port whose page records it. -/
def Blk.abortStep (b : Blk) (s a p : Nat) (from' : Option Nat) (c : AbortCause) : Blk :=
  match b.seeStep s with
  | (b0, none) => b0
  | (b0, some st) =>
    if st.closed && st.attempt == a then b0.inc R.NRED_LATE_ABORT_CNT
    else if st.exhausted || decide (a < st.attempt) then b0
    else
      let b1 := ((b0.dropAttempt s a).sendAbort s a from' c).inc R.NRED_ABORT_CNT
      let b2 := (b1.error .nred p { cls := eAbort, step := some s, attempt := some a, info0 := a + 2 ^ 8 * c.cls + 2 ^ 16 * c.origin,
                                    info1 := c.group + 2 ^ 16 * c.bucket }).event .nred 16 p
      let b3 := if a = 255 then (b2.setStep { st with exhausted := true }).event .nred 21 p
        else b2.setStep { st with attempt := a + 1, contributed := false, closed := false }
      b3.showStep

/-- An abort that this module raises itself: none once it has contributed to the close (R347). -/
def Blk.ownAbort (b : Blk) (s a p : Nat) (c : AbortCause) : Blk :=
  match b.stepRec s with
  | some st => if st.contributed && st.attempt == a then b else b.abortStep s a p none c
  | none => b.abortStep s a p none c

/-! ## Posts (R339) -/

/-- A post's 64 bytes: group, dies, bucket, step, elements, contributions, result. -/
structure Post where
  group : Nat
  dies : Nat
  bucket : Nat
  step : Nat
  elems : Nat
  va : List Nat
  result : Nat
  deriving DecidableEq, Repr

/-- A post read, where its other bytes are 0 and its element count is in range. -/
def postOf (l : List Byte) : Option Post :=
  let v := leNat l
  let f := fun off w => bits v (8 * off) w
  let clean := bits v 12 4 == 0 && bits v 56 8 == 0 && f 0x0C 32 == 0 && f 0x38 64 == 0
    && [0x10, 0x18, 0x20, 0x28, 0x30].all (fun o => f o 64 / 2 ^ 48 == 0)
  if clean && decide (1 ≤ f 8 32) && decide (f 8 32 ≤ 2 ^ 24) then
    some { group := f 0 8, dies := bits v 8 4, bucket := f 2 16, step := f 4 24, elems := f 8 32, va := [f 0x10 48, f 0x18 48, f 0x20 48, f 0x28 48],
           result := f 0x30 48 }
  else none

/-- A post taken without effect, with ACCESS_DENIED on the NRED page (R335, R345). -/
def Blk.postRefuse (b : Blk) (cls : Nat) (p : Option Post) : Blk :=
  (b.error .nred 0 { cls := cls, step := p.map (·.step), info1 := match p with | some x => x.group + 2 ^ 16 * x.bucket | none => 0 }).addW R.NRED_POST_GET 1

/-- A post that names a usable group: the bucket takes its contexts, or the post waits at the head of the ring while one is missing (R340). -/
def Blk.postBucket (b : Blk) (q : Post) (st : StepRec) (g : Group) (hops : List Hop) (lens : List Nat) : Blk :=
  let k : BKey := ⟨q.group, q.step, st.attempt, q.bucket⟩
  let ps := if g.switch then [] else hopPorts hops
  let have' := match b.bucket? k with | some x => x.ports | none => []
  if b.border.done.contains k || (match b.bucket? k with | some x => x.posted | none => false) then b.postRefuse eDenied (some q)
  else if ps.any (fun p => !b.serving .nred p || (!have'.contains p && decide (64 ≤ b.openCount p))) then b
  else
    let x : Bucket := (b.bucket? k).getD { key := k, grp := g, hops := hops, lens := lens }
    let b1 := if (b.bucket? k).isSome then b else b.addBucket x
    let x1 := { x with posted := true, ports := ps, result := q.result,
                       dies := (List.range 4).map (fun d => if bit q.dies d then some (q.va.getD d 0) else none) }
    (((b1.setBucket x1).showOpen).addW R.NRED_POST_GET 1).advance k

/-- The entry at the head of the post ring. -/
def Blk.takePost (b : Blk) : Blk :=
  let a := b.rdAddr R.NRED_POST_BASE_LO R.NRED_POST_BASE_HI + b.rd R.NRED_POST_GET % 2 ^ b.rd R.NRED_POST_SIZE * 64
  match b.readPa clsH (b.owner .nred) a 64 with
  | .error f => (b.ueOf f clsH none).postRefuse f.cls none
  | .ok l =>
    match postOf l with
    | none => b.postRefuse eDenied none
    | some q =>
      match b.seeStep q.step with
      | (b1, none) => b1.postRefuse eDenied (some q)
      | (b1, some st) =>
        let b2 := (b1.wr R.NRED_STEP_STEP q.step).showStep
        if st.exhausted then b2.postRefuse eDenied (some q)
        else match b2.groupUse q.group with
          | (b3, .error c) => b3.postRefuse c (some q)
          | (b3, .ok (g, hops, mem)) =>
            let lens := mem.map (·.2)
            if 1 < g.kind || g.buckets ≤ q.bucket || lens.foldl (· + ·) 0 ≠ q.elems || (g.switch && 54 < q.elems) then b3.postRefuse eDenied (some q)
            else b3.postBucket q st g hops lens

/-- POST_TAKE (R339): a post for a bucket that names a port whose NRED page does not serve stays at the head of the ring (R509). -/
def execPostTake (s : State) : Host.Outcome State Fault Refusal :=
  cmd true s (fun b => b.when (b.rd R.NRED_POST_PUT != b.rd R.NRED_POST_GET) Blk.takePost)

/-- RESUME of a border stream (R251, R261): it goes on at the chunk that failed. -/
def Blk.borderResume (b : Blk) (c : Nat) (k : BKey) : Blk :=
  let b1 := b.setStream c none
  match b1.bucket? k with
  | some x => (b1.setBucket { x with fault := none }).advance k
  | none => b1

/-- XLT_FAULT_CMD on any suspended unit (R261). A border stream goes on in its bucket at RESUME; at DISCARD its context is free, and the bucket, which it leaves
without that access, misses its deadline (R343). -/
def Blk.xltFaultCmd (b : Blk) (action kind unit : Nat) : Blk :=
  if (action = 1 ∨ action = 2) ∧ kind = 1 ∧ b.suspOut kind unit then
    match (b.stream unit).map (·.orig) with
    | some (Origin.border k) => if action = 1 then (b.unsusp kind unit).borderResume unit k else (b.unsusp kind unit).setStream unit none
    | _ => b.faultCmd action kind unit
  else b.faultCmd action kind unit

/-! ## Coder work (R342, R364, R365, R373, R374) -/

/-- The elements of a task's block, and the element's place in the bucket. -/
def taskVals (x : Bucket) (h : Hop) (t : CodeTask) : List Nat :=
  (((codedVals x h).getD []).drop (t.block * x.grp.code.perBlock)).take x.grp.code.perBlock

/-- The residual buffers of a block (R365): where it reads and where it writes, or none without error feedback. -/
def Blk.residuals (b : Blk) (x : Bucket) (h : Hop) (t : CodeTask) : Blk × Except Fail (Option (Nat × Nat)) :=
  let source := !(x.arrivedCoded h.left || (h.op == 1 && x.arrivedCoded h.right))
  if !(x.grp.ef && source) then (b, .ok none)
  else match b.efEntry x.key.group with
    | (b', .error f) => (b', .error f)
    | (b', .ok (r0, r1, stride)) =>
      let off := x.key.bucket * stride * 2 ^ 20 + 4 * (x.offset h.first + t.block * x.grp.code.perBlock)
      let buf := fun n => (if n % 2 = 0 then r0 else r1) + off
      (b', .ok (some (buf (x.key.step + 1), buf x.key.step)))

/-- An encoder task ended: its block kept and sent; after the entry's last block its pieces take the decoded values. -/
def Blk.encoded (b : Blk) (x : Bucket) (h : Hop) (t : CodeTask) (c : Coded) : Blk × Bucket :=
  let x1 := { x with outBlocks := x.outBlocks ++ [(t.ent, t.block, c.bytes)] }
  let o := if h.op = 3 then (b, x1) else Blk.toPorts x1 (16 + c.bytes.length) (.coded x.key h.first t.block c.bytes) (setBits 8 h.out) b
  let cp := x.grp.code
  let n := ((codedVals x h).getD []).length
  let mine := o.2.outBlocks.filter (fun e => e.1 == t.ent)
  if mine.length < blockCount cp n then o
  else
    let all := (List.range (blockCount cp n)).flatMap (fun i =>
      match mine.find? (fun e => e.2.1 == i) with
      | some e => (match decodeBlock cp (some i) none none e.2.2 with | .ok (syms, _) => rawOf cp syms | .error _ => [])
      | none => [])
    (o.1, h.pieces.foldl (fun y r =>
      let w := (all.drop (x.offset r - x.offset h.first)).take (x.lens.getD r 0)
      let y1 := y.put (0x80 + t.ent) r w
      if h.op = 3 || bit h.out 8 then { y1 with res := y1.res ++ [(r, w)] } else y1) o.2)

/-- The head of a near encoder's queue coded; a bucket whose stream is suspended keeps it there. -/
def Blk.encodeTask (b : Blk) (p : Nat) (t : CodeTask) : Blk :=
  let pop := fun (b : Blk) => b.setBorder { b.border with enc := SMap.modify [] b.border.enc p (fun l => l.drop 1) }
  match b.bucket? t.key with
  | none => pop b
  | some x =>
    if x.fault.isSome then b
    else match x.hops[t.ent]? with
    | none => pop b
    | some h =>
      let raw := taskVals x h t
      let len := 4 * raw.length
      let r := b.residuals x h t
      let stop := fun (b : Blk) (src dst : Nat) (f : Fail) => let o := b.borderFault x (borderDesc len src dst) 0 f; o.1.setBucket o.2
      match r.2 with
      | .error f => stop r.1 0 0 f
      | .ok buf =>
        let rin : Blk × Except Fail (Option (List Nat)) := match buf with
          | none => (r.1, .ok none)
          | some (src, _) => match r.1.loadVa modXl clsO (some r.1.borderCtx) src len with
            | (b1, .ok l) => (b1, .ok (some (wordsOf raw.length l)))
            | (b1, .error f) => (b1, .error f)
        match rin with
        | (b1, .error f) => stop b1 ((buf.map (·.1)).getD 0) 0 f
        | (b1, .ok res) =>
          let cp := x.grp.code
          let qs := quantBlock cp raw res
          let c := encodeBlock cp t.block (qs.map (·.sym))
          let w := match buf with
            | none => (b1, none)
            | some (_, dst) => b1.storeVa modXl clsO (some b1.borderCtx) dst (wordBytes (qs.map (fun (q : Quant) => q.res)))
          match w with
          | (b2, some f) => stop b2 0 ((buf.map (·.2)).getD 0) f
          | (b2, none) =>
            let o := ((pop b2).ncodCount p (cp.elemBytes * raw.length) qs c).encoded x h t c
            (o.1.setBucket o.2).advance t.key

/-- A damaged block (R374): recorded, and requested again up to NCOD_RETRY_MAX times. -/
def Blk.damaged (b : Blk) (p : Nat) (t : CodeTask) (e : Nat × Nat) : Blk :=
  let b1 := (b.error .ncod p { cls := eCodec, step := some t.key.step, attempt := some t.key.attempt, info0 := e.1 + 2 ^ 8 * e.2 + 2 ^ 16 * (t.block % 65536),
                               info1 := t.key.group }).inc R.NCOD_DAMAGED_CNT p
  let b2 := b1.event .ncod 16 p
  let id := (p, t.key, t.ent, t.block)
  if (b2.border.retries.filter (· == id)).length < b2.rd R.NCOD_RETRY_MAX p then
    ((b2.setBorder { b2.border with retries := b2.border.retries ++ [id] }).inc R.NRED_CODED_RETRY_CNT p).nearSend p 1 16
      (.codedReq t.key t.ent t.block)
  else (b2.inc R.NCOD_RETRY_FAIL_CNT p).event .ncod 17 p

/-- The head of a near decoder's queue checked and decoded. -/
def Blk.decodeTask (b : Blk) (p : Nat) (t : CodeTask) : Blk :=
  let b := b.setBorder { b.border with dec := SMap.modify [] b.border.dec p (fun l => l.drop 1) }
  match b.bucket? t.key with
  | none => b
  | some x =>
    match x.hops.find? (fun h => h.isCoded x.grp && h.first == t.ent && (h.left == 0x10 + p || h.right == 0x10 + p)) with
    | none => b
    | some h =>
      let cp := x.grp.code
      let n := h.pieces.foldl (fun a r => a + x.lens.getD r 0) 0
      let want := min cp.perBlock (n - t.block * cp.perBlock)
      match decodeBlock cp (some t.block) (some t.bytes.length) none t.bytes with
      | .error e => b.damaged p t e
      | .ok (syms, _) =>
        if syms.length ≠ want then b.damaged p t (1, 0)
        else
          let b1 := b.inc R.NCOD_DEC_CNT p
          let x1 := if x.inBlocks.any (fun e => e.1 == p && e.2.1 == t.ent && e.2.2.1 == t.block) then x
            else { x with inBlocks := x.inBlocks ++ [(p, t.ent, t.block, t.bytes)] }
          let mine := x1.inBlocks.filter (fun e => e.1 == p && e.2.1 == t.ent)
          if mine.length < blockCount cp n then b1.setBucket x1
          else
            let all := (List.range (blockCount cp n)).flatMap (fun i =>
              match mine.find? (fun e => e.2.2.1 == i) with
              | some e => (match decodeBlock cp (some i) none none e.2.2.2 with | .ok (sy, _) => rawOf cp sy | .error _ => [])
              | none => [])
            let x2 := h.pieces.foldl (fun y r => y.put (0x10 + p) r ((all.drop (x.offset r - x.offset h.first)).take (x.lens.getD r 0))) x1
            (b1.setBucket x2).advance t.key

/-- CODED_BLOCK_REREQUEST (R374): the retained block goes out again, byte for byte. -/
def Blk.resendCoded (b : Blk) (p : Nat) (k : BKey) (first block : Nat) : Blk :=
  match b.bucket? k with
  | none => b
  | some x =>
    match x.outBlocks.find? (fun e => e.2.1 == block && (match x.hops[e.1]? with | some h => h.first == first && bit h.out p | none => false)) with
    | some e => b.nearSend p 1 (16 + e.2.2.length) (.coded k first block e.2.2)
    | none => b

/-! ## Switch records in (R354–R356) -/

def execJoinAck (p channel group : Nat) (s : State) : Host.Outcome State Fault Refusal :=
  cmd (decide (p < 8) && decide (channel < 4) && decide (group < 256)) s (fun b =>
    let k := swKey channel group
    b.when (b.tcOpen p 5 && SMap.get 0 b.border.join k == 1) (fun b =>
      (b.setBorder { b.border with join := SMap.set 0 b.border.join k 2 }).runBuckets (fun x => x.grp.switch && x.key.group == group)))

def execReject (p channel group : Nat) (s : State) : Host.Outcome State Fault Refusal :=
  cmd (decide (p < 8) && decide (channel < 4) && decide (group < 256)) s (fun b =>
    let k := swKey channel group
    b.when (b.tcOpen p 5 && SMap.get 0 b.border.join k == 1) (fun b =>
      (b.setBorder { b.border with join := SMap.set 0 b.border.join k 3 }).inc R.NRED_SW_BAD_CNT p))

/-- A RESULT (R356): one whose contributor count differs from MEMBERS is counted, and the key waits on. -/
def Blk.swResult (b : Blk) (p : Nat) (r : SwRec) : Blk :=
  match b.attemptGate r.step r.attempt with
  | (b1, 0) =>
    let k : BKey := ⟨r.group, r.step, r.attempt, r.seq⟩
    (match b1.bucket? k with
    | none => b1
    | some x =>
      if !x.grp.switch || !x.swSent then b1
      else if r.rank ≠ x.grp.members || r.op ≠ 0 || r.vals.length ≠ x.lens.foldl (· + ·) 0 then b1.inc R.NRED_SW_BAD_CNT p
      else
        let v := if x.grp.bf16 then r.vals.map (fun y => convert 1 .rne (f32 y)) else r.vals
        let x1 := { x with res := (List.range x.lens.length).map (fun i => (i, (v.drop (x.offset i)).take (x.lens.getD i 0))) }
        ((b1.setBucket x1).advance k).runBuckets (fun y => y.grp.switch && !y.swSent))
  | (b1, _) => b1.inc R.NRED_DISCARD_CNT p

def execSwitchResult (p : Nat) (r : SwRec) (s : State) : Host.Outcome State Fault Refusal :=
  cmd (decide (p < 8) && decide (r.channel < 4) && decide (r.step < 2 ^ 24) && decide (r.attempt < 256) && decide (r.msg = 4) && r.vals.all (fun v => decide (v < 2 ^ 64))) s (fun b => b.when (b.tcOpen p 5) (fun b => b.swResult p r))

end Sys2Proof.Machine
end

