-- ==== Sys2Proof/Machine/Border.lean ====
section
/-! DEFINITION. Records of the near ports (R297, R300–R314, R340, R344, R349, R350): buckets, gathers, handovers, exchanges, and the deadlines of their groups. -/

namespace Sys2Proof.Machine

/-! ## Handovers (R307–R309, R350) -/

/-- Whether a port has carried a micro-batch's first handover already. -/
def Blk.hoSeen (b : Blk) (p : Nat) (h : Handover) (sent : Bool) : Bool := b.border.seen.contains (p, h.step, h.mb, sent)

def Blk.hoMark (b : Blk) (p : Nat) (h : Handover) (sent : Bool) : Blk :=
  if b.hoSeen p h sent then b else b.setBorder { b.border with seen := b.border.seen ++ [(p, h.step, h.mb, sent)] }

/-- NRED_SLOTS.HELD of a port. -/
def Blk.showSlots (b : Blk) (p : Nat) : Blk := b.wr R.NRED_SLOTS_HELD (b.slotsOf p) p

/-- An unmatched handover (R309). -/
def Blk.hoErr (b : Blk) (p : Nat) : Blk := (b.inc R.NRED_HANDOVER_ERR_CNT p).event .nred 19 p

/-- A forward handover arrives (R308): it uses the slot that its micro-batch holds, returning the credit of a second port at once, or takes one. -/
def Blk.hoForward (b : Blk) (p : Nat) (h : Handover) : Blk :=
  let first := !b.hoSeen p h false
  match b.border.slots.find? (fun x => !x.mine && x.step == h.step && x.mb == h.mb) with
  | some x => ((if first && x.port != p then b.slotCredit p 1 else b).hoMark p h false).send (.nearIn p (.handover h))
  | none =>
    if 24 ≤ (b.border.slots.filter (fun x => !x.mine)).length then b
    else
      let b1 := b.setBorder { b.border with slots := b.border.slots ++ [⟨h.step, h.mb, h.slot, h.attempt, p, false, false⟩] }
      ((b1.showSlots p).hoMark p h false).send (.nearIn p (.handover h))

/-- A handover is on its way, with its group's deadline, until the partner has acknowledged it (R343). -/
def Blk.hoLeft (b : Blk) (p group : Nat) (left : Option Nat) (h : Handover) : Blk :=
  b.setBorder { b.border with hoOut := b.border.hoOut ++ [{ port := p, group := group, ho := { h with data := [] }, left := left }] }

/-- A forward handover leaves: the first of a micro-batch on a port spends a slot credit. -/
def Blk.hoSendNow (b : Blk) (p group : Nat) (left : Option Nat) (h : Handover) : Blk :=
  let first := !b.hoSeen p h true
  let b1 := if first then b.wr R.NRED_SLOTS_CREDITS (b.rd R.NRED_SLOTS_CREDITS p - 1) p else b
  let b2 := if first then b1.setBorder { b1.border with slots := b1.border.slots ++ [⟨h.step, h.mb, h.slot, h.attempt, p, true, false⟩] } else b1
  ((b2.hoMark p h true).hoLeft p group left h).nearSend p 3 0 (.handover h)

/-- Whether a forward handover may leave now, in the order of its port. -/
def Blk.hoFree (b : Blk) (p : Nat) (h : Handover) : Bool := b.hoSeen p h true || decide (0 < b.rd R.NRED_SLOTS_CREDITS p)

/-- A forward handover is sent, or held for a slot credit; nothing is dropped. -/
def Blk.hoSend (b : Blk) (p group : Nat) (h : Handover) : Blk :=
  if b.hoFree p h && !b.border.hoHeld.any (fun e => e.port == p) then b.hoSendNow p group none h
  else b.setBorder { b.border with hoHeld := b.border.hoHeld ++ [{ port := p, group := group, ho := h }] }

/-- Held handovers of a port sent in order while it has credits. -/
def Blk.hoDrain (p : Nat) : (fuel : Nat) → Blk → Blk
  | 0, b => b
  | fuel + 1, b =>
    match b.border.hoHeld.find? (fun e => e.port == p) with
    | none => b
    | some e =>
      if b.hoFree p e.ho then Blk.hoDrain p fuel ((b.setBorder { b.border with hoHeld := b.border.hoHeld.erase e }).hoSendNow p e.group e.left e.ho) else b

/-- The slots of a micro-batch at a partner, with LAST (R308): the one that the handover matches, whose credit the partner owes from now on, and those whose credit came
back at once. -/
def Blk.slotEnd (b : Blk) (x : Slot) : Blk :=
  let gone := b.border.slots.filter (fun y => y.mine && y.step == x.step && y.mb == x.mb && (y.back || y == x))
  b.setBorder { b.border with slots := b.border.slots.filter (fun y => !gone.contains y),
                              owed := if x.back then b.border.owed else SMap.modify 0 b.border.owed x.port (· + 1),
                              seen := b.border.seen.filter (fun e => !gone.any (fun y => e == (y.port, y.step, y.mb, true))) }

/-- A backward handover arrives (R309): matched to the slot that this module took by STEP, micro-batch and SLOT, whatever port it comes on; LAST ends it. -/
def Blk.hoBackward (b : Blk) (p : Nat) (h : Handover) : Blk :=
  let l := b.border.slots.filter (fun x => x.mine && x.step == h.step && x.mb == h.mb && x.slot == h.slot)
  match (l.filter (fun x => x.port == p) ++ l)[0]? with
  | none => b.hoErr p
  | some x => (if h.last then b.slotEnd x else b).send (.nearIn p (.handover h))

/-- Slot credits of a partner (R308, R350): its grant after training; then each is the credit of a slot that has ended, or, where none is owed, of a slot whose
micro-batch the partner holds through another port (log entry 67). -/
def Blk.slotsBack (b : Blk) (p n : Nat) : Blk :=
  let b1 := b.wr R.NRED_SLOTS_CREDITS (min 24 (b.rd R.NRED_SLOTS_CREDITS p + n)) p
  if n = 0 then b1
  else if !(b.nport p).slotsIn then b1.setNport p { b1.nport p with slotsIn := true }
  else
    let due := SMap.get 0 b.border.owed p
    let early := (b.border.slots.filter (fun x => x.mine && x.port == p && !x.back)).take (n - due)
    b1.setBorder { b1.border with owed := SMap.set 0 b1.border.owed p (due - n),
                                  slots := b1.border.slots.map (fun x => if early.contains x then { x with back := true } else x) }

/-- A backward handover leaves; with LAST, on the port through which the slot was taken, the slot returns, with its credit unless the port's grant has fallen. -/
def Blk.hoReturn (b : Blk) (p group : Nat) (h : Handover) : Blk :=
  let b1 := (b.hoLeft p group none h).nearSend p 3 0 (.handover h)
  if !h.last then b1
  else match b1.border.slots.find? (fun x => !x.mine && x.port == p && x.step == h.step && x.mb == h.mb) with
    | none => b1
    | some x =>
      let b2 := b1.setBorder { b1.border with slots := b1.border.slots.erase x,
                                              seen := b1.border.seen.filter (fun e => !(e.2.1 == h.step && e.2.2.1 == h.mb && !e.2.2.2)) }
      let b3 := b2.showSlots p
      if b3.slotsOf p < b3.rd R.NRED_SLOTS_GRANT p then b3.slotCredit p 1 else b3

/-- NRED_SLOTS.GRANT (R350): unchanged where the ports' grants would exceed 24; a higher one is granted at once. -/
def Blk.slotsGrant (b : Blk) (p new : Nat) : Blk :=
  let old := b.rd R.NRED_SLOTS_GRANT p
  let sum := ((List.range 8).map (fun q => if q = p then new else b.rd R.NRED_SLOTS_GRANT q)).foldl (· + ·) 0
  if 24 < sum then b else (b.wr R.NRED_SLOTS_GRANT new p).slotCredit p (new - max old (b.slotsOf p))

/-! ## Gathers (R300–R303, R349) -/

/-- Whether a holder may serve a request for the commit step (R301): the shard's digest of that step is ready and nothing newer has been applied; a comparison of the step
is decided; the state is none of PENDING and DIVERGED. -/
def Blk.mayServe (b : Blk) (q : GatherReq) : Bool :=
  let st := b.shardSt q.shard
  st.ready && st.step == q.commit && !b.dig.cmps.any (fun c => c.shard == q.shard && c.step == q.commit)
    && b.dig.parts.all (fun p => p.shard != q.shard || p.step == q.commit) && [0, 2, 3, 5, 6, 7].contains st.state

/-- VERSION of a shard's latest digest (R300). -/
def Blk.version (b : Blk) (shard : Nat) : Nat :=
  let st := b.shardSt shard
  st.step + 2 ^ 24 * shard + (st.digest / 2 ^ 32 ^^^ st.digest % 2 ^ 32) * 2 ^ 32

/-- The version-table entry of a layer and source rank (R349). -/
def versionAt (g : Group) (layer rank : Nat) : Nat := g.auxTab + 16 * (layer * g.members + rank)

/-- A stale piece (R303): recorded with the layer, the rank and both versions, and the step aborts. -/
def Blk.gatherStale (b : Blk) (p : Nat) (e : GatherExp) (want got : Nat) : Blk :=
  let b1 := (b.inc R.NRED_STALE_CNT p).error .nred p
    { cls := eStale, step := some e.step, attempt := some e.attempt, info0 := e.layer, info1 := e.rank, detail0 := want, detail1 := got }
  (b1.event .nred 18 p).ownAbort e.step e.attempt p { cls := eStale, origin := b.rd R.NRED_SITE_RANK, group := e.group }

/-- A piece arrives (R302): the forward's STEP is the commit step that the gather names, and its VERSION is recorded; the backward's VERSION is the one
recorded. -/
def Blk.gatherPiece (b : Blk) (p group layer rank version : Nat) (data : List Byte) : Blk :=
  match b.border.gexp.find? (fun e => e.group == group && e.layer == layer && e.rank == rank) with
  | none => b
  | some e =>
    let b0 := b.setBorder { b.border with gexp := b.border.gexp.erase e }
    match b0.groupAt group with
    | none => (b0.groupUe group).error .nred p { cls := eDenied, step := some e.step, info1 := group }
    | some g =>
      let a := versionAt g layer rank
      let out := Out.nearIn p (.gatherPiece (b.rd R.NRED_SITE_RANK) group layer rank version e.attempt data)
      if e.back then
        let rec' := leNat ((b0.borderRead a 16).getD [])
        let b0 := b0.ueIn clsH none a 16
        if bit rec' 72 && bits rec' 64 8 == e.attempt && bits rec' 0 64 == version then b0.send out
        else b0.gatherStale p e (if bit rec' 72 && bits rec' 64 8 == e.attempt then bits rec' 0 64 else 0) version
      else if version % 2 ^ 24 = e.commit then
        let b1 := b0.versWrite e.step e.attempt a (natLe 8 version ++ natLe 1 e.attempt ++ natLe 1 1 ++ natLe 6 0)
        (b1.setBorder { b1.border with vers := b1.border.vers.filter (fun v => v.2.2 != a) ++ [(e.step, e.attempt, a)] }).send out
      else b0.gatherStale p e e.commit version

/-! ## Exchanges (R313, R314) -/

/-- An exchange at its destination, made by its first record. -/
def Blk.xchOf (b : Blk) (group step attempt xid : Nat) : Exchange :=
  (b.border.xch.find? (fun x => x.group == group && x.step == step && x.attempt == attempt && x.xid == xid)).getD
    { group := group, step := step, attempt := attempt, xid := xid }

def Blk.setXch (b : Blk) (x : Exchange) : Blk :=
  b.setBorder { b.border with xch := b.border.xch.filter (fun y => !(y.group == x.group && y.step == x.step && y.attempt == x.attempt && y.xid == x.xid)) ++ [x] }

/-- Complete when every other member's count and all its tokens are there: placed in ascending source rank. -/
def Blk.xchCheck (b : Blk) (x : Exchange) : Blk :=
  match b.groupAt x.group with
  | none => b.setXch x
  | some g =>
    let srcs := (List.range g.members).filter (· != g.self)
    let full := srcs.all (fun r => match x.counts.find? (fun c => c.1 == r) with
      | some c => (SMap.get [] x.data r).length == c.2.1 * c.2.2
      | none => false)
    if !full then b.setXch x
    else
      let b1 := b.setBorder { b.border with xch := b.border.xch.filter (fun y => !(y.group == x.group && y.step == x.step && y.attempt == x.attempt && y.xid == x.xid)) }
      b1.send (.exchange x.group x.step x.xid (srcs.flatMap (fun r => SMap.get [] x.data r)))

def Blk.countIn (b : Blk) (p group step attempt xid rank n size : Nat) : Blk :=
  match b.groupAt group with
  | none => (b.groupUe group).error .nred p { cls := eDenied, step := some step, info1 := group }
  | some g =>
    if g.kind ≠ 3 || g.members ≤ rank || size % 64 != 0 then b
    else
      let x := b.xchOf group step attempt xid
      if x.counts.any (fun c => c.1 == rank) then b else b.xchCheck { x with counts := x.counts ++ [(rank, n, size)] }

def Blk.tokensIn (b : Blk) (p group step attempt xid rank : Nat) (data : List Byte) : Blk :=
  match b.groupAt group with
  | none => (b.groupUe group).error .nred p { cls := eDenied, step := some step, info1 := group }
  | some g =>
    if g.kind ≠ 3 || g.members ≤ rank then b
    else
      let x := b.xchOf group step attempt xid
      b.xchCheck { x with data := SMap.modify [] x.data rank (· ++ data) }

/-- A source's count record to a destination rank (R314, R350): refused at issue beyond the capacity that the table grants. -/
def Blk.countSend (b : Blk) (group step attempt xid rank n size : Nat) : Blk :=
  match b.groupAt group with
  | none => (b.groupUe group).error .nred 0 { cls := eDenied, step := some step, info1 := group }
  | some g =>
    let refuse := fun (b : Blk) (c : Nat) => b.error .nred 0 { cls := c, step := some step, attempt := some attempt, info1 := group }
    if g.kind ≠ 3 || g.members ≤ rank || size % 64 != 0 then refuse b eDenied
    else match b.borderLoad (g.auxTab + 4 * (g.self * g.members + rank)) 4 with
      | (b1, .error c) => refuse b1 c
      | (b1, .ok cap) =>
        if leNat cap < n * size then refuse b1 eDenied
        else match b1.borderLoad (g.memTab + 8 * rank) 8 with
          | (b2, .error c) => refuse b2 c
          | (b2, .ok l) =>
            let dst := bits (leNat l) 0 14
            let x : XSend := ⟨group, step, attempt, xid, rank, n * size, size⟩
            (b2.setBorder { b2.border with xsend := b2.border.xsend ++ [x] }).sendTo 4 dst 16 (.count dst group step attempt xid g.self n size)

/-- Tokens of a source to a destination rank (R313, R314): whole tokens, no more than its count record has announced; a send beyond that is refused at issue. -/
def Blk.tokensSend (b : Blk) (group step attempt xid rank : Nat) (data : List Byte) : Blk :=
  let denied := b.error .nred 0 { cls := eDenied, step := some step, attempt := some attempt, info1 := group }
  match b.border.xsend.find? (fun x => x.group == group && x.step == step && x.attempt == attempt && x.xid == xid && x.rank == rank), b.groupAt group with
  | some x, some g =>
    if data.length = 0 ∨ x.left < data.length ∨ data.length % x.size ≠ 0 then denied
    else match b.borderLoad (g.memTab + 8 * rank) 8 with
      | (b1, .error c) => b1.error .nred 0 { cls := c, step := some step, attempt := some attempt, info1 := group }
      | (b1, .ok l) =>
        let dst := bits (leNat l) 0 14
        let rest := b1.border.xsend.erase x
        let x' := { x with left := x.left - data.length }
        (b1.setBorder { b1.border with xsend := if x'.left = 0 then rest else rest ++ [x'] }).sendTo 4 dst data.length
          (.tokens dst group step attempt xid g.self data)
  | _, _ => denied

/-! ## Records in -/

/-- The step and attempt that a record carries, where the attempt rule of R297 and R344 covers it. -/
def msgAttempt : NMsg → Option (Nat × Nat)
  | .openB k => some (k.step, k.attempt) | .grantB k => some (k.step, k.attempt) | .bucket k _ _ => some (k.step, k.attempt)
  | .coded k _ _ _ => some (k.step, k.attempt) | .codedReq k _ _ => some (k.step, k.attempt) | .handover h => some (h.step, h.attempt)
  | .count _ _ s a _ _ _ _ => some (s, a) | .tokens _ _ s a _ _ _ => some (s, a) | _ => none

/-- OPEN (R335, R340): the bucket is known from now on; a free context is granted at once while the port's NRED page serves (R98), or the OPEN waits. -/
def Blk.openIn (b : Blk) (p : Nat) (k : BKey) : Blk :=
  if b.border.done.contains k && (b.bucket? k).isNone then b
  else
    let u : Blk × Bool := match b.bucket? k with
      | some _ => (b, true)
      | none =>
        let denied := fun (b : Blk) (c : Nat) =>
          (b.error .nred p { cls := c, step := some k.step, attempt := some k.attempt, info1 := k.group + 2 ^ 16 * k.bucket }, false)
        match b.groupUse k.group with
        | (b1, .error c) => denied b1 c
        | (b1, .ok (g, hops, mem)) =>
          if (g.kind = 4 ∧ k.bucket = 0) ∨ (g.kind ≤ 1 ∧ k.bucket < g.buckets) then
            (b1.addBucket { key := k, grp := g, hops := hops, lens := if g.kind = 4 then [1] else mem.map (·.2) }, true)
          else denied b1 eDenied
    if !u.2 then u.1
    else if ((u.1.bucket? k).map (fun x => x.ports.contains p)).getD false then u.1.control p (.grantB k)
    else if u.1.serving .nred p && decide (u.1.openCount p < 64) then u.1.grantCtx p k
    else u.1.setBorder { u.1.border with openWait := u.1.border.openWait ++ [(p, k)] }

/-- GRANT (R340): the bucket's records for the port leave. -/
def Blk.grantIn (b : Blk) (p : Nat) (k : BKey) : Blk :=
  match b.bucket? k with
  | none => b
  | some x =>
    let mine := x.hold.filter (fun e => e.1 == p)
    let x1 := { x with granted := if x.granted.contains p then x.granted else x.granted ++ [p], hold := x.hold.filter (fun e => e.1 != p) }
    (b.setBucket x1).each mine (fun b e => b.nearSend p 1 e.2.1 e.2.2)

/-- A record in order, by its kind. -/
def Blk.rxCore (b : Blk) (p : Nat) (m : NMsg) : Blk :=
  match m with
  | .openB k => b.openIn p k
  | .grantB k => b.grantIn p k
  | .bucket k r data =>
    (match b.bucket? k with
    | none => b
    | some x => if x.lens[r]? = some data.length then (b.setBucket (x.put (0x10 + p) r data)).advance k else b)
  | .coded k first block bytes =>
    if (b.bucket? k).isSome then b.codeTask true p { key := k, ent := first, block := block, bytes := bytes } else b
  | .codedReq k first block => b.resendCoded p k first block
  | .handover h => if h.back then b.hoBackward p h else b.hoForward p h
  | .count _ g s a x r n size => b.countIn p g s a x r n size
  | .tokens _ g s a x r data => b.tokensIn p g s a x r data
  | _ => b

/-- A record arrives: discarded below the current attempt or on an exhausted step, held above it (R297, R344, R345). -/
def Blk.rxIn (b : Blk) (p : Nat) (m : NMsg) : Blk :=
  match msgAttempt m with
  | none => b.rxCore p m
  | some (s, a) =>
    match b.attemptGate s a with
    | (b1, 0) => b1.rxCore p m
    | (b1, 1) => b1.inc R.NRED_DISCARD_CNT p
    | (b1, _) => b1.setBorder { b1.border with held := b1.border.held ++ [(p, m)] }

/-- Whether a held record's attempt has come, or has passed. -/
def Blk.ripe (b : Blk) (m : NMsg) : Bool :=
  match msgAttempt m with
  | some (s, a) => (match b.stepRec s with | some x => x.exhausted || decide (a ≤ x.attempt) | none => true)
  | none => true

/-- Held records whose attempt has come are taken in order. -/
def Blk.settle : (fuel : Nat) → Blk → Blk
  | 0, b => b
  | fuel + 1, b =>
    match b.border.held.find? (fun e => b.ripe e.2) with
    | none => b
    | some e => Blk.settle fuel ((b.setBorder { b.border with held := b.border.held.erase e }).rxIn e.1 e.2)

def Blk.settled (b : Blk) : Blk := Blk.settle b.border.held.length b

/-- A record from a port that carries it (R328). -/
def Blk.rx (b : Blk) (p tc : Nat) (m : NMsg) : Blk := b.when (b.tcOpen p tc) (fun b => (b.rxIn p m).settled)

def bkeyOk (k : BKey) : Bool := decide (k.group < 256) && decide (k.step < 2 ^ 24) && decide (k.attempt < 256) && decide (k.bucket < 65536)

def execOpenMsg (p : Nat) (k : BKey) (s : State) : Host.Outcome State Fault Refusal :=
  cmd (decide (p < 8) && bkeyOk k) s (fun b => b.rx p 1 (.openB k))

def execGrant (p : Nat) (k : BKey) (s : State) : Host.Outcome State Fault Refusal :=
  cmd (decide (p < 8) && bkeyOk k) s (fun b => b.rx p 1 (.grantB k))

/-- The bucket that a message names, and the message as the port carries it. -/
def bucketKey : BucketIn → BKey | .piece k _ _ => k | .coded k _ _ _ => k
def bucketMsg : BucketIn → NMsg | .piece k r data => .bucket k r data | .coded k first block bytes => .coded k first block bytes

/-- BUCKET_DATA (R337, R342). -/
def execBucketData (p : Nat) (m : BucketIn) (s : State) : Host.Outcome State Fault Refusal :=
  cmd (decide (p < 8) && bkeyOk (bucketKey m)) s (fun b => b.rx p 1 (bucketMsg m))

def execCodedBlockRerequest (p : Nat) (k : BKey) (first block : Nat) (s : State) : Host.Outcome State Fault Refusal :=
  cmd (decide (p < 8) && bkeyOk k) s (fun b => b.rx p 1 (.codedReq k first block))

/-- ABORT (R344). -/
def execAbortMsg (p step attempt cls origin group bucket : Nat) (s : State) : Host.Outcome State Fault Refusal :=
  cmd (decide (p < 8) && decide (step < 2 ^ 24) && decide (attempt < 256) && decide (cls < 256) && decide (origin < 2 ^ 14)
    && decide (group < 256) && decide (bucket < 65536)) s (fun b =>
    b.when (b.tcOpen p 0) (fun b =>
      (b.abortStep step attempt p (some p) { cls := cls, origin := origin, group := group, bucket := bucket }).settled))

/-- NRED_ABORT.GO (R344): the current attempt of the current step, that of the latest post. -/
def Blk.abortGo (b : Blk) (p : Nat) : Blk :=
  match b.stepRec (b.rd R.NRED_STEP_STEP) with
  | some x => (b.ownAbort x.step x.attempt p { cls := eAbort, origin := b.rd R.NRED_SITE_RANK }).settled
  | none => b

/-- HANDOVER_FORWARD (R308): it arrives on port `p`, or, with `sent`, leaves on it for the group whose deadline it takes (R343). -/
def execHandoverForward (p : Nat) (h : Handover) (sent : Bool) (group : Nat) (s : State) : Host.Outcome State Fault Refusal :=
  cmd (decide (p < 8) && decide (h.slot < 24) && !h.back && decide (h.step < 2 ^ 24) && decide (h.mb < 2 ^ 16) && decide (h.attempt < 256) && decide (h.variant < 256)) s (fun b =>
    if sent then b.hoSend p group h else b.rx p 3 (.handover h))

/-- HANDOVER_BACKWARD (R308, R309): it arrives, or, with `sent`, leaves for the group whose deadline it takes. -/
def execHandoverBackward (p : Nat) (h : Handover) (sent : Bool) (group : Nat) (s : State) : Host.Outcome State Fault Refusal :=
  cmd (decide (p < 8) && decide (h.slot < 24) && h.back && decide (h.step < 2 ^ 24) && decide (h.mb < 2 ^ 16) && decide (h.attempt < 256) && decide (h.variant < 256)) s (fun b =>
    if sent then b.hoReturn p group h else b.rx p 3 (.handover h))

/-- CREDIT_RETURN (R320): credits of the classes, and the partner's slot credits (R350). -/
def execCreditReturn (p : Nat) (l : List (Nat × Nat)) (slots : Nat) (s : State) : Host.Outcome State Fault Refusal :=
  cmd (decide (p < 8) && l.all (fun e => decide (e.1 < 8))) s (fun b =>
    b.when (b.tcOpen p 0) (fun b =>
      let b1 := b.each l (fun b e =>
        b.wr (R.NLNK_CREDIT_AVAIL.at e.1) (min (b.rd (R.NLNK_CREDIT_AVAIL.at e.1) p + e.2) (b.rd (R.NLNK_CREDIT_GRANTED.at e.1) p)) p)
      let b2 := (b1.slotsBack p slots).pump p
      Blk.hoDrain p b2.border.hoHeld.length b2))

/-- GATHER_REQ (R301, R349): a request arrives and waits to be served, or, with `sent`, this module requests the piece of a source rank for the forward or
(`back`) the backward of a step. -/
def execGatherReq (q : GatherQ) (sent back : Bool) (step : Nat) (s : State) : Host.Outcome State Fault Refusal :=
  cmd (decide (q.group < 256) && decide (q.commit < 2 ^ 24) && decide (q.shard < 256) && decide (q.attempt < 256) && decide (step < 2 ^ 24)
    && decide (q.layer < 2 ^ 16) && decide (q.peer < 2 ^ 16)) s (fun b =>
    if !sent then
      let r : GatherReq := ⟨q.peer, q.group, q.layer, q.commit, q.shard, q.attempt⟩
      b.when (b.tcAny 2) (fun b => b.setBorder { b.border with gwait := b.border.gwait ++ [r] })
    else match b.groupAt q.group with
      | none => (b.groupUe q.group).error .nred 0 { cls := eDenied, step := some step, info1 := q.group }
      | some g =>
        let refuse := fun (b : Blk) (c : Nat) => b.error .nred 0 { cls := c, step := some step, attempt := some q.attempt, info1 := q.group }
        if g.kind ≠ 2 || g.layers ≤ q.layer || g.members ≤ q.peer then refuse b eDenied
        else match b.borderLoad (g.memTab + 8 * q.peer) 8 with
          | (b1, .error c) => refuse b1 c
          | (b1, .ok l) =>
            let dst := bits (leNat l) 0 14
            let e : GatherExp := { group := q.group, layer := q.layer, rank := q.peer, commit := q.commit, back := back, step := step, attempt := q.attempt }
            (b1.setBorder { b1.border with gexp := b1.border.gexp ++ [e] }).sendTo 2 dst 16 (.gatherReq dst q.group q.layer q.commit q.shard q.attempt))

/-- GATHER_SERVE (R300, R301): the holder serves the oldest request that it may, with the piece of its working copy. -/
def execGatherServe (data : List Byte) (s : State) : Host.Outcome State Fault Refusal :=
  cmd (decide (data.length < 2 ^ 32)) s (fun b =>
    match b.border.gwait.find? (fun q => b.mayServe q) with
    | none => b
    | some q =>
      let self := match b.groupAt q.group with | some g => g.self | none => 0
      (b.setBorder { b.border with gwait := b.border.gwait.erase q }).sendTo 2 q.src (16 + data.length)
        (.gatherPiece q.src q.group q.layer self (b.version q.shard) q.attempt data))

/-- GATHER_PIECE (R302, R303). -/
def execGatherPiece (p group layer rank version : Nat) (data : List Byte) (s : State) : Host.Outcome State Fault Refusal :=
  cmd (decide (p < 8) && decide (group < 256) && decide (layer < 2 ^ 16) && decide (rank < 2 ^ 16) && decide (version < 2 ^ 64)) s (fun b =>
    b.when (b.tcOpen p 2) (fun b => (b.gatherPiece p group layer rank version data).settled))

/-- COUNT_RECORD (R313, R314): a source's count arrives, or, with `sent`, this module announces its tokens to the member of rank `rank`. -/
def execCountRecord (p : Nat) (x : ExpertHdr) (n size : Nat) (sent : Bool) (s : State) : Host.Outcome State Fault Refusal :=
  cmd (decide (p < 8) && decide (x.group < 256) && decide (x.step < 2 ^ 24) && decide (x.attempt < 256) && decide (x.xid < 2 ^ 16)
    && decide (x.rank < 2 ^ 16) && decide (n < 2 ^ 32) && decide (size < 2 ^ 32)) s (fun b =>
    if sent then b.countSend x.group x.step x.attempt x.xid x.rank n size
    else b.rx p 4 (.count (b.rd R.NRED_SITE_RANK) x.group x.step x.attempt x.xid x.rank n size))

/-- EXPERT_TOKENS (R314). -/
def execExpertTokens (p : Nat) (x : ExpertHdr) (data : List Byte) (sent : Bool) (s : State) : Host.Outcome State Fault Refusal :=
  cmd (decide (p < 8) && decide (x.group < 256) && decide (x.step < 2 ^ 24) && decide (x.attempt < 256) && decide (x.xid < 2 ^ 16)
    && decide (x.rank < 2 ^ 16)) s (fun b =>
    if sent then b.tokensSend x.group x.step x.attempt x.xid x.rank data
    else b.rx p 4 (.tokens (b.rd R.NRED_SITE_RANK) x.group x.step x.attempt x.xid x.rank data))

/-! ## Deadlines (R343) -/

/-- A deadline count at a tick: it starts with the group's DEADLINE at the first tick. -/
def tickLeft (d : Nat) : Option Nat → Option Nat
  | none => some d
  | some n => some (n - 1)

def Blk.deadlineOf (b : Blk) (g : Nat) : Nat := match b.groupAt g with | some x => x.deadline | none => 255

/-- Every deadline count at a tick (R108, R343). Opening the new beat's exchange windows (R108) does nothing more: the spec says of them no effect (DESIGN CHOICE, log
entry 57). -/
def Blk.tickBorder (b : Blk) : Blk :=
  let x := b.border
  b.setBorder { x with buckets := x.buckets.map (fun y => if y.complete then y else { y with left := tickLeft y.grp.deadline y.left }),
                       gexp := x.gexp.map (fun e => { e with left := tickLeft (b.deadlineOf e.group) e.left }),
                       xch := x.xch.map (fun e => { e with left := tickLeft (b.deadlineOf e.group) e.left }),
                       hoHeld := x.hoHeld.map (fun e => { e with left := tickLeft (b.deadlineOf e.group) e.left }),
                       hoOut := x.hoOut.map (fun e => { e with left := tickLeft (b.deadlineOf e.group) e.left }) }

/-- BUCKET_DEADLINE_EXPIRE (R343). -/
def execBucketDeadlineExpire (k : BKey) (s : State) : Host.Outcome State Fault Refusal :=
  cmd (bkeyOk k) s (fun b =>
    match b.bucket? k with
    | some x => b.when (!x.complete && x.left == some 0) (fun b =>
        (b.ownAbort k.step k.attempt ((hopPorts x.hops).headD 0)
          { cls := eAbort, origin := b.rd R.NRED_SITE_RANK, group := k.group, bucket := k.bucket }).settled)
    | none => b)

/-- GROUP_DEADLINE_EXPIRE (R343): a gather, a handover or an exchange of a group has run out its deadline. -/
def execGroupDeadlineExpire (group step attempt : Nat) (s : State) : Host.Outcome State Fault Refusal :=
  cmd (decide (group < 256) && decide (step < 2 ^ 24) && decide (attempt < 256)) s (fun b =>
    let x := b.border
    let ho := fun (e : HeldHo) => e.group == group && e.ho.step == step && e.ho.attempt == attempt && e.left == some 0
    let late := x.gexp.any (fun e => e.group == group && e.step == step && e.attempt == attempt && e.left == some 0)
      || x.xch.any (fun e => e.group == group && e.step == step && e.attempt == attempt && e.left == some 0)
      || x.hoHeld.any ho || x.hoOut.any ho
    b.when late (fun b => (b.ownAbort step attempt 0 { cls := eAbort, origin := b.rd R.NRED_SITE_RANK, group := group }).settled))

end Sys2Proof.Machine
end

