-- ==== Sys2Proof/Machine/FarWire.lean ====
section
/-! DEFINITION. What the far ports send (R53, R54, R68, R69, R386–R388, R398): records, their seal and their packets. -/

namespace Sys2Proof.Machine

def Blk.setFar (b : Blk) (x : Far) : Blk := { b with far := x }
def Blk.fpeer (b : Blk) (s : Nat) : FarPeer := SMap.get {} b.far.peers s
def Blk.setFpeer (b : Blk) (s : Nat) (x : FarPeer) : Blk := b.setFar { b.far with peers := SMap.set {} b.far.peers s x }

/-- A record's KIND (R388). -/
def FarMsg.kind : FarMsg → Nat
  | .heartbeat .. => 1 | .echo .. => 2 | .ack .. => 3 | .data .. => 4 | .routeDown _ => 5 | .key _ => 6

/-- A record's fields as numbers, for what the spec gives no layout. -/
def FarMsg.nats : FarMsg → List Nat
  | .heartbeat q t => [q, t] | .echo q t u => [q, t, u] | .ack n l w => n :: w :: l.flatMap (fun e => [e.1, e.2])
  | .data m o n _ => [m, o, n] | .routeDown r => [r] | .key e => [e]

/-- A plaintext (R388), padded with zeros to 8,192 bytes (R69): the KIND, bytes 0x08–0x1F as one number, the data. -/
def farPlain (kind head : Nat) (data : List Byte) : List Byte :=
  natLe 1 kind ++ natLe 1 0 ++ natLe 2 data.length ++ natLe 4 0 ++ natLe 24 head ++ (data ++ List.replicate (8160 - data.length) 0)

/-- The plaintext of a record. For the kinds other than DATA the spec lays out the KIND alone: bytes 0x08–0x1F, the data and its length are free (log entry 68). -/
def FarMsg.plain : FarMsg → List Byte
  | .data mid off total l => farPlain 4 (mid + 2 ^ 64 * off + 2 ^ 128 * total) l
  | m => farPlain m.kind (Config.recordBody (32 + m.kind) m.nats)
      (natLe (Config.recordBody (40 + m.kind) m.nats % 8161) (Config.recordBody (48 + m.kind) m.nats))

/-- The clear header (R387). -/
def farHeader (route epoch sid num : Nat) : List Byte := natLe 1 1 ++ natLe 1 route ++ natLe 2 epoch ++ natLe 4 sid ++ natLe 8 num

/-- The nonce (R387): the direction, 0 from the module with the lower site identifier, and the record number. -/
def farNonce (dir num : Nat) : Nat := 2 ^ 95 * dir + num % 2 ^ 64

/-- A sealed record: the clear header, which is authenticated, 8,192 bytes of ciphertext and the tag. -/
def farRecord (key dir route epoch sid num : Nat) (m : FarMsg) : List Byte :=
  let h := farHeader route epoch sid num
  h ++ natLe 8208 (Config.gcm key (farNonce dir num) h m.plain)

/-- A field in network byte order. -/
def natBe (n v : Nat) : List Byte := (natLe n v).reverse

/-- The sum of the 16-bit words of a string of bytes, and the UDP checksum over them (R386). -/
def words16 : List Byte → Nat
  | a :: c :: l => a.toNat * 256 + c.toNat + words16 l
  | [a] => a.toNat * 256
  | [] => 0
def udpSum (l : List Byte) : Nat :=
  let v := words16 l
  let r := 0xFFFF - (if v = 0 then 0 else (v - 1) % 0xFFFF + 1)
  if r = 0 then 0xFFFF else r

/-- The IPv6 packet of a record (R386, R387, R398): DSCP, flow label, addresses and UDP port; its hop limit is not stated and free (log entry 68). -/
def farPacket (dscp sid port : Nat) (src dst record : List Byte) : List Byte :=
  let len := 8 + record.length
  let udp := natBe 2 port ++ natBe 2 port ++ natBe 2 len
  natBe 4 (6 * 2 ^ 28 + dscp % 64 * 2 ^ 22 + sid % 2 ^ 20) ++ natBe 2 len ++ natLe 1 17 ++ natLe 1 Config.hopLimit ++ src ++ dst
    ++ udp ++ natBe 2 (udpSum (src ++ dst ++ natBe 4 len ++ natBe 4 17 ++ udp ++ record)) ++ record

/-- A far epoch key (R53): from the session secret, in the context of direction and epoch number (log entry 68). -/
def farKey (secret dir epoch : Nat) : Nat := Config.kdf secret "far epoch" [dir, epoch]

/-- The direction bit of the records that this module sends to a peer (R387). -/
def Blk.farDir (b : Blk) (s : Nat) : Nat := if b.rd R.FXP_SITE < s then 0 else 1

/-- The lid derives the epoch key of this module's records and writes it into the key pages (R54). -/
def Blk.farInstall (b : Blk) (s epoch : Nat) : Blk := b.keyWrite R.FKEY_SLOT 0 s (farKey (b.fpeer s).secret (b.farDir s) epoch)

/-- The packet of a record to a peer on a route, under the current epoch. -/
def Blk.farBytes (b : Blk) (s r num : Nat) (m : FarMsg) : List Byte :=
  let x := b.fpeer s
  farPacket (leNat ((x.entry.drop 1).take 1)) x.sid (leNat ((x.entry.drop 2).take 2)) ((x.ownEntry.drop (8 + 16 * r)).take 16) ((x.entry.drop (8 + 16 * r)).take 16)
    (farRecord (b.keyRead R.FKEY_SLOT 0 s) (b.farDir s) r (b.rd (R.FKEY_PEER_EPOCH.at s)) x.sid num m)

end Sys2Proof.Machine
end

