-- ==== Sys2Proof/Machine/Far.lean ====
section
/-! DEFINITION. The far exchange protocol (R386–R408): sessions, routes, records, stores, rings, manifests, the join. -/

namespace Sys2Proof.Machine

def FarPeer.route (x : FarPeer) (r : Nat) : FarRoute := if r = 0 then x.r0 else x.r1
def FarPeer.setRoute (x : FarPeer) (r : Nat) (y : FarRoute) : FarPeer := if r = 0 then { x with r0 := y } else { x with r1 := y }
def FarPeer.routeSt (x : FarPeer) (r st : Nat) : FarPeer := x.setRoute r { x.route r with st := st }

/-- Route states (R410). -/
def rtUnused : Nat := 0
def rtDown : Nat := 1
def rtData : Nat := 2
def rtStandby : Nat := 3
def rtLost : Nat := 4
def rtReturning : Nat := 5

/-- The route that carries DATA to a peer, if one does. -/
def FarPeer.dataRoute (x : FarPeer) : Option Nat := [0, 1].find? (fun r => (x.route r).st == rtData)

/-- The route that carries a peer's ACKs and ECHOs: the standby, or else the DATA route (R389). -/
def FarPeer.ackRoute (x : FarPeer) : Option Nat :=
  match [0, 1].find? (fun r => (x.route r).st == rtStandby) with
  | some r => some r
  | none => x.dataRoute

/-- This module's site, and the FXP page on which shared events and errors appear: F0's, or F1's while F0's does not serve. -/
def Blk.site (b : Blk) : Nat := b.rd R.FXP_SITE
def Blk.fxpPg (b : Blk) : Nat := if b.serving .fxp 0 || !b.serving .fxp 1 then 0 else 1

/-- The state of a session: 0 none, 1 establishing, 2 up (R80). -/
def Blk.fsess (b : Blk) (s : Nat) : Nat := b.rd (R.FKEY_PEER_SESSION.at s)

/-- Whether a far port exchanges FXP packets (R98, R409): its pages run, its transmitter is on, its lanes are locked and it is not in loopback. -/
def Blk.farLive (b : Blk) (f : Nat) : Bool :=
  b.runsOn .fxp f && b.runsOn .fmac f && b.on R.FMAC_CTRL_EN f && !b.on R.FMAC_CTRL_LOOPBACK f && b.on R.FMAC_STATUS_LINK f

/-- An event of the session keys, which both pages show (R80). -/
def Blk.fkeyEvent (b : Blk) (n : Nat) : Blk := (b.event .fkey n 0).event .fkey n 1

/-! ## The peer table (R398) -/

/-- An entry of the peer table; none where it cannot be read. -/
def Blk.peerEntry (b : Blk) (s : Nat) : Blk × Option (List Byte) :=
  match b.loadVa modXl clsH none (b.rdAddr R.FXP_PEER_BASE_LO R.FXP_PEER_BASE_HI + 128 * s) 128 with
  | (b', .ok l) => (b', some l)
  | (b', .error _) => (b', none)

/-- A site looked up: it joins the list where its entry has VALID set. -/
def Blk.peerStep (acc : Blk × List Nat) (s : Nat) : Blk × List Nat :=
  if s = acc.1.site then acc
  else
    let r := acc.1.peerEntry s
    match r.2 with
    | some l => if bit (leNat (l.take 1)) 0 then (r.1, acc.2 ++ [s]) else (r.1, acc.2)
    | none => (r.1, acc.2)

/-- The partner sites whose entries have VALID set. -/
def Blk.validPeers (b : Blk) : Blk × List Nat := (List.range 8).foldl Blk.peerStep (b, [])

/-! ## Sending records (R387–R391) -/

/-- A record under the current epoch: it takes the session's next number, never reused (R68). A port that is not live sends nothing. -/
def Blk.farEmit (b : Blk) (s r : Nat) (m : FarMsg) : Blk :=
  let x := b.fpeer s
  let b1 := b.setFpeer s { x with nextRec := x.nextRec + 1 }
  if b.farLive r then
    (b1.add64 R.FMAC_TX_FRAMES_LO R.FMAC_TX_FRAMES_HI 1 r).send (.far r s (b.rd (R.FKEY_PEER_EPOCH.at s)) x.nextRec m (b.farBytes s r x.nextRec m))
  else b1

/-- The sender changes epoch (R68): it holds only the new key, and a KEY record on the DATA route says so. FKEY_PEER.EPOCH shows the sending epoch and
FKEY_REKEY_CNT counts the changes of both directions (DESIGN CHOICE, log entry 68). -/
def Blk.farRekey (b : Blk) (s : Nat) : Blk :=
  let e := (b.rd (R.FKEY_PEER_EPOCH.at s) + 1) % 2 ^ 16
  let b1 := (((b.setFpeer s { b.fpeer s with epochRec := (b.fpeer s).nextRec }).wr (R.FKEY_PEER_EPOCH.at s) e).inc (R.FKEY_REKEY_CNT.at s)).fkeyEvent 16
  let b2 := b1.farInstall s e
  match (b2.fpeer s).dataRoute with
  | some r => b2.farEmit s r (.key e)
  | none => b2

/-- Whether the sender's epoch has carried 2^32 records (R68). -/
def Blk.farEpochFull (b : Blk) (s : Nat) : Bool := decide (2 ^ 32 ≤ (b.fpeer s).nextRec - (b.fpeer s).epochRec)

/-- A record sent to a peer on a route, after the epoch change that 2^32 records make due. -/
def Blk.farSend (b : Blk) (s r : Nat) (m : FarMsg) : Blk := (if b.farEpochFull s then b.farRekey s else b).farEmit s r m

/-- A message of the send store. -/
def Blk.sendMsg? (b : Blk) (mid : Nat) : Option SendMsg := b.far.send.find? (fun m => m.mid == mid)

/-- The bytes of a segment, read from the send store. -/
def Blk.segment (b : Blk) (m : SendMsg) (off len : Nat) : Blk × Except Fail (List Byte) := b.loadVa modXl clsH none (m.va + off) len

/-- A DATA record sent on a route, and kept as not acknowledged (R391). A segment that cannot be read from the store is an error of the page. -/
def Blk.sendData (b : Blk) (s r mid off len : Nat) : Blk :=
  match b.sendMsg? mid with
  | none => b
  | some m =>
    match b.segment m off len with
    | (b1, .error f) => b1.error .fxp b1.fxpPg { cls := f.cls, addr := if f.cls = eEcc then f.pa else f.va + 2 ^ 63 }
    | (b1, .ok l) =>
      let b2 := if b1.farEpochFull s then b1.farRekey s else b1
      let x := b2.fpeer s
      let b3 := b2.setFpeer s { x with sent := x.sent ++ [FarSent.mk x.nextRec mid off len r] }
      b3.farEmit s r (.data mid off m.len l)

/-- Queued segments sent to a peer while its session is up, a route carries DATA and its window has room (R391, R396). `fuel` bounds the records. -/
def Blk.farPump (s : Nat) : (fuel : Nat) → Blk → Blk
  | 0, b => b
  | fuel + 1, b =>
    let x := b.fpeer s
    match x.queue, x.dataRoute with
    | (mid, off) :: q, some r =>
      if b.fsess s ≠ 2 || (match x.lim with | some l => decide (l ≤ x.nextRec) | none => false) then b
      else match b.sendMsg? mid with
        | none => Blk.farPump s fuel (b.setFpeer s { x with queue := q })
        | some m =>
          let n := min 8160 (m.len - off)
          let b1 := b.setFpeer s { x with queue := if off + n < m.len then (mid, off + n) :: q else q }
          Blk.farPump s fuel (b1.sendData s r mid off n)
    | _, _ => b

/-- Segments that wait for a peer. -/
def Blk.segsLeft (b : Blk) (s : Nat) : Nat :=
  ((b.fpeer s).queue.map (fun e => match b.sendMsg? e.1 with | some m => (m.len - e.2) / 8160 + 1 | none => 1)).foldl (· + ·) 1

def Blk.pumpPeer (b : Blk) (s : Nat) : Blk := Blk.farPump s (b.segsLeft s) b

/-- A record not acknowledged sent again on the DATA route under a new number (R391). -/
def Blk.resend (b : Blk) (s : Nat) (e : FarSent) : Blk :=
  let x := b.fpeer s
  match x.dataRoute with
  | none => b
  | some r =>
    let b1 := b.setFpeer s { x with sent := x.sent.filter (· != e) }
    (b1.sendData s r e.mid e.off e.len).inc R.FXP_RESEND_CNT r

/-- DATA moves onto a route of a peer: what is not acknowledged goes again, then what waits (R392, R395). -/
def Blk.moveData (b : Blk) (s r : Nat) (failover : Bool) (again : FarSent → Bool) : Blk :=
  let b1 := b.setFpeer s ((b.fpeer s).routeSt r rtData)
  let b2 := if failover then b1.inc R.FXP_FAILOVER_CNT r else b1
  (b2.each ((b2.fpeer s).sent.filter again) (fun b e => b.resend s e)).pumpPeer s

/-! ## Sessions (R389, R407) -/

/-- Sessions established, as FKEY shows them. -/
def Blk.showSessions (b : Blk) : Blk := b.wr R.FKEY_SESSIONS (((List.range 8).filter (fun s => b.fsess s == 2)).length)

/-- A session comes up: a new secret, identifier and keys (R53), record numbers and epochs from 0; the route that PRIMARY names carries DATA; what is not
acknowledged goes again (R407). `entry` and `own` are the peer table's entries of the peer and of this site. -/
def Blk.farSessionUp (b : Blk) (s : Nat) (entry own : List Byte) : Blk :=
  let p := b.rd R.FXP_CTRL_PRIMARY
  let n := b.io.ent
  let d := b.draw
  let b := d.2.entUsed
  let b1 := ((b.wr (R.FKEY_PEER_SESSION.at s) 2).wr (R.FKEY_PEER_EPOCH.at s) 0).wr (R.FKEY_PEER_PREV_HELD.at s) 0
  let x := b1.fpeer s
  let x1 := { x with nextRec := 0, epochRec := 0, rxEpoch := 0, got := [], ackDue := 0, lim := none, r0 := {}, r1 := {}, secret := Config.crypto 20 [s, n],
                     sid := d.1 % 2 ^ 32, entry := entry, ownEntry := own }
  let b2 := (b1.setFpeer s (x1.routeSt (1 - p) rtStandby)).farInstall s 0
  b2.showSessions.moveData s p false (fun _ => true)

/-- A session ends and its keys are erased; its records wait for the next one (R407). -/
def Blk.sessionEnd (b : Blk) (s : Nat) : Blk :=
  let st := b.fsess s
  let next := if b.on R.FXP_CTRL_EN && st != 0 then 1 else 0
  let b1 := (b.wr (R.FKEY_PEER_SESSION.at s) next).wr (R.FKEY_PEER_PREV_HELD.at s) 0
  let rt : FarRoute := { st := if next = 1 then rtDown else rtUnused }
  ((b1.setFpeer s { b1.fpeer s with r0 := rt, r1 := rt, got := [], ackDue := 0, lim := none, secret := 0 }).keyWrite R.FKEY_SLOT 0 s 0).showSessions

def Blk.sessionsEnd (b : Blk) : Blk := b.each (List.range 8) Blk.sessionEnd

/-- Whether a partner's answer in the session exchange is accepted (R64, R389, R398): its entry is VALID, its identity is the one that the peer table names, the endorsement under the
federation root of the owner policy record and the quote pass, and the quote shows no debug scope that the record forbids. -/
def Blk.answerOk (b : Blk) (a : FarAnswer) (entry : List Byte) : Bool :=
  a.ok && bit (leNat (entry.take 1)) 0 && b.flash.policy.isSome && a.debug &&& b.debugForbidden == 0 && leNat ((entry.drop 0x48).take 32) == a.identity

/-- What a partner has answered in the session exchange: a session comes up, or the answer is refused with AUTH_FAIL. -/
def Blk.sessionAnswer (b : Blk) (a : FarAnswer) : Blk :=
  if b.fsess a.site = 2 ∨ a.site = b.site then b
  else match b.peerEntry b.site with
    | (b0, none) => b0
    | (b0, some own) => match b0.peerEntry a.site with
    | (b1, none) => b1
    | (b1, some l) =>
      if b1.answerOk a l then b1.farSessionUp a.site l own
      else b1.error .fxp b1.fxpPg { cls := eAuth, info0 := a.site, info1 := b1.rd R.FXP_ROUND }

/-- FXP_CTRL.EN 1 (R389): a session with every partner whose entry is VALID. -/
def Blk.fxpStart (b : Blk) : Blk :=
  let o := b.validPeers
  o.1.each o.2 (fun b s =>
    if b.fsess s ≠ 0 then b
    else (b.wr (R.FKEY_PEER_SESSION.at s) 1).setFpeer s (((b.fpeer s).routeSt 0 rtDown).routeSt 1 rtDown))

/-- The effect of a write of FXP_CTRL.EN (R389). -/
def Blk.fxpEn (b : Blk) (on : Bool) : Blk := if on then b.fxpStart else b.sessionsEnd

/-! ## Completions (R397) -/

def FarCpl.bytes (c : FarCpl) : List Byte :=
  natLe 1 c.event ++ natLe 1 c.peer ++ natLe 1 c.cls ++ natLe 1 0 ++ natLe 4 c.seq ++ natLe 8 c.mid ++ natLe 8 c.va ++ natLe 8 c.len

/-- A completion written into the ring; none where the ring has no room or the write fails. -/
def Blk.cqWrite (b : Blk) (c : FarCpl) : Blk × Bool :=
  let put := b.rd R.FXP_CQ_PUT
  let size := 2 ^ b.rd R.FXP_CQ_SIZE
  if ringFull 16 put (b.rd R.FXP_CQ_GET) size then (b, false)
  else match b.storeVa modXl clsH none (b.rdAddr R.FXP_CQ_BASE_LO R.FXP_CQ_BASE_HI + put % size * 32) c.bytes (some (b.owner .fxp b.fxpPg)) with
    | (b1, none) =>
      let b2 := b1.addW R.FXP_CQ_PUT 1
      ((if put = b.rd R.FXP_CQ_GET then b2.event .fxp 20 b2.fxpPg else b2), true)
    | (b1, some f) => (b1.error .fxp b1.fxpPg { cls := f.cls, addr := if f.cls = eEcc then f.pa else f.va + 2 ^ 63 }, false)

/-- A completion posted with the next sequence, or held in order while the ring is full (R397). -/
def Blk.cqPost (b : Blk) (c : FarCpl) : Blk :=
  let c := { c with seq := b.far.cqSeq }
  let b := b.setFar { b.far with cqSeq := (b.far.cqSeq + 1) % 2 ^ 32 }
  let hold := fun (b : Blk) => b.setFar { b.far with cqHeld := b.far.cqHeld ++ [c] }
  if b.far.cqHeld ≠ [] then hold b
  else match b.cqWrite c with
    | (b1, true) => b1
    | (b1, false) => hold b1

/-- Held completions written while the ring has room. -/
def Blk.farCqDrain : (fuel : Nat) → Blk → Blk
  | 0, b => b
  | fuel + 1, b =>
    match b.far.cqHeld with
    | [] => b
    | c :: l =>
      match b.cqWrite c with
      | (b1, true) => Blk.farCqDrain fuel (b1.setFar { b1.far with cqHeld := l })
      | (b1, false) => b1

/-! ## The stores (R396) -/

def gib : Nat := 2 ^ 30

def Blk.storeBase (b : Blk) : Nat := b.rdAddr R.FXP_STORE_BASE_LO R.FXP_STORE_BASE_HI

/-- FXP_STORE_USED (R410), in units of 64 MiB, rounded up. -/
def Blk.showStores (b : Blk) : Blk :=
  let sum := fun (l : List Nat) => (l.foldl (· + ·) 0 + 2 ^ 26 - 1) / 2 ^ 26
  (b.wr R.FXP_STORE_USED_SEND (sum (b.far.send.map (·.len)))).wr R.FXP_STORE_USED_RECV (sum (b.far.recv.map (·.len)))

/-- A place for `n` bytes in a store of `cap` bytes at `base`, beside the ranges in use: the spec does not say which, so a free value proposes one, and the first
that fits is taken where it does not (log entry 9). -/
def Blk.storePlace (b : Blk) (base cap n : Nat) (used : List (Nat × Nat)) : Blk × Option Nat :=
  let fits := fun a => decide (base ≤ a) && decide (a + n ≤ base + cap) && used.all (fun u => decide (a + n ≤ u.1) || decide (u.1 + u.2 ≤ a))
  let o := b.draw
  let first := base + o.1 % (cap + 1)
  if fits first then (o.2, some first) else (o.2, (base :: used.map (fun u => u.1 + u.2)).find? fits)

def Blk.sendPlace (b : Blk) (n : Nat) : Blk × Option Nat :=
  b.storePlace b.storeBase (b.rd R.FXP_STORE_GIB_SEND * gib) n (b.far.send.map (fun m => (m.va, m.len)))

def Blk.recvPlace (b : Blk) (n : Nat) : Blk × Option Nat :=
  b.storePlace (b.storeBase + b.rd R.FXP_STORE_GIB_SEND * gib) (b.rd R.FXP_STORE_GIB_RECV * gib) n (b.far.recv.map (fun m => (m.va, m.len)))

/-- The window that an ACK advertises, in records (R396). -/
def Blk.recvWindow (b : Blk) : Nat := (b.rd R.FXP_STORE_GIB_RECV * gib - (b.far.recv.map (·.len)).foldl (· + ·) 0) / 8160

/-- A message's identifier (R388). -/
def midRound (m : Nat) : Nat := bits m 0 24
def midType (m : Nat) : Nat := bits m 24 4
def midSite (m : Nat) : Nat := bits m 32 3
def midShard (m : Nat) : Nat := bits m 40 8
def midOk (m : Nat) : Bool := bits m 28 4 == 0 && bits m 35 5 == 0 && decide (1 ≤ midType m) && decide (midType m ≤ 5)
def midOf (round type site shard : Nat) : Nat := round + 2 ^ 24 * type + 2 ^ 32 * site + 2 ^ 40 * shard

/-- A message put into the send store and queued for the peers named; none where the store has no room, an error where the copy fails. -/
def Blk.postMsg (b : Blk) (mid : Nat) (bytes : List Byte) (mask : Nat) (notify : Bool) : Blk × Except Fail Bool :=
  match b.sendPlace bytes.length with
  | (b1, none) => (b1, .ok false)
  | (b1, some va) =>
    match b1.storeVa modXl clsH none va bytes (some (b1.owner .fxp b1.fxpPg)) with
    | (b2, some f) => (b2, .error f)
    | (b2, none) =>
      let m : SendMsg := { mid := mid, va := va, len := bytes.length, mask := mask, notify := notify }
      let ss := setBits 8 mask
      let b3 := (b2.setFar { b2.far with send := b2.far.send ++ [m] }).showStores
      (b3.each ss (fun b s => (b.setFpeer s { b.fpeer s with queue := (b.fpeer s).queue ++ [(mid, 0)] }).pumpPeer s), .ok true)

/-- A message is freed when every peer named has acknowledged all of it, with a SENT completion for NOTIFY (R396, R397). -/
def Blk.sendDone (b : Blk) (s mid : Nat) : Blk :=
  match b.sendMsg? mid with
  | none => b
  | some m =>
    let all := (setBits 8 m.mask).all (fun t => !((b.fpeer t).sent.any (fun e => e.mid == mid)) && !((b.fpeer t).queue.any (fun e => e.1 == mid)))
    if !all then b
    else
      let b1 := (b.setFar { b.far with send := b.far.send.erase m }).showStores
      if m.notify then b1.cqPost { event := 1, peer := s, cls := 0, seq := 0, mid := mid, va := 0, len := m.len } else b1

/-! ## Rounds and manifests (R382, R399–R406) -/

/-- Round `a` lies at or after round `c`, modulo 2^24 (R382). -/
def roundGe (a c : Nat) : Bool := decide ((a + 2 ^ 24 - c) % 2 ^ 24 < 2 ^ 23)

/-- The staleness of a contribution of round `r'` in round `r`. -/
def staleness (r r' : Nat) : Nat := (r + 2 ^ 24 - r') % 2 ^ 24

/-- The keeper of a round: the latest designation whose first round is not after it (R404). -/
def Blk.keeperOf (b : Blk) (r : Nat) : Nat :=
  match b.far.keepers.reverse.find? (fun e => roundGe r e.1) with
  | some e => e.2
  | none => 0

/-- The effect of a write of FXP_KEEPER (R404). -/
def Blk.keeperWrite (b : Blk) : Blk :=
  b.setFar { b.far with keepers := b.far.keepers ++ [(b.rd R.FXP_KEEPER_FROM_ROUND, b.rd R.FXP_KEEPER_SITE)] }

def Blk.recvMsg? (b : Blk) (mid : Nat) : Option RecvMsg := b.far.recv.find? (fun m => m.mid == mid)
def Blk.setRecv (b : Blk) (m : RecvMsg) : Blk :=
  b.setFar { b.far with recv := b.far.recv.map (fun x => if x.mid = m.mid then m else x) }

/-- Whether every segment is present (R391). -/
def RecvMsg.whole (m : RecvMsg) : Bool := m.segs.length == (m.len + 8159) / 8160

/-- How far a message has been decoded, block after block from its start (R377, R400). -/
def RecvMsg.decodedTo (m : RecvMsg) : (fuel pos : Nat) → Nat
  | 0, pos => pos
  | fuel + 1, pos =>
    match m.blocks.find? (fun e => e.1 == pos) with
    | some e => if e.2 = 0 then pos else m.decodedTo fuel ((pos + e.2 + 15) / 16 * 16)
    | none => pos

/-- A contribution is complete when its message is and every block of it has decoded without damage (R400). -/
def RecvMsg.complete (m : RecvMsg) : Bool := m.whole && decide (m.len ≤ m.decodedTo (m.blocks.length + 1) 0)

/-- The complete contribution that the module holds of a site for a round, not yet named: its identifier. The module's own is complete once it is posted. -/
def Blk.contribution (b : Blk) (s r : Nat) : Option Nat :=
  let mid := if s = b.site then (b.far.own.find? (fun e => e.1 == r)).map (·.2)
    else (b.far.recv.find? (fun m => midType m.mid == 1 && midSite m.mid == s && midRound m.mid == r && m.complete)).map (·.mid)
  match mid with
  | some m => if b.far.named.contains m then none else some m
  | none => none

/-- A received message leaves the receive store; its identifier is kept, so that a late duplicate is removed (R68). -/
def Blk.release (b : Blk) (m : RecvMsg) : Blk :=
  (b.setFar { b.far with recv := b.far.recv.erase m, done := b.far.done ++ [m.mid] }).showStores

/-- Contributions beyond the bound that no manifest named are freed unused (R400, R402). -/
def Blk.dropStale (b : Blk) (r : Nat) : Blk :=
  let old := b.far.recv.filter (fun m => midType m.mid == 1 && m.named.isNone && roundGe r (midRound m.mid)
    && decide (b.rd R.FXP_STALE < staleness r (midRound m.mid)))
  b.each old (fun b m => ((b.release m).inc R.FXP_STALE_DROP_CNT).cqPost
    { event := 4, peer := midSite m.mid, cls := 0, seq := 0, mid := m.mid, va := m.va, len := m.len })

/-- ROUND_LATE for a peer (R400, R404, R410). -/
def Blk.roundLate (b : Blk) (s r : Nat) : Blk :=
  ((b.inc R.FXP_LATE_CNT).error .fxp b.fxpPg { cls := eLate, info0 := s + 2 ^ 8 * r }).event .fxp 19 b.fxpPg

/-- Raw weights and weights of the entries, in order (R400). -/
def Blk.weigh (b : Blk) (r : Nat) (l : List (Nat × Nat × Nat)) : List ManEntry :=
  let raw := fun (e : Nat × Nat × Nat) => if staleness r e.2.1 = 0 then 0x3F80_0000 else b.rd R.FXP_LATE_WEIGHT
  let total := match l with
    | [] => 0
    | e :: t => t.foldl (fun acc x => fadd acc (raw x)) (raw e)
  l.map (fun e => ⟨e.1, e.2.1, fdiv (raw e) total, e.2.2⟩)

/-- The keeper closes the manifest of a round (R400, R402). -/
def Blk.closeRound (b : Blk) (r shard : Nat) : Blk :=
  let o := b.validPeers
  let b1 := o.1
  let active := (List.range 8).filter (fun s => s == b1.site || o.2.contains s)
  let bound := b1.rd R.FXP_STALE
  let entries := (List.range 8).flatMap (fun s => (List.range (bound + 1)).reverse.flatMap (fun k =>
    let r' := (r + 2 ^ 24 - k) % 2 ^ 24
    match b1.contribution s r' with | some m => [(s, r', m)] | none => []))
  let late := active.filter (fun s => (b1.contribution s r).isNone)
  let b2 := b1.each late (fun b s => b.roundLate s r)
  let done := b2.far.recv.filter (fun m => m.freed && m.named.isSome)
  let b3 := (b2.each done Blk.release).dropStale r
  b3.setFar { b3.far with closing := some ⟨r, shard, b1.weigh r entries⟩ }

/-- The next round, and the module's own contribution to it. -/
def Blk.nextRound (b : Blk) : Nat := (b.rd R.FXP_ROUND + 1) % 2 ^ 24
def Blk.ownContribution (b : Blk) (r : Nat) : Option Nat := (b.far.own.find? (fun e => e.1 == r)).map (·.2)

/-- The keeper closes once it holds every active site's complete contribution (R400). -/
def Blk.closeCheck (b : Blk) : Blk :=
  let r := b.nextRound
  match b.ownContribution r, b.far.closing with
  | some mid, none =>
    if b.keeperOf r ≠ b.site || b.on R.FXP_CTRL_JOIN then b
    else
      let o := b.validPeers
      if o.2.all (fun s => (o.1.contribution s r).isSome) then o.1.closeRound r (midShard mid) else o.1
  | _, _ => b

/-- The entries of a manifest (R399). -/
def manEntries (l : List Byte) : List ManEntry :=
  (List.range (fieldAt l 0x0D 1)).map (fun e =>
    let o := 0x20 + 16 * e
    ⟨fieldAt l o 1, fieldAt l (o + 1) 3, fieldAt l (o + 4) 4, fieldAt l (o + 8) 8⟩)

/-- Whether the bytes have a manifest's layout (R399). -/
def manOk (l : List Byte) : Bool :=
  let n := fieldAt l 0x0D 1
  fieldAt l 0 4 == 0x0780_0F01 && fieldAt l 4 4 == 32 + 16 * n && decide (1 ≤ n) && decide (n ≤ 32) && l.length == 32 + 16 * n + 49856
    && fieldAt l 0x0B 1 == 0 && fieldAt l 0x0F 1 == 0 && fieldAt l 0x18 8 == 0

/-- The module's own digest of the anchor that round `r` begins from (R399, R401): the shard digest, where the shard's parts stand at round r − 1; otherwise the
spec gives it no value, and it is free (log entry 9). -/
def Blk.anchorDigest (b : Blk) (r shard : Nat) : Blk × Nat :=
  match b.shardReady shard with
  | some (st, d) => if st = (r + 2 ^ 24 - 1) % 2 ^ 24 then (b, d) else (b.draw.2, b.draw.1 % 2 ^ 64)
  | none => (b.draw.2, b.draw.1 % 2 ^ 64)

/-- The round journal's record of an accepted manifest (R406). -/
def Blk.journal (b : Blk) (r va : Nat) : Blk :=
  match b.storeVa modXl clsH none (b.rdAddr R.FXP_JOURNAL_BASE_LO R.FXP_JOURNAL_BASE_HI + r % 4 * 64)
      (natLe 4 r ++ natLe 1 2 ++ natLe 3 0 ++ natLe 8 va ++ natLe 48 0) (some (b.owner .fxp b.fxpPg)) with
  | (b1, none) => b1
  | (b1, some f) => b1.error .fxp b1.fxpPg { cls := f.cls, addr := if f.cls = eEcc then f.pa else f.va + 2 ^ 63 }

/-- A manifest is accepted (R401, R403, R405, R406). -/
def Blk.acceptManifest (b : Blk) (m : RecvMsg) (l : List Byte) : Blk :=
  let r := fieldAt l 8 3
  let es := manEntries l
  let mids := es.map (·.mid)
  let b1 := ((b.wr R.FXP_ROUND r).inc R.FXP_MANIFEST_CNT).journal r m.va
  let b2 := b1.setRecv { m with seq := some b1.far.cqSeq }
  let b3 := (b2.cqPost { event := 3, peer := fieldAt l 0x0C 1, cls := 0, seq := 0, mid := m.mid, va := m.va, len := m.len }).event .fxp 18 b2.fxpPg
  let b4 := b3.setFar { b3.far with named := b3.far.named ++ mids, last := es, lastKeeper := fieldAt l 0x0C 1,
                                    recv := b3.far.recv.map (fun x => if mids.contains x.mid then { x with named := some r } else x) }
  let b5 := if b4.far.joining && es.any (fun e => e.site == b4.site) then (b4.setFar { b4.far with joining := false }).event .fxp 22 b4.fxpPg else b4
  let o := b5.anchorDigest r (fieldAt l 0x0E 1)
  let want := fieldAt l 0x10 8
  let b6 := if o.2 = want then o.1
    else o.1.error .fxp o.1.fxpPg { cls := eDigest, info1 := r, silent := true, detail0 := o.2, detail1 := want }
  let keep := b6.keeperOf r == b6.site
  let free := b6.far.recv.filter (fun x => x.freed && x.named.isSome && !keep)
  (b6.each free Blk.release).dropStale r

/-- A manifest that has arrived is verified and accepted, held, or discarded (R401, R405). `signer` is the site whose alias key verifies its signature. -/
def Blk.takeManifest (b : Blk) (mid : Nat) (signer : Option Nat) : Blk :=
  match b.recvMsg? mid with
  | none => b
  | some m =>
    match b.loadVa modXl clsH none m.va m.len with
    | (b1, .error f) => b1.error .fxp b1.fxpPg { cls := f.cls, addr := if f.cls = eEcc then f.pa else f.va + 2 ^ 63 }
    | (b1, .ok l) =>
      let r := fieldAt l 8 3
      if b1.on R.FXP_CTRL_JOIN then b1.setFar { b1.far with waiting := b1.far.waiting ++ [(mid, signer.getD 8)] }
      else if !manOk l || signer ≠ some (b1.keeperOf r) then (b1.release m).error .fxp b1.fxpPg { cls := eAuth, info1 := r }
      else if roundGe (b1.rd R.FXP_ROUND) r then (b1.release m).inc R.FXP_PKT_DROP_CNT b1.fxpPg
      else if r = b1.nextRound then b1.acceptManifest m l
      else b1.setFar { b1.far with waiting := b1.far.waiting ++ [(mid, signer.getD 8)] }

/-- Waiting manifests are taken again in order of round, until none moves (R401, R405). -/
def Blk.takeWaiting : (fuel : Nat) → Blk → Blk
  | 0, b => b
  | fuel + 1, b =>
    let w := b.far.waiting
    match w.find? (fun e => midRound e.1 == b.nextRound || roundGe (b.rd R.FXP_ROUND) (midRound e.1)) with
    | none => b
    | some e => Blk.takeWaiting fuel ((b.setFar { b.far with waiting := w.erase e }).takeManifest e.1 (if e.2 < 8 then some e.2 else none))

def Blk.manifestIn (b : Blk) (mid : Nat) (signer : Option Nat) : Blk :=
  let b1 := b.takeManifest mid signer
  if b1.on R.FXP_CTRL_JOIN then b1 else (Blk.takeWaiting b1.far.waiting.length b1).closeCheck

/-- MANIFEST (R401). -/
def execManifest (mid : Nat) (signer : Option Nat) (s : State) : Host.Outcome State Fault Refusal :=
  cmd (midOk mid && midType mid == 2) s (fun b =>
    match b.recvMsg? mid with
    | some m => b.when (m.whole && m.seq.isNone && !b.far.waiting.any (fun e => e.1 == mid)) (fun b => b.manifestIn mid signer)
    | none => b)

/-- MANIFEST_CLOSE_TIMEOUT (R400, R404): the keeper closes; any other site records that the keeper's manifest is late. -/
def execManifestCloseTimeout (s : State) : Host.Outcome State Fault Refusal :=
  cmd true s (fun b =>
    let r := b.nextRound
    match b.ownContribution r, b.far.closing with
    | some mid, none =>
      if b.on R.FXP_CTRL_JOIN then b else if b.keeperOf r = b.site then b.closeRound r (midShard mid) else b.roundLate (b.keeperOf r) r
    | _, _ => b)

/-- The bytes of a manifest, with its signature (R399; log entry 7). -/
def manBytes (x : ManOut) (site digest : Nat) : List Byte :=
  let l := natLe 4 0x0780_0F01 ++ natLe 4 (32 + 16 * x.entries.length) ++ natLe 4 x.round ++ natLe 1 site ++ natLe 1 x.entries.length ++ natLe 1 x.shard
    ++ natLe 1 0 ++ natLe 8 digest ++ natLe 8 0
    ++ x.entries.flatMap (fun e => natLe 1 e.site ++ natLe 3 e.round ++ natLe 4 e.weight ++ natLe 8 e.mid)
  l ++ natLe 49856 (Config.crypto 9 [leNat l])

/-- An error of a far transfer that failed. -/
def Blk.farFail (b : Blk) (f : Fail) : Blk := b.error .fxp b.fxpPg { cls := f.cls, addr := if f.cls = eEcc then f.pa else f.va + 2 ^ 63 }

/-- The keeper's own copy of its manifest, written at `va`: it accepts it. -/
def Blk.manKept (mid va len : Nat) (r : Blk × Option Fail) : Blk :=
  match r.2 with
  | some f => r.1.farFail f
  | none =>
    let m : RecvMsg := { mid := mid, va := va, len := len, segs := List.range ((len + 8159) / 8160) }
    ((r.1.setFar { r.1.far with closing := none, recv := r.1.far.recv ++ [m] }).showStores).manifestIn mid (some r.1.site)

/-- A manifest that has been offered to the partners: sent, without room in the send store, or unreadable. -/
def Blk.manPosted (mid va : Nat) (bytes : List Byte) (r : Blk × Except Fail Bool) : Blk :=
  match r.2 with
  | .ok true => Blk.manKept mid va bytes.length (r.1.storeVa modXl clsH none va bytes (some (r.1.owner .fxp r.1.fxpPg)))
  | .ok false => (r.1.inc R.FXP_SEND_WAIT_CNT).event .fxp 21 r.1.fxpPg
  | .error f => r.1.farFail f

/-- A signed manifest, once a place in the receive store has been looked for. -/
def Blk.manPlaced (mid dests : Nat) (bytes : List Byte) (r : Blk × Option Nat) : Blk :=
  match r.2 with
  | none => r.1.event .fxp 21 r.1.fxpPg
  | some va => Blk.manPosted mid va bytes (r.1.postMsg mid bytes dests false)

/-- The manifest that the round's keeper has signed goes out. -/
def Blk.manSend (x : ManOut) (o : Blk × Nat) : Blk :=
  let v := o.1.validPeers
  let bytes := manBytes x o.1.site o.2
  Blk.manPlaced (midOf x.round 2 o.1.site x.shard) (v.2.foldl (fun acc s => acc + 2 ^ s) 0) bytes (v.1.recvPlace bytes.length)

/-- MANIFEST_SIGNED (R399): the manifest goes to every partner, and the keeper accepts it itself, keeping a copy in its receive store. A manifest that finds no
room in a store waits, signed. -/
def execManifestSigned (s : State) : Host.Outcome State Fault Refusal :=
  cmd true s (fun b =>
    match b.far.closing with
    | none => b
    | some x => Blk.manSend x (b.anchorDigest x.round x.shard))

/-- FETCH_WAIT_EXPIRE (R402): a FETCH_REQ for a named contribution goes to the keeper's module; its content is the identifier. -/
def execFetchWaitExpire (mid : Nat) (s : State) : Host.Outcome State Fault Refusal :=
  cmd (midOk mid && midType mid == 1) s (fun b =>
    let k := b.far.lastKeeper
    let held := match b.recvMsg? mid with | some m => m.complete | none => false
    b.when (b.far.last.any (fun e => e.mid == mid) && midSite mid != b.site && k != b.site && !held) (fun b =>
      match b.postMsg (midOf (midRound mid) 4 (midSite mid) (midShard mid)) (natLe 8 mid) (2 ^ k) false with
      | (b1, .ok true) => b1
      | (b1, .ok false) => b1.inc R.FXP_SEND_WAIT_CNT
      | (b1, .error f) => b1.farFail f))

/-- The effect of a write of FXP_CTRL.JOIN (R405). -/
def Blk.fxpJoin (b : Blk) : Blk := (b.wr R.FXP_CTRL_JOIN 1).setFar { b.far with joining := true }

/-- The effect of an accepted write of FXP_ROUND (R405): the join state ends, and the manifests that waited are taken in order. -/
def Blk.fxpRound (b : Blk) (v : Nat) : Blk :=
  let b1 := (b.wr R.FXP_ROUND v).wr R.FXP_CTRL_JOIN 0
  (Blk.takeWaiting b1.far.waiting.length b1).closeCheck

/-- The effect of a write of FXP_RX_FREE (R396, R402): a contribution that no manifest has named, or that the keeper named in the latest manifest, is held. -/
def Blk.fxpFree (b : Blk) (seq : Nat) : Blk :=
  match b.far.recv.find? (fun m => m.seq == some seq) with
  | none => b
  | some m =>
    let hold := midType m.mid == 1 && (match m.named with | none => true | some r => b.keeperOf r == b.site && r == b.rd R.FXP_ROUND)
    if hold then b.setRecv { m with freed := true } else b.release m

/-- The effect of an accepted write of FXP_CQ_GET (R397). -/
def Blk.cqGet (b : Blk) : Blk := Blk.farCqDrain b.far.cqHeld.length b

/-! ## The send ring (R397) -/

/-- The head of the send ring refused: a completion with its class (R397). -/
def Blk.sqRefuse (b : Blk) (cls mid len : Nat) : Blk :=
  ((b.setFar { b.far with sqWait := false }).addW R.FXP_SQ_GET 1).cqPost { event := 5, peer := 0, cls := cls, seq := 0, mid := mid, va := 0, len := len }

/-- The head of the send ring, read as `l` (R397). -/
def Blk.sqTake (b : Blk) (l : List Byte) : Blk :=
  let w := fun k => leNat ((l.drop (8 * k)).take 8)
  let mid := w 0
  let len := w 2
  let mask := bits (w 3) 0 8
  let ok := midOk mid && w 1 / 2 ^ 48 == 0 && decide (1 ≤ len) && decide (len ≤ 2 ^ 36) && w 3 / 512 == 0
  let v := b.validPeers
  let b := v.1
  if !ok || (setBits 8 mask).any (fun s => s == b.site || !v.2.contains s) then b.sqRefuse eDenied mid len
  else match b.loadVa modXl clsH none (w 1) len with
    | (b1, .error f) => b1.sqRefuse f.cls mid len
    | (b1, .ok bytes) =>
      match b1.postMsg mid bytes mask (bit (w 3) 8) with
      | (b2, .error f) => b2.sqRefuse f.cls mid len
      | (b2, .ok false) =>
        if b2.far.sqWait then b2
        else ((b2.setFar { b2.far with sqWait := true }).inc R.FXP_SEND_WAIT_CNT).event .fxp 21 b2.fxpPg
      | (b2, .ok true) =>
        let b3 := (b2.setFar { b2.far with sqWait := false }).addW R.FXP_SQ_GET 1
        let b4 := if midType mid = 1 ∧ midSite mid = b3.site then (b3.setFar { b3.far with own := b3.far.own ++ [(midRound mid, mid)] }).closeCheck else b3
        if mask = 0 then b4.sendDone b4.site mid else b4

/-- SEND_DESCRIPTOR_TAKE (R395–R397, R509). -/
def execSendDescriptorTake (s : State) : Host.Outcome State Fault Refusal :=
  cmd true s (fun b => b.when ((b.serving .fxp 0 || b.serving .fxp 1) && b.rd R.FXP_SQ_PUT != b.rd R.FXP_SQ_GET) (fun b =>
    match b.loadVa modXl clsH none (b.rdAddr R.FXP_SQ_BASE_LO R.FXP_SQ_BASE_HI + b.rd R.FXP_SQ_GET % 2 ^ b.rd R.FXP_SQ_SIZE * 32) 32 with
    | (b1, .error f) => b1.sqRefuse f.cls 0 0
    | (b1, .ok l) => b1.sqTake l))

/-! ## Receiving records (R68, R387, R391) -/

/-- A record number put into the ranges that have arrived. -/
def gotAdd (n : Nat) : List (Nat × Nat) → List (Nat × Nat)
  | [] => [(n, n)]
  | (a, c) :: l =>
    if n + 1 < a then (n, n) :: (a, c) :: l
    else if n + 1 = a then (n, c) :: l
    else if n ≤ c then (a, c) :: l
    else if n = c + 1 then (match l with | (a', c') :: t => if c + 2 = a' then (a, c') :: t else (a, n) :: l | [] => [(a, n)])
    else (a, c) :: gotAdd n l

/-- The highest number below which every record has arrived, and the later ranges, at most 64 (R388). -/
def gotAck (l : List (Nat × Nat)) : Nat × List (Nat × Nat) :=
  match l with
  | (0, c) :: t => (c + 1, t.take 64)
  | _ => (0, l.take 64)

/-- Whether a record is accepted: a session, a key that the receiver holds, a good tag, a number that has not arrived; and the block after the checks (R68, R386,
R387). The first record of the next epoch starts it: the receiver keeps the key of the one before. -/
def Blk.farAccept (b : Blk) (h : FarHdr) : Blk × Bool :=
  let x := b.fpeer h.peer
  if !b.farLive h.port then (b, false)
  else
    let b := b.add64 R.FMAC_RX_FRAMES_LO R.FMAC_RX_FRAMES_HI 1 h.port
    if b.fsess h.peer ≠ 2 then (b.inc R.FXP_PKT_DROP_CNT h.port, false)
    else
      let prev := h.epoch == (x.rxEpoch + 2 ^ 16 - 1) % 2 ^ 16 && b.on (R.FKEY_PEER_PREV_HELD.at h.peer)
      let next := h.epoch == (x.rxEpoch + 1) % 2 ^ 16
      if !(h.epoch == x.rxEpoch || prev || next) then (b.inc R.LID_STALE_EPOCH, false)
      else if !h.tagOk then ((b.inc (R.FKEY_TAG_FAIL_CNT.at h.peer)).fkeyEvent 17, false)
      else if x.got.any (fun e => decide (e.1 ≤ h.num) && decide (h.num ≤ e.2)) then (b.inc R.FXP_PKT_DROP_CNT h.port, false)
      else if next && h.epoch != x.rxEpoch then
        ((((b.setFpeer h.peer { x with rxEpoch := h.epoch }).wr (R.FKEY_PEER_PREV_HELD.at h.peer) 1).inc (R.FKEY_REKEY_CNT.at h.peer)).fkeyEvent 16, true)
      else (b, true)

/-- The record's number noted as arrived. -/
def Blk.farNote (b : Blk) (h : FarHdr) : Blk := b.setFpeer h.peer { b.fpeer h.peer with got := gotAdd h.num (b.fpeer h.peer).got }

/-- A record's effect where it is accepted. -/
def Blk.farIn (b : Blk) (h : FarHdr) (f : Blk → Blk) : Blk :=
  match b.farAccept h with
  | (b1, true) => f (b1.farNote h)
  | (b1, false) => b1

/-- A well-formed header. -/
def hdrOk (h : FarHdr) : Bool := decide (h.port < 2) && decide (h.peer < 8) && decide (h.epoch < 2 ^ 16) && decide (h.num < 2 ^ 64)

/-- An ACK sent to a peer (R388, R391, R396). -/
def Blk.sendAck (b : Blk) (s : Nat) : Blk :=
  match (b.fpeer s).ackRoute with
  | none => b
  | some r =>
    let a := gotAck (b.fpeer s).got
    (b.setFpeer s { b.fpeer s with ackDue := 0 }).farSend s r (.ack a.1 a.2 b.recvWindow)

/-- A message's received bytes complete it (R391, R400): a completion, but for a manifest, which is verified first. -/
def Blk.messageDone (b : Blk) (s : Nat) (m : RecvMsg) : Blk :=
  if midType m.mid = 2 then b
  else
    let b1 := b.setRecv { m with seq := some b.far.cqSeq }
    (b1.cqPost { event := 2, peer := s, cls := 0, seq := 0, mid := m.mid, va := m.va, len := m.len }).closeCheck

/-- A segment placed in a message of the receive store (R391). -/
def Blk.placeSegment (b : Blk) (h : FarHdr) (m : RecvMsg) (off : Nat) (data : List Byte) : Blk :=
  let k := off / 8160
  if m.segs.contains k then (b.farNote h).inc R.FXP_DUP_CNT h.port
  else match b.storeVa modXl clsH none (m.va + off) data (some (b.owner .fxp b.fxpPg)) with
    | (b1, some f) => b1.error .fxp b1.fxpPg { cls := f.cls, addr := if f.cls = eEcc then f.pa else f.va + 2 ^ 63 }
    | (b1, none) =>
      let m1 := { m with segs := m.segs ++ [k] }
      let b2 := (b1.farNote h).setRecv m1
      if m1.whole then b2.messageDone h.peer m1 else b2

/-- Data that asks for an ACK: at once for every 64th record. -/
def Blk.dataDue (b : Blk) (peer : Nat) : Blk :=
  let x := b.fpeer peer
  let b1 := b.setFpeer peer { x with ackDue := x.ackDue + 1 }
  if 64 ≤ x.ackDue + 1 then b1.sendAck peer else b1

/-- The first data of a message placed where the receive store has room; otherwise the record is not taken. -/
def Blk.dataNew (h : FarHdr) (mid off total : Nat) (data : List Byte) (r : Blk × Option Nat) : Blk :=
  match r.2 with
  | none => r.1.event .fxp 21 r.1.fxpPg
  | some va =>
    let m : RecvMsg := { mid := mid, va := va, len := total }
    (((r.1.setFar { r.1.far with recv := r.1.far.recv ++ [m] }).showStores).placeSegment h m off data).dataDue h.peer

/-- A DATA record that is accepted. -/
def Blk.dataTaken (b : Blk) (h : FarHdr) (mid off total : Nat) (data : List Byte) : Blk :=
  if off % 8160 ≠ 0 ∨ total = 0 ∨ 2 ^ 36 < total ∨ total ≤ off ∨ data.length ≠ min 8160 (total - off) ∨ !midOk mid then (b.farNote h).inc R.FXP_PKT_DROP_CNT h.port
  else if b.far.done.contains mid then ((b.farNote h).inc R.FXP_DUP_CNT h.port).dataDue h.peer
  else match b.recvMsg? mid with
    | some m => if m.len ≠ total then (b.farNote h).inc R.FXP_PKT_DROP_CNT h.port else (b.placeSegment h m off data).dataDue h.peer
    | none => Blk.dataNew h mid off total data (b.recvPlace total)

/-- A DATA record (R391). A message already received whole and released is a duplicate (R68). One for which the receive store has no room is not taken. -/
def Blk.dataIn (b : Blk) (h : FarHdr) (mid off total : Nat) (data : List Byte) : Blk :=
  let r := b.farAccept h
  if r.2 then r.1.dataTaken h mid off total data else r.1

/-- The data of a plaintext (R388). -/
def plainData (l : List Byte) : List Byte := (l.drop 32).take (fieldAt l 2 2)

/-- DATA (R388, R391), the record's 8,192-byte plaintext given. One whose data is not its segment of the message it names is dropped and counted. -/
def execDataRec (h : FarHdr) (plain : List Byte) (s : State) : Host.Outcome State Fault Refusal :=
  cmd (hdrOk h && decide (plain.length = 8192)) s (fun b => b.dataIn h (fieldAt plain 8 8) (fieldAt plain 0x10 8) (fieldAt plain 0x18 8) (plainData plain))

/-- ACK (R391, R396): the records it covers are freed, messages may be complete at every peer, and more go out. -/
def execAck (h : FarHdr) (below : Nat) (ranges : List (Nat × Nat)) (window : Nat) (s : State) : Host.Outcome State Fault Refusal :=
  cmd (hdrOk h && decide (ranges.length ≤ 64) && decide (below < 2 ^ 64) && decide (window < 2 ^ 64)) s (fun b => b.farIn h (fun b =>
    let x := b.fpeer h.peer
    let covered := fun (e : FarSent) => decide (e.num < below) || ranges.any (fun r => decide (r.1 ≤ e.num) && decide (e.num ≤ r.2))
    let gone := (x.sent.filter covered).map (·.mid)
    let b1 := b.setFpeer h.peer { x with sent := x.sent.filter (fun e => !covered e), lim := some (below + window) }
    (b1.each gone.eraseDups (fun b m => b.sendDone h.peer m)).pumpPeer h.peer))

/-- ACK_TIMER (R391): 100 µs after DATA that is not yet acknowledged. -/
def execAckTimer (peer : Nat) (s : State) : Host.Outcome State Fault Refusal :=
  cmd (decide (peer < 8)) s (fun b => b.when (b.fsess peer == 2 && (b.fpeer peer).ackDue != 0) (fun b => b.sendAck peer))

/-- RESEND_TIMEOUT (R391). -/
def execResendTimeout (peer rec : Nat) (s : State) : Host.Outcome State Fault Refusal :=
  cmd (decide (peer < 8)) s (fun b =>
    match (b.fpeer peer).sent.find? (fun e => e.num == rec) with
    | some e => b.when (b.fsess peer == 2) (fun b => b.resend peer e)
    | none => b)

/-! ## Heartbeats and routes (R390–R395) -/

/-- HEARTBEAT_TIMER (R390): session answers that have come in since are taken, then a HEARTBEAT goes to each peer on each used route. -/
def execHeartbeatTimer (now : Nat) (answers : List FarAnswer) (s : State) : Host.Outcome State Fault Refusal :=
  cmd (answers.all (fun a => decide (a.site < 8))) s (fun b =>
    let b1 := if b.on R.FXP_CTRL_EN && (b.serving .fxp 0 || b.serving .fxp 1) then b.each answers Blk.sessionAnswer else b
    b1.each (List.range 8) (fun b p => b.each [0, 1] (fun b r =>
      let x := b.fpeer p
      if b.fsess p = 2 ∧ (x.route r).st ≠ rtUnused then
        (b.setFpeer p { x with hbSeq := x.hbSeq + 1 }).farSend p r (.heartbeat x.hbSeq now)
      else b)))

/-- A route that returns comes back after 16 heartbeats and 16 echoes in a row (R393): as the standby, or, where no route carries DATA, as the DATA route (R395). -/
def Blk.routeBack (b : Blk) (s r : Nat) : Blk :=
  let x := b.fpeer s
  let y := x.route r
  if y.hb < 16 ∨ y.ec < 16 then b
  else
    let b1 := (b.setFpeer s (x.setRoute r { st := rtStandby })).event .fxp 17 r
    if (b1.fpeer s).dataRoute = none then b1.moveData s r true (fun _ => true) else b1

/-- HEARTBEAT (R390, R393): answered by an ECHO on the same route. -/
def execHeartbeat (h : FarHdr) (seq time turn : Nat) (s : State) : Host.Outcome State Fault Refusal :=
  cmd (hdrOk h) s (fun b => b.farIn h (fun b =>
    let b1 := b.farSend h.peer h.port (.echo seq time turn)
    let x := b1.fpeer h.peer
    let y := x.route h.port
    if y.st = rtLost ∨ y.st = rtReturning then (b1.setFpeer h.peer (x.setRoute h.port { y with st := rtReturning, hb := y.hb + 1 })).routeBack h.peer h.port
    else b1))

/-- The estimator after a sample in ns (R390), exactly. -/
def FarRoute.sample (y : FarRoute) (t : Nat) : FarRoute :=
  if y.sampled then
    let v := t * 2 ^ y.exp
    let d := if y.srtt ≤ v then v - y.srtt else y.srtt - v
    { y with srtt := 7 * y.srtt + v, rttvar := 6 * y.rttvar + 2 * d, exp := y.exp + 3 }
  else { y with sampled := true, srtt := 2 * t, rttvar := t, exp := 1 }

/-- SRTT, RTTVAR and RTO as registers show them, in ns rounded down (R390, R410). -/
def FarRoute.srttNs (y : FarRoute) : Nat := y.srtt / 2 ^ y.exp
def FarRoute.rttvarNs (y : FarRoute) : Nat := y.rttvar / 2 ^ y.exp
def FarRoute.rtoNs (y : FarRoute) : Nat :=
  if y.sampled then min ((y.srtt + max (4 * y.rttvar) (2000000 * 2 ^ y.exp)) / 2 ^ y.exp) 1000000000 else 0

/-- ECHO (R390, R393, R394). -/
def execEcho (h : FarHdr) (sample : Nat) (s : State) : Host.Outcome State Fault Refusal :=
  cmd (hdrOk h) s (fun b => b.farIn h (fun b =>
    let x := b.fpeer h.peer
    let y := x.route h.port
    if y.st = rtReturning then (b.setFpeer h.peer (x.setRoute h.port { y with ec := y.ec + 1 })).routeBack h.peer h.port
    else if y.st = rtData ∨ y.st = rtStandby then b.setFpeer h.peer (x.setRoute h.port (y.sample sample))
    else b))

/-- A route is lost (R392, R395): DATA moves to the other where it stands by, and what the lost route carried goes again. -/
def Blk.routeLost (b : Blk) (s r : Nat) : Blk :=
  let x := b.fpeer s
  let was := (x.route r).st
  let b1 := b.setFpeer s (x.setRoute r { x.route r with st := rtLost, hb := 0, ec := 0 })
  if was = rtData ∧ ((b1.fpeer s).route (1 - r)).st = rtStandby then b1.moveData s (1 - r) true (fun e => e.route == r) else b1

/-- ROUTE_LOST_TIMEOUT (R392): no HEARTBEAT for 1 ms. -/
def execRouteLostTimeout (peer route : Nat) (s : State) : Host.Outcome State Fault Refusal :=
  cmd (decide (peer < 8) && decide (route < 2)) s (fun b =>
    let st := ((b.fpeer peer).route route).st
    if b.fsess peer = 2 ∧ (st = rtData ∨ st = rtStandby) then
      let b1 := ((b.inc R.FXP_ROUTE_LOST_CNT route).error .fxp route { cls := eRoute, info0 := peer + b.rd R.FXP_ROUND * 2 ^ 8 }).event .fxp 16 route
      let other := ((b1.fpeer peer).route (1 - route)).st
      let b2 := if other = rtData ∨ other = rtStandby then b1.farSend peer (1 - route) (.routeDown route) else b1
      b2.routeLost peer route
    else if st = rtReturning then b.setFpeer peer ((b.fpeer peer).setRoute route { (b.fpeer peer).route route with st := rtLost, hb := 0, ec := 0 })
    else b)

/-- ROUTE_DOWN (R392): a route that either end declares lost is lost in both directions. -/
def execRouteDown (h : FarHdr) (route : Nat) (s : State) : Host.Outcome State Fault Refusal :=
  cmd (hdrOk h && decide (route < 2)) s (fun b => b.farIn h (fun b =>
    let st := ((b.fpeer h.peer).route route).st
    if st = rtData ∨ st = rtStandby ∨ st = rtReturning then b.routeLost h.peer route else b))

/-! ## Epochs (R68) -/

/-- FAR_REKEY_DUE (R68): the epoch is `age` seconds old; it ends once that reaches LID_FAR_REKEY_S, or once it has carried 2^32 records. -/
def execFarRekeyDue (peer age : Nat) (s : State) : Host.Outcome State Fault Refusal :=
  cmd (decide (peer < 8)) s (fun b => b.when (b.fsess peer == 2 && (decide (b.rd R.LID_FAR_REKEY_S ≤ age) || b.farEpochFull peer)) (fun b => b.farRekey peer))

/-- FAR_PREV_KEY_EXPIRE (R68). -/
def execFarPrevKeyExpire (peer : Nat) (s : State) : Host.Outcome State Fault Refusal :=
  cmd (decide (peer < 8)) s (fun b => b.wr (R.FKEY_PEER_PREV_HELD.at peer) 0)

/-- KEY (R68, R388): as the first record of its epoch it starts that epoch at the receiver; what it names beyond that changes nothing. -/
def execKeyRec (h : FarHdr) (e : Nat) (s : State) : Host.Outcome State Fault Refusal :=
  cmd (hdrOk h && decide (e < 2 ^ 16)) s (fun b => b.farIn h (fun b => b))

/-! ## Frames (R386, R409) -/

/-- A far port's MAC address, its first octet highest (R386): 0x02 or 0x06, then bytes 0–4 of the identity hash. -/
def macOf (f : Nat) : Nat :=
  (List.range 5).foldl (fun acc k => acc * 256 + bits Config.identityHash.toNat (8 * k) 8) (if f = 0 then 0x02 else 0x06)

/-- NEIGHBOR_DISCOVERY (R386): the port answers a solicitation for its own address and keeps its router's MAC address; it drops any other. -/
def execNeighborDiscovery (f : Nat) (m : NdMsg) (s : State) : Host.Outcome State Fault Refusal :=
  cmd (decide (f < 2)) s (fun b => b.when (b.farLive f) (fun b =>
    let b := b.add64 R.FMAC_RX_FRAMES_LO R.FMAC_RX_FRAMES_HI 1 f
    match b.peerEntry b.site with
    | (b1, none) => b1.inc R.FXP_PKT_DROP_CNT f
    | (b1, some l) =>
      let own := leNat ((l.drop (8 + 16 * f)).take 16)
      let router := leNat ((l.drop (0x28 + 16 * f)).take 16)
      match m with
      | .solicit t =>
        if t = own then
          (b1.add64 R.FMAC_TX_FRAMES_LO R.FMAC_TX_FRAMES_HI 1 f).send
            (.neighbour f t (macOf f))
        else b1.inc R.FXP_PKT_DROP_CNT f
      | .advert t mac =>
        if t = router then b1.setFar { b1.far with router := SMap.set 0 b1.far.router f mac } else b1.inc R.FXP_PKT_DROP_CNT f))

/-- FAR_FRAME_DROP (R386, R409). -/
def execFarFrameDrop (f : Nat) (why : FarDrop) (s : State) : Host.Outcome State Fault Refusal :=
  cmd (decide (f < 2)) s (fun b =>
    let rx := fun (b : Blk) => b.add64 R.FMAC_RX_FRAMES_LO R.FMAC_RX_FRAMES_HI 1 f
    match why with
    | .other => (rx b).inc R.FXP_PKT_DROP_CNT f
    | .fcs => ((rx b).inc R.FXP_PKT_DROP_CNT f).inc R.FMAC_RX_BAD_CNT f
    | .pause => (rx b).inc R.FMAC_PAUSE_CNT f
    | .uncorrectable => b.inc R.FMAC_FEC_UNCORR_CNT f
    | .corrected n => b.add64 R.FMAC_FEC_CORR_LO R.FMAC_FEC_CORR_HI n f)

/-- FMAC_LINK_DOWN (R409, R499): `lanes` are those still locked. -/
def execFmacLinkDown (f lanes : Nat) (s : State) : Host.Outcome State Fault Refusal :=
  cmd (decide (f < 2) && decide (lanes < 15)) s (fun b =>
    let b1 := b.wr R.FMAC_STATUS_LANES lanes f
    if b.on R.FMAC_STATUS_LINK f then (b1.wr R.FMAC_STATUS_LINK 0 f).event .fmac 17 f else b1)

/-- FMAC_LINK_UP (R409). -/
def execFmacLinkUp (f : Nat) (s : State) : Host.Outcome State Fault Refusal :=
  cmd (decide (f < 2)) s (fun b => b.when (b.on R.FMAC_CTRL_EN f && !b.on R.FMAC_STATUS_LINK f) (fun b =>
    ((b.wr R.FMAC_STATUS_LANES 15 f).wr R.FMAC_STATUS_LINK 1 f).event .fmac 16 f))

end Sys2Proof.Machine
end

