-- ==== Sys2Proof/Machine/FarCoder.lean ====
section
/-! DEFINITION. The far coders' jobs (R377, R378) and the block commands of every coder (R364, R373, R376). -/

namespace Sys2Proof.Machine

def Blk.fjob (b : Blk) (f : Nat) : Option FJob := SMap.get none b.far.jobs f
def Blk.setFjob (b : Blk) (f : Nat) (j : Option FJob) : Blk := b.setFar { b.far with jobs := SMap.set none b.far.jobs f j }

/-- The class of a port's job streams: that of the last writer of FCOD_JOB_PUT (R377). -/
def Blk.fjobCls (b : Blk) (f : Nat) : Nat := SMap.get clsO b.far.jobCls f

def FJob.word (j : FJob) (k : Nat) : Nat := j.desc.getD k 0
def FJob.decode (j : FJob) : Bool := bit (j.word 0) 0
def FJob.ef (j : FJob) : Bool := bit (j.word 0) 1
def FJob.code (j : FJob) : CodeP := ⟨bits (j.word 0) 2 4, bits (j.word 0) 6 4, bits (j.word 0) 10 8⟩
def FJob.elems (j : FJob) : Nat := bits (j.word 0) 32 32
def FJob.src (j : FJob) : Nat := j.word 1
def FJob.dst (j : FJob) : Nat := j.word 2
def FJob.limit (j : FJob) : Nat := j.word 5

/-- The checks of a job (R377, R378). RES_IN and RES_OUT are words of a DECODE job or of one without EF that no rule reads. -/
def FJob.ok (j : FJob) : Bool :=
  let ef := j.ef && !j.decode
  let overlap := decide (j.word 3 < j.word 4 + 4 * j.elems) && decide (j.word 4 < j.word 3 + 4 * j.elems)
  bits (j.word 0) 18 14 == 0 && (List.range 4).all (fun k => decide (j.word (k + 1) < 2 ^ 48)) && decide (j.word 5 < 2 ^ 40) && decide (j.word 6 < 2 ^ 32) && bits (j.word 7) 56 7 == 0
    && j.code.ok && j.elems != 0 && !(j.ef && j.code.raw == 15) && !(ef && overlap)

/-- The ring slot of the job at the head. -/
def Blk.fjobVa (b : Blk) (f : Nat) : Nat :=
  b.rdAddr R.FCOD_JOB_BASE_LO R.FCOD_JOB_BASE_HI f + b.rd R.FCOD_JOB_GET f % 2 ^ b.rd R.FCOD_JOB_SIZE f * 64

/-- A far coder's leave request: F0's encoder 16 and decoder 17, F1's 18 and 19. -/
def fcodReq (f : Nat) (dec : Bool) : LvReq := .coder (16 + 2 * f + b2n dec)

/-- A job taken from the ring (R377): checked, then its first block asks for leave. One that cannot be read or is refused has ended. -/
def Blk.takeJob (b : Blk) (f : Nat) (dec : Bool) : Blk :=
  if !(b.serving .fcod f && (b.fjob f).isNone && b.rd R.FCOD_JOB_PUT f != b.rd R.FCOD_JOB_GET f) then b
  else match b.loadVa modXl (b.fjobCls f) none (b.fjobVa f) 64 with
    | (b1, .error e) => b1.setFjob f (some { desc := [], ended := some (e.cls, 0) })
    | (b1, .ok l) =>
      let j : FJob := { desc := (List.range 8).map (fun k => leNat ((l.drop (8 * k)).take 8)) }
      if j.decode != dec then b1
      else if !j.ok then b1.setFjob f (some { j with ended := some (eDenied, 0) })
      else (b1.setFjob f (some j)).lvAsk (fcodReq f dec)

/-- FCOD_ENCODE (R377, R509). -/
def execFcodEncode (f : Nat) (s : State) : Host.Outcome State Fault Refusal := cmd (decide (f < 2)) s (fun b => b.takeJob f false)

/-- FCOD_DECODE (R377, R509). -/
def execFcodDecode (f : Nat) (s : State) : Host.Outcome State Fault Refusal := cmd (decide (f < 2)) s (fun b => b.takeJob f true)

/-- The elements of a job's present block. -/
def FJob.count (j : FJob) : Nat := min j.code.perBlock (j.elems - j.next * j.code.perBlock)

/-- Little-endian elements of `w` bytes. -/
def jobElems (w n : Nat) (l : List Byte) : List Nat := (List.range n).map (fun k => leNat ((l.drop (w * k)).take w))

/-- A job after a block, which ends at `pos`: the next block asks for leave, or the job has ended. -/
def Blk.jobNext (b : Blk) (f : Nat) (j : FJob) (pos : Nat) : Blk :=
  let j1 := { j with next := j.next + 1, pos := pos, raw := j.raw + j.code.elemBytes * j.count }
  if j1.next * j1.code.perBlock < j1.elems then (b.setFjob f (some j1)).lvAsk (fcodReq f j.decode)
  else b.setFjob f (some { j1 with ended := some (0, 0) })

/-- Where the next block starts, after zero fill to 16 bytes (R377). -/
def round16 (n : Nat) : Nat := (n + 15) / 16 * 16

/-- A block of an ENCODE job (R364–R372, R377, R378): its residuals are written with it, before the next block. -/
def Blk.jobEncode (b : Blk) (f : Nat) (j : FJob) : Blk :=
  let stop := fun (b : Blk) (c : Nat) => b.setFjob f (some { j with ended := some (c, 0) })
  let cp := j.code
  let n := j.count
  let cls := b.fjobCls f
  let off := j.next * cp.perBlock
  match b.loadVa modXl cls none (j.src + cp.elemBytes * off) (cp.elemBytes * n) with
  | (b1, .error e) => stop b1 e.cls
  | (b1, .ok l) =>
    let rin : Blk × Except Fail (Option (List Nat)) :=
      if j.ef then (match b1.loadVa modXl cls none (j.word 3 + 4 * off) (4 * n) with
        | (b2, .ok r) => (b2, .ok (some (wordsOf n r)))
        | (b2, .error e) => (b2, .error e))
      else (b1, .ok none)
    match rin with
    | (b2, .error e) => stop b2 e.cls
    | (b2, .ok res) =>
      let qs := quantBlock cp (jobElems cp.elemBytes n l) res
      let c := encodeBlock cp (j.word 6 + j.next) (qs.map (·.sym))
      let start := round16 j.pos
      if j.limit < start + c.bytes.length then stop b2 eDenied
      else match b2.storeVa modXl cls none (j.dst + j.pos) (List.replicate (start - j.pos) 0 ++ c.bytes) with
        | (b3, some e) => stop b3 e.cls
        | (b3, none) =>
          let w := if j.ef then b3.storeVa modXl cls none (j.word 4 + 4 * off) (wordBytes (qs.map (fun (q : Quant) => q.res))) else (b3, none)
          match w with
          | (b4, some e) => stop b4 e.cls
          | (b4, none) => (b4.fcodCount f (cp.elemBytes * n) qs c).jobNext f j (start + c.bytes.length)

/-- A block decoded from a message of the receive store is noted, and the keeper's round may close (R400). -/
def Blk.noteDecoded (b : Blk) (va len : Nat) : Blk :=
  match b.far.recv.find? (fun m => decide (m.va ≤ va) && decide (va + len ≤ m.va + m.len)) with
  | some m => (b.setRecv { m with blocks := m.blocks ++ [(va - m.va, len)] }).closeCheck
  | none => b

/-- A damaged block ends a DECODE job (R374, R378, R381). -/
def Blk.jobDamaged (b : Blk) (f : Nat) (j : FJob) (e : Nat × Nat) : Blk :=
  let b1 := (b.error .fcod f { cls := eCodec, info0 := e.1 + 2 ^ 8 * e.2 + (j.word 6 + j.next) % 65536 * 2 ^ 16,
                               info1 := b.rd R.FCOD_JOB_GET f % 2 ^ b.rd R.FCOD_JOB_SIZE f }).inc R.FCOD_DAMAGED_CNT f
  (b1.event .fcod 16 f).setFjob f (some { j with ended := some (eCodec, e.1) })

/-- A block of a DECODE job (R373, R377, R378): the header first, then the bytes that it names. -/
def Blk.jobDecode (b : Blk) (f : Nat) (j : FJob) : Blk :=
  let stop := fun (b : Blk) (c : Nat) => b.setFjob f (some { j with ended := some (c, 0) })
  let cp := j.code
  let n := j.count
  let cls := b.fjobCls f
  let start := round16 j.pos
  let left := j.limit - start
  let idx := some ((j.word 6 + j.next) % 2 ^ 32)
  match b.loadVa modXl cls none (j.src + start) (min left 144) with
  | (b1, .error e) => stop b1 e.cls
  | (b1, .ok hd) =>
    let bad := match decodeBlock cp idx none (some left) hd with | .error (k, u) => if k ≤ 2 then some (k, u) else none | .ok _ => none
    match bad with
    | some e => b1.jobDamaged f j e
    | none =>
      let size := (if fieldAt hd 0 1 % 4 = 0 then 144 + 2 ^ cp.bits else 144) + fieldAt hd 8 4
      match b1.loadVa modXl cls none (j.src + start) size with
      | (b2, .error e) => stop b2 e.cls
      | (b2, .ok l) =>
        match decodeBlock cp idx none (some left) l with
        | .error e => b2.jobDamaged f j e
        | .ok (syms, len) =>
          if syms.length ≠ n then b2.jobDamaged f j (1, 0)
          else match b2.storeVa modXl cls none (j.dst + j.raw) ((rawOf cp syms).flatMap (natLe cp.elemBytes)) with
            | (b3, some e) => stop b3 e.cls
            | (b3, none) => (((b3.inc R.FCOD_DEC_CNT f).noteDecoded (j.src + start) len)).jobNext f j (start + len)

/-- A far coder's block, with its leave granted. -/
def Blk.farBlock (b : Blk) (f : Nat) (dec : Bool) : Blk :=
  match b.fjob f with
  | some j =>
    if j.ended.isSome || j.decode != dec || !b.lvGranted (fcodReq f dec) || !b.runsOn .fcod f then b
    else
      let b1 := b.lvDrop (fcodReq f dec)
      if dec then b1.jobDecode f j else b1.jobEncode f j
  | none => b

/-- A near coder's block, with its leave granted: the head of the port's queue. -/
def Blk.nearBlock (b : Blk) (p : Nat) (dec : Bool) : Blk :=
  let q := fun (b : Blk) => SMap.get [] (if dec then b.border.dec else b.border.enc) p
  let r : LvReq := .coder (2 * p + b2n dec)
  match q b with
  | [] => b
  | t :: _ =>
    if !b.lvGranted r || !b.runsOn .ncod p then b
    else
      let b1 := b.lvDrop r
      let b2 := if dec then b1.decodeTask p t else b1.encodeTask p t
      if q b2 = [] then b2 else b2.lvAsk r

/-- CODEC_BLOCK_ENCODE (R364–R372, R376): coders 0–7 are the near ports', 8 and 9 the far ports'. -/
def execCodecBlockEncode (c : Nat) (s : State) : Host.Outcome State Fault Refusal :=
  cmd (decide (c < 10)) s (fun b => if c < 8 then b.nearBlock c false else b.farBlock (c - 8) false)

/-- CODEC_BLOCK_DECODE (R373, R376). -/
def execCodecBlockDecode (c : Nat) (s : State) : Host.Outcome State Fault Refusal :=
  cmd (decide (c < 10)) s (fun b => if c < 8 then b.nearBlock c true else b.farBlock (c - 8) true)

/-- The end of a job (R378, R381): W7 is written last, then FCOD_JOB_GET advances. -/
def Blk.jobEnd (b : Blk) (f : Nat) (j : FJob) (c d : Nat) : Blk :=
  let w7 := j.pos + 2 ^ 40 * c + 2 ^ 48 * d + 2 ^ 63
  let o := b.storeVa modXl (b.fjobCls f) none (b.fjobVa f + 56) (natLe 8 w7)
  let ring := b.rd R.FCOD_JOB_GET f % 2 ^ b.rd R.FCOD_JOB_SIZE f
  let b1 := match o.2 with
    | none => o.1
    | some e => o.1.error .fcod f { cls := e.cls, info1 := ring, addr := if e.cls = eEcc then e.pa else e.va + 2 ^ 63 }
  let b2 := if c = 0 ∨ c = eCodec then b1 else b1.error .fcod f { cls := c, info1 := ring }
  let b3 := (((b2.setFjob f none).addW R.FCOD_JOB_GET 1 f).event .fcod 19 f)
  if c = 0 then b3 else b3.event .fcod 20 f

/-- FCOD_JOB_END (R378). -/
def execFcodJobEnd (f : Nat) (s : State) : Host.Outcome State Fault Refusal :=
  cmd (decide (f < 2)) s (fun b =>
    match b.fjob f with
    | some j => (match j.ended with | some e => b.jobEnd f j e.1 e.2 | none => b)
    | none => b)

/-- A forced isolation of a far coder page ends the job in hand with ACCESS_DENIED (R99). -/
def Blk.jobDeny (b : Blk) (f : Nat) : Blk :=
  match b.fjob f with
  | some j => b.jobEnd f j eDenied 0
  | none => b

/-- A block reset of a far coder page during a job (R379, R381): the job starts again from its first block. -/
def Blk.fcodReset (b : Blk) (f : Nat) : Blk :=
  ((b.lvDrop (fcodReq f false)).lvDrop (fcodReq f true)).setFjob f none

end Sys2Proof.Machine
end

