-- ==== Sys2Proof/Machine/Bulk.lean ====
section
/-! DEFINITION. Rakline's bulk channel (R466, R469–R471): transfers, export records, credits, and the frames that wait while the RAK page does not serve (R509). -/

namespace Sys2Proof.Machine

/-- A credit returned to the node (R466). -/
def Blk.rakCredit (b : Blk) (chan : Nat) : Blk := if b.rakUp then b.rakLink (.credit chan 1) else b

/-! ## Transfers (R466, R469–R471) -/

/-- Bytes that the replay buffer of 1 MiB holds: a frame is its payload and 36 bytes (R462, R464). -/
def Blk.rakHeld (b : Blk) : Nat := (b.rak.replay.map (fun x => x.msg.size + 36 * x.msg.frames)).foldl (· + ·) 0

/-- Whether a BULK frame may go now: a credit of the node, and room in the replay buffer for a full frame. -/
def Blk.bulkRoom (b : Blk) : Bool := b.rakUp && decide (0 < b.rak.bulkCred) && decide (b.rakHeld + 4132 ≤ 2 ^ 20)

/-- A BULK frame that may go. -/
def Blk.bulkSend (b : Blk) (m : RakMsg) : Blk := ({ b with rak := { b.rak with bulkCred := b.rak.bulkCred - 1 } }).rakSend 2 false m

/-- Frames that wait on BULK, in order. -/
def Blk.bulkDrain (b : Blk) : (fuel : Nat) → Blk
  | 0 => b
  | fuel + 1 =>
    match b.rak.bulkWait with
    | [] => b
    | m :: l => if b.bulkRoom then (({ b with rak := { b.rak with bulkWait := l } }).bulkSend m).bulkDrain fuel else b

/-- A BULK frame sent, or held without credit. -/
def Blk.bulkPut (b : Blk) (m : RakMsg) : Blk :=
  if b.rak.bulkWait = [] ∧ b.bulkRoom then b.bulkSend m else { b with rak := { b.rak with bulkWait := b.rak.bulkWait ++ [m] } }

/-- An open transfer, and the number of them in RAK_STATUS. -/
def Blk.bulkAt (b : Blk) (k : Nat) : Option Bulk := SMap.get none b.rak.bulk k
def Blk.setBulk (b : Blk) (k : Nat) (x : Option Bulk) : Blk :=
  let b1 := { b with rak := { b.rak with bulk := SMap.set none b.rak.bulk k x } }
  b1.wr R.RAK_STATUS_BULK_OPEN (b1.rak.bulk.filter (fun e => e.2.isSome)).length

/-- A transfer ends with its completion (R470). -/
def Blk.bulkEnd (b : Blk) (k cls moved : Nat) : Blk := (b.setBulk k none).bulkPut (.bulkEnd k cls moved)

/-- The module context number of a transfer (R469). -/
def bulkCtx (k : Nat) : Nat := 14832 + k

/-- The next data frame of a READ transfer (R469): it is read and sent, or the transfer ends at once with the class of what failed (R470). -/
def Blk.readFrame (b : Blk) (k : Nat) : Blk :=
  match b.bulkAt k with
  | some x =>
    if x.write ∨ x.len ≤ x.moved ∨ !b.bulkRoom then b
    else
      let n := min 4080 (x.len - x.moved)
      match b.loadVa modXl clsO (some (bulkCtx k)) (x.va + x.moved) n with
      | (b', .ok l) => (b'.setBulk k (some { x with moved := x.moved + n })).bulkSend (.bulkData k x.moved l)
      | (b', .error f) => b'.bulkEnd k f.cls x.moved
  | none => b

/-- The next frame of a unit's oldest export record, where one has begun (R471); with its last frame the record has left the ring (R291). -/
def Blk.expFrame (b : Blk) (n : Nat) : Blk :=
  match SMap.get none b.rak.expSent n, (b.bank n).expQ with
  | some off, r :: rest =>
    if !b.bulkRoom then b
    else
      let b1 := b.bulkSend (.exportData (r.drop off |>.take 4080))
      let next := fun (v : Option Nat) => { b1 with rak := { b1.rak with expSent := SMap.set none b1.rak.expSent n v } }
      if r.length ≤ off + 4080 then (next none).expSent n r rest else next (some (off + 4080))
  | _, _ => b

/-- What waits for BULK credits goes on (R471): held frames, then READ transfers and begun export records, frame by frame in round robin. -/
def Blk.bulkPump (b : Blk) : Blk :=
  (b.bulkDrain b.rak.bulkWait.length).each (List.range b.rak.bulkCred) (fun b _ =>
    if b.rak.bulkWait = [] ∧ b.bulkRoom then (b.each (List.range 16) Blk.readFrame).each (List.range 12) Blk.expFrame else b)

/-- Whether a virtual address maps into the register window (R470), with the walk that finds it. -/
def Blk.bulkReg (b : Blk) (write : Bool) (va : Nat) : Blk × Bool :=
  match b.xlate1 modXl clsO write va with
  | (b', .bad c d e a) => (b'.ueOf { cls := c, pa := a } clsO none, c == eXlate && d == 0x04 && region (pteAddr e) == .reg)
  | (b', .ok ..) => (b', false)

/-- A BULK command taken (R469, R470): it opens a transfer, or is answered with ACCESS_DENIED. -/
def Blk.bulkOpen (b : Blk) (write : Bool) (k va len : Nat) : Blk :=
  let o := b.bulkReg write va
  if 16 ≤ k ∨ len = 0 ∨ 2 ^ 40 < len ∨ (b.bulkAt k).isSome ∨ o.2 then (o.1.bulkPut (.bulkEnd k eDenied 0)).rakCredit 2
  else ((o.1.setBulk k (some ⟨write, va, len, 0⟩)).rakCredit 2).bulkPump

/-- A data frame of a WRITE transfer, in ascending offset: written, or the transfer ends at once with the class of what failed (R470). -/
def Blk.bulkIn (b : Blk) (k off : Nat) (data : List Byte) : Blk :=
  match b.bulkAt k with
  | some x =>
    if !x.write ∨ x.moved ≠ off ∨ x.len < off + data.length then b
    else match b.storeVa modXl clsO (some (bulkCtx k)) (x.va + off) data with
      | (b', none) => b'.setBulk k (some { x with moved := off + data.length })
      | (b', some f) => b'.bulkEnd k f.cls off
  | none => b


/-! ## Frames that wait for the page (R509) -/

/-- A BULK frame taken: a command, or data. -/
def Blk.bulkTake (b : Blk) : BulkIn → Blk
  | .start write k va len => b.bulkOpen write k va len
  | .data k off bytes => (b.bulkIn k off bytes).rakCredit 2

/-- Whether a frame waits (R98, R509): a command while the RAK page is not in SERVING, and data of a transfer whose command waits. Nothing overtakes a command. -/
def Blk.bulkHolds (b : Blk) : BulkIn → Bool
  | .start .. => !b.serving .rak || !b.rak.bulkHeld.isEmpty
  | .data k .. => b.rak.bulkHeld.any (fun m => match m with | .start _ j _ _ => j == k | .data .. => false)

/-- A BULK frame from the node, taken or held. -/
def Blk.bulkFrame (b : Blk) (m : BulkIn) : Blk :=
  if b.bulkHolds m then { b with rak := { b.rak with bulkHeld := b.rak.bulkHeld ++ [m] } } else b.bulkTake m

/-- The frames that waited are taken in order once the page serves. -/
def Blk.bulkRelease (b : Blk) : Blk := ({ b with rak := { b.rak with bulkHeld := [] } }).each b.rak.bulkHeld Blk.bulkTake

end Sys2Proof.Machine
end

