-- ==== Sys2Proof/Machine/Pages.lean ====
section
/-! DEFINITION. Pages as blocks: where a register's fields lie, the states and transitions of R97–R102, the work that a block holds, what a failed block does to
the module (R45, R449), and the spares (R450, R451). -/

namespace Sys2Proof.Machine

/-! ## Where registers lie (R84, R86) -/

/-- The repeat of an indexed field that lies at an offset. -/
def Fld.resolve (f : Fld) (off : Nat) : Option Fld :=
  if off < f.off then none
  else
    let d := off - f.off
    if f.stride = 0 then (if d = 0 then some f else none)
    else if f.stride2 = 0 then (if d % f.stride = 0 ∧ d / f.stride < f.cnt then some (f.at (d / f.stride)) else none)
    else
      let r := d % f.stride
      if d / f.stride < f.cnt ∧ r % f.stride2 = 0 ∧ r / f.stride2 < f.cnt2 then some (f.at2 (d / f.stride) (r / f.stride2)) else none

/-- The fields of the register at an offset of a page; none above the last register and in reserved places. The firmware fault queue is group 0's (R459). -/
def pageFields (p : Page) (i off : Nat) : List Fld :=
  if off < 0x040 then (headerFields p).filter (fun f => f.off == off)
  else if p = .hoop ∧ off < 0x050 then (List.range 8).map (fun k => coreGroupFld (8 * ((off - 0x040) / 4) + k))
  else if p = .hoopg ∧ i ≠ 0 ∧ 0x080 ≤ off ∧ off < 0x098 then []
  else (bodyFields p).filterMap (fun f => f.resolve off)

/-- A page type from its number. -/
def pageOfIdx (k : Nat) : Option Page :=
  [Page.mod, .lid, .pwc, .beat, .boot, .tel, .loss, .dig, .hoop, .hoopg, .hbm, .bank, .slow, .nlnk, .nred, .ncod, .nkey, .rak, .mgmt, .xlt, .fmac, .fxp,
    .fcod, .fkey, .die, .d2d, .wale, .sched, .row, .wxlt, .sum, .stake][k]?

/-- The page number, instance, offset and low bit in a key of the register store (`Fld.key`). -/
def keyPage (k : Nat) : Nat := k / 131072 / 8192
def keyInst (k : Nat) : Nat := k / 131072 % 8192
def keyOff (k : Nat) : Nat := k / 32 % 4096
def keyLo (k : Nat) : Nat := k % 32

/-- Whether a field at an offset has one home for all instances. -/
def sharedAt (p : Page) (off lo : Nat) : Bool := (bodyFields p).any (fun f => f.shared && f.lo == lo && (f.resolve off).isSome)

/-- Whether a field at an offset has one of the given access types. -/
def accAt (p : Page) (off lo : Nat) (l : List Acc) : Bool := (bodyFields p).any (fun f => f.lo == lo && l.contains f.acc && (f.resolve off).isSome)

/-- The fields of a page back at their reset values, but for those kept (by offset and low bit). A shared field is every instance's (R359). -/
def Blk.dropRegs (b : Blk) (p : Page) (i : Nat) (keep : Nat → Nat → Bool) : Blk :=
  let mine := fun k => keyPage k == p.idx && (keyInst k == i || sharedAt p (keyOff k) (keyLo k))
  { b with regs := b.regs.filter (fun e => !mine e.1 || keep (keyOff e.1) (keyLo e.1)) }

/-- The pages of a wale (R105). -/
def walePages (w : Nat) : List (Page × Nat) :=
  [(.wale, w), (.sched, w), (.row, w), (.wxlt, w), (.sum, w)] ++ (List.range 32).map (fun j => (Page.stake, 32 * w + j))

/-- The wale that a page belongs to. -/
def pageWale : Page → Nat → Option Nat
  | .wale, i | .sched, i | .row, i | .wxlt, i | .sum, i => some i
  | .stake, i => some (i / 32)
  | _, _ => none

/-- The pages in a state, as page and instance. -/
def Blk.pagesIn (b : Blk) (st : Nat) : List (Page × Nat) :=
  (b.regs.filter (fun e => keyOff e.1 == 0x010 && keyLo e.1 == 0 && e.2 == st)).filterMap
    (fun e => (pageOfIdx (keyPage e.1)).map (fun p => (p, keyInst e.1)))

/-! ## The work of a wale's pages (R164, R174, R210, R221, R229, R251, R262) -/

/-- Operations end with ACCESS_DENIED (R101). -/
def Blk.denyOps (b : Blk) (l : List QOp) : Blk := b.each l (fun b op => b.post op eDenied)

/-- An operation whose slot and scoreboard entry its issuer has lost. -/
def QOp.dead (ss : List Nat) (op : QOp) : QOp := if ss.contains op.tid.stake then { op with live := false } else op

/-- The operations of some stakes in a wale's queues, engines and streams lose their slots (R164). -/
def Blk.deadOps (b : Blk) (w : Nat) (ss : List Nat) : Blk :=
  let x := b.wale w
  let b1 := b.setWale w { x with rowQ := x.rowQ.map (·.dead ss), dmaQ := x.dmaQ.map (·.dead ss), sumQ := x.sumQ.map (·.dead ss),
                                 row := x.row.map (fun r => { r with op := r.op.dead ss }), sum := x.sum.map (fun r => { r with op := r.op.dead ss }) }
  { b1 with streams := b1.streams.map (fun e => (e.1, e.2.map (fun y => match y.orig with
      | .op q => { y with orig := Origin.op (q.dead ss) }
      | _ => y))) }

/-- A unit leaves suspension without a command: its record that waits is withdrawn (R262). -/
def Blk.forget (b : Blk) (kind unit : Nat) : Blk := (b.unsusp kind unit).unhold kind unit

/-- A stake's threads end in IDLE and its engines are emptied (R164), at an isolation (`keep`) or a block reset. -/
def Blk.stakeReset (b : Blk) (s : Nat) (keep : Bool := false) : Blk :=
  let b1 := b.deadOps (s / 32) [s]
  let b2 := b1.each (List.range 8) (fun b t => b.setThread ⟨s, t⟩ ((b.thread ⟨s, t⟩).ended keep))
  let b3 := ((b2.forget 2 s).forget 3 s).matReset s
  b3.setStake s {}

/-- The row engine's operation and queue end with ACCESS_DENIED (R229). -/
def Blk.rowReset (b : Blk) (w : Nat) : Blk :=
  let x := b.wale w
  let ops := (x.row.map (fun r => r.op)).toList ++ x.rowQ
  ((((b.setWale w { x with row := none, rowQ := [] }).rowShow w false false none).forget 4 w).lvDrop (.row w)).denyOps ops

/-- The summary unit's operation and queue end with ACCESS_DENIED; slots and FIFO are empty (R165, R174). -/
def Blk.sumReset (b : Blk) (w : Nat) : Blk :=
  let x := b.wale w
  let ops := (x.sum.map (fun r => r.op)).toList ++ x.sumQ
  (b.setWale w { x with sum := none, sumQ := [], slots := [], post := [] }).denyOps ops

/-- The wale's streams and DMA queue end with ACCESS_DENIED, and its translation cache is empty (R101, R262). -/
def Blk.wxltReset (b : Blk) (w : Nat) : Blk :=
  let cs := (List.range 64).map (64 * w + ·)
  let ops := cs.filterMap (fun c => (b.stream c).bind (fun y => match y.orig with | .op q => some q | _ => none)) ++ (b.wale w).dmaQ
  let b1 := b.setWale w { b.wale w with dmaQ := [] }
  let b2 := b1.each cs (fun b c => if (b.stream c).isSome then ((b.setStream c none).forget 1 c).lvDrop (.dma c) else b)
  let b3 := b2.setXl w {}
  ({ b3 with xlt := { b3.xlt with walks := b3.xlt.walks.filter (fun x => x.unit != w) } }).denyOps ops

/-- The scheduler's unit, barriers and counts go; GET takes the value of PUT (R164). -/
def Blk.schedReset (b : Blk) (w : Nat) : Blk :=
  let b1 := b.each (b.members w) (fun b t => b.setThread t { b.thread t with member := false })
  let b2 := b1.setWale w { b1.wale w with bars := [], ovMode := none, unitBeat := 0 }
  let b3 := (b2.wr R.SCHED_WL_GET (b2.rd R.SCHED_WL_PUT w) w).wr R.SCHED_LAG 0 w
  ((((b3.wr R.SCHED_OVERRUN_CNT 0 w).wr R.SCHED_WL_EMPTY_CNT 0 w).wr R.SCHED_WL_BAD_CNT 0 w).wr R.SCHED_CREDIT_TO_CNT 0 w)

/-- Everything a wale holds is discarded (R164, R262): threads end in IDLE, queues, scoreboard, slots, barriers, summaries, streams and contexts go. -/
def Blk.waleDrop (b : Blk) (w : Nat) (keep : Bool := false) : Blk :=
  let ss := (List.range 32).map (32 * w + ·)
  let b1 := (((b.deadOps w ss).rowReset w).sumReset w).wxltReset w
  (b1.each ss (fun b s => b.stakeReset s keep)).schedReset w

/-- Stake SRAM, wale SRAM and side memory of a wale written with zeros (R233, R442). -/
def Blk.waleZero (b : Blk) (w : Nat) : Blk :=
  (b.zeroRange (waleWin w) 0x90_0000).each (List.range 32) (fun b j => b.zeroRange (stakeWin (32 * w + j)) 0x4_0000)

/-! ## Whether a block is drained (R97) -/

/-- Whether every piece of work that a block has accepted is complete. -/
def Blk.idleAt (b : Blk) : Page → Nat → Bool
  | .stake, s => (b.stake s).matQ.isEmpty && (b.stake s).vecQ.isEmpty && (b.stake s).mat.isNone && (b.stake s).vec.isNone
  | .row, w => (b.wale w).rowQ.isEmpty && (b.wale w).row.isNone
  | .sum, w => (b.wale w).sumQ.isEmpty && (b.wale w).sum.isNone
  | .wxlt, w => (b.wale w).dmaQ.isEmpty && (List.range 64).all (fun k => (b.stream (64 * w + k)).isNone)
  | .sched, w => (b.members w).isEmpty
  | .wale, w => (b.members w).isEmpty && (b.wale w).rowQ.isEmpty && (b.wale w).row.isNone && (b.wale w).sumQ.isEmpty && (b.wale w).sum.isNone
      && (b.wale w).dmaQ.isEmpty && (List.range 64).all (fun k => (b.stream (64 * w + k)).isNone)
      && (List.range 32).all (fun j => (b.stake (32 * w + j)).matQ.isEmpty && (b.stake (32 * w + j)).vecQ.isEmpty
          && (b.stake (32 * w + j)).mat.isNone && (b.stake (32 * w + j)).vec.isNone)
  | .bank, n => (b.bank n).desc.isNone
  | .nlnk, p => (b.nport p).replay.isEmpty && (b.nport p).queue.isEmpty
  | .nred, p => b.border.buckets.all (fun x => !x.ports.contains p) && b.border.openWait.all (fun e => e.1 != p) && b.border.held.all (fun e => e.1 != p)
      && b.border.slots.all (fun e => e.port != p) && b.border.hoHeld.all (fun e => e.port != p) && b.border.gwait.isEmpty && b.border.gexp.isEmpty
      && b.border.xch.isEmpty
  | .dig, _ => b.dig.cmps.isEmpty && b.dig.fetch.isEmpty && b.dig.serve.isEmpty
  | .loss, _ => b.lossQ.isEmpty
  | .xlt, _ => !b.on R.XLT_INVAL_STATUS_BUSY
  | .ncod, p => (SMap.get [] b.border.enc p).isEmpty && (SMap.get [] b.border.dec p).isEmpty
  | .fcod, f => (b.fjob f).isNone
  | .fxp, _ => b.far.peers.all (fun e => e.2.sent.isEmpty && e.2.queue.isEmpty)
  | .hoopg, g => b.streams.all (fun e => match e.2 with | some y => (match y.orig with | .hoop h _ => h != g | _ => true) | none => true)
  | .rak, _ => b.rak.bulk.all (fun e => e.2.isNone) && b.rak.bulkWait.isEmpty
  | _, _ => true

/-! ## SAFE (R45, R46) -/

/-- A Rakline session ends (R465, R474, R475): open transfers end, frames in flight are lost. -/
def Blk.rakEnd (b : Blk) : Blk :=
  let up := b.rakUp
  let b1 := { b with rak := {} }
  let b2 := (b1.wr R.RAK_STATUS_SESSION 0).wr R.RAK_STATUS_BULK_OPEN 0
  if up then b2.event .rak 19 else b2

/-- Whether a page grants O write in OWNED (R105, R511). -/
def oWrites (p : Page) (i : Nat) : Bool := ownedAccess p i &&& 2 != 0

/-- Claim window closed, service token and consent void: what a change of ownership state and a lid reset do (R47, R508). -/
def Blk.lidVoid (b : Blk) : Blk :=
  { (b.wr R.LID_CLAIM_ARM 0).wr R.LID_CLAIM_LEFT 0 with lid := { b.lid with svcToken := none, svcConsent := false } }

/-- A page that serves begins to drain. -/
def Blk.quiesce (b : Blk) (p : Page) (i : Nat) : Blk :=
  let b1 := b.wr (R.PG_CTRL_QUIESCE_REQ p) 1 i
  if b1.serving p i then b1.setSt p i sQuiescing else b1

/-- FXP sessions end and none is established (R45). -/
def Blk.farClose (b : Blk) : Blk := (b.each (List.range 8) (fun b s => b.wr (R.FKEY_PEER_SESSION.at s) 0)).sessionsEnd

/-- The module enters SAFE (R45): Rakline and every O and S path close, FXP sessions end, the owner's blocks drain; nothing is zeroised, and a zeroisation in
progress stops with its marker in flash. -/
def Blk.toSafe (b : Blk) : Blk :=
  if b.own = 3 then b
  else
    let b1 := ((b.rakEnd.lidVoid).wr R.LID_OWN_STATE_STATE 3).wr R.BOOT_STATUS_PHASE 5
    let b2 := ({ b1 with lid := { b1.lid with zero := none } }).wr R.LID_ZERO_STATUS_STEP 0
    ((b2.farClose).each ((b2.pagesIn sServing).filter (fun x => oWrites x.1 x.2)) (fun b x => b.quiesce x.1 x.2)).stateEvents

/-! ## The repair map and spares (R448–R451) -/

/-- The ports of a kind that stand FAILED, as a mask. -/
def Blk.failedPorts (b : Blk) (far : Bool) : Nat :=
  let bad := fun k => if far then b.st .fmac k == sFailed || b.st .fxp k == sFailed || b.st .fcod k == sFailed || b.st .fkey k == sFailed
    else b.st .nlnk k == sFailed || b.st .nred k == sFailed || b.st .ncod k == sFailed || b.st .nkey k == sFailed
  maskOf ((List.range (if far then 2 else 8)).filter bad)

/-- One copy of the repair map replaced, with a tag that verifies. -/
def Flash.withMap (f : Flash) (first : Bool) (m : RepairMap) : Flash :=
  if first then { f with repairA := some m, badTags := f.badTags.filter (· != .mapA) }
  else { f with repairB := some m, badTags := f.badTags.filter (· != .mapB) }

/-- The lid writes the copy with the older sequence (R448). -/
def Blk.mapWrite (b : Blk) (valid : Bool) (tested : Nat) : Blk :=
  let old := b.flash.map
  let m : RepairMap := { seq := (match old with | some x => x.seq + 1 | none => 1), boots := b.flash.boots, valid := valid,
                         roles := (List.range 200).foldl (fun m w => SMap.set (b.flash.cfgRole w) m w (b.role w)) [],
                         failedNear := b.failedPorts false, failedFar := b.failedPorts true, tested := tested }
  let newA := match b.flash.repairA, b.flash.repairB with
    | some a, some c => decide (a.seq < c.seq)
    | some _, none => false
    | none, _ => true
  { b with flash := b.flash.withMap newA m }

/-- The wales of a die that are enabled (R10, R450). -/
def Blk.dieWales (b : Blk) (d : Nat) : List Nat := ((List.range 50).map (50 * d + ·)).filter b.waleOn

/-- A page's CTRL as the boot sequencer writes it, and its RESET (R443); a die-to-die link trains meanwhile (R41). -/
def Blk.bringUp (b : Blk) (isolate : Bool) (p : Page) (i : Nat) : Blk :=
  let b1 := ((b.wr (R.PG_CTRL_ENABLE p) 1 i).wr (R.PG_CTRL_QUIESCE_REQ p) 1 i).wr (R.PG_CTRL_ISOLATE p) (b2n isolate) i
  (if p = .d2d then b1.wr R.D2D_STATUS_LINK 1 i else b1).setSt p i sReset

/-- Whether a wale's die has had its wale initialisation (R442). -/
def Blk.waleInitDone (b : Blk) (d : Nat) : Bool := b.boot.steps.any (fun x => x.row == 5 && x.unit == d && x.st == 2)

/-- A die's lower unused spare (R451). -/
def Blk.nextSpare (b : Blk) (d : Nat) : Option Nat := ((List.range 50).map (50 * d + ·)).find? (fun k => b.role k == 1)

/-- A spare takes a retired wale's place; it initialises where its die's wales have (R451). -/
def Blk.spareIn (b : Blk) (k : Nat) : Blk :=
  let c := b.wr R.WALE_STATUS_ROLE 2 k
  if c.waleInitDone (k / 50) then
    let c1 : Blk := { c with boot := { c.boot with spareInit := c.boot.spareInit ++ [k] } }
    c1.each (walePages k) (fun b x => b.bringUp false x.1 x.2)
  else c

/-- What the newest repair map says was tested last. -/
def Flash.tested (f : Flash) : Nat := match f.map with | some m => m.tested | none => 0

/-- A wale is retired, and its die's lower unused spare replaces it (R450, R451): the repair map is written, and the spare initialises; SAFE where fewer than 48
wales are left. -/
def Blk.retireWale (b : Blk) (w : Nat) : Blk :=
  if b.role w = 3 then b
  else
    let b1 := ((b.waleDrop w).wr R.WALE_STATUS_ROLE 3 w).setSt .wale w sFailed
    let b2 := (b1.event .wale 17 w).event .boot 18
    let b3 := match if b.role w == 1 then none else b2.nextSpare (w / 50) with
      | none => b2
      | some k => b2.spareIn k
    let b4 := b3.mapWrite false b3.flash.tested
    if (b4.dieWales (w / 50)).length < 48 then b4.toSafe else b4

/-! ## Tests (R102, R445, R446) -/

/-- The page that stands for a block of a test kind; the border core has none. -/
def testPage (kind inst : Nat) : Option (Page × Nat) :=
  match kind with
  | 0 => some (.wale, inst) | 1 => some (.nlnk, inst) | 2 => some (.fmac, inst) | 3 => some (.die, inst)
  | 4 => some (if inst < 8 then (.ncod, inst) else (.fcod, inst - 8)) | 5 => some (.bank, inst) | 6 => some (.hoop, 0)
  | _ => none

/-- A block reset ends the test that runs on its page, without a result (R102); in a shutdown the block then counts as done and untested (R445). -/
def Blk.testDrop (b : Blk) (p : Page) (i : Nat) : Blk :=
  let mine := fun (kind inst : Nat) => testPage kind inst == some (p, i)
  let b1 := { b with boot := { b.boot with
    tests := b.boot.tests.filter (fun t => !mine t.kind t.inst)
    shutOk := b.boot.shutOk && !b.boot.shut.any (fun x => x.st == 1 && mine x.kind x.inst)
    shut := b.boot.shut.map (fun x => if x.st = 1 ∧ mine x.kind x.inst then { x with st := 2 } else x) } }
  if b1.rd R.BOOT_BIST_STATUS_STATE = 1 ∧ mine (b1.rd R.BOOT_BIST_STATUS_KIND) (b1.rd R.BOOT_BIST_STATUS_INSTANCE) then b1.wr R.BOOT_BIST_STATUS_STATE 0 else b1

/-! ## Failure (R97, R127, R449) -/

/-- A block enters FAILED, with the outcome of R449. -/
def Blk.failBlock (b : Blk) (p : Page) (i : Nat) : Blk :=
  let b1 := b.setSt p i sFailed
  match p with
  | .wale | .sched | .row | .wxlt | .sum => b1.retireWale i
  | .stake => b1.retireWale (i / 32)
  | .nlnk => b1.linkDown i lkDown
  | .fmac => (b1.wr R.FMAC_STATUS_LINK 0 i).wr R.FMAC_STATUS_LANES 0 i
  | .lid => ({ b1 with lid := { b1.lid with works := false } }).toSafe
  | .die | .d2d | .hbm | .bank | .slow | .hoop | .hoopg | .pwc => b1.toSafe
  | _ => b1

/-! ## The transitions of R97 -/

/-- What a block that has initialised shows: training, locks, presence; a far exchange that is enabled establishes its sessions (R39, R40, R266, R389). -/
def Blk.initShow (b : Blk) (p : Page) (i : Nat) : Blk :=
  match p with
  | .hbm => (b.wr R.HBM_STATUS_TRAINED 1 i).wr R.HBM_STATUS_SELF_REFRESH 0 i
  | .slow => (b.wr R.SLOW_STATUS_TRAINED 1 i).wr R.SLOW_STATUS_SELF_REFRESH 0 i
  | .die => ((b.wr R.DIE_STATUS_ARITH_LOCK 1 i).wr R.DIE_STATUS_MESH_LOCK 1 i).wr R.DIE_STATUS_SRAM_LOCK 1 i
  | .d2d => b.wr R.D2D_STATUS_LINK 2 i
  | .fxp => if b.on R.FXP_CTRL_EN && b.own != 3 then b.fxpStart else b
  | .wale => (b.waleZero i).wr R.SCHED_WL_GET (b.rd R.SCHED_WL_PUT i) i
  | .row => b.wr R.ROW_SIDE_CLR_BUSY_CLR 0 i
  | _ => b

/-- What entering SERVING sets going: a near port whose TRAIN is 1 trains (R325, R505); OPENs and BULK frames that waited for the page are taken (R98, R340, R509). -/
def Blk.resume (b : Blk) (p : Page) (i : Nat) : Blk :=
  match p with
  | .nlnk => if b.on R.NLNK_CTRL_TRAIN i ∧ b.link i = lkDown ∧ (b.nport i).step = 0 then b.trainStart i else b
  | .nred => b.openDrain
  | .rak => b.bulkRelease
  | _ => b

/-- A block in RESET that has initialised goes where its PG_CTRL says (R97). -/
def Blk.leaveReset (b : Blk) (p : Page) (i : Nat) : Blk :=
  if b.st p i ≠ sReset then b
  else
    let b1 := b.initShow p i
    if !b1.on (R.PG_CTRL_ENABLE p) i then b1.setSt p i sOff
    else if b1.on (R.PG_CTRL_ISOLATE p) i then (b1.wr (R.PG_STATE_FORCED p) 0 i).setSt p i sIsolated
    else if b1.on (R.PG_CTRL_QUIESCE_REQ p) i then b1.setSt p i sReady
    else (b1.setSt p i sServing).resume p i

/-- The end of a block's initialisation; a wale's covers every page of the wale, and a spare that replaces a retired wale sets SPARE_READY (R451, R505). -/
def Blk.initDone (b : Blk) (p : Page) (i : Nat) : Blk :=
  if b.st p i ≠ sReset then b
  else if p = .wale then
    let b1 := b.each (walePages i) (fun b x => b.leaveReset x.1 x.2)
    if b1.boot.spareInit.contains i then ({ b1 with boot := { b1.boot with spareInit := b1.boot.spareInit.erase i } }).event .wale 18 i else b1
  else b.leaveReset p i

/-- What a block discards on entering ISOLATED (R100, R164): a wale's threads end and its queues go. FORCED then keeps its value until the next entry to ISOLATED or a
reset (log entry 50). -/
def Blk.isolated (b : Blk) (p : Page) (i : Nat) (forced : Bool) : Blk :=
  let b1 := if p = .wale then b.waleDrop i true else b
  (b1.wr (R.PG_STATE_FORCED p) (b2n forced) i).setSt p i sIsolated

/-- A quiescing block has drained (R97). -/
def Blk.drainedTo (b : Blk) (p : Page) (i : Nat) : Blk :=
  if b.st p i ≠ sQuiescing then b
  else if b.on (R.PG_CTRL_ISOLATE p) i then b.isolated p i false
  else if !b.on (R.PG_CTRL_ENABLE p) i then b.setSt p i sOff
  else if b.on (R.PG_CTRL_QUIESCE_REQ p) i then b.setSt p i sReady
  else b.setSt p i sServing

/-- The state machine after PG_CTRL has been written (R97, R102). A block in QUIESCING returns to SERVING at any write that leaves ENABLE 1, ISOLATE 0 and
QUIESCE_REQ 0, whichever of the three the write has changed (log entry 49). -/
def Blk.ctrlStep (b : Blk) (p : Page) (i : Nat) : Blk :=
  let en := b.on (R.PG_CTRL_ENABLE p) i
  let q := b.on (R.PG_CTRL_QUIESCE_REQ p) i
  let iso := b.on (R.PG_CTRL_ISOLATE p) i
  match b.st p i with
  | 0 => if en then b.setSt p i sReset else b
  | 2 => if !en || iso then b.setSt p i sQuiescing else if !q then (b.setSt p i sServing).resume p i else b
  | 3 => if !en || iso || q then b.setSt p i sQuiescing else b
  | 4 => if en && !iso && !q then (b.setSt p i sServing).resume p i else b
  | 5 =>
    if iso then b
    else if p = .wale then b.each (walePages i) (fun b x => if b.st x.1 x.2 == sOff then b else b.setSt x.1 x.2 sReset)
    else b.setSt p i sReset
  | _ => b

end Sys2Proof.Machine
end

