-- ==== Sys2Proof/Machine/Resets.lean ====
section
/-! DEFINITION. The resets of R437: block reset (R88, R101), warm reset (R437–R439), cold reset (R437, R492), and zeroisation (R76, R77, R511). -/

namespace Sys2Proof.Machine

/-! ## Boot bookkeeping shared with the sequencer (R442, R443) -/

/-- The running and the held power of a step's unit in W, by its row in the table of R442. -/
def stepRun (row : Nat) : Nat := [35, 30, 60, 70, 14, 80, 10, 15, 20].getD row 0
def stepHeld (row : Nat) : Nat := [5, 5, 20, 0, 0, 15, 0, 10, 10].getD row 0

/-- The running power of a test of a block of the given kind (R442, R445; log entry 40): a wale 14 W, a die 70 W, a port 10 W, other blocks not charged. -/
def testRun (kind : Nat) : Nat := [14, 10, 10, 70, 0, 0, 0, 0].getD kind 0

/-- What the sequencer charges now (R442): 150 W for the base blocks once they have started, the running and the completed steps, and the tests of a shutdown. -/
def Blk.bootUsed (b : Blk) : Nat :=
  if b.boot.stage < 5 then 0
  else 150 + (b.boot.steps.map (fun x => if x.st = 1 then stepRun x.row else if x.st = 2 then stepHeld x.row else 0)).foldl (· + ·) 0
    + (b.boot.shut.map (fun x => if x.st = 1 then testRun x.kind else 0)).foldl (· + ·) 0

/-- BOOT_STATUS.PHASE as the module stands: SHUT is kept; otherwise SHUTTING, SAFE, BASE, READY or SEQUENCING. -/
def Blk.phaseNow (b : Blk) : Nat :=
  if b.rd R.BOOT_STATUS_PHASE = 4 then 4
  else if !b.boot.shut.isEmpty then 3
  else if b.own = 3 then 5
  else if b.boot.stage < 5 ∨ b.boot.inWarm then 0
  else if b.boot.steps.all (fun x => x.st == 2) then 2 else 1

/-- BOOT_STATUS.PHASE and BOOT_USED shown. -/
def Blk.bootShow (b : Blk) : Blk := ((b.wr R.BOOT_STATUS_PHASE b.phaseNow).wr R.BOOT_USED b.bootUsed).stateEvents

/-! ## Block reset (R101) -/

/-- The body fields that a block reset of a page leaves as they are, by offset and low bit: those whose Meaning or page body says so, and those that show state
outside the block. -/
def resetKeeps (p : Page) (off lo : Nat) : Bool :=
  match p with
  | .mod => off == 0x044
  | .lid => [0x044, 0x07C, 0x084].contains off
  | .pwc => (off == 0x040 && lo != 2) || off == 0x05C || (decide (0x080 ≤ off) && decide (off < 0x0C0) && off % 16 == 0 && lo == 8)
  | .beat => decide (0x050 ≤ off)
  | .boot => off != 0x040 && off != 0x060
  | .tel => [0x040, 0x048, 0x04C, 0x058, 0x05C, 0x060, 0x064, 0x068, 0x06C, 0x070].contains off
  | .mgmt => off == 0x040
  | .bank => (decide (0x040 ≤ off) && decide (off ≤ 0x050)) || off == 0x060 || (decide (0x078 ≤ off) && decide (off ≤ 0x08C)) || decide (0x800 ≤ off)
  | .nred => off == 0x06C || (off == 0x070 && lo == 1) || (off == 0x07C && lo == 8)
  | .ncod => off == 0x044 || off == 0x048 || (decide (0x04C ≤ off) && decide (off ≤ 0x07C))
  | .fcod => (decide (0x050 ≤ off) && decide (off ≤ 0x07C)) || (decide (0x080 ≤ off) && decide (off ≤ 0x090))
  | .fxp => accAt .fxp off lo [.rwl] || off == 0x08C
  | .nkey => off == 0x04C
  | .fkey => decide (0x080 ≤ off) && decide (off < 0x100) && off % 16 == 0
  | .xlt => [0x040, 0x044, 0x048, 0x05C, 0x060, 0x064, 0x068, 0x06C, 0x070, 0x078, 0x07C, 0x080].contains off || (off == 0x058 && lo == 16)
  | .hoopg => off == 0x094
  | .d2d => off == 0x040 && lo == 8
  | .wale => off == 0x040 && lo == 0
  | .sched => off == 0x040 || off == 0x044 || off == 0x048 || (off == 0x068 && lo == 8)
  | .row => off == 0x04C || off == 0x050
  | _ => false

/-- The pages whose PG_LOCK a block reset keeps (R88). -/
def lockKept (p : Page) : Bool := p == .bank || p == .xlt || p == .ncod || p == .fcod || p == .fxp

/-- What a block reset keeps of a page, header included (R88, R101). -/
def blockKeep (p : Page) (off lo : Nat) : Bool :=
  if off < 0x040 then (off == 0x00C && lo != 3) || off == 0x018 || off == 0x034 || off == 0x038 || (off == 0x030 && lockKept p)
  else resetKeeps p off lo

/-- A near port's buckets lose what came through it, and miss their deadlines (R337, R343); its slots and coder work go. -/
def Blk.nredDrop (b : Blk) (p : Nat) : Blk :=
  let b1 := b.setBorder { b.border with
    buckets := b.border.buckets.map (fun x => if x.ports.contains p then { x with ports := x.ports.filter (· != p), vals := [], inBlocks := [] } else x)
    openWait := b.border.openWait.filter (fun e => e.1 != p), held := b.border.held.filter (fun e => e.1 != p)
    slots := b.border.slots.filter (fun e => e.port != p), hoHeld := b.border.hoHeld.filter (fun e => e.port != p),
    owed := SMap.set 0 b.border.owed p 0 }
  b1

/-- Work in rings that a forced isolation ends (R99): an apply descriptor as a refused one ends (log entry 62), a far coder's job with its class in W7. A block reset
leaves both in their rings, where they start again (R276, R379). -/
def Blk.denyRings (b : Blk) (p : Page) (i : Nat) : Blk :=
  match p with
  | .bank => if (b.bank i).desc.isSome then b.bankRefuse i eDenied else b
  | .fcod => b.jobDeny i
  | _ => b

/-- What a block's own state holds is discarded, and the work it had accepted ends with ACCESS_DENIED (R99, R101). -/
def Blk.dropBlock (b : Blk) (p : Page) (i : Nat) : Blk :=
  match p with
  | .wale => b.waleDrop i
  | .stake => b.stakeReset i
  | .sched => b.schedReset i
  | .row => b.rowReset i
  | .sum => b.sumReset i
  | .wxlt => b.wxltReset i
  | .xlt =>
    let b1 := b.xlDrop none
    { b1 with xlt := { b1.xlt with walks := b1.xlt.walks.filter (fun w => w.unit != modXl) } }
  | .bank => (b.lvDrop (.bank i)).setBank i { begun := (b.bank i).begun, expPut := (b.bank i).expPut, expGet := (b.bank i).expGet, expQ := (b.bank i).expQ }
  | .loss => { b with lossFlag := false, lossQ := [] }
  | .dig => { b with dig := {} }
  | .hoop => { b with hoop := {} }
  | .hoopg =>
    b.each (b.streams.filterMap (fun e => match e.2 with | some y => (match y.orig with | .hoop h _ => if h = i then some (e.1, y) else none | _ => none) | none => none))
      (fun b e => (((b.dmaDone e.1 e.2 eDenied (4096 * e.2.next)).forget 1 e.1).lvDrop (.dma e.1)))
  | .nlnk => let b1 := b.linkDown i lkDown; b1.setNport i { b1.nport i with queue := [], replay := [], rx := [], freed := [] }
  | .nkey => let b1 := b.endSession i; if (b.nport i).step = 0 ∧ !b.nearUp i then b1 else b1.trainStart i
  | .nred => b.nredDrop i
  | .ncod =>
    let b1 := (b.lvDrop (.coder (2 * i))).lvDrop (.coder (2 * i + 1))
    let lose := fun (x : Bucket) =>
      { x with inBlocks := x.inBlocks.filter (fun e => e.1 != i),
               outBlocks := x.outBlocks.filter (fun e => (x.hops[e.1]?).map Hop.coder != some i) }
    b1.setBorder { b1.border with buckets := b1.border.buckets.map lose, enc := SMap.set [] b1.border.enc i [], dec := SMap.set [] b1.border.dec i [],
                                  retries := b1.border.retries.filter (fun e => e.1 != i) }
  | .fcod => b.fcodReset i
  | .fxp => (b.wr R.FXP_CTRL_EN 0).sessionsEnd
  | .fkey => b.sessionsEnd.each (List.range 8) (fun b s => b.wr (R.FKEY_PEER_EPOCH.at s) 0)
  | .rak => (b.each b.rak.bulk (fun b e => match e.2 with | some x => b.rakSend 2 false (.bulkEnd e.1 eDenied x.moved) | none => b)).rakEnd
  | .mgmt => { b with mgmt := {} }
  | .lid => { b with lid := { b.lid with logBuf := [], logBroken := false, nonce := none, zero := none, fwShown := false } }
  | .boot => { b with boot := { b.boot with steps := b.boot.steps.map (fun x => if x.st = 1 then { x with st := 0 } else x), tests := [], waiting := [],
                                            shut := [], spareInit := [] } }
  | _ => b

/-- What the page shows of state that outlives the reset, and the standing consequences of its own fields' return (R78, R129, R164, R434). -/
def Blk.afterReset (b : Blk) (p : Page) (i : Nat) : Blk :=
  match p with
  | .sched => b.wr R.SCHED_WL_GET (b.rd R.SCHED_WL_PUT i) i
  | .pwc => b.pwcReset.pwcShow
  | .beat => b.syncEnable true false
  | .boot => b.bootShow
  | .lid => (b.lidVoid).toSafe
  | .hoopg => (b.setHoopD i {}).setEvtQueue i []
  | .loss | .dig => b.wakeBanks
  | .fxp => b.showStores
  | .fkey => b.showSessions
  | _ => b

/-- LID_OWN_STATE over a reset of the LID page: the state itself is the module's, not the page's. -/
def lidKeep (p : Page) (off lo : Nat) : Bool := p == .lid && off == 0x040 && lo == 0

/-- Where an initiator's latched or staged half of a pair lies (R85). -/
def pairKey (ini : Ini) (p : Page) (i off : Nat) : Nat := ((8192 * p.idx + i) * 4096 + off) * 64 + iniIdx ini

/-- One page of a block reset: its work, its fields, its staged and latched halves (R85), RESET with STATE_CHANGE (R101). -/
def Blk.resetPage (b : Blk) (p : Page) (i : Nat) : Blk :=
  let b1 := (b.dropBlock p i).dropRegs p i (fun off lo => blockKeep p off lo || lidKeep p off lo)
  let mine := fun (k : Nat) => k / 64 / 4096 / 8192 == p.idx && k / 64 / 4096 % 8192 == i
  let b2 := { b1 with io := { b1.io with latch := b1.io.latch.filter (fun e => !mine e.1), stage := b1.io.stage.filter (fun e => !mine e.1) } }
  (b2.afterReset p i).setSt p i sReset

/-- BLOCK_RESET (R101): a test of the block ends (R102); a wale header's covers every page of the wale (R164, R505). -/
def Blk.blockReset (b : Blk) (p : Page) (i : Nat) : Blk :=
  let b1 := b.testDrop p i
  if p = .wale then (b1.waleDrop i).each (walePages i) (fun b x => b.resetPage x.1 x.2) else b1.resetPage p i

/-! ## Warm reset (R437–R439) -/

/-- The fields that a warm reset keeps (R437, R438), by page, offset and low bit. -/
def warmKeeps (p : Page) (off lo : Nat) : Bool :=
  let hdr := off == 0x018 || off == 0x030 || off == 0x038
  match p with
  | .pwc | .mod | .boot | .tel | .mgmt | .beat => true
  | .lid => !(off == 0x040 && lo == 8)
  | .loss => hdr || (decide (0x040 ≤ off) && (accAt p off lo [.rw] || [0x054, 0x058, 0x05C, 0x070, 0x074].contains off))
  | .xlt => hdr || (decide (0x040 ≤ off) && (accAt p off lo [.rwl] || [0x05C, 0x060, 0x068, 0x06C].contains off))
  | .bank => hdr || (decide (0x040 ≤ off) && off != R.BANK_STATUS_STATE.off)
  | .dig => hdr || (decide (0x040 ≤ off) && accAt p off lo [.rw, .rwl])
  | .nred => hdr || (decide (0x040 ≤ off) && (accAt p off lo [.rwl] || [0x060, 0x064, 0x068, 0x06C, 0x074, 0x078, 0x084, 0x088, 0x08C, 0x090, 0x094, 0x098].contains off
      || (off == 0x070 && lo == 1) || (off == 0x07C && lo == 8) || (off == 0x080 && lo == 16)))
  | .ncod => hdr || (decide (0x040 ≤ off) && (accAt p off lo [.rw, .rwl] || (decide (0x050 ≤ off) && decide (off ≤ 0x07C))))
  | .fcod => hdr || (decide (0x040 ≤ off) && (accAt p off lo [.rw, .rwl] || (decide (0x050 ≤ off) && decide (off ≤ 0x07C)) || off == 0x090))
  | .fxp => hdr || (decide (0x040 ≤ off) && (accAt p off lo [.rw, .rwl] || off == 0x068 || off == 0x078 || (decide (0x0BC ≤ off) && decide (off ≤ 0x0DC))))
  | .hbm | .slow => hdr || (decide (0x044 ≤ off) && decide (off ≤ 0x05C))
  | .wale => off == 0x040 && lo == 0
  | .sched => off == 0x068 && lo == 8
  | .row => off == 0x04C || off == 0x050
  | .nkey => off == 0x04C
  | .d2d => off == 0x040 && lo == 8
  | _ => false

/-- Memory over a warm reset: HBM and the slow tier in self-refresh keep their lines, SRAM is lost (R437). -/
def Mem.warm (m : Mem) : Mem := { m with bytes := m.bytes.filter (fun e => isDram e.1), ue := m.ue.filter (fun e => isDram e.1) }

/-- The lid over a warm reset (R77, R78): an interrupted zeroisation goes on from step 2 at the warm start, without domain keys. -/
def LidSt.warm (x : LidSt) : LidSt :=
  match x.zero with
  | none => { x with trying := [] }
  | some z => { x with trying := [], domGen := (List.range 8).foldl (fun m d => SMap.modify 0 m d (· + 1)) x.domGen, zero := some { z with resumed := true } }

/-- Wales that stand ISOLATED or in test come back ISOLATED (R455, R487). -/
def Blk.isoWales (b : Blk) : List Nat := ((b.pagesIn sIsolated ++ b.pagesIn sTesting).filter (fun x => x.1 == .wale)).map (·.2)

/-- Far state over a warm reset (R407, R437): stores, their segments and the rounds survive; sessions and jobs end. -/
def Far.warm (x : Far) : Far :=
  { x with jobs := [], jobCls := [], peers := x.peers.map (fun e => (e.1, { e.2 with got := [], ackDue := 0, lim := none, r0 := {}, r1 := {}, secret := 0 })), sqWait := false }

/-- The fold digest unit over a warm reset: digests are recomputed from the commit records; comparisons end (R438). -/
def Dig.warm (x : Dig) : Dig := { parts := x.parts, shards := x.shards.map (fun e => (e.1, { e.2 with state := 0 })) }

/-- What a warm reset leaves (R437–R439). -/
def Blk.warmState (b : Blk) (iso : List Nat) : Blk :=
  { regs := b.regs.filter (fun e => match pageOfIdx (keyPage e.1) with | some p => warmKeeps p (keyOff e.1) (keyLo e.1) | none => false)
    mem := b.mem.warm, xlt := { brokenO := b.xlt.brokenO, brokenV := b.xlt.brokenV }
    io := { out := b.io.out, fv := b.io.fv, ent := b.io.ent }, flash := b.flash, lid := b.lid.warm
    steps := b.steps.map (fun x => { x with contributed := false, closed := false })
    beat := b.beat, pwr := b.pwr, lossFlag := b.lossFlag
    near := b.near.map (fun e => (e.1, { cable := e.2.cable })) |>.filter (fun e => e.2 != {})
    banks := b.banks.map (fun e => (e.1, { begun := e.2.begun, expPut := e.2.expPut, expGet := e.2.expGet, expQ := e.2.expQ })) |>.filter (fun e => e.2 != {})
    dig := b.dig.warm, far := b.far.warm, mgmt := b.mgmt
    boot := { stage := 4, inWarm := true, isoBack := (b.boot.isoBack ++ iso).eraseDups } }

/-- A warm reset (R439) with its cause (R456): ignored in the base stages of a cold start (R493), once SHUT (R445), and while the module is held in cold reset. A
module in SAFE stays in SAFE (R46). -/
def Blk.warmReset (b : Blk) (cause : Nat) : Blk :=
  if b.boot.refHeld ∨ (b.boot.stage < 5 ∧ !b.boot.inWarm) ∨ b.rd R.BOOT_STATUS_PHASE = 4 then b
  else
    let iso := b.isoWales
    let sr := ((b.pagesIn sReady ++ b.pagesIn sServing ++ b.pagesIn sQuiescing).filter (fun x => x.1 == .hbm || x.1 == .slow))
    let up := b.rakUp
    let b1 := b.warmState iso
    let b2 := b1.each sr (fun b x => if x.1 = .hbm then b.wr R.HBM_STATUS_SELF_REFRESH 1 x.2 else b.wr R.SLOW_STATUS_SELF_REFRESH 1 x.2)
    let b3 := ((b2.inc R.BOOT_WARM_CNT).wr R.BOOT_LAST_RESET cause).wr R.BOOT_STATUS_WARM 1
    let b4 := if b3.lid.zero.isSome then b3.wr R.LID_ZERO_STATUS_STEP 2 else b3
    let b5 := b4.wr R.BOOT_STATUS_FALLBACK 0
    if up then b5.bootShow.event .rak 19 else b5.bootShow

/-! ## Cold reset (R437, R492) -/

/-- What a cold reset leaves (R437, R492). -/
def Blk.coldState (b : Blk) : Blk :=
  { mem := { power := b.mem.power + 1 }, io := { out := b.io.out, fv := b.io.fv, ent := b.io.ent }, flash := b.flash
    lid := { staged := b.lid.staged, approvals := b.lid.approvals, running := b.lid.running }
    near := b.near.map (fun e => (e.1, { cable := e.2.cable })) |>.filter (fun e => e.2 != {})
    boot := { refHeld := b.boot.refHeld }, pwr := { alertPin := b.pwr.alertPin, leakPin := b.pwr.leakPin } }

/-- A cold reset with its cause (R456): module flash survives, and so do images staged in it and what lies outside the module (cables, what it has sent, the levels
that the carrier drives, of which the leak sense shows at once; R493). -/
def Blk.coldReset (b : Blk) (cause : Nat) : Blk :=
  (b.coldState.wr R.BOOT_LAST_RESET cause).leakShow

/-! ## Zeroisation (R76, R77, R511) -/

/-- The blocks that a zeroisation leaves running: the lid that runs it and the always-on domain (R438, R476; log entry 41). -/
def zeroSpares (p : Page) : Bool := p == .lid || p == .pwc || p == .mod || p == .boot || p == .tel || p == .mgmt

/-- Pages that are not OFF and not FAILED. -/
def Blk.livePages (b : Blk) : List (Page × Nat) := [sReset, sReady, sServing, sQuiescing, sIsolated, sTesting].flatMap b.pagesIn

/-- A note in the owner's log that no error class names: its requesters, or a reset, as a record of class 0 (R48; log entry 42). -/
def Blk.note (b : Blk) (p : Page) (info : Nat) : Blk :=
  (b.logBuffer { cls := 0, ptype := pageType p, inst := 0, beat := b.beatCount, info0 := info }).logDrain 65

/-- The zeroisation marker written with MEDIA as latched (R76 step 1). -/
def Blk.zeroMark (b : Blk) (target requester : Nat) (media : Bool) : Blk :=
  { b with flash := { b.flash with marker := some (target, media) },
           lid := { b.lid with zero := some { target := target, media := media, requesters := [requester], resumed := false } } }

/-- A zeroisation begins (R76 steps 1 and 2): marker, MEDIA latched, quiesce of every block. One that runs takes the request in, which is acknowledged as merged, and
the log names both (R48). -/
def Blk.zeroStart (b : Blk) (target requester : Nat) : Blk :=
  match b.lid.zero with
  | some z =>
    let b1 := { b with lid := { b.lid with zero := some { z with requesters := z.requesters ++ [requester] } } }
    (b1.send (.zeroMerged requester)).note .lid (maskOf (z.requesters ++ [requester]))
  | none =>
    let media := b.on R.LID_ZERO_CTRL_MEDIA
    let b2 := ((b.zeroMark target requester media).wr R.LID_ZERO_STATUS_STEP 2).wr R.LID_ZERO_STATUS_RESUMED 0
    b2.each (b2.livePages.filter (fun x => !zeroSpares x.1)) (fun b x => b.quiesce x.1 x.2)

/-- The fields that step 4 leaves as they are (R511): the table's, the state of the lid's own block, which runs the zeroisation (log entry 41), and the roles of the
wales, which flash backs. Pages that grant O no write keep what a block reset keeps. -/
def zeroKeeps (p : Page) (i off lo : Nat) : Bool :=
  if p = .lid then [0x040, 0x044, 0x054, 0x06C, 0x07C, 0x084].contains off || off == 0x010
  else if zeroSpares p then true
  else if !oWrites p i then blockKeep p off lo || (off == 0x010 && lo == 0)
  else if p = .beat then decide (0x050 ≤ off)
  else if p = .hbm ∨ p = .slow then decide (0x040 ≤ off) && decide (off ≤ 0x05C)
  else if p = .wale then off == 0x040 && lo == 0
  else false

/-- Memory over steps 3–5 (R76): SRAM zero; HBM and the slow tier keep their ciphertext, or hold zero ciphertext once MEDIA has been written. -/
def Mem.zeroised (m : Mem) (media : Bool) : Mem :=
  if media then { power := m.power, base := .zeroCipher } else m.warm

/-- What steps 3 to 5 leave: keys and SRAM gone, the owner's registers at reset, tests ended. -/
def Blk.zeroWipe (b : Blk) (media : Bool) (iso : List Nat) : Blk :=
  { b with
    regs := b.regs.filter (fun e => match pageOfIdx (keyPage e.1) with | some p => zeroKeeps p (keyInst e.1) (keyOff e.1) (keyLo e.1) | none => false)
    mem := b.mem.zeroised media, xlt := { brokenO := b.xlt.brokenO, brokenV := b.xlt.brokenV }, io := { out := b.io.out, fv := b.io.fv, ent := b.io.ent }
    lid := { b.lid with domGen := (List.range 8).foldl (fun m d => SMap.modify 0 m d (· + 1)) b.lid.domGen, exportKey := none, exportCnt := 0, logBuf := [], logBroken := false }
    steps := [], border := {}, threads := [], stakes := [], wales := [], streams := [], leave := {}, hoopDma := [], lossQ := [], lossFlag := false
    near := b.near.map (fun e => (e.1, { cable := e.2.cable, trips := e.2.trips })) |>.filter (fun e => e.2 != {})
    banks := [], dig := {}, far := {}, hoop := {}
    boot := { b.boot with tests := [], waiting := [], shut := b.boot.shut.map (fun x => if x.st = 1 then { x with st := 0 } else x),
                           isoBack := (b.boot.isoBack ++ iso).eraseDups } }

/-- Steps 2–5 (R76, R77, R511): blocks held in reset, keys erased and loaded fresh, SRAM and the owner's registers zeroed, tests ended. Every block that ran stands in
RESET, from which R97 takes it where its PG_CTRL says: an owner page's at cold reset leads it to OFF; a wale that stood ISOLATED or in test comes back ISOLATED (R487;
log entry 41). -/
def Blk.zeroErase (b : Blk) (media : Bool) : Blk :=
  let live := b.livePages.filter (fun x => !zeroSpares x.1)
  let failed := (b.pagesIn sFailed).filter (fun x => !zeroSpares x.1)
  let iso := b.isoWales
  let b1 := (b.rakEnd.each (List.range 8) (fun b p => b.linkDown p lkDown))
  let b2 := (b1.farClose).wr R.RAK_STATUS_LINK 0
  let b3 := b2.zeroWipe media iso
  let b4 := if b3.rd R.BOOT_BIST_STATUS_STATE = 1 then b3.wr R.BOOT_BIST_STATUS_STATE 0 else b3
  let b5 := b4.syncEnable true false
  let b6 := b5.each failed (fun b x => b.wr (R.PG_STATE_STATE x.1) sFailed x.2)
  let b7 := b6.each iso (fun b w => (walePages w).foldl (fun (b : Blk) x => b.wr (R.PG_CTRL_ENABLE x.1) 1 x.2) (b.wr (R.PG_CTRL_ISOLATE .wale) 1 w))
  b7.each live (fun b x => b.setSt x.1 x.2 sReset)

/-- ZEROISE_QUIESCE_END (R76): the quiesce has ended, or 10 ms have passed. -/
def Blk.zeroQuiesced (b : Blk) : Blk :=
  match b.lid.zero with
  | none => b
  | some z => b.when (b.rd R.LID_ZERO_STATUS_STEP == 2) (fun b => (b.zeroErase z.media).wr R.LID_ZERO_STATUS_STEP (if z.media then 5 else 6))

/-- The owner's records erased, the epoch advanced, the new state written with its completion record (R76 steps 6 and 7). -/
def Blk.zeroRecord (b : Blk) (z : Zeroing) : Blk :=
  let ep := b.flash.epoch + 1
  { b with flash := { b.flash with ownerHash := none, policy := none, epoch := ep, own := z.target, marker := none,
                                   badTags := b.flash.badTags.filter (fun r => r != .owner && r != .policy)
                                   completion := some (z.target, ep, Config.crypto 8 [z.target, ep]) },
           lid := { b.lid with zero := none, approvals := [] } }

/-- ZEROISE_MEDIA_DONE (R76 steps 6 and 7): owner records erased, epoch advanced, the new state recorded with a signed completion record and entered; approvals
lapse (R511), the claim window closes and what R508 holds is void. -/
def Blk.zeroDone (b : Blk) : Blk :=
  match b.lid.zero with
  | none => b
  | some z => b.when (decide (5 ≤ b.rd R.LID_ZERO_STATUS_STEP)) (fun b =>
      let b2 := ((b.zeroRecord z).wr R.LID_OWN_STATE_STATE z.target).wr R.LID_ZERO_STATUS_STEP 0
      ((b2.wr R.LID_ZERO_STATUS_RESUMED (b2n z.resumed)).lidVoid).bootShow)

end Sys2Proof.Machine
end

