-- ==== Sys2Proof/Machine/Lid.lean ====
section
/-! DEFINITION. The lid: tokens and ownership (R45–R48, R61, R62, R508), zeroisation's events (R76), domain keys (R58), firmware (R59, R60, R452–R454), debug
(R74), and the 1 s windows with the platform events (R70, R436, R481). -/

namespace Sys2Proof.Machine

/-! ## Answers on Rakline and over the management plane -/

/-- Whether a frame from the node reaches the module: the link is UP and Rakline is not closed (R45, R463). -/
def Blk.rakOpen (b : Blk) : Bool := b.rd R.RAK_STATUS_LINK == 2 && b.own != 3

/-- An answer on ATTEST (R465, R473), in clear while no session exists; the request's credit returns with it (R466). -/
def Blk.attest (b : Blk) (m : RakMsg) : Blk :=
  let b1 := b.rakSend 4 (!b.rakUp) m
  if b.rakUp then b1.rakLink (.credit 4 1) else b1

/-- Whether the management plane answers (R476, R492): from the end of base stage 1. -/
def Blk.mgmtUp (b : Blk) : Bool := decide (2 ≤ b.boot.stage) && !b.boot.refHeld

/-- An answer of the management plane, counted (R477, R483). -/
def Blk.mgmtAnswer (b : Blk) (code : Nat) (data : List Nat) : Blk :=
  let b1 := b.inc R.MGMT_REQ_CNT
  (if code = 0 then b1 else b1.inc R.MGMT_ERR_CNT).send (.mgmt code data)

/-! ## Keys (R53) -/

/-- The alias key of a cold start (R53): from the identity seed, in the context of the measurements of all 8 image kinds and the ownership epoch. The labels other
than "flash" and "identity" are not stated (log entry 7). -/
def aliasKeyOf (root : Nat) (measures : List Nat) (epoch : Nat) : Nat :=
  Config.kdf (Config.kdf root "identity" []) "alias" (measures ++ [epoch])

/-- The KMAC256 key of the flash records (R51, R53). -/
def flashKeyOf (root : Nat) : Nat := Config.kdf root "flash" []

/-- The keys that the lid derives once the root is reconstructed (R50, R53). -/
def Blk.deriveKeys (b : Blk) : Blk :=
  { b with lid := { b.lid with root := some Config.root,
                               aliasKey := some (aliasKeyOf Config.root ((List.range 8).map (fun k => (b.measured k).1)) b.flash.epoch) } }

/-! ## Owner tokens (R61, R62) -/

/-- A little-endian field of a token at an offset (R61). -/
def tokField (t : Token) (off n : Nat) : Nat := leNat ((t.head.drop off).take n)

/-- The layout of R61: the 0xB8 bytes before the signature and its length of 29,792 make the total length that the token states. -/
def tokLayout (t : Token) : Bool := t.head.length == 0xB8 && t.sigLen == 29792 && tokField t 0x04 4 == 29976

/-- The fields of R61. -/
def tokType (t : Token) : Nat := tokField t 0x00 4
def tokIdentity (t : Token) : Nat := tokField t 0x08 32
def tokEpoch (t : Token) : Nat := tokField t 0x28 4
def tokScope (t : Token) : Nat := tokField t 0x2C 4
def tokSubject (t : Token) : Nat := tokField t 0x30 32
def tokNonce (t : Token) : Nat := tokField t 0x50 32
def tokLastBoot (t : Token) : Nat := tokField t 0x70 8

/-- The SHAKE256 hash of the owner root public key in a token (R62). -/
def tokKeyHash (t : Token) : Nat := Config.shake ((t.head.drop 0x78).take 64)

/-- The checks of an owner token of a type (R61, R62): layout, signature, identity, epoch, the fields that are 0 for its type, nonce, last boot count, owner key. A
scope that names no image kind, or no debug scope, is refused (log entry 51). -/
def Blk.tokenOk (b : Blk) (t : Token) (type : Nat) : Bool :=
  t.sigOk && tokLayout t && tokType t == type && tokIdentity t == Config.identityHash.toNat && tokEpoch t == (if type = 4 then 0 else b.flash.epoch % 2 ^ 32)
    && (match type with
        | 1 => tokScope t != 0 && decide (tokScope t < 256)
        | 2 => tokScope t != 0 && decide (tokScope t < 8)
        | _ => tokScope t == 0)
    && (type == 1 || tokSubject t == 0)
    && (if type = 1 then tokNonce t == 0 else b.lid.nonce == some (tokNonce t))
    && decide (b.flash.boots ≤ tokLastBoot t)
    && (type == 4 || b.flash.ownerHash == some (tokKeyHash t))

/-- A token refused with AUTH_FAIL: counted, logged, answered (R45, R465). -/
def Blk.tokenRefused (b : Blk) : Blk := b.authFail.attest .authFail

/-- A nonce is accepted in one token only (R62). -/
def Blk.nonceUsed (b : Blk) : Blk := { b with lid := { b.lid with nonce := none } }

/-- A claim recorded in flash (R45): the state, the owner root key hash, the next epoch. -/
def Blk.claimRecord (b : Blk) (keyHash : Nat) : Blk :=
  { b with flash := { b.flash with own := 1, ownerHash := some keyHash, epoch := b.flash.epoch + 1, badTags := b.flash.badTags.filter (· != .owner) } }

/-- OWNER_CLAIM (R45, R47): BLANK, an open window and the lid's current nonce make the module OWNED; its PG_ACCESS values follow (R44, R96). -/
def execOwnerClaim (tok : Token) (s : State) : Host.Outcome State Fault Refusal :=
  cmd true s (fun b => b.when b.rakOpen (fun b =>
    if b.own = 0 ∧ b.lid.zero = none ∧ b.on R.LID_CLAIM_ARM ∧ b.tokenOk tok 4 then
      ((((b.claimRecord (tokKeyHash tok)).wr R.LID_OWN_STATE_STATE 1).lidVoid).nonceUsed.stateEvents).attest .accepted
    else b.tokenRefused))

/-- OWNER_RELEASE (R45, R48). -/
def execOwnerRelease (tok : Token) (s : State) : Host.Outcome State Fault Refusal :=
  cmd true s (fun b => b.when b.rakOpen (fun b =>
    if b.own = 1 ∧ b.tokenOk tok 3 then ((b.zeroStart 0 1).nonceUsed).attest (if b.lid.zero.isSome then .merged else .accepted) else b.tokenRefused))

/-- The effect of a write of 1 to LID_ZERO_CTRL.FORCE_CLEAR (R45, R48): OWNED to BLANK; from another state it is refused. -/
def Blk.forceClear (b : Blk) : Blk := if b.own = 1 then b.zeroStart 0 2 else b.authFail

/-- DEBUG_OPEN (R74). -/
def execDebugOpen (tok : Token) (s : State) : Host.Outcome State Fault Refusal :=
  cmd true s (fun b => b.when b.rakOpen (fun b =>
    if b.own = 1 ∧ b.tokenOk tok 2 then ((b.orBits R.LID_OWN_STATE_DEBUG_SCOPE (tokScope tok)).nonceUsed).attest .accepted else b.tokenRefused))

/-- FIRMWARE_APPROVAL (R60–R62): the approval is held for every image kind that it names. -/
def execFirmwareApproval (tok : Token) (s : State) : Host.Outcome State Fault Refusal :=
  cmd true s (fun b => b.when b.rakOpen (fun b =>
    if b.own = 1 ∧ b.tokenOk tok 1 then
      let a : Approval := ⟨tokSubject tok, tokEpoch tok, tokLastBoot tok⟩
      ({ b with lid := { b.lid with approvals := (setBits 8 (tokScope tok)).foldl (fun m k => SMap.set none m k (some a)) b.lid.approvals } }).attest .accepted
    else b.tokenRefused))

/-! ## Service (R45, R508) -/

/-- Whether a service token is valid now: it names this module and the current boot count (R45). -/
def Blk.svcValid (b : Blk) (t : SvcToken) : Bool := t.sigOk && t.identity == Config.identityHash.toNat && t.boot == b.flash.boots

/-- Whether SERVICE can be entered from here (R45): from BLANK, or from SAFE while the lid works. -/
def Blk.svcFrom (b : Blk) : Bool := b.own == 0 || (b.own == 3 && b.lid.works)

/-- The transition takes place once token and consent are held together (R508). -/
def Blk.svcMeet (b : Blk) : Blk :=
  match b.lid.svcToken with
  | some t =>
    if b.lid.svcConsent then
      (if b.svcValid t then (b.lidVoid).zeroStart 2 3 else { b with lid := { b.lid with svcToken := none } })
    else b
  | none => b

/-- SERVICE_TOKEN (R508), over Rakline or the management plane. -/
def execServiceToken (viaMgmt : Bool) (tok : SvcToken) (s : State) : Host.Outcome State Fault Refusal :=
  cmd true s (fun b => b.when (if viaMgmt then b.mgmtUp else b.rakOpen) (fun b =>
    let answer := fun (b : Blk) (ok : Bool) => if viaMgmt then b.mgmtAnswer (if ok then 0 else 1) [] else b.attest (if ok then .accepted else .authFail)
    if b.svcFrom && b.svcValid tok then (answer ({ b with lid := { b.lid with svcToken := some tok } }) true).svcMeet
    else answer b.authFail false))

/-- SERVICE_CONSENT (R508), by the operator. -/
def execServiceConsent (s : State) : Host.Outcome State Fault Refusal :=
  cmd true s (fun b => b.when b.mgmtUp (fun b =>
    if b.svcFrom then (({ b with lid := { b.lid with svcConsent := true } }).mgmtAnswer 0 []).svcMeet
    else (b.authFail).mgmtAnswer 1 []))

/-- SERVICE_HOLD_LAPSE (R508): the part held lapses, and no answer is sent. -/
def execServiceHoldLapse (consent : Bool) (s : State) : Host.Outcome State Fault Refusal :=
  cmd true s (fun b => { b with lid := if consent then { b.lid with svcConsent := false } else { b.lid with svcToken := none } })

/-- SERVICE_EXIT (R45). -/
def execServiceExit (s : State) : Host.Outcome State Fault Refusal :=
  cmd true s (fun b => if b.own = 2 then b.zeroStart 0 4 else b.authFail)

/-! ## Zeroisation's own events (R76) -/

/-- ZEROISE_QUIESCE_END (R76). -/
def execZeroiseQuiesceEnd (s : State) : Host.Outcome State Fault Refusal := cmd true s (fun b => b.zeroQuiesced)

/-- ZEROISE_MEDIA_DONE (R76). -/
def execZeroiseMediaDone (s : State) : Host.Outcome State Fault Refusal := cmd true s (fun b => b.zeroDone)

/-! ## The claim window (R47) -/

/-- The window opens, or its 60 s start again. -/
def Blk.claimArm (b : Blk) : Blk := (b.wr R.LID_CLAIM_ARM 1).wr R.LID_CLAIM_LEFT 60

/-- CLAIM_WINDOW_EXPIRE (R47). -/
def execClaimWindowExpire (s : State) : Host.Outcome State Fault Refusal :=
  cmd true s (fun b => b.when (b.on R.LID_CLAIM_ARM) (fun b => (b.wr R.LID_CLAIM_ARM 0).wr R.LID_CLAIM_LEFT 0))

/-- CLAIM_LEFT_TICK (R47): at the last whole second the window closes by its own event. -/
def execClaimLeftTick (s : State) : Host.Outcome State Fault Refusal :=
  cmd true s (fun b => b.when (b.on R.LID_CLAIM_ARM && decide (1 < b.rd R.LID_CLAIM_LEFT)) (fun b => b.dec R.LID_CLAIM_LEFT))

/-! ## Domain keys (R58) -/

/-- DOMAIN_KEY_INSTALLED (R58): the new key is in place; what the old one wrote is unreadable (R57). -/
def execDomainKeyInstalled (d : Nat) (s : State) : Host.Outcome State Fault Refusal :=
  cmd (decide (d < 8)) s (fun b => b.when (bit (b.rd R.LID_DOMAIN_REKEY) d) (fun b =>
    ({ b with lid := { b.lid with domGen := SMap.modify 0 b.lid.domGen d (· + 1) } }).clrBits R.LID_DOMAIN_REKEY (2 ^ d)))

/-! ## Firmware (R59, R60, R452–R454) -/

/-- Whether the lid may activate the staged image of a kind (R59, R60). -/
def Blk.activatable (b : Blk) (k : Nat) : Bool :=
  match SMap.get none b.lid.staged k with
  | none => false
  | some im =>
    im.sigOk && decide (SMap.get 0 b.flash.rollback k ≤ im.secver)
      && (b.own == 0 || b.own == 2 || (b.own == 1 && (match SMap.get none b.lid.approvals k with
        | some a => a.hash == im.hash && a.epoch == b.flash.epoch % 2 ^ 32 && decide (b.flash.boots ≤ a.lastBoot)
        | none => false)))

/-- The staged image of a kind starts: `n` of its units run it (R452–R454). -/
def Blk.tryImage (b : Blk) (k n : Nat) : Blk := { b with lid := { b.lid with trying := SMap.set 0 b.lid.trying k n } }

/-- The image that is starting is in service: the anti-rollback counter of its kind rises (R52, R59). -/
def Blk.commitImage (b : Blk) (k : Nat) : Blk :=
  match SMap.get none b.lid.staged k with
  | none => b
  | some im =>
    { b with lid := { b.lid with staged := SMap.set none b.lid.staged k none, approvals := SMap.set none b.lid.approvals k none,
                                 running := SMap.set none b.lid.running k (some im), trying := SMap.set 0 b.lid.trying k 0 },
             flash := { b.flash with rollback := SMap.modify 0 b.flash.rollback k (fun v => max v im.secver) } }

/-- How many units of a kind run its image (R452): the ports that are not FAILED, or one. -/
def Blk.imageUnits (b : Blk) (k : Nat) : Nat :=
  match k with
  | 4 => ((List.range 8).filter (fun p => b.st .nlnk p != sFailed)).length
  | 5 => ((List.range 2).filter (fun f => b.st .fmac f != sFailed)).length
  | _ => 1

/-- The cores of a hoop group. -/
def Blk.groupCores (b : Blk) (g : Nat) : List Nat := (List.range 32).filter (fun c => b.coreGroup c == g)

/-- The hand-over of hoop group 0 (R453 steps 4 and 5): the old cores stand in STANDBY for the groups that gave cores, in ascending order, the MSIs of group 0 go
to the new cores, BUSY clears. -/
def Blk.migrateEnd (b : Blk) : Blk :=
  let new := b.hoop.incoming
  let old := (b.groupCores 0).filter (fun c => !new.contains c)
  let b1 := b.each old (fun b c => b.wr (coreGroupFld c) 4)
  let at0 := b.rd R.HOOP_G_EVT_CTRL_CORE 0
  let b2 := match new[(old.idxOf? at0).getD 0]? with
    | some c => if old.contains at0 then b1.wr R.HOOP_G_EVT_CTRL_CORE c 0 else b1
    | none => b1
  let back := old.zip (b.hoop.given.map (·.2))
  let b3 := back.foldl (fun (b : Blk) e => b.orBits R.HOOP_G_RETURNED (2 ^ e.1) e.2) b2
  let b4 := b3.each ((back.map (·.2)).eraseDups) (fun b g => b.event .hoopg 17 g)
  ({ b4 with hoop := { b4.hoop with given := [], incoming := [] } }).wr R.HOOP_MIGRATE_BUSY 0

/-- IMAGE_READY_POINT (R59, R452, R453): the image that is starting has run to its ready point on every unit of its kind. -/
def execImageReadyPoint (kind : Nat) (s : State) : Host.Outcome State Fault Refusal :=
  cmd (decide (kind < 8)) s (fun b =>
    let n := SMap.get 0 b.lid.trying kind
    b.when (decide (0 < n) && decide (b.imageUnits kind ≤ n) && (kind != 1 || b.on R.HOOP_MIGRATE_BUSY)) (fun b =>
      (if kind = 1 then b.migrateEnd else b).commitImage kind))

/-! ## Windows and platform events (R70, R436, R481) -/

/-- The sanitised counts of a window by error class (R480). -/
def classCounts (san : SMap Nat) : SMap Nat := san.foldl (fun m e => SMap.modify 0 m (e.1 % 256) (· + e.2)) []

/-- The telemetry fields of a window (R436). -/
def Blk.telWindow (b : Blk) (w : WindowSample) : Blk :=
  let b1 := (b.addW R.TEL_WINDOW 1).wr R.TEL_ENERGY (min w.joules R.TEL_ENERGY.max)
  let b2 := ((b1.add64 R.TEL_ENERGY_TOT_LO R.TEL_ENERGY_TOT_HI w.joules).wr R.TEL_VIN_MV w.vinMv).wr R.TEL_VIN_MIN_MV w.vinMinMv
  let b3 := (b2.wr R.TEL_V3P3 w.v3p3Mv).each (List.range 22) (fun b z => b.wr (R.TEL_TEMP.at z) (w.temps.getD z 0))
  b3.each (List.range 8) (fun b p => b.wr (R.TEL_LOAD.at p) (w.loads.getD p 0))

/-- SANITISED_WINDOW_END (R70, R436, R481). -/
def execSanitisedWindowEnd (sample : WindowSample) (s : State) : Host.Outcome State Fault Refusal :=
  cmd (sample.temps.length == 22 && sample.loads.length == 8) s (fun b => b.when (!b.boot.refHeld) (fun b =>
    let counts := classCounts b.lid.san
    let b1 := (b.send (.sanitised b.lid.san)).telWindow sample
    let b2 := { b1 with lid := { b1.lid with san := [] }, mgmt := { b1.mgmt with window := counts } }
    let b3 := if b2.rd R.MGMT_STATUS_RX_EID = 0 then b2 else b2.each counts (fun b e => b.platformEvent (0x0200 + e.1) e.2)
    b3.stateEvents))

end Sys2Proof.Machine
end

