-- ==== Sys2Proof/Machine/Boot.lean ====
section
/-! DEFINITION. Start-up (R440–R444), orderly shutdown and self-test (R445–R448), outcomes of failure (R449), retirement (R450, R451), port firmware (R452), the
events of blocks (R97–R99, R505), and the signals at the module's edge (R492, R493). -/

namespace Sys2Proof.Machine

/-! ## Cold start: power and the base stages (R415, R441, R492, R493) -/

/-- POWER_ON (R492): a cold start begins with stage 1. -/
def execPowerOn (s : State) : Host.Outcome State Fault Refusal := cmd true s (fun b => b.coldReset 0)

/-- RST_N (R437, R492). -/
def execRstN (s : State) : Host.Outcome State Fault Refusal := cmd true s (fun b => b.coldReset 1)

/-- BROWN_OUT (R415). -/
def execBrownOut (s : State) : Host.Outcome State Fault Refusal := cmd true s (fun b => b.coldReset 2)

/-- OVER_VOLTAGE (R415). -/
def execOverVoltage (s : State) : Host.Outcome State Fault Refusal := cmd true s (fun b => b.coldReset 3)

/-- REFCLK_LOSS (R493): the module is held in cold reset as at power-on. -/
def execRefclkLoss (s : State) : Host.Outcome State Fault Refusal :=
  cmd true s (fun b => let c := b.coldReset 0; { c with boot := { c.boot with refHeld := true } })

/-- REFCLK_RETURN (R493): released, the module restarts at stage 1. -/
def execRefclkReturn (s : State) : Host.Outcome State Fault Refusal :=
  cmd true s (fun b => b.when b.boot.refHeld (fun b => { b with boot := { b.boot with refHeld := false } }))

/-- The roles of the wales as the repair map in force gives them (R448, R450). -/
def Blk.loadRoles (b : Blk) : Blk :=
  match b.flash.map with
  | none => b
  | some m => b.each (List.range 200) (fun b w => let r := SMap.get (b.flash.cfgRole w) m.roles w; b.wr R.WALE_STATUS_ROLE (if r < 2 then 0 else r) w)

/-- The boot count of the counter region raised (R440). -/
def Blk.bootCount (b : Blk) : Blk := { b with flash := { b.flash with boots := b.flash.boots + 1 } }

/-- Module flash without a record whose tag fails (R51). -/
def Flash.without (f : Flash) (r : FlashRec) : Flash :=
  match r with
  | .helper => { f with helper := false }
  | .cert => { f with cert := false }
  | .config => { f with hbms := 0, packages := 0, spares := List.range 200 }
  | .mapA => { f with repairA := none }
  | .mapB => { f with repairB := none }
  | .owner => { f with own := 0, ownerHash := none, marker := none }
  | .policy => { f with policy := none }

/-- Every record whose tag does not verify treated as absent (R51). -/
def Blk.dropBad (b : Blk) : Blk := { b with flash := b.flash.badTags.foldl Flash.without b.flash }

/-- Base stage 2 with a root and counters that stand (R46, R51, R77, R440): the keys, the records, the boot count, the recorded state, and the zeroisation that the
marker or a recorded SERVICE requires. -/
def Blk.stage2 (b : Blk) : Blk :=
  let b1 := b.dropBad.bootCount.deriveKeys
  let b2 := (b1.wr R.LID_OWN_STATE_STATE b1.flash.own).loadRoles
  match b2.flash.marker with
  | some (target, media) =>
    ({ b2 with lid := { b2.lid with zero := some { target := target, media := media, requesters := [], resumed := true } } }).wr R.LID_ZERO_STATUS_STEP 2
  | none => if b2.flash.own = 2 then b2.zeroStart 0 4 else b2

/-- POWER_GOOD (R415, R441, R492): stage 1 ends, the beat timer starts (R106), an alert that stands is recognised (R493), and the lid's stage 2 runs; it leads to SAFE where none of at most 8 attempts
reconstructs the root from the SRAM array and the helper data (R50), or the counters fail the flash device's check (R52). -/
def execPowerGood (attempts : List Bool) (countersOk : Bool) (s : State) : Host.Outcome State Fault Refusal :=
  cmd true s (fun b => b.when (b.boot.stage == 1 && !b.boot.refHeld) (fun b =>
    let b0 := { b with boot := { b.boot with stage := 2 }, beat := { b.beat with running := true } }
    let b1 := if b0.pwr.alertPin then b0.alertIn else b0
    if (attempts.take 8).any id && b1.flash.helper && countersOk then b1.stage2 else b1.toSafe))

/-- The pages of the base blocks, which no step initialises (R441, R442). -/
def basePages : List (Page × Nat) :=
  [(.mod, 0), (.lid, 0), (.pwc, 0), (.beat, 0), (.boot, 0), (.tel, 0), (.loss, 0), (.dig, 0), (.hoop, 0), (.hoopg, 0), (.hoopg, 1), (.hoopg, 2), (.hoopg, 3),
   (.rak, 0), (.mgmt, 0), (.xlt, 0)]

/-- A page brought out of OFF to READY with the base stages. -/
def Blk.baseUp (b : Blk) (p : Page) (i : Nat) : Blk := if b.st p i = sOff then (b.bringUp false p i).leaveReset p i else b

/-- The ports that the repair map names failed stay FAILED (R449). -/
def Blk.portFailed (b : Blk) (far : Bool) (k : Nat) : Blk :=
  (if far then [Page.fmac, .fxp, .fcod, .fkey] else [Page.nlnk, .nred, .ncod, .nkey]).foldl (fun (b : Blk) p => b.setSt p k sFailed) b

/-- The masks of failed ports of the repair map in force. -/
def Flash.failedNear (f : Flash) : Nat := match f.map with | some m => m.failedNear | none => 0
def Flash.failedFar (f : Flash) : Nat := match f.map with | some m => m.failedFar | none => 0

/-- Whether a start uses the results of the repair map (R447). -/
def Flash.cleanShutdown (f : Flash) : Bool := match f.map with | some m => m.valid && m.boots + 1 == f.boots | none => false

/-- The steps of a start in table order (R442, R447): the fallback rows join on a fallback start only; failed ports and retired wales have none. -/
def Blk.startSteps (b : Blk) (fallback : Bool) : List BootStep :=
  let row := fun (r : Nat) (l : List Nat) => l.map (fun u => BootStep.mk r u 0)
  let near := (List.range 8).filter (fun p => !bit b.flash.failedNear p)
  let far := (List.range 2).filter (fun f => !bit b.flash.failedFar f)
  let fb := fun (l : List BootStep) => if fallback then l else []
  row 0 (List.range 12) ++ row 1 [0, 1] ++ row 2 [0, 1, 2, 3] ++ fb (row 3 [0, 1, 2, 3]) ++ fb (row 4 ((List.range 200).filter (fun w => b.role w != 3)))
    ++ row 5 [0, 1, 2, 3] ++ fb (row 6 (near ++ far.map (8 + ·))) ++ row 7 near ++ row 8 far

/-- The pages that a step initialises (R442, R443): with each, whether it comes back ISOLATED (R455). -/
def Blk.stepPages (b : Blk) (x : BootStep) : List (Page × Nat × Bool) :=
  let no := fun (l : List (Page × Nat)) => l.map (fun e => (e.1, e.2, false))
  match x.row with
  | 0 => no [(.hbm, x.unit), (.bank, x.unit)]
  | 1 => no [(.slow, x.unit)]
  | 2 => no ((.die, x.unit) :: ((List.range 4).filter (· != x.unit)).map (fun q => (Page.d2d, 4 * x.unit + q)))
  | 5 => (b.dieWales x.unit).flatMap (fun w => (walePages w).map (fun e => (e.1, e.2, e.1 == .wale && b.boot.isoBack.contains w)))
  | 7 => no [(.nlnk, x.unit), (.nred, x.unit), (.ncod, x.unit), (.nkey, x.unit)]
  | 8 => no [(.fmac, x.unit), (.fxp, x.unit), (.fcod, x.unit), (.fkey, x.unit)]
  | _ => []

/-- Whether a step of a row has ended for a unit, or has none. -/
def Blk.stepDone (b : Blk) (row unit : Nat) : Bool := b.boot.steps.all (fun x => !(x.row == row && x.unit == unit) || x.st == 2)

/-- What a step needs (R442). -/
def Blk.stepNeeds (b : Blk) (x : BootStep) : Bool :=
  match x.row with
  | 3 => b.stepDone 2 x.unit
  | 4 => b.stepDone 3 (x.unit / 50)
  | 5 => b.stepDone 2 x.unit && b.boot.steps.all (fun y => !(y.row == 4 && y.unit / 50 == x.unit) || y.st == 2)
  | 7 => b.stepDone 6 x.unit
  | 8 => b.stepDone 6 (8 + x.unit)
  | _ => true

/-- The sensors of a step's zone (R430, R443): the stack's, the die's, and the border's for the slow tier and the ports (log entry 43). -/
def zoneSensors (row unit : Nat) : List Nat :=
  match row with
  | 0 => (List.range 4).map (192 + 4 * unit + ·)
  | 2 | 3 | 5 => (List.range 48).map (48 * unit + ·)
  | 4 => (List.range 48).map (48 * (unit / 50) + ·)
  | _ => [244, 245, 246, 247]

/-- Whether a zone's sensors that report read at or below BOOT_TEMP_MAX (R430, R443). -/
def Blk.zoneCool (b : Blk) (l : List Nat) : Bool :=
  l.all (fun k => !(b.sensor k).live || (match (b.sensor k).temp with | some t => decide (t ≤ 16 * (b.rd R.BOOT_TEMP_MAX : Int)) | none => true))

/-- A step's state set. -/
def Blk.stepSet (b : Blk) (x : BootStep) (st : Nat) : Blk :=
  { b with boot := { b.boot with steps := b.boot.steps.map (fun y => if y.row = x.row ∧ y.unit = x.unit then { y with st := st } else y) } }

/-- A step starts: CTRL is written and the blocks enter RESET (R443); a near port whose TRAIN is 1 trains (R325). -/
def Blk.startStep (b : Blk) (x : BootStep) : Blk :=
  let b1 := (b.stepSet x 1).each (b.stepPages x) (fun b e => b.bringUp e.2.2 e.1 e.2.1)
  if x.row = 7 ∧ b1.on R.NLNK_CTRL_TRAIN x.unit then b1.trainStart x.unit else b1

/-! ## Tests (R445, R446) -/

/-- A test starts: the block is in TESTING (R97). -/
def Blk.testStart (b : Blk) (kind inst : Nat) : Blk :=
  let b1 := { b with boot := { b.boot with tests := b.boot.tests ++ [Bist.mk kind inst false] } }
  match testPage kind inst with
  | some e => b1.setSt e.1 e.2 sTesting
  | none => b1

/-- HBM and the slow tier are not refreshed from the first test of a shutdown on (R445). -/
def Blk.dramLost (b : Blk) : Blk :=
  { b with mem := { bytes := b.mem.bytes.filter (fun e => !isDram e.1), ue := b.mem.ue.filter (fun e => !isDram e.1), power := b.mem.power + 1 } }

/-- Whether a block of a shutdown can go into test: it has drained, or never served (R445). -/
def Blk.shutReady (b : Blk) (x : ShutBlk) : Bool :=
  match testPage x.kind x.inst with
  | some e => b.st e.1 e.2 == sReady || b.st e.1 e.2 == sOff || b.st e.1 e.2 == sIsolated
  | none => true

/-- The zone of a block in test. -/
def shutZone (x : ShutBlk) : List Nat :=
  match x.kind with
  | 0 => zoneSensors 4 x.inst | 3 => zoneSensors 3 x.inst | 5 => zoneSensors 0 x.inst | 6 => [240, 241, 242, 243] | _ => [244, 245, 246, 247]

/-- A drained block of a shutdown is isolated for its test (R97, R445): from READY through QUIESCING, from OFF through RESET. -/
def Blk.shutIsolate (b : Blk) (p : Page) (i : Nat) : Blk :=
  let b1 := (b.wr (R.PG_CTRL_ISOLATE p) 1 i).wr (R.PG_CTRL_ENABLE p) 1 i
  if b1.st p i = sReady then (b1.setSt p i sQuiescing).isolated p i false
  else if b1.st p i = sOff then (b1.setSt p i sReset).isolated p i false
  else b1

/-- Whether step 1 of a shutdown has ended (R445): no block drains any more. -/
def Blk.shutDrained (b : Blk) : Bool := (b.pagesIn sQuiescing).all (fun x => zeroSpares x.1)

/-- One block of a shutdown at a decision: it is isolated and goes into test once all have drained, where its power fits and its zone is cool (R443, R445). -/
def Blk.shutTry (b : Blk) (x : ShutBlk) : Blk :=
  if x.st = 0 ∧ b.shutDrained ∧ b.shutReady x ∧ b.bootUsed + testRun x.kind ≤ b.rd R.BOOT_BUDGET ∧ b.zoneCool (shutZone x) then
    let b1 := if b.boot.shut.all (fun y => y.st == 0) then b.dramLost else b
    let b2 := { b1 with boot := { b1.boot with shut := b1.boot.shut.map (fun (y : ShutBlk) => if y.kind = x.kind ∧ y.inst = x.inst then { y with st := 1 } else y) } }
    (match testPage x.kind x.inst with | some e => b2.shutIsolate e.1 e.2 | none => b2).testStart x.kind x.inst
  else b

/-- A block of a shutdown goes to OFF (R97, R445): it leaves ISOLATED through RESET, and any other state through QUIESCING, with ENABLE 0 and ISOLATE 0. -/
def Blk.shutOff (b : Blk) (p : Page) (i : Nat) : Blk :=
  let b1 := (b.wr (R.PG_CTRL_ENABLE p) 0 i).wr (R.PG_CTRL_ISOLATE p) 0 i
  let b2 := if b1.st p i = sIsolated then b1.setSt p i sReset else if b1.st p i = sReset then b1 else b1.setSt p i sQuiescing
  b2.setSt p i sOff

/-- The end of a shutdown (R445 steps 4 and 5). -/
def Blk.shutEnd (b : Blk) : Blk :=
  let b1 := b.mapWrite b.boot.shutOk b.boot.shut.length
  let b2 := b1.each (b1.livePages.filter (fun x => !zeroSpares x.1)) (fun b x => b.shutOff x.1 x.2)
  let b3 := { b2 with boot := { b2.boot with shut := [], steps := [], spareInit := [] } }
  (((b3.wr R.BOOT_STATUS_PHASE 4).wr R.BOOT_USED 0).event .boot 19).stateEvents

/-! ## Decisions (R443) -/

/-- One step at a decision. -/
def Blk.stepTry (b : Blk) (x : BootStep) : Blk :=
  if x.st = 0 ∧ b.stepNeeds x ∧ b.bootUsed + stepRun x.row ≤ b.rd R.BOOT_BUDGET ∧ b.zoneCool (zoneSensors x.row x.unit) then b.startStep x else b

/-- A decision of the sequencer (R443): nothing starts in WARNING or LOWEST. Tests that wait start with it (R487). A shutdown whose last block a block reset took out of
its test ends here (R102, R445). -/
def Blk.bootDecide (b : Blk) : Blk :=
  if b.boot.stage < 5 ∨ b.boot.inWarm ∨ b.lid.zero.isSome ∨ 2 ≤ b.powerState then b
  else
    let b1 := if b.own = 3 then b else b.each b.boot.steps (fun b x => b.stepTry x)
    let b2 := b1.each b1.boot.shut (fun b x => b.shutTry x)
    let ws := b2.boot.waiting
    let b3 := ({ b2 with boot := { b2.boot with waiting := [] } }).each ws (fun b x =>
      match testPage x.kind x.inst with
      | some e => if b.st e.1 e.2 = sIsolated then (b.testStart x.kind x.inst).wr R.BOOT_BIST_STATUS_STATE 1 else b
      | none => b)
    if !b3.boot.shut.isEmpty ∧ b3.boot.shut.all (fun x => x.st == 2) then b3.shutEnd else b3.bootShow

/-- BOOT_DECISION (R443). -/
def execBootDecision (s : State) : Host.Outcome State Fault Refusal := cmd true s (fun b => b.bootDecide)

/-- The sequencer starts once the base stages have ended (R441–R443). -/
def Blk.sequence (b : Blk) : Blk :=
  let b1 := { b with boot := { b.boot with stage := 5 } }
  let b2 := b1.each basePages (fun b e => b.baseUp e.1 e.2)
  let b3 := (b2.each (setBits 8 b2.flash.failedNear) (fun b p => b.portFailed false p)).each (setBits 2 b2.flash.failedFar) (fun b f => b.portFailed true f)
  let b4 := { b3 with boot := { b3.boot with steps := b3.startSteps (b3.on R.BOOT_STATUS_FALLBACK) } }
  let b5 := { b4 with boot := { b4.boot with spareInit := [] } }
  b5.bootShow.bootDecide

/-- The end of stage 2 (R10, R447, R449): the record's population, 48 wales on each die, and whether the start is a fallback start. -/
def Blk.stage2End (b : Blk) : Blk :=
  let b1 := { b with boot := { b.boot with stage := 3 } }
  if b1.flash.hbms % 4096 ≠ 0xFFF ∨ b1.flash.packages % 65536 ≠ 0xFFFF ∨ [0, 1, 2, 3].any (fun d => decide ((b1.dieWales d).length < 48)) then b1.toSafe
  else
    let b2 := if b1.activatable 0 then b1.tryImage 0 1 else b1
    if b2.flash.cleanShutdown then b2.mapWrite false b2.flash.tested
    else (b2.wr R.BOOT_STATUS_FALLBACK 1).event .boot 20

/-- The end of stage 3 (R441, R454): at a warm start, the approved and pending images of its kinds start. -/
def Blk.stage3End (b : Blk) : Blk :=
  let b1 := { b with boot := { b.boot with stage := 4 } }
  if b1.on R.BOOT_STATUS_WARM then b1.each ([2, 3, 6, 7].filter b1.activatable) (fun b k => b.tryImage k 1) else b1

/-- BASE_STAGE_END (R441): a zeroisation that stage 2 or a warm start completes comes first (R77). -/
def execBaseStageEnd (s : State) : Host.Outcome State Fault Refusal :=
  cmd true s (fun b => b.when (b.own != 3 && b.lid.zero.isNone && !b.boot.inWarm && !b.boot.refHeld) (fun b =>
    match b.boot.stage with
    | 2 => b.stage2End
    | 3 => b.stage3End
    | 4 => b.sequence
    | _ => b))

/-- BASE_STAGE_TIMEOUT (R441). -/
def execBaseStageTimeout (s : State) : Host.Outcome State Fault Refusal :=
  cmd true s (fun b => b.when (decide (2 ≤ b.boot.stage) && decide (b.boot.stage < 5) && !b.boot.inWarm) (fun b => b.toSafe))

/-- The outcome of a step that fails (R449). A port step that reaches its limit has ended, not failed (R442). -/
def Blk.stepFailed (b : Blk) (x : BootStep) : Blk :=
  match x.row with
  | 0 => b.failBlock .hbm x.unit
  | 1 => b.failBlock .slow x.unit
  | 2 | 3 | 5 => b.failBlock .die x.unit
  | 4 => b.retireWale x.unit
  | 6 =>
    let b1 := if x.unit < 8 then b.portFailed false x.unit else b.portFailed true (x.unit - 8)
    { b1 with boot := { b1.boot with steps := b1.boot.steps.filter (fun y => !(if x.unit < 8 then y.row == 7 && y.unit == x.unit else y.row == 8 && y.unit == x.unit - 8)) } }
  | _ => b

/-- BOOT_STEP_END (R442, R443): a step's unit has ended, `us` after the end of stage 1; a decision follows. -/
def execBootStepEnd (row unit : Nat) (ok : Bool) (us : Nat) (s : State) : Host.Outcome State Fault Refusal :=
  cmd (decide (row < 9)) s (fun b =>
    match b.boot.steps.find? (fun x => x.row == row && x.unit == unit && x.st == 1) with
    | none => b
    | some x =>
      let b1 := b.stepSet x 2
      let b2 := if ok || row == 7 || row == 8 then b1.each (b1.stepPages x) (fun b e => b.leaveReset e.1 e.2.1) else b1.stepFailed x
      let b3 := if row = 5 then { b2 with boot := { b2.boot with isoBack := b2.boot.isoBack.filter (fun w => w / 50 != unit) } } else b2
      let b4 := if b3.own != 3 && b3.boot.steps.all (fun y => y.st == 2) then (b3.wr R.BOOT_TIME us).event .boot 16 else b3
      b4.bootShow.bootDecide)

/-! ## Warm reset and start (R437–R439, R455, R493) -/

/-- WARM_N (R439). -/
def execWarmN (s : State) : Host.Outcome State Fault Refusal := cmd true s (fun b => b.warmReset 4)

/-- WARM_START (R439, R441): the reset is released, unless a thermal trip holds it (R432); stage 2 is skipped. In SAFE only the management plane answers (R46). -/
def execWarmStart (s : State) : Host.Outcome State Fault Refusal :=
  cmd true s (fun b => b.when (b.boot.inWarm && !b.pwr.trip) (fun b =>
    (if b.own = 3 then { b with boot := { b.boot with inWarm := false, stage := 5 } } else { b with boot := { b.boot with inWarm := false, stage := 3 } }).bootShow))

/-- SENSOR_READING (R430–R432): a reading of 115 °C or more trips a warm reset. -/
def execSensorReading (k : Nat) (t : Int) (full : Bool) (s : State) : Host.Outcome State Fault Refusal :=
  cmd (decide (k < 256)) s (fun b =>
    let b1 := b.sensorRead k t full
    if b1.tripDue k t then ((b1.tripRecord k t).note .boot 7).warmReset 7 else b1)

/-- TRIP_RELEASE (R432). -/
def execTripRelease (s : State) : Host.Outcome State Fault Refusal :=
  cmd true s (fun b => b.when (b.pwr.trip && (List.range 256).all (fun k => !(b.sensor k).live
      || (match (b.sensor k).temp with | some t => decide (t ≤ 1520) | none => true))) (fun b => { b with pwr := { b.pwr with trip := false } }))

/-! ## Orderly shutdown (R445) -/

/-- The blocks of a shutdown in their order (R445): wales with spares, dies, ports, coders, bank apply units, the hoop, the border core. One that stands FAILED stays so
and is not tested. -/
def Blk.shutList (b : Blk) : List ShutBlk :=
  let l := fun (k : Nat) (u : List Nat) => u.map (fun i => ShutBlk.mk k i 0)
  let near := (List.range 8).filter (fun p => b.st .nlnk p != sFailed)
  let far := (List.range 2).filter (fun f => b.st .fmac f != sFailed)
  (l 0 ((List.range 200).filter (fun w => b.role w != 3)) ++ l 3 [0, 1, 2, 3] ++ l 1 near ++ l 2 far ++ l 4 (near ++ far.map (8 + ·)) ++ l 5 (List.range 12)
    ++ l 6 [0] ++ l 7 [0]).filter (fun x => match testPage x.kind x.inst with | some e => b.st e.1 e.2 != sFailed | none => true)

/-- The effect of BOOT_SHUTDOWN.GO and of the owner's command (R445): every block is asked to quiesce. -/
def Blk.shutdown (b : Blk) : Blk :=
  if b.boot.stage < 5 ∨ b.boot.inWarm ∨ !b.boot.shut.isEmpty ∨ b.rd R.BOOT_STATUS_PHASE = 4 ∨ b.lid.zero.isSome then b
  else
    let b1 := b.each (b.livePages.filter (fun x => !zeroSpares x.1)) (fun b x => b.quiesce x.1 x.2)
    ({ b1 with boot := { b1.boot with shut := b1.shutList, shutOk := true, steps := b1.boot.steps.filter (fun x => x.st != 0) } }).bootShow

/-- A block of a shutdown is done; the shutdown ends with the last. -/
def Blk.shutDone (b : Blk) (kind inst : Nat) (ok : Bool) : Blk :=
  if !b.boot.shut.any (fun x => x.kind == kind && x.inst == inst) then b
  else
    let l := b.boot.shut.map (fun x => if x.kind = kind ∧ x.inst = inst then { x with st := 2 } else x)
    let b1 := { b with boot := { b.boot with shut := l, shutOk := b.boot.shutOk && ok } }
    if l.all (fun x => x.st == 2) then b1.shutEnd else b1.bootShow.bootDecide

/-! ## BIST in service (R446, R451, R456, R457) -/

/-- BOOT_BIST_STATUS shows the outcome of its last command (R456). -/
def Blk.bistShow (b : Blk) (kind inst st : Nat) : Blk :=
  if b.rd R.BOOT_BIST_STATUS_KIND = kind ∧ b.rd R.BOOT_BIST_STATUS_INSTANCE = inst then b.wr R.BOOT_BIST_STATUS_STATE st else b

/-- Whether a block of a command's kind and instance stands in a state. -/
def Blk.testAt (b : Blk) (kind inst st : Nat) : Bool :=
  match testPage kind inst with | some e => pageOk e.1 e.2 && b.st e.1 e.2 == st | none => false

/-- A BOOT_BIST_CMD (R451, R455, R456, R487): a test of an isolated wale or port, which waits in WARNING and LOWEST, or the retirement of a wale. -/
def Blk.bistCmd (b : Blk) (action kind inst : Nat) : Blk :=
  if kind ≥ 3 ∨ action = 0 ∨ action ≥ 3 then b
  else
    let b1 := ((b.wr R.BOOT_BIST_STATUS_KIND kind).wr R.BOOT_BIST_STATUS_INSTANCE inst).wr R.BOOT_BIST_STATUS_STATE 0
    if action = 1 then
      if !b1.testAt kind inst sIsolated then b1.wr R.BOOT_BIST_STATUS_STATE 4
      else if 2 ≤ b1.powerState then { b1 with boot := { b1.boot with waiting := b1.boot.waiting ++ [Bist.mk kind inst false] } }
      else (b1.testStart kind inst).wr R.BOOT_BIST_STATUS_STATE 1
    else if kind = 0 ∧ (b1.testAt 0 inst sIsolated ∨ b1.testAt 0 inst sFailed) then b1.retireWale inst
    else b1.wr R.BOOT_BIST_STATUS_STATE 4

/-- A test of a block has its result (R97, R445, R449, R451): a pass leads to ISOLATED with zeroed SRAM; a wale that fails is retired, another block is FAILED with the
outcome of R449. -/
def Blk.testResult (b : Blk) (kind inst : Nat) (passed : Bool) : Blk :=
  let b1 := match testPage kind inst with
    | none => if passed then b else b.toSafe
    | some e => if passed then b.setSt e.1 e.2 sIsolated else if kind = 0 then b else b.failBlock e.1 e.2
  if kind = 0 then
    let b1 := b1.wr R.WALE_STATUS_LAST_PASS (b2n passed) inst
    let b2 := (if b.boot.shut.isEmpty then b1.inc R.WALE_TEST_CNT inst else b1).event .wale 16 inst
    if passed then b2.waleZero inst else b2.retireWale inst
  else b1

/-- BIST_COMPLETE (R446): a result out of conditions is repeated once, then discarded. -/
def execBistComplete (kind inst : Nat) (passed inRange : Bool) (s : State) : Host.Outcome State Fault Refusal :=
  cmd (decide (kind < 8)) s (fun b =>
    match b.boot.tests.find? (fun t => t.kind == kind && t.inst == inst) with
    | none => b
    | some t =>
      if !inRange && !t.again then { b with boot := { b.boot with tests := b.boot.tests.map (fun y => if y = t then { y with again := true } else y) } }
      else
        let b1 := { b with boot := { b.boot with tests := b.boot.tests.filter (fun y => y != t) } }
        if !inRange then
          let b2 := match testPage kind inst with | some e => b1.setSt e.1 e.2 sIsolated | none => b1
          ((b2.bistShow kind inst 5).event .boot 17).shutDone kind inst false
        else (((b1.testResult kind inst passed).bistShow kind inst (if passed then 2 else 3)).event .boot 17).shutDone kind inst true)

/-! ## Port firmware (R452) -/

/-- The port retrains with its partner under a newly loaded image. -/
def Blk.portRetrain (b : Blk) (kind k : Nat) : Blk :=
  if kind = 4 then (if b.on R.NLNK_CTRL_TRAIN k then b.trainStart k else b)
  else
    let b1 := (b.wr R.FMAC_STATUS_LANES 0 k).wr R.FMAC_STATUS_LINK 0 k
    if b.on R.FMAC_STATUS_LINK k then b1.event .fmac 17 k else b1

/-- The page of a port that an image kind runs on. -/
def imagePage (kind : Nat) : Page := if kind = 4 then .nlnk else .fmac

/-- Whether a port has drained, so that its image can be changed (R452). -/
def Blk.portQuiet (b : Blk) (kind k : Nat) : Bool := if kind = 4 then b.idleAt .nlnk k && b.idleAt .ncod k else b.idleAt .fxp k && b.idleAt .fcod k

/-- The lid quiesces a port to READY and lets it serve again under the image loaded there (R452). -/
def Blk.portCycle (b : Blk) (kind k : Nat) : Blk :=
  let p := imagePage kind
  if b.serving p k then ((b.setSt p k sQuiescing).setSt p k sReady).setSt p k sServing else b

/-- The ports of an image kind in ascending order, without the failed ones. -/
def Blk.imagePorts (b : Blk) (kind : Nat) : List Nat :=
  if kind = 4 then (List.range 8).filter (fun p => b.st .nlnk p != sFailed) else (List.range 2).filter (fun f => b.st .fmac f != sFailed)

/-- Whether the training of a port has ended. -/
def Blk.portSettled (b : Blk) (kind k : Nat) : Bool := if kind = 4 then (b.nport k).step == 0 else true

/-- PORT_FW_ACTIVATE (R452): with `ok` the next port, in ascending order, once it has drained and the port before it has retrained, takes the approved image in READY
and retrains; otherwise a training
failed under the image, and the ports that took it go back to the previous one. -/
def execPortFwActivate (kind : Nat) (ok : Bool) (s : State) : Host.Outcome State Fault Refusal :=
  cmd (kind == 4 || kind == 5) s (fun b =>
    let n := SMap.get 0 b.lid.trying kind
    let l := b.imagePorts kind
    if ok then
      b.when (b.activatable kind && b.boot.stage == 5 && !b.boot.inWarm && b.own != 3 && (l.take n).all (fun k => b.portSettled kind k)) (fun b =>
        match l[n]? with
        | some k => b.when (b.portQuiet kind k) (fun b => ((b.tryImage kind (n + 1)).portCycle kind k).portRetrain kind k)
        | none => b)
    else b.when (decide (0 < n)) (fun b => ((b.tryImage kind 0).each (l.take n) (fun b k => b.portRetrain kind k)).event .boot 21))

/-! ## The events of blocks (R97–R99, R127, R505) -/

/-- Whether blocks run at all: not in a warm reset, and not while a zeroisation holds them in reset (R76, R439). -/
def Blk.blocksRun (b : Blk) : Bool := !b.boot.inWarm && !b.boot.refHeld

/-- BLOCK_INIT_DONE (R97, R505). -/
def execBlockInitDone (pg : Page) (i : Nat) (s : State) : Host.Outcome State Fault Refusal :=
  cmd (pageOk pg i) s (fun b => b.when (b.blocksRun && b.lid.zero.isNone) (fun b => b.initDone pg i))

/-- BLOCK_INIT_TIMEOUT (R97, R505). -/
def execBlockInitTimeout (pg : Page) (i : Nat) (s : State) : Host.Outcome State Fault Refusal :=
  cmd (pageOk pg i) s (fun b => b.when (b.st pg i == sReset && b.blocksRun && b.lid.zero.isNone) (fun b => b.failBlock pg i))

/-- BLOCK_DRAINED (R97). -/
def execBlockDrained (pg : Page) (i : Nat) (s : State) : Host.Outcome State Fault Refusal :=
  cmd (pageOk pg i) s (fun b => b.when (b.st pg i == sQuiescing && b.idleAt pg i) (fun b => b.drainedTo pg i))

/-- QUIESCE_TIMEOUT (R97, R99). A block that a shutdown drains goes on to its isolation, which is then a forced one (R445; log entry 40). -/
def execQuiesceTimeout (pg : Page) (i : Nat) (s : State) : Host.Outcome State Fault Refusal :=
  cmd (pageOk pg i) s (fun b => b.when (b.st pg i == sQuiescing) (fun b =>
    if b.on (R.PG_CTRL_ISOLATE pg) i || (!b.boot.shut.isEmpty && !zeroSpares pg) then
      ((b.wr (R.PG_CTRL_ISOLATE pg) 1 i).denyRings pg i |>.dropBlock pg i).isolated pg i true
    else b.raise pg i 4))

/-- BLOCK_SELF_CHECK_FAIL (R45, R97, R449). -/
def execBlockSelfCheckFail (pg : Page) (i : Nat) (s : State) : Host.Outcome State Fault Refusal :=
  cmd (pageOk pg i) s (fun b => b.when (b.st pg i != sFailed) (fun b => b.failBlock pg i))

/-- The clock domains (R122). -/
inductive Clock where
  | arith (d : Nat) | mesh (d : Nat) | sram (d : Nat) | hbm (n : Nat) | slow (c : Nat) | near (p : Nat) | far (f : Nat) | hoop | rakline | security | always
  deriving DecidableEq, Repr

/-- A domain's code (R122). -/
def Clock.code : Clock → Nat
  | .arith d => d | .mesh d => 0x04 + d | .sram d => 0x08 + d | .hbm n => 0x0C + n | .slow c => 0x18 + c | .near p => 0x1A + p | .far f => 0x22 + f
  | .hoop => 0x24 | .rakline => 0x25 | .security => 0x26 | .always => 0x27

/-- The 40 domains (R122). -/
def Clock.all : List Clock :=
  (List.range 4).map .arith ++ (List.range 4).map .mesh ++ (List.range 4).map .sram ++ (List.range 12).map .hbm ++ (List.range 2).map .slow
    ++ (List.range 8).map .near ++ (List.range 2).map .far ++ [.hoop, .rakline, .security, .always]

/-- The domains that a page's block runs in. R122 names each domain's block; the spec does not place every page, and those are placed by what they work on
(log entry 63). -/
def pageClocks : Page → Nat → List Clock
  | .stake, s => [.arith (s / 1600), .mesh (s / 1600), .sram (s / 1600)]
  | .wale, w | .sched, w | .row, w | .wxlt, w | .sum, w => [.mesh (w / 50), .sram (w / 50)]
  | .die, d => [.arith d, .mesh d, .sram d]
  | .d2d, k => [.mesh (k / 4)]
  | .hbm, n => [.hbm n]
  | .bank, n => [.hbm n, .sram (n / 3)]
  | .slow, c => [.slow c]
  | .nlnk, p | .nred, p | .ncod, p => [.near p, .mesh (p / 2)]
  | .fmac, f | .fxp, f | .fcod, f => [.far f]
  | .nkey, _ | .fkey, _ | .lid, _ => [.security]
  | .hoop, _ | .hoopg, _ => [.hoop]
  | .rak, _ => [.rakline]
  | .loss, _ | .dig, _ | .xlt, _ => [.mesh 0]
  | .mod, _ | .pwc, _ | .beat, _ | .boot, _ | .tel, _ | .mgmt, _ => [.always]

/-- CDC_TIMEOUT (R127, R128): the block on the live side, which runs in the live domain, records the stopped domain and its own, and fails; crossings into a block in
OFF, RESET, ISOLATED or FAILED are closed. -/
def execCdcTimeout (p : Page) (i : Nat) (stopped : Nat) (live : Nat) (s : State) : Host.Outcome State Fault Refusal :=
  cmd (pageOk p i && decide (stopped < 40) && decide (live < 40)) s (fun b =>
    b.when (live != stopped && (pageClocks p i).any (fun c => c.code == live) && !([sOff, sReset, sIsolated, sFailed] : List Nat).contains (b.st p i)) (fun b => (b.error p i { cls := eCdc, info0 := stopped + 256 * live }).failBlock p i))

/-! ## Dies (R39–R41) -/

/-- D2D_LANE_REPAIR (R41): a lane of the link from die `d` to die `q` is replaced by a redundant one. -/
def execD2dLaneRepair (d q : Nat) (s : State) : Host.Outcome State Fault Refusal :=
  cmd (decide (d < 4) && decide (q < 4) && d != q) s (fun b => b.when (b.rd R.D2D_STATUS_LINK (4 * d + q) != 0) (fun b =>
    (b.inc R.D2D_STATUS_REPAIRED (4 * d + q)).event .d2d 16 (4 * d + q)))

/-- D2D_LINK_FAIL (R39, R449): both ends of the link, and SAFE. -/
def execD2dLinkFail (d q : Nat) (s : State) : Host.Outcome State Fault Refusal :=
  cmd (decide (d < 4) && decide (q < 4) && d != q) s (fun b =>
    [4 * d + q, 4 * q + d].foldl (fun (b : Blk) k => ((b.wr R.D2D_STATUS_LINK 0 k).event .d2d 17 k).failBlock .d2d k) b)

/-- DIE_PLL_UNLOCK (R40): PLL 0 stake arithmetic, 1 mesh, 2 SRAM. -/
def execDiePllUnlock (d pll : Nat) (s : State) : Host.Outcome State Fault Refusal :=
  cmd (decide (d < 4) && decide (pll < 3)) s (fun b =>
    let f := match pll with | 0 => R.DIE_STATUS_ARITH_LOCK | 1 => R.DIE_STATUS_MESH_LOCK | _ => R.DIE_STATUS_SRAM_LOCK
    ((b.wr f 0 d).event .die 16 d).failBlock .die d)

/-! ## The tick (R106–R108) -/

/-- BEAT_TICK (R108): the timer, the division of the cap, the deadlines, the schedulers. -/
def execBeatTick (m : TickMeasure) (s : State) : Host.Outcome State Fault Refusal :=
  cmd true s (fun b => b.when b.beat.running (fun b =>
    ((b.tickTimer.pwcTick m).tickBorder.tickDigest).each (List.range 200) (fun b w => b.tickWale w)))

end Sys2Proof.Machine
end

