-- ==== Sys2Proof/Machine/Regs.lean ====
section
/-! DEFINITION. Register accesses (R81–R95): what a read shows, what a write stores, and what a write sets going. -/

namespace Sys2Proof.Machine

/-! ## What fields show -/

/-- How many of a list meet a condition. -/
def countOf {α : Type} (l : List α) (p : α → Bool) : Nat := (l.filter p).length

/-- STAKE page fields that threads and queues back (R171). -/
def Blk.stakeView (b : Blk) (s off lo : Nat) : Option Nat :=
  if off = 0x044 then
    match lo with
    | 0 => some (b.credits s .mat) | 4 => some (b.credits s .vec) | 8 => some (b.credits s .row) | 9 => some (b.credits s .dma)
    | 11 => some (b.credits s .sum) | _ => some (b.sbRes s)
  else if 0x080 ≤ off ∧ off < 0x100 then
    let th := b.thread ⟨s, (off - 0x080) / 16⟩
    match off % 16, lo with
    | 0, 0 => some th.st
    | 0, _ => some (b2n th.member)
    | 4, _ => some th.pc
    | 8, 0 => some (maskOf (th.pendingIn allSlots))
    | 8, _ => some (maskOf ((List.range 16).filter (fun i => (th.tok i).err != 0)))
    | _, 0 => some th.fCls
    | _, 8 => some th.fDet
    | _, _ => some th.fSlot
  else if 0x800 ≤ off then
    let v := (b.thread ⟨s, (off - 0x800) / 256⟩).reg ((off - 0x800) % 256 / 8)
    some (if off % 8 = 0 then v % 2 ^ 32 else v / 2 ^ 32)
  else none

/-- SCHED page fields that the wale's queues, threads and barriers back (R169, R170). -/
def Blk.schedView (b : Blk) (w off lo : Nat) : Option Nat :=
  if off = 0x068 then (match lo with | 0 => some (b.sbUsed w) | 16 => some (b.sbShared w) | 31 => some 0 | _ => none)
  else if off = 0x06C then
    (match lo with | 0 => some (b.wale w).rowQ.length | 8 => some (b.wale w).dmaQ.length | _ => some (b.wale w).sumQ.length)
  else if off = 0x070 then
    some (maskOf ((List.range 32).filter (fun j => (List.range 8).any (fun t => (b.thread ⟨32 * w + j, t⟩).st == tFault))))
  else if off = 0x074 then some (b.members w).length
  else if 0x080 ≤ off ∧ off < 0x0C0 then
    let k := (off - 0x080) / 4
    some (if lo = 0 then b.barCount w k else (b.atBar w k).length)
  else none

/-- BOOT page fields that the roles of the wales back (R450, R456). -/
def Blk.bootView (b : Blk) (off lo : Nat) : Option Nat :=
  let word := fun (base : Nat) (p : Nat → Bool) =>
    let d := (off - base) / 8
    let k := (off - base) % 8 / 4
    maskOf ((List.range 32).filter (fun i => decide (32 * k + i < 50) && p (50 * d + 32 * k + i)))
  if off = 0x064 then
    some (if lo = 0 then ([0, 1, 2, 3].map (fun d => countOf ((List.range 50).map (50 * d + ·)) (fun w => b.role w == 1) % 4 * 4 ^ d)).foldl (· + ·) 0
      else countOf (List.range 200) (fun w => b.role w == 3))
  else if 0x080 ≤ off ∧ off < 0x0A0 then some (word 0x080 b.waleOn)
  else if 0x0A0 ≤ off ∧ off < 0x0C0 then some (word 0x0A0 (fun w => b.role w == 3))
  else none

/-- FXP's window on the peer of FXP_PEER_SEL (R410). -/
def Blk.fxpView (b : Blk) (f off : Nat) : Option Nat :=
  let y := (b.fpeer (b.rd R.FXP_PEER_SEL)).route f
  match off with
  | 0x0AC => some y.st
  | 0x0B0 => some y.srttNs
  | 0x0B4 => some y.rttvarNs
  | 0x0B8 => some y.rtoNs
  | _ => none

/-- Header fields that the map and the ownership state back (R86, R96, R105). -/
def Blk.headerView (b : Blk) (p : Page) (i off lo : Nat) : Option Nat :=
  match off with
  | 0x000 => some (if lo = 0 then i else pageType p)
  | 0x004 => some (bits (Config.pgVersion p.idx i) lo 8)
  | 0x008 => some (bits (b.pgAccess p i) lo 8)
  | 0x010 => if p = .wale ∧ !b.waleOn i then some (if lo = 0 then (if b.role i = 3 then sFailed else sOff) else 0) else none
  | _ => none

/-- A field that other state backs. -/
def Blk.view (b : Blk) (p : Page) (i off lo : Nat) : Option Nat :=
  if off < 0x040 then b.headerView p i off lo
  else match p with
    | .stake => b.stakeView i off lo
    | .sched => b.schedView i off lo
    | .boot => b.bootView off lo
    | .fxp => b.fxpView i off
    | .sum =>
      if off = 0x040 then some (b.wale i).post.length
      else if 0x800 ≤ off then
        let v := b.slot i ((off - 0x800) / 8)
        some (if off % 8 = 0 then v % 2 ^ 32 else v / 2 ^ 32)
      else none
    | .wxlt =>
      let l := (List.range 64).filterMap (fun k => b.stream (64 * i + k))
      match off, lo with
      | 0x050, 0 => some (b.walksOf i).length
      | 0x050, _ => some (b.xl i).leafs.length
      | 0x054, 0 => some l.length
      | 0x054, _ => some (countOf l (fun y => y.st == .susp))
      | _, _ => none
    | .dig =>
      let x := b.shardSt (b.rd R.DIG_SEL)
      match off, lo with
      | 0x058, 0 => some x.state
      | 0x058, _ => some x.step
      | 0x05C, _ => some (x.digest % 2 ^ 32)
      | 0x060, _ => some (x.digest / 2 ^ 32)
      | _, _ => none
    | .lid =>
      match off with
      | 0x044 => some b.flash.epoch
      | 0x06C => some (if b.lid.fwShown then maskOf ((List.range 8).filter (fun k => (SMap.get none b.lid.staged k).isSome)) else 0)
      | 0x084 => some b.flash.boots
      | _ => none
    | .hoopg => if off = 0x040 then some (maskOf (b.groupCores i)) else none
    | .wale => if off = 0x040 ∧ lo = 0 then some (b.role i) else none
    | .hbm => if off = 0x040 ∧ lo = 3 then some (b2n (bit b.flash.hbms i)) else none
    | .slow => if off = 0x040 ∧ lo = 3 then some (b2n (bits b.flash.packages (8 * i) 8 == 0xFF)) else none
    | .die =>
      match off, lo with
      | 0x040, 3 => some (b2n (([0, 1, 2, 3].filter (· != i)).all (fun q => b.rd R.D2D_STATUS_LINK (4 * i + q) == 2)))
      | 0x040, 8 => some (countOf ((List.range 50).map (50 * i + ·)) (fun w => b.serving .wale w))
      | _, _ => none
    | .ncod =>
      match off, lo with
      | 0x040, 0 => some (if b.lvGranted (.coder (2 * i)) then 32 else 0)
      | 0x040, 8 => some (if b.lvGranted (.coder (2 * i + 1)) then 32 else 0)
      | _, _ => none
    | .fcod =>
      match off, lo with
      | 0x040, 0 => some (if b.lvGranted (fcodReq i false) then 32 else 0)
      | 0x040, 8 => some (if b.lvGranted (fcodReq i true) then 32 else 0)
      | _, _ => none
    | .fmac => match off with | 0x048 => some (macOf i % 2 ^ 32) | 0x04C => some (macOf i / 2 ^ 32) | _ => none
    | _ => none

/-- What a field holds, whether stored or backed by other state. -/
def Blk.now (b : Blk) (f : Fld) (i : Nat) : Nat := (match b.view f.page i f.off f.lo with | some v => v | none => b.rd f i) % 2 ^ f.w

/-- Whether a class may read a field (R72, R73, R93): its narrowed readers, and what P never sees of an error. -/
def fieldRead (f : Fld) (cls : Nat) : Bool :=
  f.acc != .wo && (f.rd &&& cls != 0)
    && !(cls == clsP && ((f.off == 0x01C && f.lo == 8) || f.off == 0x020 || f.off == 0x024 || f.off == 0x028))

/-- The word that a class reads at an offset. -/
def Blk.regWord (b : Blk) (cls : Nat) (p : Page) (i off : Nat) : Nat :=
  let v := ((pageFields p i off).map (fun f => if fieldRead f cls then b.now f i * 2 ^ f.lo else 0)).foldl (· + ·) 0
  if off = 0x014 then v &&& eventMask cls p else v

/-! ## Pairs (R85) -/

/-- The `_LO` register of a pair at an offset (R5), with whether it is a read-write pair: the listed ones, the slots of SUM and the registers of STAKE. -/
def pairLo (p : Page) (off : Nat) : Bool :=
  (pairLos p).contains off || (p == .sum && decide (0x800 ≤ off) && off % 8 == 0) || (p == .stake && decide (0x800 ≤ off) && off % 8 == 0)

/-- Whether a read-write pair begins at an offset. -/
def rwPair (p : Page) (i off : Nat) : Bool :=
  if p = .stake then decide (0x800 ≤ off) && off % 8 == 0
  else (rwPairs p).contains off && !(p == .hoopg && off == 0x080 && i != 0)

/-- Whether a thread's registers and PC may be reached now (R162): offsets of the STAKE page. -/
def Blk.threadShut (b : Blk) (p : Page) (i off : Nat) : Bool :=
  p == .stake &&
    (if 0x800 ≤ off then !(b.thread ⟨i, (off - 0x800) / 256⟩).open
     else decide (0x080 ≤ off) && decide (off < 0x100) && off % 16 == 4 && !(b.thread ⟨i, (off - 0x080) / 16⟩).open)

/-! ## Denial (R95) -/

/-- The module's record of a denied access, and the logs (R95). -/
def Blk.noteDenied (b : Blk) (cls off : Nat) : Blk :=
  let b := (b.inc R.MOD_DENIED_CNT).wr R.MOD_DENIED_LAST_CLASS cls
  (b.wr R.MOD_DENIED_LAST_PAGE (off / 4096)).log (pageType .mod) 0 { cls := eDenied }

/-! ## Reads -/

/-- Whether the wale of a page is not enabled (R84). -/
def Blk.waleGone (b : Blk) (p : Page) (i : Nat) : Bool := match pageWale p i with | some w => !b.waleOn w | none => false

/-- A half kept for an initiator. -/
def Blk.setLatch (b : Blk) (k : Nat) (v : Option Nat) : Blk := { b with io := { b.io with latch := SMap.set none b.io.latch k v } }
def Blk.setStage (b : Blk) (k : Nat) (v : Option Nat) : Blk := { b with io := { b.io with stage := SMap.set none b.io.stage k v } }

/-- A read of a page that the class may read: pairs latch their `_HI` (R85), SUM_POST_LO pops (R173). -/
def Blk.pageRead (b : Blk) (ini : Ini) (cls : Nat) (p : Page) (i off : Nat) : Blk × Nat :=
  if p = .sum ∧ off = 0x044 then
    let r := b.postPop i
    ((r.2.wr R.SUM_POST_HI (r.1 / 2 ^ 32) i).setLatch (pairKey ini p i 0x048) (some (r.1 / 2 ^ 32)), r.1 % 2 ^ 32)
  else if pairLo p off then (b.setLatch (pairKey ini p i (off + 4)) (some (b.regWord cls p i (off + 4))), b.regWord cls p i off)
  else
    match SMap.get none b.io.latch (pairKey ini p i off) with
    | some v => (b.setLatch (pairKey ini p i off) none, v)
    | none => (b, b.regWord cls p i off)

/-- A register read at a window offset (R82, R84, R94): the data and the error class. The refusals of R82 and R84 are not counted in MOD_DENIED_CNT, nor logged
(log entry 52). -/
def Blk.regRead (b : Blk) (ini : Ini) (off : Nat) : Blk × Nat × Nat :=
  let cls := b.iniClass ini
  if off % 4 ≠ 0 then (b, 0, eDenied)
  else match pageAt (off / 4096 * 4096) with
    | none => (b, 0, eDenied)
    | some (p, i) =>
      if b.waleGone p i && p != .wale then (b, 0, eDenied)
      else if !b.mayRead cls p i then (b.noteDenied cls off, 0, eDenied)
      else if b.threadShut p i (off % 4096) then (b, 0, eDenied)
      else ((b.pageRead ini cls p i (off % 4096)).1, (b.pageRead ini cls p i (off % 4096)).2, 0)

/-! ## What a write stores -/

/-- Whether a GET counter of width `w` may move to `v` (R71, R259, R397, R459): not past PUT. A GET that would move back lies past PUT on the ring of counts, and is
ignored alike (log entry 53). -/
def getOk (w put get v : Nat) : Bool := decide (ringUsed w v get ≤ ringUsed w put get)

/-- What a field takes from a written value, or nothing where the write leaves it as it is (R6, R87, and each field's Meaning). -/
def Blk.taken (b : Blk) (cls : Nat) (p : Page) (i : Nat) (f : Fld) (v : Nat) : Option Nat :=
  let old := b.rd f i
  if f.acc = .rwl ∧ b.on (R.PG_LOCK p) i then none
  else if f.off = 0x038 then (if v = 0 then (if cls = clsV then some 0 else none) else if cls = clsO then some v else none)
  else if p = .lid ∧ f.off = 0x05C ∧ v = 0 then none
  else if p = .lid ∧ f.off = 0x08C ∧ !getOk 32 (b.rd R.LID_LOG_PUT) old v then none
  else if p = .xlt ∧ f.off = 0x048 ∧ v = 0 then none
  else if p = .xlt ∧ f.off = 0x06C ∧ !getOk 32 (b.rd R.XLT_FQ_PUT) old v then none
  else if p = .hoopg ∧ f.off = 0x074 ∧ !getOk 16 (b.rd R.HOOP_G_CQ_PUT i) old v then none
  else if p = .hoopg ∧ f.off = 0x090 ∧ !getOk 32 (b.rd R.HOOP_G_FQ_PUT i) old v then none
  else if p = .hoopg ∧ f.off = 0x0B4 ∧ !getOk 16 (b.rd R.HOOP_G_EVT_PUT i) old v then none
  else if p = .fxp ∧ f.off = 0x07C ∧ !getOk 16 (b.rd R.FXP_CQ_PUT) old v then none
  else if p = .fxp ∧ f.off = 0x04C ∧ !b.on R.FXP_CTRL_JOIN then none
  else if p = .nred ∧ f.off = 0x080 then none
  else if p = .bank ∧ f.off = 0x084 ∧ v = 3 then some 0
  else if p = .hoop ∧ f.off < 0x050 then (if v ≤ 4 ∨ v = 7 then some v else none)
  else match f.clamp, f.openR with
    | some (lo, hi), _ => some (min hi (max lo v))
    | none, some (lo, hi) => if v < lo ∨ hi < v then some (Config.openField (pageType p) f.off f.lo i old v) else some v
    | none, none => some v

/-- One field of a write (R6). PG_CTRL.BLOCK_RESET reads 0 once the block is in RESET (R86), FXP_CTRL.JOIN reads 1 while the join lasts (R410), ROW_SIDE_CLR.START
is ignored while a clear runs (R232), and the claim window's and the parked cores' bits follow their own Meanings. -/
def Blk.fieldWrite (b : Blk) (cls : Nat) (p : Page) (i : Nat) (f : Fld) (v : Nat) : Blk :=
  match f.acc with
  | .rw | .rwl => match b.taken cls p i f v with | some x => b.wr f x i | none => b
  | .w1c => b.clrBits f v i
  | .w1s =>
    if f.off = 0x00C ∨ (p = .fxp ∧ f.off = 0x040) ∨ (p = .row ∧ f.off = 0x05C ∧ b.on R.ROW_SIDE_CLR_BUSY_CLR i) then b
    else if p = .hoopg ∧ f.off = 0x044 then b.orBits f (v &&& maskOf (b.groupCores i)) i
    else b.orBits f v i
  | .ro | .wo => b

/-- The fields that a write of a word at an offset stores; of the two sizes of FXP_STORE_GIB neither, where they pass 48 GiB together (R410). -/
def Blk.wordWrite (b : Blk) (cls : Nat) (p : Page) (i off v : Nat) : Blk :=
  if p = .fxp ∧ off = 0x088 ∧ bits v 0 8 + bits v 8 8 > 48 then b
  else if p = .sched ∧ off = 0x048 ∧ 2 ^ b.rd R.SCHED_WL_SIZE i < ringUsed 16 (v % 65536) (b.rd R.SCHED_WL_GET i) then b.event .sched 17 i
  else if p = .stake ∧ 0x080 ≤ off ∧ off < 0x100 ∧ off % 16 = 4 then
    let t : Tid := ⟨i, (off - 0x080) / 16⟩
    b.setThread t { b.thread t with pc := v }
  else (pageFields p i off).foldl (fun (b : Blk) f => b.fieldWrite cls p i f (bits v f.lo f.w)) b

/-- Whether a write would act through a field (R93): it would change the value of an RW or RW-L field, a bound or an ignored value counted as what the field takes,
or writes 1 to a W1S or W1C bit. -/
def Blk.acts (b : Blk) (cls : Nat) (p : Page) (i : Nat) (f : Fld) (v : Nat) : Bool :=
  match f.acc with
  | .rw | .rwl => match b.taken cls p i f v with | some x => x % 2 ^ f.w != b.now f i | none => false
  | .w1s | .w1c | .wo => v != 0
  | .ro => false

/-- Whether a field that the write would act through names other writers (R93). -/
def Blk.narrowed (b : Blk) (cls : Nat) (p : Page) (i off v : Nat) : Bool :=
  (pageFields p i off).any (fun f => (f.wr &&& cls == 0) && b.acts cls p i f (bits v f.lo f.w))

/-! ## What a write sets going -/

/-- PG_CTRL and PG_EVENT of any page (R86, R97, R101). -/
def Blk.headerAfter (b : Blk) (p : Page) (i off v : Nat) : Blk :=
  match off with
  | 0x00C => if bit v 3 then b.blockReset p i else b.ctrlStep p i
  | 0x014 =>
    if bit v 1 then
      [R.PG_ERR_FIRST_CLASS p, R.PG_ERR_FIRST_STEP p, R.PG_ERR_INFO0 p, R.PG_ERR_INFO1 p, R.PG_ERR_INFO2 p, R.PG_ERR_INFO3_MORE p,
        R.PG_ERR_INFO3_LAST p].foldl (fun (b : Blk) f => b.wr f 0 i) b
    else b
  | _ => b

/-- LID registers (R78). Rekey of domain 0 is ignored. -/
def Blk.lidAfter (b : Blk) (off v : Nat) : Blk :=
  match off with
  | 0x048 => if bit v 0 then b.claimArm else b
  | 0x050 => if bit v 0 then b.forceClear else b
  | 0x058 => b.clrBits R.LID_DOMAIN_REKEY 1
  | 0x064 => ({ b with lid := { b.lid with logBroken := false } }).logDrain 65
  | 0x078 => if bit v 0 then b.wr R.LID_OWN_STATE_DEBUG_SCOPE 0 else b
  | 0x08C => b.logDrain 65
  | _ => b

/-- BEAT registers (R107, R115, R117, R121): SYNC_EN acts at once, the rest from the next tick. -/
def Blk.beatAfter (b0 b : Blk) (off : Nat) : Blk :=
  if off = R.BEAT_CTRL_SYNC_EN.off then b.syncEnable (b0.on R.BEAT_CTRL_SYNC_EN) (b.on R.BEAT_CTRL_SYNC_EN) else b

/-- BOOT registers (R439, R445, R456). -/
def Blk.bootAfter (b : Blk) (off v : Nat) : Blk :=
  match off with
  | 0x054 => if bit v 0 then b.warmReset 5 else b
  | 0x058 => if bit v 0 then b.shutdown else b
  | 0x05C => b.bistCmd (bits v 0 2) (bits v 8 2) (bits v 16 16)
  | _ => b

/-- A core leaves or enters a group through HOOP_CORE_GROUP (R453, R458): a core given to STANDBY is remembered with its group. -/
def Blk.coreMoved (b0 b : Blk) (c : Nat) : Blk :=
  let old := b0.coreGroup c
  let new := b.coreGroup c
  if old = new then b
  else
    let b1 := if old ≤ 3 then b.clrBits R.HOOP_G_PARKED (2 ^ c) old else b
    let b2 := b1.each [1, 2, 3] (fun b g => b.clrBits R.HOOP_G_RETURNED (2 ^ c) g)
    let given := b2.hoop.given.filter (fun e => e.1 != c)
    { b2 with hoop := { b2.hoop with given := if new = 4 ∧ 1 ≤ old ∧ old ≤ 3 then given ++ [(c, old)] else given } }

/-- HOOP_MIGRATE.GO (R453): the cores that the groups gave run the new image as incoming members of group 0. -/
def Blk.migrateGo (b : Blk) : Blk :=
  if b.on R.HOOP_MIGRATE_BUSY ∨ !b.activatable 1 ∨ b.hoop.given.length ≠ (b.groupCores 0).length ∨ b.hoop.given = [] then b
  else
    let new := b.hoop.given.map (·.1)
    let b1 := ({ b with hoop := { b.hoop with incoming := new } }).each new (fun b c => b.wr (coreGroupFld c) 0)
    (b1.tryImage 1 1).wr R.HOOP_MIGRATE_BUSY 1

/-- HOOP_G_CLAIM (R453): returned cores join the group. -/
def Blk.claimCores (b : Blk) (g v : Nat) : Blk :=
  b.each ((List.range 32).filter (fun c => bit v c && bit (b.rd R.HOOP_G_RETURNED g) c)) (fun b c =>
    (b.wr (coreGroupFld c) g).clrBits R.HOOP_G_RETURNED (2 ^ c) g)

/-- HOOP group registers (R459, R460). -/
def Blk.hoopgAfter (b0 b : Blk) (g off v : Nat) : Blk :=
  match off with
  | 0x04C => b.claimCores g v
  | 0x05C =>
    let old := b0.rd R.HOOP_G_DQ_PUT g
    (Blk.doorbellGo g (ringUsed 16 (v % 65536) old) old b).passRefused g 65536
  | 0x074 => b.cqDrain g (b.hoopD g).held.length
  | 0x084 => if g = 0 then (b.setFqBroken true false).fqDrain true (b.xlt.held.length + 1) else b
  | 0x090 => if g = 0 then b.fqDrain true (b.xlt.held.length + 1) else b
  | 0x0B4 => b.evtDrain g ((b.evtQueue g).length + 1)
  | _ => b

/-- XLT registers (R245, R259, R261, R263). -/
def Blk.xltAfter (b : Blk) (off v : Nat) : Blk :=
  match off with
  | 0x054 => b.inval (bits v 0 2) (bits v 8 24)
  | 0x060 => (b.setFqBroken false false).fqDrain false (b.xlt.held.length + 1)
  | 0x06C => b.fqDrain false (b.xlt.held.length + 1)
  | 0x074 => b.xltFaultCmd (bits v 0 3) (bits v 4 4) (bits v 16 15)
  | _ => b

/-- BANK registers (R272, R276, R291, R293). -/
def Blk.bankAfter (b0 b : Blk) (n off v : Nat) : Blk :=
  match off with
  | 0x054 =>
    let b1 := if bit v 1 then b.wr R.BANK_REDUCED_STEP_VALID 0 n else b
    if b0.on R.BANK_CTRL_PAUSE n && !b1.on R.BANK_CTRL_PAUSE n then b1.bankRun n else b1
  | 0x058 => b.bankCmd n (bits v 0 2)
  | _ => b

/-- LOSS registers (R282, R294). -/
def Blk.lossAfter (b0 b : Blk) (off v : Nat) : Blk :=
  match off with
  | 0x040 =>
    let b1 := if bit v 3 then b.lossReset else b
    if b0.on R.LOSS_CTRL_HOLD_EN && !b1.on R.LOSS_CTRL_HOLD_EN then b1.wakeBanks else b1
  | 0x078 => if bit v 0 then b.lossRelease else b
  | _ => b

/-- NLNK registers (R325, R329, R331, R357). -/
def Blk.nlnkAfter (b0 b : Blk) (p off v : Nat) : Blk :=
  if off = R.NLNK_CTRL_TRAIN.off then
    let b1 := if b.serving .nlnk p || b.st .nlnk p == sReady || b.link p != lkDown then b.trainWrite p (b0.on R.NLNK_CTRL_TRAIN p) (b.on R.NLNK_CTRL_TRAIN p) else b
    b1.force4 p (b0.on R.NLNK_CTRL_FORCE4 p) (b1.on R.NLNK_CTRL_FORCE4 p)
  else if off = 0x058 then
    let b1 := b.loadSwitch p
    if bit v 1 then b1.loadRetryWrite p else b1
  else b

/-- NRED registers (R344, R350, R359). -/
def Blk.nredAfter (b : Blk) (p off v : Nat) : Blk :=
  match off with
  | 0x070 => if bit v 0 then b.abortGo p else b
  | 0x080 => b.slotsGrant p (bits v R.NRED_SLOTS_GRANT.lo R.NRED_SLOTS_GRANT.w)
  | _ => b

/-- FXP registers (R389, R396, R397, R400, R405, R410). -/
def Blk.fxpAfter (b0 b : Blk) (off v : Nat) : Blk :=
  match off with
  | 0x040 =>
    let b1 := if b0.on R.FXP_CTRL_EN != b.on R.FXP_CTRL_EN then (if b.own = 3 then b else b.fxpEn (b.on R.FXP_CTRL_EN)) else b
    if bit v 1 then b1.fxpJoin else b1
  | 0x048 => b.keeperWrite
  | 0x04C => if b0.on R.FXP_CTRL_JOIN then b.fxpRound v else b
  | 0x07C => b.cqGet
  | 0x080 | 0x084 | 0x088 => b.showStores
  | 0x090 => b.fxpFree v
  | _ => b

/-- STAKE registers (R134, R160, R162). -/
def Blk.stakeAfter (b : Blk) (s off v : Nat) : Blk :=
  match off with
  | 0x040 => b.stakeCmd ⟨s, bits v 0 3⟩ (bits v 4 3)
  | 0x048 => if bit v 0 then b.icacheInval s else b
  | _ => b

/-- TEL registers (R427, R436). -/
def Blk.telAfter (b : Blk) (off : Nat) : Blk :=
  if off = R.TEL_CAP.off ∨ off = R.TEL_GROUP_GROUP.off then b.revertAll else b

/-- WALE_REQ (R451, R457; log entry 44): hoop group 0 firmware acts on it; a retirement only while the wale is ISOLATED or FAILED. -/
def Blk.waleAfter (b : Blk) (w off v : Nat) : Blk :=
  if off = 0x044 then
    let b1 := if bit v 0 then b.bistCmd 1 0 w else b
    if bit v 1 then b1.bistCmd 2 0 w else b1
  else b

/-- What a write of `v` at an offset sets going, the fields stored: `b0` is the block before it. -/
def Blk.after (b0 b : Blk) (cls : Nat) (p : Page) (i off v : Nat) : Blk :=
  if off < 0x040 then b.headerAfter p i off v
  else match p with
    | .lid => b.lidAfter off v
    | .pwc => if 0x100 ≤ off then b.seedPhase ((off - 0x100) / 4) (bits v 0 16) else b.pwcShow
    | .beat => Blk.beatAfter b0 b off
    | .boot => b.bootAfter off v
    | .tel => b.telAfter off
    | .loss => Blk.lossAfter b0 b off v
    | .hoop => if off = 0x050 then (if bit v 0 then b.migrateGo else b) else b.each ((List.range 8).map (8 * ((off - 0x040) / 4) + ·)) (fun b c => Blk.coreMoved b0 b c)
    | .hoopg => Blk.hoopgAfter b0 b i off v
    | .bank => Blk.bankAfter b0 b i off v
    | .nlnk => Blk.nlnkAfter b0 b i off v
    | .nred => b.nredAfter i off v
    | .xlt => b.xltAfter off v
    | .fxp => Blk.fxpAfter b0 b off v
    | .fcod => if off = R.FCOD_JOB_PUT.off then b.setFar { b.far with jobCls := SMap.set clsO b.far.jobCls i cls } else b
    | .wale => b.waleAfter i off v
    | .sched => if off = 0x068 ∧ bit v 31 then b.wr R.SCHED_SB_STATUS_PEAK (b.sbUsed i) i else b
    | .row => if off = 0x05C ∧ bit v 0 then b.sideClear i else b
    | .stake => b.stakeAfter i off v
    | _ => b

/-! ## Writes -/

/-- The write of a `_HI` half (R85): both halves in one update, the staged `_LO` or the current one. -/
def Blk.pairWrite (b : Blk) (ini : Ini) (cls : Nat) (p : Page) (i off v : Nat) : Blk :=
  let k := pairKey ini p i (off - 4)
  let lo := (SMap.get none b.io.stage k).getD (b.regWord clsO p i (off - 4))
  let b1 := b.setStage k none
  if p = .stake then
    let t : Tid := ⟨i, (off - 0x800) / 256⟩
    b1.setThread t ((b1.thread t).setReg ((off - 0x800) % 256 / 8) (lo + 2 ^ 32 * v))
  else
    let b2 := (b1.wordWrite cls p i (off - 4) lo).wordWrite cls p i off v
    Blk.after b b2 cls p i off v

/-- A write that the page has accepted (R89): counted, staged or stored, and what it sets going. -/
def Blk.pageWrite (b : Blk) (ini : Ini) (cls : Nat) (p : Page) (i off v : Nat) : Blk :=
  let b1 := b.addW (R.PG_SEQ p) 1 i
  if rwPair p i off then b1.setStage (pairKey ini p i off) (some v)
  else if 4 ≤ off ∧ rwPair p i (off - 4) then b1.pairWrite ini cls p i off v
  else Blk.after b1 (b1.wordWrite cls p i off v) cls p i off v

/-- A register write at a window offset (R82, R84, R93, R94): the error class. The header page of a wale that is not enabled ignores the write, which still counts
as accepted (R84, R89). -/
def Blk.regWrite (b : Blk) (ini : Ini) (off v : Nat) : Blk × Nat :=
  let cls := b.iniClass ini
  let o := off % 4096
  if off % 4 ≠ 0 then (b, eDenied)
  else match pageAt (off / 4096 * 4096) with
    | none => (b, eDenied)
    | some (p, i) =>
      if b.waleGone p i && p != .wale then (b, eDenied)
      else if !b.mayWrite cls p i || b.narrowed cls p i o v then (b.noteDenied cls off, eDenied)
      else if b.waleGone p i then (b.addW (R.PG_SEQ p) 1 i, 0)
      else if b.threadShut p i o then (b, eDenied)
      else (b.pageWrite ini cls p i o v, 0)

/-! ## Responses (R82, R95) -/

/-- The response to an access; a hoop core takes an access-fault exception on an error. -/
def Blk.respond (b : Blk) (ini : Ini) (data cls : Nat) : Blk :=
  let b1 := b.send (.resp ini data cls)
  match ini with
  | .core c => if cls = 0 then b1 else b1.send (.coreFault c)
  | _ => b1

/-- A register write of an initiator, with its response. -/
def Blk.write (b : Blk) (ini : Ini) (off v : Nat) : Blk :=
  let r := b.regWrite ini off v
  r.1.respond ini 0 r.2

/-- A register read of an initiator, with its response. -/
def Blk.read (b : Blk) (ini : Ini) (off : Nat) : Blk :=
  let r := b.regRead ini off
  r.1.respond ini r.2.1 r.2.2

/-- The window offset of a register of a page. -/
def regAt (p : Page) (i off : Nat) : Nat := pageBase p i + off

/-- A register's word with one field replaced: RW and RW-L fields as they stand, W1S, W1C and WO fields 0. -/
def Blk.wordFor (b : Blk) (p : Page) (i off lo w v : Nat) : Nat :=
  let keep := fun (f : Fld) => match f.acc with | .rw | .rwl => true | _ => false
  ((pageFields p i off).map (fun f => if f.lo = lo then 0 else if keep f then b.now f i * 2 ^ f.lo else 0)).foldl (· + ·) 0 + v % 2 ^ w * 2 ^ lo

/-- A write of one field of a register: the register's word with that field replaced. -/
def Blk.writeField (b : Blk) (ini : Ini) (p : Page) (i : Nat) (f : Fld) (v : Nat) : Blk :=
  b.write ini (regAt p i f.off) (b.wordFor p i f.off f.lo f.w v)

end Sys2Proof.Machine
end

