-- ==== Sys2Proof/Machine/Rakline.lean ====
section
/-! DEFINITION. Rakline (R461–R475) and the attestation quotes (R63): frames, sessions, the register, bulk, attestation and console channels. -/

namespace Sys2Proof.Machine

/-! ## The link (R461–R464, R475) -/

/-- Whether the RAK block runs. -/
def Blk.rakRuns (b : Blk) : Bool := b.st .rak == sReady || b.st .rak == sServing || b.st .rak == sQuiescing

/-- RAKLINE_LIGHT (R461): the link trains and is UP. -/
def execRaklineLight (s : State) : Host.Outcome State Fault Refusal :=
  cmd true s (fun b => b.when (b.rakRuns && b.rd R.RAK_STATUS_LINK != 2) (fun b => (b.wr R.RAK_STATUS_LINK 2).event .rak 16))

/-- The link goes down (R464, R475): the session ends, and with it open transfers; export records stay in their rings. -/
def Blk.rakDown (b : Blk) : Blk := ((b.rakEnd).wr R.RAK_STATUS_LINK 0).event .rak 17

/-- RAKLINE_LINK_LOSS (R475). -/
def execRaklineLinkLoss (s : State) : Host.Outcome State Fault Refusal :=
  cmd true s (fun b => b.when (b.rd R.RAK_STATUS_LINK == 2) (fun b => b.rakDown))

/-- The frames held are acknowledged (R464). -/
def Blk.rakAck (b : Blk) : Blk := ({ b with rak := { b.rak with unacked := 0 } }).rakLink (.ack (b.rak.rxSeq - 1))

/-- RAKLINE_ACK_TIMER (R464): 10 µs have passed with frames not acknowledged. -/
def execRaklineAckTimer (s : State) : Host.Outcome State Fault Refusal :=
  cmd true s (fun b => b.when (b.rd R.RAK_STATUS_LINK == 2 && decide (0 < b.rak.unacked)) (fun b => b.rakAck))

/-- Everything not acknowledged is sent again, oldest first and byte-identical; a message already resent 8 times takes the link down (R464). -/
def Blk.rakResend (b : Blk) : Blk :=
  if b.rak.replay = [] then b
  else if b.rak.replay.any (fun x => decide (8 ≤ x.resent)) then b.rakDown
  else
    let l := b.rak.replay
    let b1 := (b.inc R.RAK_REPLAY_CNT).add64 R.RAK_TX_FRAMES_LO R.RAK_TX_FRAMES_HI ((l.map (fun x => x.msg.frames)).foldl (· + ·) 0)
    let b2 := { b1 with rak := { b1.rak with replay := l.map (fun (x : RakFrame) => { x with resent := x.resent + 1 }) } }
    b2.each l (fun b x => b.send (.rak x.chan x.clear x.seq x.msg x.bytes))

/-- RAKLINE_NAK (R464): a NAK from the node, whatever SEQUENCE it names. -/
def execRaklineNak (seq : Nat) (s : State) : Host.Outcome State Fault Refusal :=
  cmd (decide (seq < 2 ^ 64)) s (fun b => b.when (b.rd R.RAK_STATUS_LINK == 2) (fun b => b.rakResend))

/-- RAKLINE_REPLAY_TIMEOUT (R464): no acknowledgement has advanced for 50 µs. -/
def execRaklineReplayTimeout (s : State) : Host.Outcome State Fault Refusal :=
  cmd true s (fun b => b.when (b.rd R.RAK_STATUS_LINK == 2) (fun b => b.rakResend))

/-! ## Sending under credits (R291, R466, R471, R472) -/

/-- EXPORT_SEND (R291, R471): the oldest sealed record leaves on the route of BANK_EXP_ROUTE: a far port once it exchanges packets; Rakline frame by frame as credits allow. -/
def execExportSend (n : Nat) (s : State) : Host.Outcome State Fault Refusal :=
  cmd (decide (n < 12)) s (fun b =>
    match (b.bank n).expQ with
    | [] => b
    | r :: rest =>
      match b.rd R.BANK_EXP_ROUTE n with
      | 1 => b.when (b.farLive 0) (fun b => (b.send (.exportFar 0 n r)).expSent n r rest)
      | 2 => b.when (b.farLive 1) (fun b => (b.send (.exportFar 1 n r)).expSent n r rest)
      | _ =>
        if b.rakUp && (SMap.get none b.rak.expSent n).isNone then
          ({ b with rak := { b.rak with expSent := SMap.set none b.rak.expSent n (some 0) } }).bulkPump
        else b)

/-- Pending EVENT frames that credits let go (R472). -/
def Blk.evtFrames (b : Blk) : (fuel : Nat) → Blk
  | 0 => b
  | fuel + 1 =>
    match b.rak.evtPend with
    | [] => b
    | r :: l =>
      if b.rak.evtCred = 0 then b
      else (({ b with rak := { b.rak with evtPend := l, evtCred := b.rak.evtCred - 1 } }).rakSend 3 false (.event r)).evtFrames fuel

/-- Held CONSOLE frames that credits let go (R466). -/
def Blk.conFrames (b : Blk) : (fuel : Nat) → Blk
  | 0 => b
  | fuel + 1 =>
    match b.rak.conWait with
    | [] => b
    | m :: l =>
      if b.rak.conCred = 0 then b
      else (({ b with rak := { b.rak with conWait := l, conCred := b.rak.conCred - 1 } }).rakSend 5 false m).conFrames fuel

/-! ## Frames in (R462–R464, R466) -/

/-- Whether R463 drops a frame: CLEAR outside LINK and ATTEST without a session, ciphertext without a session or with a bad tag, an invalid channel, or anything
but LINK in SAFE. -/
def Blk.rakDrops (b : Blk) (h : List Byte) (tagOk : Bool) : Bool :=
  decide (6 ≤ rakChan h) || (b.own == 3 && rakChan h != 0)
    || (if rakClear h then rakChan h != 0 && !(rakChan h == 4 && !b.rakUp) else !b.rakUp || !tagOk)

/-- The content of a LINK frame: an acknowledgement empties the replay buffer up to its SEQUENCE, credits let held traffic go. -/
def Blk.linkIn (b : Blk) : RakLinkMsg → Blk
  | .other => b
  | .ack seq => ({ b with rak := { b.rak with replay := b.rak.replay.filter (fun x => decide (seq < x.seq + x.msg.frames - 1)) } }).bulkPump
  | .credit 2 n => ({ b with rak := { b.rak with bulkCred := min 256 (b.rak.bulkCred + n) } }).bulkPump
  | .credit 3 n => ({ b with rak := { b.rak with evtCred := min 128 (b.rak.evtCred + n) } }).evtFrames b.rak.evtPend.length
  | .credit 5 n => ({ b with rak := { b.rak with conCred := min 16 (b.rak.conCred + n) } }).conFrames b.rak.conWait.length
  | .credit _ _ => b

/-- A frame that the link layer and R463 pass: the next one in order is taken, one taken before is only acknowledged again; 16 frames bring an
acknowledgement. -/
def Blk.rakTake (b : Blk) (h : List Byte) (m : RakLinkMsg) : Blk :=
  if b.rak.rxSeq < rakSeq h then b
  else
    let fresh := rakSeq h == b.rak.rxSeq
    let b1 := { b with rak := { b.rak with rxSeq := if fresh then rakSeq h + 1 else b.rak.rxSeq, unacked := b.rak.unacked + 1 } }
    let b2 := if 16 ≤ b1.rak.unacked then b1.rakAck else b1
    if fresh && rakChan h == 0 then b2.linkIn m else b2

/-- RAKLINE_FRAME (R462–R464): a frame from the node, by its header and what its CRC and its tag say (log entry 7), is checked; a LINK frame acts at once, what other
channels carry is the command of its own row. -/
def execRaklineFrame (h : List Byte) (crcOk tagOk : Bool) (m : RakLinkMsg) (s : State) : Host.Outcome State Fault Refusal :=
  cmd (rakHdrOk h) s (fun b => b.when (b.rd R.RAK_STATUS_LINK == 2) (fun b =>
    let b1 := b.add64 R.RAK_RX_FRAMES_LO R.RAK_RX_FRAMES_HI 1
    if !crcOk then (b1.inc R.RAK_CRC_ERR_CNT).rakLink (.nak (rakSeq h))
    else if b1.rakDrops h tagOk then
      let b2 := b1.inc R.RAK_DROP_CNT
      if !rakClear h && b.rakUp && !tagOk then b2.inc R.LID_AUTH_FAIL_CNT else b2
    else b1.rakTake h m))

/-! ## Quotes and certificates (R63, R473) -/

/-- Whether the lid's page answers requests of the management plane (R477). -/
def Blk.mgmtReady (b : Blk) (p : Page) : Bool := b.st p == sReady || b.serving p

/-- A request to the lid over the management plane: answered with `f`, or with ERROR_NOT_READY (R477). -/
def Blk.mgmtLid (b : Blk) (o : Out) : Blk := if b.mgmtReady .lid then (b.inc R.MGMT_REQ_CNT).send o else b.mgmtAnswer 4 []

/-- GET_QUOTE (R63), over Rakline or the management plane. -/
def execGetQuote (viaMgmt : Bool) (nonce : Nat) (s : State) : Host.Outcome State Fault Refusal :=
  cmd (decide (nonce < 2 ^ 256)) s (fun b =>
    let body := b.quoteBody nonce
    if viaMgmt then b.when b.mgmtUp (fun b => b.mgmtLid (.quoteMgmt body (b.quoteSig body)))
    else b.when b.rakOpen (fun b => b.attest (.quote body (b.quoteSig body))))

/-- GET_CERTS (R473), over Rakline or the management plane. -/
def execGetCerts (viaMgmt : Bool) (s : State) : Host.Outcome State Fault Refusal :=
  cmd true s (fun b =>
    if viaMgmt then b.when b.mgmtUp (fun b => b.mgmtLid (.certsMgmt b.aliasChain)) else b.when b.rakOpen (fun b => b.attest (.certs b.aliasChain)))

/-! ## Sessions (R465) -/

/-- GET_NONCE (R62, R465). -/
def execGetNonce (s : State) : Host.Outcome State Fault Refusal :=
  cmd true s (fun b => b.when b.rakOpen (fun b =>
    let n := (Config.nonce b.io.ent).toNat
    ({ b.entUsed with lid := { b.lid with nonce := some n } }).attest (.nonce n)))

/-- Whether the lid accepts a SESSION_INIT (R465): its nonce, and a signature under the recorded owner root key in OWNED, or the service root in SERVICE. -/
def Blk.sessionOk (b : Blk) (nonce keyHash : Nat) (sigOk : Bool) : Bool :=
  sigOk && b.lid.nonce == some nonce && ((b.own == 1 && b.flash.ownerHash == some keyHash) || b.own == 2)

/-- The session key (R53, R465): from the shared secret, in the context of the hash of the four messages. -/
def sessionKey (secret : Nat) (messages : List Nat) : Nat := Config.kdf secret "rakline" [Config.crypto 22 messages]

/-- A session begins (R465, R466): SEQUENCE is 0 in both directions, and the node's credits stand at the depths of its receivers. -/
def Blk.rakBegin (b : Blk) (key : Nat) : Blk :=
  let b1 := { b with rak := { key := key, evtCred := 128, bulkCred := 256, conCred := 16 } }
  ((b1.wr R.RAK_STATUS_SESSION (if b.own = 2 then 2 else 1)).inc R.RAK_SESSION_CNT).event .rak 18

/-- SESSION_INIT (R465): it ends the current session; a session is established, or the message is refused with AUTH_FAIL. -/
def execSessionInit (key nonce keyHash : Nat) (sigOk : Bool) (s : State) : Host.Outcome State Fault Refusal :=
  cmd true s (fun b => b.when b.rakOpen (fun b =>
    let b1 := if b.rakUp then b.rakEnd else b
    if b1.sessionOk nonce keyHash sigOk then
      let body := b1.quoteBody nonce
      let ct := Config.crypto 2 [key, b1.io.ent]
      let b2 := b1.attest (.sessionReply ct body (b1.quoteSig body))
      (b2.nonceUsed.entUsed).rakBegin (sessionKey (Config.crypto 21 [key, b1.io.ent]) ([nonce, key, keyHash, ct, b1.quoteSig body] ++ body.map (·.toNat)))
    else b1.authFail.attest .authFail))

/-! ## The register channel (R467, R468) -/

/-- A REG response, with the credit that it returns (R466). -/
def Blk.regResp (b : Blk) (op status tag index : Nat) (data : List Nat) : Blk :=
  (b.rakSend 1 false (.regResp (op + 0x80) status tag index data)).rakCredit 1

/-- `n` registers read in ascending order up to the first that fails: the data, 0 from it on, its class and its place (R468). -/
def Blk.readRun : (n i off : Nat) → Blk → Blk × List Nat × Nat × Nat
  | 0, _, _, b => (b, [], 0, 0)
  | n + 1, i, off, b =>
    let r := b.regRead .rak off
    if r.2.2 ≠ 0 then (r.1, List.replicate (n + 1) 0, r.2.2, i)
    else
      let o := Blk.readRun n (i + 1) (off + 4) r.1
      (o.1, r.2.1 :: o.2.1, o.2.2.1, o.2.2.2)

/-- Registers written in ascending order up to the first that fails: its class and its place (R468). -/
def Blk.writeRun : (l : List Nat) → (i off : Nat) → Blk → Blk × Nat × Nat
  | [], _, _, b => (b, 0, 0)
  | v :: l, i, off, b =>
    let r := b.regWrite .rak off v
    if r.2 ≠ 0 then (r.1, r.2, i) else Blk.writeRun l (i + 1) (off + 4) r.1

/-- REG_READ (R467, R468). -/
def execRegRead (m : List Byte) (s : State) : Host.Outcome State Fault Refusal :=
  cmd (regCmd 1 m) s (fun b => b.when (b.rakOpen && b.rakUp) (fun b =>
    if regForm m 0 then
      let o := Blk.readRun (regCount m) 0 (regOff m) b
      o.1.regResp 1 o.2.2.1 (regTag m) o.2.2.2 o.2.1
    else b.regResp 1 eDenied (regTag m) 0 (List.replicate (min 64 (regCount m)) 0)))

/-- REG_WRITE (R467, R468). -/
def execRegWrite (m : List Byte) (s : State) : Host.Outcome State Fault Refusal :=
  cmd (regCmd 2 m) s (fun b => b.when (b.rakOpen && b.rakUp) (fun b =>
    if regForm m (regCount m) then
      let o := Blk.writeRun (regData m) 0 (regOff m) b
      o.1.regResp 2 o.2.1 (regTag m) o.2.2 []
    else b.regResp 2 eDenied (regTag m) 0 []))

/-- REG_WARM_RESET (R468): the response leaves before the reset. -/
def execRegWarmReset (m : List Byte) (s : State) : Host.Outcome State Fault Refusal :=
  cmd (regCmd 3 m) s (fun b => b.when (b.rakOpen && b.rakUp) (fun b => (b.regResp 3 0 (regTag m) 0 []).warmReset 6))

/-- REG_SHUTDOWN (R445, R468): the response leaves before the shutdown starts. -/
def execRegShutdown (m : List Byte) (s : State) : Host.Outcome State Fault Refusal :=
  cmd (regCmd 4 m) s (fun b => b.when (b.rakOpen && b.rakUp) (fun b => (b.regResp 4 0 (regTag m) 0 []).shutdown))

/-! ## The bulk channel (R469, R470) -/

/-- BULK_WRITE (R469, R509). -/
def execBulkWrite (m : List Byte) (s : State) : Host.Outcome State Fault Refusal :=
  cmd (bulkCmd 1 m) s (fun b => b.when (b.rakOpen && b.rakUp) (fun b => b.bulkFrame (.start true (bulkK m) (bulkVa m) (bulkLen m))))

/-- BULK_READ (R469, R509). -/
def execBulkRead (m : List Byte) (s : State) : Host.Outcome State Fault Refusal :=
  cmd (bulkCmd 2 m) s (fun b => b.when (b.rakOpen && b.rakUp) (fun b => b.bulkFrame (.start false (bulkK m) (bulkVa m) (bulkLen m))))

/-- BULK_DATA (R469, R470): a frame of no open WRITE transfer, or out of order, writes nothing. -/
def execBulkData (m : List Byte) (s : State) : Host.Outcome State Fault Refusal :=
  cmd (bulkFrameOk m) s (fun b => b.when (b.rakOpen && b.rakUp) (fun b => b.bulkFrame (.data (fieldAt m 0 1) (fieldAt m 8 8) (m.drop 16))))

/-- BULK_TRANSFER_END (R470): all bytes of an open transfer have moved. -/
def execBulkTransferEnd (k : Nat) (s : State) : Host.Outcome State Fault Refusal :=
  cmd (decide (k < 16)) s (fun b =>
    match b.bulkAt k with
    | some x => b.when (x.moved == x.len) (fun b => b.bulkEnd k 0 x.len)
    | none => b)

/-! ## The console channel (R474) -/

/-- CONSOLE (R474): bytes from the node to the console, or from the console to the node as credits allow. -/
def execConsole (toNode : Bool) (data : List Byte) (s : State) : Host.Outcome State Fault Refusal :=
  cmd (decide (data.length ≤ 4096)) s (fun b => b.when (b.rakOpen && b.rakUp) (fun b =>
    if toNode then
      ({ b with rak := { b.rak with conWait := b.rak.conWait ++ [RakMsg.console data] } }).conFrames (b.rak.conWait.length + 1)
    else (b.send (.consoleIn (b.rd R.RAK_STATUS_SESSION) (b.rd R.LID_OWN_STATE_DEBUG_SCOPE) data)).rakCredit 5))

end Sys2Proof.Machine
end

