-- ==== Sys2Proof/Machine/Mgmt.lean ====
section
/-! DEFINITION. The management plane (R476–R481, R483): addresses and endpoint, PLDM base, sensors and effecters, platform events, firmware update. -/

namespace Sys2Proof.Machine

/-- A request, which the endpoint answers from the end of base stage 1 (R476). -/
def Blk.request (b : Blk) (f : Blk → Blk) : Blk := b.when b.mgmtUp f

/-- A request whose data name what does not exist (R477): 0x02 ERROR_INVALID_DATA. -/
def Blk.mgmtBad (b : Blk) : Blk := b.mgmtAnswer 2 []

/-- A request out of its order: an error whose code no rule states (log entry 46). -/
def Blk.mgmtOrder (b : Blk) : Blk := (b.draw).2.mgmtAnswer (1 + (b.draw).1 % 255) []

/-! ## I3C and MCTP (R476, R478, R483) -/

/-- The Provisioned ID (R476): a part code in [47:33], whose value is not stated, and bits [32:0] of the identity hash. -/
def provisionedId : Nat := Config.crypto 23 [] % 2 ^ 15 * 2 ^ 33 + Config.identityHash.toNat % 2 ^ 33

/-- I3C_ENTDAA (R476, R483): the address is assigned to the module's Provisioned ID. -/
def execI3cEntdaa (addr : Nat) (s : State) : Host.Outcome State Fault Refusal :=
  cmd (decide (addr < 128)) s (fun b => b.request (fun b =>
    (((b.wr R.MGMT_STATUS_DYN_ADDR addr).wr R.MGMT_STATUS_ADDR_VALID 1).event .mgmt 16).send (.provisionedId provisionedId)))

/-- SET_ENDPOINT_ID (R478, R483). -/
def execSetEndpointId (eid : Nat) (s : State) : Host.Outcome State Fault Refusal :=
  cmd (decide (eid < 256)) s (fun b => b.request (fun b => (b.wr R.MGMT_STATUS_EID eid).mgmtAnswer 0 [eid]))

/-- GET_ENDPOINT_ID (R478, R483). -/
def execGetEndpointId (s : State) : Host.Outcome State Fault Refusal :=
  cmd true s (fun b => b.request (fun b => b.mgmtAnswer 0 [b.rd R.MGMT_STATUS_EID]))

/-- GET_ENDPOINT_UUID (R478): a UUID of the module, its value not stated. -/
def execGetEndpointUuid (s : State) : Host.Outcome State Fault Refusal :=
  cmd true s (fun b => b.request (fun b => b.mgmtAnswer 0 [Config.crypto 12 [Config.identityHash.toNat]]))

/-- GET_MCTP_VERSION_SUPPORT (R478): the versions are not stated. -/
def execGetMctpVersionSupport (type : Nat) (s : State) : Host.Outcome State Fault Refusal :=
  cmd (decide (type < 256)) s (fun b => b.request (fun b => b.mgmtAnswer 0 [Config.crypto 13 [type]]))

/-- GET_MESSAGE_TYPE_SUPPORT (R478): MCTP control, PLDM and vendor-defined (IANA) messages, under their DMTF type codes (log entry 47). -/
def execGetMessageTypeSupport (s : State) : Host.Outcome State Fault Refusal :=
  cmd true s (fun b => b.request (fun b => b.mgmtAnswer 0 [0x00, 0x01, 0x7F]))

/-- GET_VENDOR_DEFINED_MESSAGE_SUPPORT (R478): the one vendor set, Imzosyn's IANA number, its value not stated. -/
def execGetVendorDefinedMessageSupport (k : Nat) (s : State) : Host.Outcome State Fault Refusal :=
  cmd (decide (k < 256)) s (fun b => b.request (fun b => if k = 0 then b.mgmtAnswer 0 [Config.crypto 14 []] else b.mgmtBad))

/-! ## PLDM base (R478) -/

/-- GET_TID. -/
def execGetTid (s : State) : Host.Outcome State Fault Refusal := cmd true s (fun b => b.request (fun b => b.mgmtAnswer 0 [b.mgmt.tid]))

/-- SET_TID. -/
def execSetTid (tid : Nat) (s : State) : Host.Outcome State Fault Refusal :=
  cmd (decide (tid < 256)) s (fun b => b.request (fun b => ({ b with mgmt := { b.mgmt with tid := tid } }).mgmtAnswer 0 []))

/-- The PLDM types that the module supports (R478). -/
def pldmTypes : List Nat := [0, 2, 5]

/-- The command codes of a PLDM type (R478), under their DMTF numbers (log entry 47). -/
def pldmCommands : Nat → List Nat
  | 0 => [0x01, 0x02, 0x03, 0x04, 0x05]
  | 2 => [0x04, 0x0A, 0x11, 0x21, 0x31, 0x32, 0x39, 0x3A, 0x50, 0x51]
  | 5 => [0x01, 0x02, 0x10, 0x13, 0x14, 0x15, 0x16, 0x17, 0x18, 0x1A, 0x1B, 0x1C, 0x1D]
  | _ => []

/-- GET_PLDM_VERSION: the version of a supported type, its value not stated. -/
def execGetPldmVersion (type : Nat) (s : State) : Host.Outcome State Fault Refusal :=
  cmd (decide (type < 64)) s (fun b => b.request (fun b => if pldmTypes.contains type then b.mgmtAnswer 0 [Config.crypto 15 [type]] else b.mgmtBad))

/-- GET_PLDM_TYPES. -/
def execGetPldmTypes (s : State) : Host.Outcome State Fault Refusal := cmd true s (fun b => b.request (fun b => b.mgmtAnswer 0 pldmTypes))

/-- GET_PLDM_COMMANDS. -/
def execGetPldmCommands (type : Nat) (s : State) : Host.Outcome State Fault Refusal :=
  cmd (decide (type < 64)) s (fun b => b.request (fun b => if pldmTypes.contains type then b.mgmtAnswer 0 (pldmCommands type) else b.mgmtBad))

/-! ## Sensors and effecters (R477, R480) -/

/-- A field read as class P (R477): an error's completion code, or the value. -/
def Blk.mgmtRead (b : Blk) (f : Fld) : Blk × Except Nat Nat :=
  if !b.mgmtReady f.page then (b, .error 4)
  else
    let r := b.regRead .mgmt (regAt f.page 0 f.off)
    if r.2.2 ≠ 0 then (r.1, .error 1) else (r.1, .ok (bits r.2.1 f.lo f.w))

/-- A register written as class P: the completion code (R477). -/
def Blk.mgmtWrite (b : Blk) (p : Page) (off v : Nat) : Blk × Nat :=
  if !b.mgmtReady p then (b, 4)
  else
    let r := b.regWrite .mgmt (regAt p 0 off) v
    (r.1, if r.2 = 0 then 0 else 1)

/-- The field behind a numeric sensor (R480), but for the sanitised counts. -/
def numSensor (id : Nat) : Option Fld :=
  match id with
  | 0x0001 => some R.TEL_VIN_MV
  | 0x0002 => some R.TEL_VIN_MIN_MV
  | 0x0003 => some R.TEL_ENERGY
  | 0x0004 => some R.TEL_V3P3
  | _ =>
    if 0x0010 ≤ id ∧ id < 0x0026 then some (R.TEL_TEMP.at (id - 0x0010))
    else if 0x0030 ≤ id ∧ id < 0x0038 then some (R.TEL_LOAD.at (id - 0x0030)) else none

/-- The sensor of a class of sanitised errors (R480). -/
def classSensor (id : Nat) : Bool := decide (0x0201 ≤ id) && decide (id ≤ 0x0211)

/-- The kind of a PDR (R480): 0 numeric sensor, 1 state sensor, 2 numeric effecter, 3 state effecter. -/
def pdrKind (id : Nat) : Option Nat :=
  if (numSensor id).isSome || classSensor id then some 0
  else if 0x0100 ≤ id ∧ id ≤ 0x0102 then some 1
  else if 0x1000 ≤ id ∧ id ≤ 0x1003 then some 2
  else if id = 0x1100 ∨ id = 0x1101 then some 3
  else none

/-- GET_PDR_REPOSITORY_INFO (R478): the number of records. -/
def execGetPdrRepositoryInfo (s : State) : Host.Outcome State Fault Refusal :=
  cmd true s (fun b => b.request (fun b => b.mgmtAnswer 0 [4 + 22 + 8 + 3 + 17 + 4 + 2]))

/-- GET_PDR (R480): identifier and kind. -/
def execGetPdr (id : Nat) (s : State) : Host.Outcome State Fault Refusal :=
  cmd (decide (id < 2 ^ 16)) s (fun b => b.request (fun b => match pdrKind id with | some k => b.mgmtAnswer 0 [id, k] | none => b.mgmtBad))

/-- The answer to a read. -/
def Blk.readAnswer (r : Blk × Except Nat Nat) : Blk := match r.2 with | .ok v => r.1.mgmtAnswer 0 [v] | .error c => r.1.mgmtAnswer c []

/-- GET_SENSOR_READING (R480). -/
def execGetSensorReading (id : Nat) (s : State) : Host.Outcome State Fault Refusal :=
  cmd (decide (id < 2 ^ 16)) s (fun b => b.request (fun b =>
    if classSensor id then b.mgmtAnswer 0 [SMap.get 0 b.mgmt.window (id - 0x0200)]
    else match numSensor id with
      | some f => Blk.readAnswer (b.mgmtRead f)
      | none => b.mgmtBad))

/-- A field of the register behind a state sensor (R480). -/
def stateFld (id : Nat) : Option Fld :=
  match id with
  | 0x0100 => some R.LID_OWN_STATE_STATE
  | 0x0101 => some R.TEL_STATUS_SUPPLY_WARN
  | 0x0102 => some R.BOOT_STATUS_PHASE
  | _ => none

/-- GET_STATE_SENSOR_READINGS (R480). -/
def execGetStateSensorReadings (id : Nat) (s : State) : Host.Outcome State Fault Refusal :=
  cmd (decide (id < 2 ^ 16)) s (fun b => b.request (fun b =>
    match stateFld id with
    | some f =>
      match b.mgmtRead f with
      | (b', .ok _) => b'.mgmtAnswer 0 [b.stateSensor id]
      | (b', .error c) => b'.mgmtAnswer c []
    | none => b.mgmtBad))

/-- The answer to a write. -/
def Blk.writeAnswer (r : Blk × Nat) : Blk := r.1.mgmtAnswer r.2 []

/-- SET_NUMERIC_EFFECTER_VALUE (R480): a value that does not fit the register is malformed. -/
def execSetNumericEffecterValue (id v : Nat) (s : State) : Host.Outcome State Fault Refusal :=
  cmd (decide (id < 2 ^ 16) && decide (v < 2 ^ 32)) s (fun b => b.request (fun b =>
    match id with
    | 0x1000 => if v < 2 ^ 12 then Blk.writeAnswer (b.mgmtWrite .tel R.TEL_CAP.off v) else b.mgmtBad
    | 0x1001 => if v < 2 ^ 18 then Blk.writeAnswer (b.mgmtWrite .tel R.TEL_GROUP_GROUP.off v) else b.mgmtBad
    | 0x1002 => if v < 2 ^ 12 then Blk.writeAnswer (b.mgmtWrite .boot R.BOOT_BUDGET.off v) else b.mgmtBad
    | 0x1003 =>
      if v < 2 ^ 18 then Blk.writeAnswer (b.mgmtWrite .boot R.BOOT_BIST_CMD_ACTION.off (1 + 256 * (v / 65536) + 65536 * (v % 65536))) else b.mgmtBad
    | _ => b.mgmtBad))

/-- GET_NUMERIC_EFFECTER_VALUE (R480): what the register reads; BOOT_BIST_CMD reads 0 (R6). -/
def execGetNumericEffecterValue (id : Nat) (s : State) : Host.Outcome State Fault Refusal :=
  cmd (decide (id < 2 ^ 16)) s (fun b => b.request (fun b =>
    match id with
    | 0x1000 => Blk.readAnswer (b.mgmtRead R.TEL_CAP)
    | 0x1001 =>
      match b.mgmtRead R.TEL_GROUP_GROUP with
      | (b1, .ok g) =>
        match b1.mgmtRead R.TEL_GROUP_SHIFT_MAX with
        | (b2, .ok m) => b2.mgmtAnswer 0 [g + 256 * m]
        | (b2, .error c) => b2.mgmtAnswer c []
      | (b1, .error c) => b1.mgmtAnswer c []
    | 0x1002 => Blk.readAnswer (b.mgmtRead R.BOOT_BUDGET)
    | 0x1003 => Blk.readAnswer (b.mgmtRead R.BOOT_BIST_CMD_INSTANCE)
    | _ => b.mgmtBad))

/-- SET_STATE_EFFECTER_STATES (R480): 1 warm reset, 2 orderly shutdown; 1 arm claim, 2 force-clear. -/
def execSetStateEffecterStates (id v : Nat) (s : State) : Host.Outcome State Fault Refusal :=
  cmd (decide (id < 2 ^ 16) && decide (v < 256)) s (fun b => b.request (fun b =>
    match id, v with
    | 0x1100, 1 => Blk.writeAnswer (b.mgmtWrite .boot R.BOOT_RESET.off 1)
    | 0x1100, 2 => Blk.writeAnswer (b.mgmtWrite .boot R.BOOT_SHUTDOWN.off 1)
    | 0x1101, 1 => Blk.writeAnswer (b.mgmtWrite .lid R.LID_CLAIM_ARM.off 1)
    | 0x1101, 2 =>
      Blk.writeAnswer (b.mgmtWrite .lid R.LID_ZERO_CTRL_FORCE_CLEAR.off
        (b.wordFor .lid 0 R.LID_ZERO_CTRL_FORCE_CLEAR.off R.LID_ZERO_CTRL_FORCE_CLEAR.lo R.LID_ZERO_CTRL_FORCE_CLEAR.w 1))
    | _, _ => b.mgmtBad))

/-- GET_STATE_EFFECTER_STATES (R480): what the registers behind the effecter read; only LID_CLAIM_ARM ever reads 1. -/
def execGetStateEffecterStates (id : Nat) (s : State) : Host.Outcome State Fault Refusal :=
  cmd (decide (id < 2 ^ 16)) s (fun b => b.request (fun b =>
    match id with
    | 0x1100 => Blk.readAnswer (b.mgmtRead R.BOOT_RESET)
    | 0x1101 => Blk.readAnswer (b.mgmtRead R.LID_CLAIM_ARM)
    | _ => b.mgmtBad))

/-! ## Platform events (R481) -/

/-- SET_EVENT_RECEIVER (R481, R483): EID 0 names none. -/
def execSetEventReceiver (eid : Nat) (s : State) : Host.Outcome State Fault Refusal :=
  cmd (decide (eid < 256)) s (fun b => b.request (fun b =>
    (((b.wr R.MGMT_STATUS_RX_EID eid).event .mgmt 17).mgmtAnswer 0 []).stateEvents))

/-- PLATFORM_EVENT_ACK (R481): the receiver acknowledges the oldest event held of a sensor. -/
def execPlatformEventAck (sensor : Nat) (s : State) : Host.Outcome State Fault Refusal :=
  cmd (decide (sensor < 2 ^ 16)) s (fun b => b.when b.mgmtUp (fun b =>
    match b.mgmt.events.find? (fun (e : PlatEvt) => e.sensor == sensor) with
    | some e =>
      let l := b.mgmt.events.erase e
      (({ b with mgmt := { b.mgmt with events := l } }).wr R.MGMT_EVT_PEND l.length).stateEvents
    | none => b))

/-! ## Firmware update (R478, R479) -/

/-- QUERY_DEVICE_IDENTIFIERS (R478): the module's identity. -/
def execQueryDeviceIdentifiers (s : State) : Host.Outcome State Fault Refusal :=
  cmd true s (fun b => b.request (fun b => b.mgmtAnswer 0 [Config.identityHash.toNat]))

/-- GET_FIRMWARE_PARAMETERS (R478): of each image kind the security version in service and whether an image is pending. -/
def execGetFirmwareParameters (s : State) : Host.Outcome State Fault Refusal :=
  cmd true s (fun b => b.request (fun b =>
    b.mgmtAnswer 0 ((List.range 8).flatMap (fun k =>
      [match SMap.get none b.lid.running k with | some im => im.secver | none => Config.crypto 5 [k], b2n (SMap.get none b.lid.staged k).isSome]))))

/-- The state of the update (R479): ACTIVATE until no staged image waits any more. -/
def Blk.updState (b : Blk) : Nat := if b.mgmt.upd = 5 ∧ b.lid.staged.all (fun e => e.2.isNone) then 0 else b.mgmt.upd

/-- REQUEST_UPDATE (R479): a transport begins where none runs. -/
def execRequestUpdate (s : State) : Host.Outcome State Fault Refusal :=
  cmd true s (fun b => b.request (fun b =>
    if b.updState = 0 ∨ b.updState = 5 then
      ({ b with mgmt := { b.mgmt with upd := 1, comps := [], cur := none, ready := [] } }).mgmtAnswer 0 []
    else b.mgmtOrder))

/-- PASS_COMPONENT_TABLE (R479): the image kinds to update. -/
def execPassComponentTable (kinds : List Nat) (s : State) : Host.Outcome State Fault Refusal :=
  cmd true s (fun b => b.request (fun b =>
    if b.mgmt.upd ≠ 1 then b.mgmtOrder
    else if kinds = [] ∨ kinds.any (fun k => decide (8 ≤ k)) then b.mgmtBad
    else ({ b with mgmt := { b.mgmt with upd := 2, comps := kinds.eraseDups } }).mgmtAnswer 0 []))

/-- UPDATE_COMPONENT (R479): the transfer of one image starts, which the module pulls. -/
def execUpdateComponent (kind : Nat) (s : State) : Host.Outcome State Fault Refusal :=
  cmd (decide (kind < 2 ^ 16)) s (fun b => b.request (fun b =>
    if b.mgmt.upd ≠ 2 ∧ b.mgmt.upd ≠ 4 then b.mgmtOrder
    else if !b.mgmt.comps.contains kind then b.mgmtBad
    else (({ b with mgmt := { b.mgmt with upd := 3, cur := some kind } }).mgmtAnswer 0 []).send (.requestFirmwareData kind)))

/-- VERIFY_COMPLETE (R59, R478, R479): the image has been pulled, which TransferComplete reports, and the lid verifies it: its signature, and its security version against the counter of its kind. An image that verifies is applied to
the staging store. -/
def execVerifyComplete (im : ImageIn) (s : State) : Host.Outcome State Fault Refusal :=
  cmd true s (fun b => b.when (b.mgmtUp && b.mgmt.upd == 3) (fun b =>
    match b.mgmt.cur with
    | none => b
    | some k =>
      let ok := im.sigOk && decide (SMap.get 0 b.flash.rollback k ≤ im.secver)
      let ready := if ok then SMap.set none b.mgmt.ready k (some ⟨im.hash, im.secver, true⟩) else b.mgmt.ready
      let all := b.mgmt.comps.all (fun c => (SMap.get none ready c).isSome)
      let b1 := (({ b with mgmt := { b.mgmt with ready := ready, cur := none, upd := if all then 4 else 2 } }).send (.transferComplete k)).send (.verifyComplete k ok)
      if ok then b1.send (.applyComplete k) else b1))

/-- The verified images staged (R60, R479). -/
def Blk.stage (b : Blk) : Blk :=
  { b with lid := { b.lid with staged := b.mgmt.ready.foldl (fun m e => SMap.set none m e.1 e.2) b.lid.staged },
           mgmt := { b.mgmt with upd := 5, comps := [], cur := none, ready := [] } }

/-- ACTIVATE_FIRMWARE (R60, R479): completes once the images are staged; not while a staged image of such a kind is starting (log entry 46). -/
def execActivateFirmware (s : State) : Host.Outcome State Fault Refusal :=
  cmd true s (fun b => b.request (fun b =>
    if b.mgmt.upd ≠ 4 ∨ b.mgmt.ready.any (fun e => SMap.get 0 b.lid.trying e.1 != 0) then b.mgmtOrder else b.stage.mgmtAnswer 0 []))

/-- GET_STATUS (R479). -/
def execGetStatus (s : State) : Host.Outcome State Fault Refusal := cmd true s (fun b => b.request (fun b => b.mgmtAnswer 0 [b.updState]))

/-- CANCEL_UPDATE_COMPONENT (R478). -/
def execCancelUpdateComponent (s : State) : Host.Outcome State Fault Refusal :=
  cmd true s (fun b => b.request (fun b =>
    if b.mgmt.upd = 3 then ({ b with mgmt := { b.mgmt with upd := 2, cur := none } }).mgmtAnswer 0 [] else b.mgmtOrder))

/-- CANCEL_UPDATE (R478): images not staged are given up. -/
def execCancelUpdate (s : State) : Host.Outcome State Fault Refusal :=
  cmd true s (fun b => b.request (fun b =>
    if 1 ≤ b.mgmt.upd ∧ b.mgmt.upd ≤ 4 then
      ({ b with mgmt := { b.mgmt with upd := 0, comps := [], cur := none, ready := [] } }).mgmtAnswer 0 []
    else b.mgmtOrder))

end Sys2Proof.Machine
end

