-- ==== Sys2Proof/Machine/RegRows.lean ====
section
/-! DEFINITION. The commands that are register accesses (R81–R95), one per row of the table, and a hoop core's access to physical memory (R235–R239). -/

namespace Sys2Proof.Machine

/-- The window offset of a register has at most 27 bits, its word 32 (R82, R234). -/
def accOk (ini : Ini) (off v : Nat) : Bool := iniOk ini && decide (off < 2 ^ 27) && decide (v < 2 ^ 32)

/-- A register of one instance: the initiator and the page exist, the value fits the field. -/
def fldOk (ini : Ini) (p : Page) (i : Nat) (f : Fld) (v : Nat) : Bool := iniOk ini && pageOk p i && decide (v < 2 ^ f.w)

/-! ## Accesses without a row of their own -/

/-- REGISTER_WRITE (R94). -/
def execRegisterWrite (ini : Ini) (off v : Nat) (s : State) : Host.Outcome State Fault Refusal := cmd (accOk ini off v) s (fun b => b.write ini off v)

/-- Whether a window offset is the `_LO` half of a pair, or of a pair that is written. -/
def loAt (off : Nat) : Bool := match pageAt (off / 4096 * 4096) with | some (p, _) => pairLo p (off % 4096) | none => false
def rwLoAt (off : Nat) : Bool := match pageAt (off / 4096 * 4096) with | some (p, i) => rwPair p i (off % 4096) | none => false

/-- PAIR_LO_READ (R85). -/
def execPairLoRead (ini : Ini) (off : Nat) (s : State) : Host.Outcome State Fault Refusal := cmd (accOk ini off 0 && loAt off) s (fun b => b.read ini off)

/-- PAIR_LO_WRITE (R85). -/
def execPairLoWrite (ini : Ini) (off v : Nat) (s : State) : Host.Outcome State Fault Refusal :=
  cmd (accOk ini off v && rwLoAt off) s (fun b => b.write ini off v)

/-- PAIR_HI_WRITE (R85). -/
def execPairHiWrite (ini : Ini) (off v : Nat) (s : State) : Host.Outcome State Fault Refusal :=
  cmd (accOk ini off v && decide (4 ≤ off % 4096) && rwLoAt (off - 4)) s (fun b => b.write ini off v)

/-! ## The common header (R86–R101) -/

/-- PG_CTRL_ENABLE (R97). -/
def execPgCtrlEnable (ini : Ini) (pg : Page) (i : Nat) (on : Bool) (s : State) : Host.Outcome State Fault Refusal :=
  cmd (iniOk ini && pageOk pg i) s (fun b => b.writeField ini pg i (R.PG_CTRL_ENABLE pg) (b2n on))

/-- PG_CTRL_QUIESCE_REQ (R97). -/
def execPgCtrlQuiesceReq (ini : Ini) (pg : Page) (i : Nat) (on : Bool) (s : State) : Host.Outcome State Fault Refusal :=
  cmd (iniOk ini && pageOk pg i) s (fun b => b.writeField ini pg i (R.PG_CTRL_QUIESCE_REQ pg) (b2n on))

/-- PG_CTRL_ISOLATE (R97, R100). -/
def execPgCtrlIsolate (ini : Ini) (pg : Page) (i : Nat) (on : Bool) (s : State) : Host.Outcome State Fault Refusal :=
  cmd (iniOk ini && pageOk pg i) s (fun b => b.writeField ini pg i (R.PG_CTRL_ISOLATE pg) (b2n on))

/-- BLOCK_RESET (R101). -/
def execBlockReset (ini : Ini) (pg : Page) (i : Nat) (s : State) : Host.Outcome State Fault Refusal :=
  cmd (iniOk ini && pageOk pg i) s (fun b => b.writeField ini pg i (R.PG_CTRL_BLOCK_RESET pg) 1)

/-- PG_EVENT_CLEAR (R86, R91). -/
def execPgEventClear (ini : Ini) (pg : Page) (i v : Nat) (s : State) : Host.Outcome State Fault Refusal :=
  cmd (iniOk ini && pageOk pg i && decide (v < 2 ^ 32)) s (fun b => b.write ini (regAt pg i 0x014) v)

/-- PG_LOCK (R88). -/
def execPgLock (ini : Ini) (pg : Page) (i : Nat) (s : State) : Host.Outcome State Fault Refusal :=
  cmd (iniOk ini && pageOk pg i) s (fun b => b.writeField ini pg i (R.PG_LOCK pg) 1)

/-- PG_OWNER_WRITE (R87). -/
def execPgOwnerWrite (ini : Ini) (pg : Page) (i v : Nat) (s : State) : Host.Outcome State Fault Refusal :=
  cmd (fldOk ini pg i (R.PG_OWNER pg) v) s (fun b => b.writeField ini pg i (R.PG_OWNER pg) v)

/-! ## LID -/

/-- FORCE_CLEAR (R45). -/
def execForceClear (ini : Ini) (s : State) : Host.Outcome State Fault Refusal :=
  cmd (iniOk ini) s (fun b => b.writeField ini .lid 0 R.LID_ZERO_CTRL_FORCE_CLEAR 1)

/-- CLAIM_ARM (R47). -/
def execClaimArm (ini : Ini) (s : State) : Host.Outcome State Fault Refusal := cmd (iniOk ini) s (fun b => b.writeField ini .lid 0 R.LID_CLAIM_ARM 1)

/-- LID_DOMAIN_REKEY (R58). -/
def execLidDomainRekey (ini : Ini) (mask : Nat) (s : State) : Host.Outcome State Fault Refusal :=
  cmd (fldOk ini .lid 0 R.LID_DOMAIN_REKEY mask) s (fun b => b.writeField ini .lid 0 R.LID_DOMAIN_REKEY mask)

/-- LID_DEBUG_CLOSE (R74). -/
def execLidDebugClose (ini : Ini) (s : State) : Host.Outcome State Fault Refusal := cmd (iniOk ini) s (fun b => b.writeField ini .lid 0 R.LID_DEBUG_CLOSE 1)

/-- LID_LOG_GET (R71). -/
def execLidLogGet (ini : Ini) (v : Nat) (s : State) : Host.Outcome State Fault Refusal :=
  cmd (fldOk ini .lid 0 R.LID_LOG_GET v) s (fun b => b.writeField ini .lid 0 R.LID_LOG_GET v)

/-- LID_LOG_BASE (R71): both halves of the pair (R85). -/
def execLidLogBase (ini : Ini) (v : Nat) (s : State) : Host.Outcome State Fault Refusal :=
  cmd (iniOk ini && decide (v < 2 ^ 48)) s (fun b =>
    (b.write ini (regAt .lid 0 R.LID_LOG_BASE_LO.off) (v % 2 ^ 32)).write ini (regAt .lid 0 R.LID_LOG_BASE_HI.off) (v / 2 ^ 32))

/-! ## BEAT, STAKE, SCHED, SUM, ROW -/

/-- BEAT_PERIOD (R107). -/
def execBeatPeriod (ini : Ini) (v : Nat) (s : State) : Host.Outcome State Fault Refusal :=
  cmd (fldOk ini .beat 0 R.BEAT_PERIOD v) s (fun b => b.writeField ini .beat 0 R.BEAT_PERIOD v)

/-- BEAT_CTRL_STRICT (R113). -/
def execBeatCtrlStrict (ini : Ini) (on : Bool) (s : State) : Host.Outcome State Fault Refusal :=
  cmd (iniOk ini) s (fun b => b.writeField ini .beat 0 R.BEAT_CTRL_STRICT (b2n on))

/-- BEAT_CTRL_SYNC_EN (R115). -/
def execBeatCtrlSyncEn (ini : Ini) (on : Bool) (s : State) : Host.Outcome State Fault Refusal :=
  cmd (iniOk ini) s (fun b => b.writeField ini .beat 0 R.BEAT_CTRL_SYNC_EN (b2n on))

/-- BEAT_CTRL_SYNC_OUT_EN (R121). -/
def execBeatCtrlSyncOutEn (ini : Ini) (on : Bool) (s : State) : Host.Outcome State Fault Refusal :=
  cmd (iniOk ini) s (fun b => b.writeField ini .beat 0 R.BEAT_CTRL_SYNC_OUT_EN (b2n on))

/-- A write of STAKE_CMD (R160, R171). -/
def Blk.stakeWrite (b : Blk) (ini : Ini) (t : Tid) (c : Nat) : Blk := b.write ini (regAt .stake t.stake R.STAKE_CMD_CMD.off) (t.thread + 16 * c)

/-- STAKE_START (R160). -/
def execStakeStart (ini : Ini) (t : Tid) (s : State) : Host.Outcome State Fault Refusal := cmd (iniOk ini && tidOk t) s (fun b => b.stakeWrite ini t 1)

/-- STAKE_PAUSE (R160). -/
def execStakePause (ini : Ini) (t : Tid) (s : State) : Host.Outcome State Fault Refusal := cmd (iniOk ini && tidOk t) s (fun b => b.stakeWrite ini t 2)

/-- STAKE_RESUME (R160). -/
def execStakeResume (ini : Ini) (t : Tid) (s : State) : Host.Outcome State Fault Refusal := cmd (iniOk ini && tidOk t) s (fun b => b.stakeWrite ini t 3)

/-- STAKE_RELEASE (R160). -/
def execStakeRelease (ini : Ini) (t : Tid) (s : State) : Host.Outcome State Fault Refusal := cmd (iniOk ini && tidOk t) s (fun b => b.stakeWrite ini t 4)

/-- STAKE_RELEASE_SKIP (R160). -/
def execStakeReleaseSkip (ini : Ini) (t : Tid) (s : State) : Host.Outcome State Fault Refusal :=
  cmd (iniOk ini && tidOk t) s (fun b => b.stakeWrite ini t 5)

/-- STAKE_KILL (R160). -/
def execStakeKill (ini : Ini) (t : Tid) (s : State) : Host.Outcome State Fault Refusal := cmd (iniOk ini && tidOk t) s (fun b => b.stakeWrite ini t 6)

/-- STAKE_ICACHE_INVALIDATE (R134). -/
def execStakeIcacheInvalidate (ini : Ini) (k : Nat) (s : State) : Host.Outcome State Fault Refusal :=
  cmd (fldOk ini .stake k R.STAKE_ICACHE 1) s (fun b => b.writeField ini .stake k R.STAKE_ICACHE 1)

/-- STAKE_REG_ACCESS (R162): register 0–31 of a thread as its pair, or its PC (32), read or written. -/
def execStakeRegAccess (ini : Ini) (t : Tid) (reg : Nat) (write : Option Nat) (s : State) : Host.Outcome State Fault Refusal :=
  cmd (iniOk ini && tidOk t && decide (reg ≤ 32) && decide (write.getD 0 < if reg = 32 then 2 ^ 32 else 2 ^ 64)) s (fun b =>
    let lo := regAt .stake t.stake (0x800 + 256 * t.thread + 8 * reg)
    let pc := regAt .stake t.stake (0x084 + 16 * t.thread)
    match write with
    | none => if reg = 32 then b.read ini pc else (b.read ini lo).read ini (lo + 4)
    | some v => if reg = 32 then b.write ini pc v else (b.write ini lo (v % 2 ^ 32)).write ini (lo + 4) (v / 2 ^ 32))

/-- SCHED_WL_PUT (R156). -/
def execSchedWlPut (ini : Ini) (w v : Nat) (s : State) : Host.Outcome State Fault Refusal :=
  cmd (fldOk ini .sched w R.SCHED_WL_PUT v) s (fun b => b.writeField ini .sched w R.SCHED_WL_PUT v)

/-- SCHED_PEAK_CLR (R169). -/
def execSchedPeakClr (ini : Ini) (w : Nat) (s : State) : Host.Outcome State Fault Refusal :=
  cmd (fldOk ini .sched w R.SCHED_SB_STATUS_PEAK_CLR 1) s (fun b => b.writeField ini .sched w R.SCHED_SB_STATUS_PEAK_CLR 1)

/-- SUM_POST_POP (R173). -/
def execSumPostPop (ini : Ini) (w : Nat) (s : State) : Host.Outcome State Fault Refusal :=
  cmd (iniOk ini && pageOk .sum w) s (fun b => b.read ini (regAt .sum w R.SUM_POST_LO.off))

/-- ROW_SIDE_CLR (R233). -/
def execRowSideClr (ini : Ini) (w : Nat) (s : State) : Host.Outcome State Fault Refusal :=
  cmd (fldOk ini .row w R.ROW_SIDE_CLR_START 1) s (fun b => b.writeField ini .row w R.ROW_SIDE_CLR_START 1)

/-! ## XLT -/

/-- XLT_INVAL_RANGE (R245): the range's start in XLT_INVAL_VA, then the command with scope 1. -/
def execXltInvalRange (ini : Ini) (va pages : Nat) (s : State) : Host.Outcome State Fault Refusal :=
  cmd (iniOk ini && decide (va < 2 ^ 48) && decide (pages < 2 ^ 24)) s (fun b =>
    ((b.write ini (regAt .xlt 0 R.XLT_INVAL_VA_LO.off) (va % 2 ^ 32)).write ini (regAt .xlt 0 R.XLT_INVAL_VA_HI.off) (va / 2 ^ 32)).write ini
      (regAt .xlt 0 R.XLT_INVAL_CMD_SCOPE.off) (1 + 256 * pages))

/-- XLT_INVAL_ALL (R245). -/
def execXltInvalAll (ini : Ini) (s : State) : Host.Outcome State Fault Refusal :=
  cmd (iniOk ini) s (fun b => b.write ini (regAt .xlt 0 R.XLT_INVAL_CMD_SCOPE.off) 2)

/-- A write of XLT_FAULT_CMD (R261). -/
def Blk.faultWrite (b : Blk) (ini : Ini) (action kind unit : Nat) : Blk :=
  b.write ini (regAt .xlt 0 R.XLT_FAULT_CMD_ACTION.off) (action + 16 * kind + 65536 * unit)

/-- XLT_FAULT_RESUME (R261). -/
def execXltFaultResume (ini : Ini) (kind unit : Nat) (s : State) : Host.Outcome State Fault Refusal :=
  cmd (iniOk ini && decide (kind < 16) && decide (unit < 2 ^ 15)) s (fun b => b.faultWrite ini 1 kind unit)

/-- XLT_FAULT_DISCARD (R261). -/
def execXltFaultDiscard (ini : Ini) (kind unit : Nat) (s : State) : Host.Outcome State Fault Refusal :=
  cmd (iniOk ini && decide (kind < 16) && decide (unit < 2 ^ 15)) s (fun b => b.faultWrite ini 2 kind unit)

/-- XLT_FQ_GET (R259). -/
def execXltFqGet (ini : Ini) (v : Nat) (s : State) : Host.Outcome State Fault Refusal :=
  cmd (fldOk ini .xlt 0 R.XLT_FQ_GET v) s (fun b => b.writeField ini .xlt 0 R.XLT_FQ_GET v)

/-- XLT_FQ_BASE (R259): both halves of the pair (R85). -/
def execXltFqBase (ini : Ini) (v : Nat) (s : State) : Host.Outcome State Fault Refusal :=
  cmd (iniOk ini && decide (v < 2 ^ 48)) s (fun b =>
    (b.write ini (regAt .xlt 0 R.XLT_FQ_BASE_LO.off) (v % 2 ^ 32)).write ini (regAt .xlt 0 R.XLT_FQ_BASE_HI.off) (v / 2 ^ 32))

/-! ## BANK, LOSS -/

/-- A write of BANK_CMD (R276, R293). -/
def Blk.bankWrite (b : Blk) (ini : Ini) (n c : Nat) : Blk := b.writeField ini .bank n R.BANK_CMD c

/-- BANK_RESUME (R276). -/
def execBankResume (ini : Ini) (n : Nat) (s : State) : Host.Outcome State Fault Refusal := cmd (iniOk ini && pageOk .bank n) s (fun b => b.bankWrite ini n 1)

/-- BANK_ABANDON (R276). -/
def execBankAbandon (ini : Ini) (n : Nat) (s : State) : Host.Outcome State Fault Refusal := cmd (iniOk ini && pageOk .bank n) s (fun b => b.bankWrite ini n 2)

/-- BANK_SKIP (R272). -/
def execBankSkip (ini : Ini) (n : Nat) (s : State) : Host.Outcome State Fault Refusal := cmd (iniOk ini && pageOk .bank n) s (fun b => b.bankWrite ini n 3)

/-- BANK_PAUSE (R293). -/
def execBankPause (ini : Ini) (n : Nat) (on : Bool) (s : State) : Host.Outcome State Fault Refusal :=
  cmd (iniOk ini && pageOk .bank n) s (fun b => b.writeField ini .bank n R.BANK_CTRL_PAUSE (b2n on))

/-- GATE_CLR (R272). -/
def execGateClr (ini : Ini) (n : Nat) (s : State) : Host.Outcome State Fault Refusal :=
  cmd (iniOk ini && pageOk .bank n) s (fun b => b.writeField ini .bank n R.BANK_CTRL_GATE_CLR 1)

/-- LOSS_RELEASE (R282). -/
def execLossRelease (ini : Ini) (s : State) : Host.Outcome State Fault Refusal := cmd (iniOk ini) s (fun b => b.writeField ini .loss 0 R.LOSS_RELEASE 1)

/-- LOSS_STATS_RESET (R282). -/
def execLossStatsReset (ini : Ini) (s : State) : Host.Outcome State Fault Refusal := cmd (iniOk ini) s (fun b => b.writeField ini .loss 0 R.LOSS_CTRL_RESET 1)

/-! ## Near and far ports -/

/-- LINK_TRAINING (R325): a write of NLNK_CTRL.TRAIN. -/
def execLinkTraining (ini : Ini) (p : Nat) (on : Bool) (s : State) : Host.Outcome State Fault Refusal :=
  cmd (iniOk ini && pageOk .nlnk p) s (fun b => b.writeField ini .nlnk p R.NLNK_CTRL_TRAIN (b2n on))

/-- NLNK_LOAD_RETRY (R329). -/
def execNlnkLoadRetry (ini : Ini) (p : Nat) (s : State) : Host.Outcome State Fault Refusal :=
  cmd (iniOk ini && pageOk .nlnk p) s (fun b => b.writeField ini .nlnk p R.NLNK_LOAD_CTRL_RETRY 1)

/-- NLNK_FORCE4 (R331). -/
def execNlnkForce4 (ini : Ini) (p : Nat) (on : Bool) (s : State) : Host.Outcome State Fault Refusal :=
  cmd (iniOk ini && pageOk .nlnk p) s (fun b => b.writeField ini .nlnk p R.NLNK_CTRL_FORCE4 (b2n on))

/-- NRED_ABORT_GO (R344). -/
def execNredAbortGo (ini : Ini) (p : Nat) (s : State) : Host.Outcome State Fault Refusal :=
  cmd (iniOk ini && pageOk .nred p) s (fun b => b.writeField ini .nred p R.NRED_ABORT_GO 1)

/-- NRED_SLOTS_GRANT (R308). -/
def execNredSlotsGrant (ini : Ini) (p v : Nat) (s : State) : Host.Outcome State Fault Refusal :=
  cmd (fldOk ini .nred p R.NRED_SLOTS_GRANT v) s (fun b => b.writeField ini .nred p R.NRED_SLOTS_GRANT v)

/-- FXP_CTRL_EN (R389): the write, and what partners answer in the session exchange that it starts. -/
def execFxpCtrlEn (ini : Ini) (f : Nat) (on : Bool) (answers : List FarAnswer) (s : State) : Host.Outcome State Fault Refusal :=
  cmd (iniOk ini && pageOk .fxp f && answers.all (fun a => decide (a.site < 8))) s (fun b =>
    let b1 := b.writeField ini .fxp f R.FXP_CTRL_EN (b2n on)
    if b1.on R.FXP_CTRL_EN && (b1.serving .fxp 0 || b1.serving .fxp 1) then b1.each answers Blk.sessionAnswer else b1)

/-- FXP_RX_FREE (R400). -/
def execFxpRxFree (ini : Ini) (f v : Nat) (s : State) : Host.Outcome State Fault Refusal :=
  cmd (fldOk ini .fxp f R.FXP_RX_FREE v) s (fun b => b.writeField ini .fxp f R.FXP_RX_FREE v)

/-- FXP_CTRL_JOIN (R405). -/
def execFxpCtrlJoin (ini : Ini) (f : Nat) (s : State) : Host.Outcome State Fault Refusal :=
  cmd (iniOk ini && pageOk .fxp f) s (fun b => b.writeField ini .fxp f R.FXP_CTRL_JOIN 1)

/-- FXP_ROUND (R405). -/
def execFxpRound (ini : Ini) (f v : Nat) (s : State) : Host.Outcome State Fault Refusal :=
  cmd (fldOk ini .fxp f R.FXP_ROUND v) s (fun b => b.writeField ini .fxp f R.FXP_ROUND v)

/-! ## TEL, PWC -/

/-- TEL_CAP (R422). -/
def execTelCap (ini : Ini) (v : Nat) (s : State) : Host.Outcome State Fault Refusal :=
  cmd (fldOk ini .tel 0 R.TEL_CAP v) s (fun b => b.writeField ini .tel 0 R.TEL_CAP v)

/-- TEL_GROUP (R427): the whole register, GROUP in [7:0] and SHIFT_MAX in [17:8]. -/
def execTelGroup (ini : Ini) (v : Nat) (s : State) : Host.Outcome State Fault Refusal :=
  cmd (iniOk ini && decide (v < 2 ^ 18)) s (fun b => b.write ini (regAt .tel 0 R.TEL_GROUP_GROUP.off) v)

/-- PWC_PHASE_TAB (R421). -/
def execPwcPhaseTab (ini : Ini) (k v : Nat) (s : State) : Host.Outcome State Fault Refusal :=
  cmd (iniOk ini && decide (k < 64) && decide (v < 2 ^ 16)) s (fun b => b.writeField ini .pwc 0 (R.PWC_PHASE_TAB.at k) v)

/-! ## BOOT, WALE -/

/-- BOOT_BUDGET (R444). -/
def execBootBudget (ini : Ini) (v : Nat) (s : State) : Host.Outcome State Fault Refusal :=
  cmd (fldOk ini .boot 0 R.BOOT_BUDGET v) s (fun b => b.writeField ini .boot 0 R.BOOT_BUDGET v)

/-- BOOT_RESET (R439). -/
def execBootReset (ini : Ini) (s : State) : Host.Outcome State Fault Refusal := cmd (iniOk ini) s (fun b => b.writeField ini .boot 0 R.BOOT_RESET 1)

/-- BOOT_SHUTDOWN (R445). -/
def execBootShutdown (ini : Ini) (s : State) : Host.Outcome State Fault Refusal := cmd (iniOk ini) s (fun b => b.writeField ini .boot 0 R.BOOT_SHUTDOWN 1)

/-- A write of BOOT_BIST_CMD (R456). -/
def Blk.bistWrite (b : Blk) (ini : Ini) (action kind inst : Nat) : Blk :=
  b.write ini (regAt .boot 0 R.BOOT_BIST_CMD_ACTION.off) (action + 256 * kind + 65536 * inst)

/-- BIST_TEST (R451). -/
def execBistTest (ini : Ini) (kind inst : Nat) (s : State) : Host.Outcome State Fault Refusal :=
  cmd (iniOk ini && decide (kind < 4) && decide (inst < 2 ^ 16)) s (fun b => b.bistWrite ini 1 kind inst)

/-- BIST_RETIRE (R451). -/
def execBistRetire (ini : Ini) (kind inst : Nat) (s : State) : Host.Outcome State Fault Refusal :=
  cmd (iniOk ini && decide (kind < 4) && decide (inst < 2 ^ 16)) s (fun b => b.bistWrite ini 2 kind inst)

/-- WALE_TEST (R457). -/
def execWaleTest (ini : Ini) (w : Nat) (s : State) : Host.Outcome State Fault Refusal :=
  cmd (iniOk ini && pageOk .wale w) s (fun b => b.writeField ini .wale w R.WALE_REQ_TEST 1)

/-- WALE_RETIRE (R457). -/
def execWaleRetire (ini : Ini) (w : Nat) (s : State) : Host.Outcome State Fault Refusal :=
  cmd (iniOk ini && pageOk .wale w) s (fun b => b.writeField ini .wale w R.WALE_REQ_RETIRE 1)

/-! ## Hoop -/

/-- HOOP_MIGRATE (R453). -/
def execHoopMigrate (ini : Ini) (s : State) : Host.Outcome State Fault Refusal := cmd (iniOk ini) s (fun b => b.writeField ini .hoop 0 R.HOOP_MIGRATE_GO 1)

/-- HOOP_G_PARKED (R453, R459). -/
def execHoopGParked (ini : Ini) (g v : Nat) (s : State) : Host.Outcome State Fault Refusal :=
  cmd (fldOk ini .hoopg g R.HOOP_G_PARKED v) s (fun b => b.writeField ini .hoopg g R.HOOP_G_PARKED v)

/-- HOOP_G_CLAIM (R453, R459). -/
def execHoopGClaim (ini : Ini) (g v : Nat) (s : State) : Host.Outcome State Fault Refusal :=
  cmd (fldOk ini .hoopg g R.HOOP_G_CLAIM v) s (fun b => b.writeField ini .hoopg g R.HOOP_G_CLAIM v)

/-- HOOP_CORE_GROUP (R458): the word of cores 8k to 8k + 7. -/
def execHoopCoreGroup (ini : Ini) (k v : Nat) (s : State) : Host.Outcome State Fault Refusal :=
  cmd (iniOk ini && decide (k < 4) && decide (v < 2 ^ 32)) s (fun b => b.write ini (regAt .hoop 0 (0x040 + 4 * k)) v)

/-- HOOP_DMA_DOORBELL (R459). -/
def execHoopDmaDoorbell (ini : Ini) (g v : Nat) (s : State) : Host.Outcome State Fault Refusal :=
  cmd (fldOk ini .hoopg g R.HOOP_G_DQ_PUT v) s (fun b => b.writeField ini .hoopg g R.HOOP_G_DQ_PUT v)

/-- HOOP_G_EVT_GET (R460). -/
def execHoopGEvtGet (ini : Ini) (g v : Nat) (s : State) : Host.Outcome State Fault Refusal :=
  cmd (fldOk ini .hoopg g R.HOOP_G_EVT_GET v) s (fun b => b.writeField ini .hoopg g R.HOOP_G_EVT_GET v)

/-! ### A hoop core's loads and stores -/

/-- The line of a physical address in the hoop's caches, where they hold it (R239). -/
def Blk.cacheLine (b : Blk) (pa : Nat) : Option CLine := SMap.get none b.hoop.cache (pa / 64)

/-- A line of the hoop's caches set or given up. -/
def Blk.cacheSet (b : Blk) (line : Nat) (l : Option CLine) : Blk := { b with hoop := { b.hoop with cache := SMap.set none b.hoop.cache line l } }

/-- A changed line written to memory with the class that brought it; what the memory refuses is lost (R239). -/
def Blk.lineBack (b : Blk) (line : Nat) (l : CLine) : Blk :=
  if l.dirty then (b.storePa l.cls none (bits line 36 3) (line * 64 % 2 ^ 42) (natLe 64 l.val)).1 else b

/-- The bytes of a hoop core's load within one line: from the caches where they hold the line, else from memory (R235, R237, R239). -/
def Blk.linePart (b : Blk) (cls pa n : Nat) : Except Fail (List Byte) :=
  match b.cacheLine pa with
  | some l => .ok (natLe n (bits l.val (pa % 64 * 8) (8 * n)))
  | none => b.readPa cls (bits pa 42 3) (pa % 2 ^ 42) n

/-- The bytes of a hoop core's store within one line: into the caches where they hold the line, else to memory. -/
def Blk.linePut (b : Blk) (cls pa : Nat) (l : List Byte) : Blk × Option Fail :=
  match b.cacheLine pa with
  | some c =>
    let v := c.val - bits c.val (pa % 64 * 8) (8 * l.length) * 2 ^ (pa % 64 * 8) + leNat l * 2 ^ (pa % 64 * 8)
    (b.cacheSet (pa / 64) (some { c with val := v, dirty := true }), none)
  | none => b.writePa cls (bits pa 42 3) (pa % 2 ^ 42) l

/-- A load of `n` bytes, at most 64, at a physical address: the part in its first line and the part in the next. -/
def Blk.coreLoad (b : Blk) (cls pa n : Nat) : Except Fail (List Byte) :=
  let k := min n (64 - pa % 64)
  match b.linePart cls pa k with
  | .error f => .error f
  | .ok l =>
    if k = n then .ok l
    else match b.linePart cls (pa + k) (n - k) with
      | .error f => .error f
      | .ok m => .ok (l ++ m)

/-- A store of at most 64 bytes at a physical address. -/
def Blk.coreStore (b : Blk) (cls pa : Nat) (l : List Byte) : Blk × Option Fail :=
  let k := min l.length (64 - pa % 64)
  match b.linePut cls pa (l.take k) with
  | (b', some f) => (b', some f)
  | (b', none) => if k = l.length then (b', none) else b'.linePut cls (pa + k) (l.drop k)

/-- An uncorrectable line met by a hoop core: the mark at its controller; which hoop unit the record names is free (log entry 12). -/
def Blk.coreUe (b : Blk) (cls : Nat) (f : Fail) : Blk := if f.cls = eEcc then (b.draw).2.memUe f.pa cls ((b.draw).1 % 2 ^ 15) else b

/-- A read or a write of `n` bytes at a physical address by a hoop core (R235, R237, R239, R252–R255). -/
def Blk.coreMem (b : Blk) (core cls pa : Nat) (write : Bool) (n data : Nat) : Blk :=
  if write then
    match b.coreStore cls pa (natLe n data) with
    | (b', none) => b'.respond (.core core) 0 0
    | (b', some f) => (b'.coreUe cls f).respond (.core core) 0 f.cls
  else
    match b.coreLoad cls pa n with
    | .ok l => b.respond (.core core) (leNat l) 0
    | .error f => (b.coreUe cls f).respond (.core core) 0 f.cls

/-- Whether an access of a hoop core at a physical address takes an access-fault exception (R238, R239). -/
def Blk.corePaFault (b : Blk) (core pa : Nat) : Bool :=
  decide (b.iniClass (.core core) = 0) || decide (2 ^ 45 ≤ pa)
    || (match region (pa % 2 ^ 42) with
        | .slow _ => true
        | .hbm _ => (b.coreGroup core == 0) != (bits pa 42 3 == 0)
        | _ => false)

/-- A hoop core's access at the physical address that Sv48 has produced (R238, R239): bits [41:0] the device physical address, [44:42] the domain, [55:45] 0. In SAFE
every O path is closed (R45). -/
def Blk.coreAccess (b : Blk) (core pa : Nat) (write : Bool) (n data : Nat) : Blk :=
  let cls := b.iniClass (.core core)
  let dpa := pa % 2 ^ 42
  if b.corePaFault core pa then b.send (.coreFault core)
  else if region dpa = .reg then
    if n ≠ 4 then b.respond (.core core) 0 eDenied
    else if write then b.write (.core core) (dpa - regLo) data else b.read (.core core) (dpa - regLo)
  else if b.own = 3 ∧ cls ≠ clsV then b.respond (.core core) 0 eDenied
  else b.coreMem core cls pa write n data

/-- How an Sv48 walk ends: a physical address, a page fault, or an access fault at a table entry. -/
inductive SvEnd where
  | pa (a : Nat)
  | page
  | access
  deriving DecidableEq, Repr

/-- An Sv48 walk from level `fuel − 1` down, its table at page number `ppn` (R238; the entry format is that of the RISC-V privileged architecture: log entry 64). -/
def Blk.svWalk (b : Blk) (core va : Nat) (write : Bool) : (fuel ppn : Nat) → SvEnd
  | 0, _ => .page
  | k + 1, ppn =>
    let pa := ppn * 4096 + 8 * bits va (12 + 9 * k) 9
    if b.corePaFault core pa || region (pa % 2 ^ 42) == .reg then .access
    else match b.coreLoad (b.iniClass (.core core)) pa 8 with
      | .error _ => .access
      | .ok l =>
        let e := leNat l
        let r := e.testBit 1
        let w := e.testBit 2
        if !e.testBit 0 || (!r && w) || bits e 54 10 != 0 then .page
        else if !r && !e.testBit 3 then b.svWalk core va write k (bits e 10 44)
        else if bits e 10 (9 * k) != 0 || (if write then !w else !r) then .page
        else .pa (bits e 10 44 * 4096 + bits va 0 (12 + 9 * k))

/-- The physical address of a hoop core's access: its own address while the core does not translate, else what Sv48 makes of a 48-bit address, sign-extended (R238). -/
def Blk.corePa (b : Blk) (core a : Nat) (write : Bool) : SvEnd :=
  match SMap.get none b.hoop.roots core with
  | none => .pa a
  | some root => if bits a 47 17 = 0 ∨ bits a 47 17 = 2 ^ 17 - 1 then b.svWalk core a write 4 root else .page

/-- HOOP_MEMORY_ACCESS (R235–R239): an access of 1 to 64 bytes, a power of two, at the address that the core's software uses. -/
def execHoopMemoryAccess (core a : Nat) (write : Bool) (n data : Nat) (s : State) : Host.Outcome State Fault Refusal :=
  cmd (decide (core < 32) && decide (a < 2 ^ 64) && [1, 2, 4, 8, 16, 32, 64].contains n && decide (data < 256 ^ n)) s (fun b =>
    match b.corePa core a write with
    | .pa pa => b.coreAccess core pa write n data
    | .page => b.send (.corePageFault core)
    | .access => b.send (.coreFault core))

/-- The caches take a line: its 64 bytes from memory, where the core may read them and the line is not in the register window (R239). -/
def Blk.cacheFill (b : Blk) (core pa : Nat) : Blk :=
  let cls := b.iniClass (.core core)
  let line := pa / 64
  if b.corePaFault core pa || region (pa % 2 ^ 42) == .reg || (b.own == 3 && cls != clsV) || (b.cacheLine pa).isSome then b
  else match b.readPa cls (bits pa 42 3) (line * 64 % 2 ^ 42) 64 with
    | .ok l => b.cacheSet line (some { cls := cls, val := leNat l })
    | .error f => b.coreUe cls f

/-- A line leaves the caches; a changed one goes to memory (R239). -/
def Blk.cacheEvict (b : Blk) (line : Nat) : Blk :=
  match SMap.get none b.hoop.cache line with
  | none => b
  | some l => (b.lineBack line l).cacheSet line none

/-- A Zicbom instruction (R239): clean writes a changed line to memory, invalidate drops the line, flush does both. -/
def Blk.cacheOp (b : Blk) (core pa : Nat) (clean inval : Bool) : Blk :=
  if b.corePaFault core pa then b.send (.coreFault core)
  else match b.cacheLine pa with
    | none => b
    | some l =>
      let b1 := if clean then b.lineBack (pa / 64) l else b
      b1.cacheSet (pa / 64) (if inval then none else some { l with dirty := l.dirty && !clean })

end Sys2Proof.Machine
end

