-- ==== Sys2Proof/Machine/Dispatch.lean ====
section
/-! DEFINITION. One arm per command: its meaning. -/

namespace Sys2Proof.Machine

def exec (i : Instr) (s : State) : Host.Outcome State Fault Refusal :=
  match i with
  | .ownerClaim tok => Sys2Proof.Machine.execOwnerClaim tok s
  | .ownerRelease tok => Sys2Proof.Machine.execOwnerRelease tok s
  | .forceClear ini => Sys2Proof.Machine.execForceClear ini s
  | .serviceToken viaMgmt tok => Sys2Proof.Machine.execServiceToken viaMgmt tok s
  | .serviceConsent => Sys2Proof.Machine.execServiceConsent s
  | .serviceHoldLapse consent => Sys2Proof.Machine.execServiceHoldLapse consent s
  | .serviceExit => Sys2Proof.Machine.execServiceExit s
  | .zeroiseQuiesceEnd => Sys2Proof.Machine.execZeroiseQuiesceEnd s
  | .zeroiseMediaDone => Sys2Proof.Machine.execZeroiseMediaDone s
  | .claimArm ini => Sys2Proof.Machine.execClaimArm ini s
  | .claimWindowExpire => Sys2Proof.Machine.execClaimWindowExpire s
  | .claimLeftTick => Sys2Proof.Machine.execClaimLeftTick s
  | .lidDomainRekey ini mask => Sys2Proof.Machine.execLidDomainRekey ini mask s
  | .domainKeyInstalled d => Sys2Proof.Machine.execDomainKeyInstalled d s
  | .firmwareApproval tok => Sys2Proof.Machine.execFirmwareApproval tok s
  | .imageReadyPoint kind => Sys2Proof.Machine.execImageReadyPoint kind s
  | .debugOpen tok => Sys2Proof.Machine.execDebugOpen tok s
  | .lidDebugClose ini => Sys2Proof.Machine.execLidDebugClose ini s
  | .nearRekeyDue p => Sys2Proof.Machine.execNearRekeyDue p s
  | .keyNext p e => Sys2Proof.Machine.execKeyNext p e s
  | .nearKeyInstalled p => Sys2Proof.Machine.execNearKeyInstalled p s
  | .keyReady p e => Sys2Proof.Machine.execKeyReady p e s
  | .keyRetire p e => Sys2Proof.Machine.execKeyRetire p e s
  | .farRekeyDue peer age => Sys2Proof.Machine.execFarRekeyDue peer age s
  | .farPrevKeyExpire peer => Sys2Proof.Machine.execFarPrevKeyExpire peer s
  | .sanitisedWindowEnd sample => Sys2Proof.Machine.execSanitisedWindowEnd sample s
  | .lidLogGet ini v => Sys2Proof.Machine.execLidLogGet ini v s
  | .lidLogBase ini v => Sys2Proof.Machine.execLidLogBase ini v s
  | .registerWrite ini off v => Sys2Proof.Machine.execRegisterWrite ini off v s
  | .pairLoRead ini off => Sys2Proof.Machine.execPairLoRead ini off s
  | .pairLoWrite ini off v => Sys2Proof.Machine.execPairLoWrite ini off v s
  | .pairHiWrite ini off v => Sys2Proof.Machine.execPairHiWrite ini off v s
  | .pgCtrlEnable ini pg inst on => Sys2Proof.Machine.execPgCtrlEnable ini pg inst on s
  | .pgCtrlQuiesceReq ini pg inst on => Sys2Proof.Machine.execPgCtrlQuiesceReq ini pg inst on s
  | .pgCtrlIsolate ini pg inst on => Sys2Proof.Machine.execPgCtrlIsolate ini pg inst on s
  | .blockReset ini pg inst => Sys2Proof.Machine.execBlockReset ini pg inst s
  | .pgEventClear ini pg inst v => Sys2Proof.Machine.execPgEventClear ini pg inst v s
  | .pgLock ini pg inst => Sys2Proof.Machine.execPgLock ini pg inst s
  | .pgOwnerWrite ini pg inst v => Sys2Proof.Machine.execPgOwnerWrite ini pg inst v s
  | .blockInitDone pg inst => Sys2Proof.Machine.execBlockInitDone pg inst s
  | .blockInitTimeout pg inst => Sys2Proof.Machine.execBlockInitTimeout pg inst s
  | .blockDrained pg inst => Sys2Proof.Machine.execBlockDrained pg inst s
  | .quiesceTimeout pg inst => Sys2Proof.Machine.execQuiesceTimeout pg inst s
  | .blockSelfCheckFail pg inst => Sys2Proof.Machine.execBlockSelfCheckFail pg inst s
  | .beatTick m => Sys2Proof.Machine.execBeatTick m s
  | .workListTake w => Sys2Proof.Machine.execWorkListTake w s
  | .syncEdge x => Sys2Proof.Machine.execSyncEdge x s
  | .syncEvaluate => Sys2Proof.Machine.execSyncEvaluate s
  | .beatPeriod ini v => Sys2Proof.Machine.execBeatPeriod ini v s
  | .beatCtrlStrict ini on => Sys2Proof.Machine.execBeatCtrlStrict ini on s
  | .beatCtrlSyncEn ini on => Sys2Proof.Machine.execBeatCtrlSyncEn ini on s
  | .beatCtrlSyncOutEn ini on => Sys2Proof.Machine.execBeatCtrlSyncOutEn ini on s
  | .cdcTimeout p inst stopped live => Sys2Proof.Machine.execCdcTimeout p inst stopped live s
  | .creditTimeout t => Sys2Proof.Machine.execCreditTimeout t s
  | .nop t => Sys2Proof.Machine.execNop t s
  | .add t => Sys2Proof.Machine.execAdd t s
  | .sub t => Sys2Proof.Machine.execSub t s
  | .mul t => Sys2Proof.Machine.execMul t s
  | .mulhu t => Sys2Proof.Machine.execMulhu t s
  | .andOp t => Sys2Proof.Machine.execAndOp t s
  | .orOp t => Sys2Proof.Machine.execOrOp t s
  | .xor t => Sys2Proof.Machine.execXor t s
  | .sll t => Sys2Proof.Machine.execSll t s
  | .srl t => Sys2Proof.Machine.execSrl t s
  | .sra t => Sys2Proof.Machine.execSra t s
  | .min t => Sys2Proof.Machine.execMin t s
  | .max t => Sys2Proof.Machine.execMax t s
  | .minu t => Sys2Proof.Machine.execMinu t s
  | .maxu t => Sys2Proof.Machine.execMaxu t s
  | .slt t => Sys2Proof.Machine.execSlt t s
  | .sltu t => Sys2Proof.Machine.execSltu t s
  | .seq t => Sys2Proof.Machine.execSeq t s
  | .li t => Sys2Proof.Machine.execLi t s
  | .lih t => Sys2Proof.Machine.execLih t s
  | .sel t => Sys2Proof.Machine.execSel t s
  | .beq t => Sys2Proof.Machine.execBeq t s
  | .bne t => Sys2Proof.Machine.execBne t s
  | .blt t => Sys2Proof.Machine.execBlt t s
  | .bge t => Sys2Proof.Machine.execBge t s
  | .bltu t => Sys2Proof.Machine.execBltu t s
  | .bgeu t => Sys2Proof.Machine.execBgeu t s
  | .jal t => Sys2Proof.Machine.execJal t s
  | .jalr t => Sys2Proof.Machine.execJalr t s
  | .ld t => Sys2Proof.Machine.execLd t s
  | .st t => Sys2Proof.Machine.execSt t s
  | .amo t => Sys2Proof.Machine.execAmo t s
  | .issMat t => Sys2Proof.Machine.execIssMat t s
  | .issVec t => Sys2Proof.Machine.execIssVec t s
  | .issRow t => Sys2Proof.Machine.execIssRow t s
  | .issDma t => Sys2Proof.Machine.execIssDma t s
  | .issSum t => Sys2Proof.Machine.execIssSum t s
  | .twait t => Sys2Proof.Machine.execTwait t s
  | .fence t => Sys2Proof.Machine.execFence t s
  | .bar t => Sys2Proof.Machine.execBar t s
  | .bwait t => Sys2Proof.Machine.execBwait t s
  | .halt t => Sys2Proof.Machine.execHalt t s
  | .sumrd t => Sys2Proof.Machine.execSumrd t s
  | .rdid t => Sys2Proof.Machine.execRdid t s
  | .phase t => Sys2Proof.Machine.execPhase t s
  | .undefinedOpcode t => Sys2Proof.Machine.execUndefinedOpcode t s
  | .stakeStart ini t => Sys2Proof.Machine.execStakeStart ini t s
  | .stakePause ini t => Sys2Proof.Machine.execStakePause ini t s
  | .stakeResume ini t => Sys2Proof.Machine.execStakeResume ini t s
  | .stakeRelease ini t => Sys2Proof.Machine.execStakeRelease ini t s
  | .stakeReleaseSkip ini t => Sys2Proof.Machine.execStakeReleaseSkip ini t s
  | .stakeKill ini t => Sys2Proof.Machine.execStakeKill ini t s
  | .stakeIcacheInvalidate ini k => Sys2Proof.Machine.execStakeIcacheInvalidate ini k s
  | .stakeRegAccess ini t reg write => Sys2Proof.Machine.execStakeRegAccess ini t reg write s
  | .schedWlPut ini w v => Sys2Proof.Machine.execSchedWlPut ini w v s
  | .schedPeakClr ini w => Sys2Proof.Machine.execSchedPeakClr ini w s
  | .sumCombine w => Sys2Proof.Machine.execSumCombine w s
  | .sumPost w => Sys2Proof.Machine.execSumPost w s
  | .sumClear w => Sys2Proof.Machine.execSumClear w s
  | .sumLoss w => Sys2Proof.Machine.execSumLoss w s
  | .summaryOpEnd w => Sys2Proof.Machine.execSummaryOpEnd w s
  | .sumPostPop ini w => Sys2Proof.Machine.execSumPostPop ini w s
  | .matrixOpStart k => Sys2Proof.Machine.execMatrixOpStart k s
  | .matrixOpEnd k => Sys2Proof.Machine.execMatrixOpEnd k s
  | .matrixSuspend k addr => Sys2Proof.Machine.execMatrixSuspend k addr s
  | .chainOpStart k => Sys2Proof.Machine.execChainOpStart k s
  | .chainOpEnd k => Sys2Proof.Machine.execChainOpEnd k s
  | .chainSuspend k addr => Sys2Proof.Machine.execChainSuspend k addr s
  | .rowOpStart w => Sys2Proof.Machine.execRowOpStart w s
  | .rowOpEnd w => Sys2Proof.Machine.execRowOpEnd w s
  | .rowSuspend w addr => Sys2Proof.Machine.execRowSuspend w addr s
  | .rowSideClr ini w => Sys2Proof.Machine.execRowSideClr ini w s
  | .sideClearDone w => Sys2Proof.Machine.execSideClearDone w s
  | .leaveWindow d => Sys2Proof.Machine.execLeaveWindow d s
  | .dmaStreamStart c => Sys2Proof.Machine.execDmaStreamStart c s
  | .dmaStreamEnd c => Sys2Proof.Machine.execDmaStreamEnd c s
  | .dmaStreamFault c ue => Sys2Proof.Machine.execDmaStreamFault c ue s
  | .translationWalkEnd u va write v => Sys2Proof.Machine.execTranslationWalkEnd u va write v s
  | .xltInvalRange ini va pages => Sys2Proof.Machine.execXltInvalRange ini va pages s
  | .xltInvalAll ini => Sys2Proof.Machine.execXltInvalAll ini s
  | .invalComplete => Sys2Proof.Machine.execInvalComplete s
  | .xltFaultResume ini kind unit => Sys2Proof.Machine.execXltFaultResume ini kind unit s
  | .xltFaultDiscard ini kind unit => Sys2Proof.Machine.execXltFaultDiscard ini kind unit s
  | .xltFqGet ini v => Sys2Proof.Machine.execXltFqGet ini v s
  | .xltFqBase ini v => Sys2Proof.Machine.execXltFqBase ini v s
  | .scrubLine pa ce last => Sys2Proof.Machine.execScrubLine pa ce last s
  | .hoopMemoryAccess core pa write n data => Sys2Proof.Machine.execHoopMemoryAccess core pa write n data s
  | .applyDescriptorTake n => Sys2Proof.Machine.execApplyDescriptorTake n s
  | .applyChunkStart n => Sys2Proof.Machine.execApplyChunkStart n s
  | .applyChunkCommit n => Sys2Proof.Machine.execApplyChunkCommit n s
  | .applyChunkAbort n a => Sys2Proof.Machine.execApplyChunkAbort n a s
  | .applyRetry n => Sys2Proof.Machine.execApplyRetry n s
  | .bankResume ini n => Sys2Proof.Machine.execBankResume ini n s
  | .bankAbandon ini n => Sys2Proof.Machine.execBankAbandon ini n s
  | .bankSkip ini n => Sys2Proof.Machine.execBankSkip ini n s
  | .bankPause ini n on => Sys2Proof.Machine.execBankPause ini n on s
  | .gateClr ini n => Sys2Proof.Machine.execGateClr ini n s
  | .exportSend n => Sys2Proof.Machine.execExportSend n s
  | .lossValue => Sys2Proof.Machine.execLossValue s
  | .lossRelease ini => Sys2Proof.Machine.execLossRelease ini s
  | .lossStatsReset ini => Sys2Proof.Machine.execLossStatsReset ini s
  | .digestReady shard => Sys2Proof.Machine.execDigestReady shard s
  | .digestReceive src shard step d => Sys2Proof.Machine.execDigestReceive src shard step d s
  | .digestWaitExpire shard step => Sys2Proof.Machine.execDigestWaitExpire shard step s
  | .repairServe src shard part chunk step served => Sys2Proof.Machine.execRepairServe src shard part chunk step served s
  | .repairChunkReceive c => Sys2Proof.Machine.execRepairChunkReceive c s
  | .gatherReq q sent back step => Sys2Proof.Machine.execGatherReq q sent back step s
  | .gatherServe data => Sys2Proof.Machine.execGatherServe data s
  | .gatherPiece p group layer rank version data => Sys2Proof.Machine.execGatherPiece p group layer rank version data s
  | .handoverForward p h sent group => Sys2Proof.Machine.execHandoverForward p h sent group s
  | .handoverBackward p h sent group => Sys2Proof.Machine.execHandoverBackward p h sent group s
  | .countRecord p x n size sent => Sys2Proof.Machine.execCountRecord p x n size sent s
  | .expertTokens p x data sent => Sys2Proof.Machine.execExpertTokens p x data sent s
  | .flitReceive p f => Sys2Proof.Machine.execFlitReceive p f s
  | .nak p bit seq => Sys2Proof.Machine.execNak p bit seq s
  | .replayTimeout p => Sys2Proof.Machine.execReplayTimeout p s
  | .creditReturn p l slots => Sys2Proof.Machine.execCreditReturn p l slots s
  | .linkTraining ini p on => Sys2Proof.Machine.execLinkTraining ini p on s
  | .trainingStepDone p r => Sys2Proof.Machine.execTrainingStepDone p r s
  | .trainingStepTimeout p => Sys2Proof.Machine.execTrainingStepTimeout p s
  | .trainingRetry p => Sys2Proof.Machine.execTrainingRetry p s
  | .capabilityRecord p r => Sys2Proof.Machine.execCapabilityRecord p r s
  | .cableOvercurrent p ma => Sys2Proof.Machine.execCableOvercurrent p ma s
  | .loadSwitchReclose p => Sys2Proof.Machine.execLoadSwitchReclose p s
  | .nlnkLoadRetry ini p => Sys2Proof.Machine.execNlnkLoadRetry ini p s
  | .nlnkForce4 ini p on => Sys2Proof.Machine.execNlnkForce4 ini p on s
  | .laneFail p n => Sys2Proof.Machine.execLaneFail p n s
  | .width p w bad => Sys2Proof.Machine.execWidth p w bad s
  | .laneRetrainAttempt p good => Sys2Proof.Machine.execLaneRetrainAttempt p good s
  | .laneRestore p => Sys2Proof.Machine.execLaneRestore p s
  | .rate p k => Sys2Proof.Machine.execRate p k s
  | .backpressurePeriod p withheld low => Sys2Proof.Machine.execBackpressurePeriod p withheld low s
  | .sidebandRecord p r => Sys2Proof.Machine.execSidebandRecord p r s
  | .postTake => Sys2Proof.Machine.execPostTake s
  | .openMsg p k => Sys2Proof.Machine.execOpenMsg p k s
  | .grant p k => Sys2Proof.Machine.execGrant p k s
  | .bucketData p m => Sys2Proof.Machine.execBucketData p m s
  | .bucketDeadlineExpire k => Sys2Proof.Machine.execBucketDeadlineExpire k s
  | .abortMsg p step attempt cls origin group bucket => Sys2Proof.Machine.execAbortMsg p step attempt cls origin group bucket s
  | .nredAbortGo ini p => Sys2Proof.Machine.execNredAbortGo ini p s
  | .nredSlotsGrant ini p v => Sys2Proof.Machine.execNredSlotsGrant ini p v s
  | .joinAck p channel group => Sys2Proof.Machine.execJoinAck p channel group s
  | .reject p channel group => Sys2Proof.Machine.execReject p channel group s
  | .switchResult p r => Sys2Proof.Machine.execSwitchResult p r s
  | .codedBlockRerequest p k first block => Sys2Proof.Machine.execCodedBlockRerequest p k first block s
  | .codecBlockEncode c => Sys2Proof.Machine.execCodecBlockEncode c s
  | .codecBlockDecode c => Sys2Proof.Machine.execCodecBlockDecode c s
  | .fcodEncode f => Sys2Proof.Machine.execFcodEncode f s
  | .fcodDecode f => Sys2Proof.Machine.execFcodDecode f s
  | .fcodJobEnd f => Sys2Proof.Machine.execFcodJobEnd f s
  | .heartbeatTimer now answers => Sys2Proof.Machine.execHeartbeatTimer now answers s
  | .heartbeat h seq time turn => Sys2Proof.Machine.execHeartbeat h seq time turn s
  | .echo h sample => Sys2Proof.Machine.execEcho h sample s
  | .ack h below ranges window => Sys2Proof.Machine.execAck h below ranges window s
  | .dataRec h plain => Sys2Proof.Machine.execDataRec h plain s
  | .ackTimer peer => Sys2Proof.Machine.execAckTimer peer s
  | .resendTimeout peer rec => Sys2Proof.Machine.execResendTimeout peer rec s
  | .routeLostTimeout peer route => Sys2Proof.Machine.execRouteLostTimeout peer route s
  | .routeDown h route => Sys2Proof.Machine.execRouteDown h route s
  | .keyRec h e => Sys2Proof.Machine.execKeyRec h e s
  | .neighborDiscovery f m => Sys2Proof.Machine.execNeighborDiscovery f m s
  | .farFrameDrop f why => Sys2Proof.Machine.execFarFrameDrop f why s
  | .fxpCtrlEn ini f on answers => Sys2Proof.Machine.execFxpCtrlEn ini f on answers s
  | .sendDescriptorTake => Sys2Proof.Machine.execSendDescriptorTake s
  | .fxpRxFree ini f v => Sys2Proof.Machine.execFxpRxFree ini f v s
  | .manifestCloseTimeout => Sys2Proof.Machine.execManifestCloseTimeout s
  | .manifestSigned => Sys2Proof.Machine.execManifestSigned s
  | .manifest mid signer => Sys2Proof.Machine.execManifest mid signer s
  | .fetchWaitExpire mid => Sys2Proof.Machine.execFetchWaitExpire mid s
  | .fxpCtrlJoin ini f => Sys2Proof.Machine.execFxpCtrlJoin ini f s
  | .fxpRound ini f v => Sys2Proof.Machine.execFxpRound ini f v s
  | .supplyWarn => Sys2Proof.Machine.execSupplyWarn s
  | .supplyRecover => Sys2Proof.Machine.execSupplyRecover s
  | .warningRelease => Sys2Proof.Machine.execWarningRelease s
  | .bubbleRamp => Sys2Proof.Machine.execBubbleRamp s
  | .brownOut => Sys2Proof.Machine.execBrownOut s
  | .overVoltage => Sys2Proof.Machine.execOverVoltage s
  | .pwrAlert => Sys2Proof.Machine.execPwrAlert s
  | .alertRelease => Sys2Proof.Machine.execAlertRelease s
  | .fastLoop mw => Sys2Proof.Machine.execFastLoop mw s
  | .estimateCompare e m => Sys2Proof.Machine.execEstimateCompare e m s
  | .telCap ini v => Sys2Proof.Machine.execTelCap ini v s
  | .telGroup ini v => Sys2Proof.Machine.execTelGroup ini v s
  | .pwcPhaseTab ini k v => Sys2Proof.Machine.execPwcPhaseTab ini k v s
  | .sensorReading k t full => Sys2Proof.Machine.execSensorReading k t full s
  | .thermalCountStep d => Sys2Proof.Machine.execThermalCountStep d s
  | .sensorStop k => Sys2Proof.Machine.execSensorStop k s
  | .tripRelease => Sys2Proof.Machine.execTripRelease s
  | .coolantLeak => Sys2Proof.Machine.execCoolantLeak s
  | .powerOn => Sys2Proof.Machine.execPowerOn s
  | .rstN => Sys2Proof.Machine.execRstN s
  | .refclkLoss => Sys2Proof.Machine.execRefclkLoss s
  | .powerGood attempts countersOk => Sys2Proof.Machine.execPowerGood attempts countersOk s
  | .baseStageEnd => Sys2Proof.Machine.execBaseStageEnd s
  | .baseStageTimeout => Sys2Proof.Machine.execBaseStageTimeout s
  | .bootDecision => Sys2Proof.Machine.execBootDecision s
  | .bootStepEnd row unit ok us => Sys2Proof.Machine.execBootStepEnd row unit ok us s
  | .bootBudget ini v => Sys2Proof.Machine.execBootBudget ini v s
  | .warmN => Sys2Proof.Machine.execWarmN s
  | .bootReset ini => Sys2Proof.Machine.execBootReset ini s
  | .warmStart => Sys2Proof.Machine.execWarmStart s
  | .bootShutdown ini => Sys2Proof.Machine.execBootShutdown ini s
  | .bistTest ini kind inst => Sys2Proof.Machine.execBistTest ini kind inst s
  | .bistRetire ini kind inst => Sys2Proof.Machine.execBistRetire ini kind inst s
  | .bistComplete kind inst passed inRange => Sys2Proof.Machine.execBistComplete kind inst passed inRange s
  | .waleTest ini w => Sys2Proof.Machine.execWaleTest ini w s
  | .waleRetire ini w => Sys2Proof.Machine.execWaleRetire ini w s
  | .portFwActivate kind ok => Sys2Proof.Machine.execPortFwActivate kind ok s
  | .hoopMigrate ini => Sys2Proof.Machine.execHoopMigrate ini s
  | .hoopGParked ini g v => Sys2Proof.Machine.execHoopGParked ini g v s
  | .hoopGClaim ini g v => Sys2Proof.Machine.execHoopGClaim ini g v s
  | .hoopCoreGroup ini k v => Sys2Proof.Machine.execHoopCoreGroup ini k v s
  | .hoopDmaDoorbell ini g v => Sys2Proof.Machine.execHoopDmaDoorbell ini g v s
  | .hoopGEvtGet ini g v => Sys2Proof.Machine.execHoopGEvtGet ini g v s
  | .d2dLaneRepair d q => Sys2Proof.Machine.execD2dLaneRepair d q s
  | .d2dLinkFail d q => Sys2Proof.Machine.execD2dLinkFail d q s
  | .diePllUnlock d pll => Sys2Proof.Machine.execDiePllUnlock d pll s
  | .raklineLight => Sys2Proof.Machine.execRaklineLight s
  | .raklineLinkLoss => Sys2Proof.Machine.execRaklineLinkLoss s
  | .raklineFrame h crcOk tagOk m => Sys2Proof.Machine.execRaklineFrame h crcOk tagOk m s
  | .raklineAckTimer => Sys2Proof.Machine.execRaklineAckTimer s
  | .raklineNak seq => Sys2Proof.Machine.execRaklineNak seq s
  | .raklineReplayTimeout => Sys2Proof.Machine.execRaklineReplayTimeout s
  | .getNonce => Sys2Proof.Machine.execGetNonce s
  | .sessionInit key nonce keyHash sigOk => Sys2Proof.Machine.execSessionInit key nonce keyHash sigOk s
  | .getQuote viaMgmt nonce => Sys2Proof.Machine.execGetQuote viaMgmt nonce s
  | .getCerts viaMgmt => Sys2Proof.Machine.execGetCerts viaMgmt s
  | .regRead m => Sys2Proof.Machine.execRegRead m s
  | .regWrite m => Sys2Proof.Machine.execRegWrite m s
  | .regWarmReset m => Sys2Proof.Machine.execRegWarmReset m s
  | .regShutdown m => Sys2Proof.Machine.execRegShutdown m s
  | .bulkWrite m => Sys2Proof.Machine.execBulkWrite m s
  | .bulkRead m => Sys2Proof.Machine.execBulkRead m s
  | .bulkData m => Sys2Proof.Machine.execBulkData m s
  | .bulkTransferEnd k => Sys2Proof.Machine.execBulkTransferEnd k s
  | .console toNode data => Sys2Proof.Machine.execConsole toNode data s
  | .i3cEntdaa addr => Sys2Proof.Machine.execI3cEntdaa addr s
  | .setEndpointId eid => Sys2Proof.Machine.execSetEndpointId eid s
  | .getEndpointId => Sys2Proof.Machine.execGetEndpointId s
  | .getEndpointUuid => Sys2Proof.Machine.execGetEndpointUuid s
  | .getMctpVersionSupport type => Sys2Proof.Machine.execGetMctpVersionSupport type s
  | .getMessageTypeSupport => Sys2Proof.Machine.execGetMessageTypeSupport s
  | .getVendorDefinedMessageSupport k => Sys2Proof.Machine.execGetVendorDefinedMessageSupport k s
  | .getTid => Sys2Proof.Machine.execGetTid s
  | .setTid tid => Sys2Proof.Machine.execSetTid tid s
  | .getPldmVersion type => Sys2Proof.Machine.execGetPldmVersion type s
  | .getPldmTypes => Sys2Proof.Machine.execGetPldmTypes s
  | .getPldmCommands type => Sys2Proof.Machine.execGetPldmCommands type s
  | .getPdrRepositoryInfo => Sys2Proof.Machine.execGetPdrRepositoryInfo s
  | .getPdr id => Sys2Proof.Machine.execGetPdr id s
  | .getSensorReading id => Sys2Proof.Machine.execGetSensorReading id s
  | .getStateSensorReadings id => Sys2Proof.Machine.execGetStateSensorReadings id s
  | .setNumericEffecterValue id v => Sys2Proof.Machine.execSetNumericEffecterValue id v s
  | .getNumericEffecterValue id => Sys2Proof.Machine.execGetNumericEffecterValue id s
  | .setStateEffecterStates id v => Sys2Proof.Machine.execSetStateEffecterStates id v s
  | .getStateEffecterStates id => Sys2Proof.Machine.execGetStateEffecterStates id s
  | .setEventReceiver eid => Sys2Proof.Machine.execSetEventReceiver eid s
  | .queryDeviceIdentifiers => Sys2Proof.Machine.execQueryDeviceIdentifiers s
  | .getFirmwareParameters => Sys2Proof.Machine.execGetFirmwareParameters s
  | .requestUpdate => Sys2Proof.Machine.execRequestUpdate s
  | .passComponentTable kinds => Sys2Proof.Machine.execPassComponentTable kinds s
  | .updateComponent kind => Sys2Proof.Machine.execUpdateComponent kind s
  | .verifyComplete im => Sys2Proof.Machine.execVerifyComplete im s
  | .activateFirmware => Sys2Proof.Machine.execActivateFirmware s
  | .getStatus => Sys2Proof.Machine.execGetStatus s
  | .cancelUpdateComponent => Sys2Proof.Machine.execCancelUpdateComponent s
  | .cancelUpdate => Sys2Proof.Machine.execCancelUpdate s
  | .fmacLinkDown f lanes => Sys2Proof.Machine.execFmacLinkDown f lanes s
  | .fmacLinkUp f => Sys2Proof.Machine.execFmacLinkUp f s
  | .cblPresentN p present => Sys2Proof.Machine.execCblPresentN p present s
  | .creditReturnTimer p => Sys2Proof.Machine.execCreditReturnTimer p s
  | .groupDeadlineExpire group step attempt => Sys2Proof.Machine.execGroupDeadlineExpire group step attempt s
  | .refclkReturn => Sys2Proof.Machine.execRefclkReturn s
  | .inletSensorReading t => Sys2Proof.Machine.execInletSensorReading t s
  | .coolantLeakDeassert => Sys2Proof.Machine.execCoolantLeakDeassert s
  | .platformEventAck sensor => Sys2Proof.Machine.execPlatformEventAck sensor s

end Sys2Proof.Machine
end

