-- ==== Sys2Proof/Machine/Observe.lean ====
section
/-! DEFINITION. What happens in the block without a command of the table (log entry 1): corrections, measurements, the owner's software, debug access. -/

namespace Sys2Proof.Machine

/-! ## Debug access (R74) -/

/-- The thread whose instruction a command is. -/
def threadOf : Instr → Option Tid
  | .nop t | .add t | .sub t | .mul t | .mulhu t | .andOp t | .orOp t | .xor t | .sll t | .srl t | .sra t | .min t | .max t | .minu t | .maxu t
  | .slt t | .sltu t | .seq t | .li t | .lih t | .sel t | .beq t | .bne t | .blt t | .bge t | .bltu t | .bgeu t | .jal t | .jalr t | .ld t | .st t
  | .amo t | .issMat t | .issVec t | .issRow t | .issDma t | .issSum t | .twait t | .fence t | .bar t | .bwait t | .halt t | .sumrd t | .rdid t
  | .phase t | .undefinedOpcode t => some t
  | _ => none

/-- Whether debug access to stake threads is open (R74): in OWNED, under scope bit 0, over a Rakline session. -/
def Blk.debugOpen (b : Blk) : Bool := b.own == 1 && bit (b.rd R.LID_OWN_STATE_DEBUG_SCOPE) 0 && b.rakOpen && b.rakUp

/-- A thread that has run one instruction is paused again, unless the instruction has put it elsewhere. -/
def Blk.pauseAgain (b : Blk) (t : Tid) : Blk := if (b.thread t).st = tRun then b.setThread t { b.thread t with st := tPaused, sleep := .awake } else b

/-- A paused thread runs one instruction. -/
def Blk.debugStep (b : Blk) (t : Tid) (c : Instr) : Blk :=
  let th := b.thread t
  if threadOf c = some t ∧ th.st = tPaused ∧ th.held = false then
    match exec c { blk := b.setThread t { th with st := tRun } } with
    | .next s => s.blk.pauseAgain t
    | _ => b
  else b

/-! ## The mesh and the links between dies (R39–R41) -/

/-- A mesh word that is uncorrectable on its way from stop `src` to stop `dst`. -/
def Blk.meshUe (b : Blk) (d src dst : Nat) (ini : Option Ini) : Blk :=
  let b1 := ((b.inc R.DIE_MESH_UE_CNT d).error .die d { cls := eEcc, info0 := src % 2 ^ 16 + 2 ^ 16 * (dst % 2 ^ 16) }).event .die 17 d
  match ini with
  | some i => b1.respond i 0 eEcc
  | none => b1

/-- Traffic over a link between dies. -/
def Blk.d2dFlits (b : Blk) (k bytes retries crcErrs : Nat) : Blk :=
  ((b.add R.D2D_RETRY_CNT retries k).add R.D2D_CRC_ERR_CNT crcErrs k).add64 R.D2D_TX_BYTES_LO R.D2D_TX_BYTES_HI bytes k

/-- A link that is not in service trains, or is up. -/
def Blk.d2dLink (b : Blk) (k st : Nat) : Blk := if b.st .d2d k = sFailed ∨ b.st .d2d k = sOff then b else b.wr R.D2D_STATUS_LINK st k

/-! ## The owner's records (R49, R51) -/

/-- A signed owner record: in OWNED, and with a good signature, it becomes the owner policy record. -/
def Blk.ownerRecord (b : Blk) (p : Policy) (sigOk : Bool) : Blk :=
  if b.own ≠ 1 ∨ !b.rakUp then b
  else if sigOk then { b with flash := { b.flash with policy := some p, badTags := b.flash.badTags.filter (· != .policy) } }
  else b.authFail

/-- The owner reads its records. -/
def Blk.ownerRead (b : Blk) : Blk :=
  if b.own ≠ 1 ∨ !b.rakUp then b else b.send (.ownerRecords (b.flash.ownerHash.getD 0) b.flash.policy)

/-! ## What an observation does -/

/-- What an observation does to the block. One whose units do not exist does nothing. -/
def Blk.observe (b : Blk) (o : Obs) : Blk :=
  match o with
  | .d2dFlits k bytes retries crcErrs => b.when (pageOk .d2d k) (fun b => b.d2dFlits k bytes retries crcErrs)
  | .d2dTrain k => b.when (pageOk .d2d k) (fun b => b.d2dLink k 1)
  | .d2dUp k => b.when (pageOk .d2d k) (fun b => b.d2dLink k 2)
  | .meshCe d n => b.when (d < 4) (fun b => b.add R.DIE_MESH_CE_CNT n d)
  | .meshUe d src dst ini => b.when (d < 4) (fun b => b.meshUe d src dst ini)
  | .wordCe p i => b.when (pageOk p i) (fun b => b.event p 3 i)
  | .lineCe pa => b.lineCe pa
  | .flashTag r => { b with flash := { b.flash with badTags := b.flash.badTags.filter (· != r) ++ [r] } }
  | .ownerRecord p sigOk => b.ownerRecord p sigOk
  | .ownerRead => b.ownerRead
  | .exportRenew => b.when (b.own == 1 && b.lid.exportKey.isSome) Blk.exportSession
  | .debugHalt t => b.when (b.debugOpen && ((b.thread t).st == tRun || (b.thread t).st == tBwait)) (fun b => b.stakeCmd t 2)
  | .debugRun t => b.when (b.debugOpen && (b.thread t).st == tPaused) (fun b => b.stakeCmd t 3)
  | .debugStep t c => b.when b.debugOpen (fun b => b.debugStep t c)
  | .debugRead t => b.when b.debugOpen (fun b => b.send (.debugState t (b.thread t).st (b.thread t).pc ((List.range 32).map (b.thread t).reg)))
  | .walkStart u va cls write => b.when (decide (u ≤ modXl) && decide (va < 2 ^ 48)) (fun b => b.walkBegin u va cls write)
  | .hoopRoot core root => b.when (decide (core < 32)) (fun b => { b with hoop := { b.hoop with roots := SMap.set none b.hoop.roots core root } })
  | .cacheFill core pa => b.when (decide (core < 32)) (fun b => b.cacheFill core pa)
  | .cacheEvict line => b.cacheEvict line
  | .cacheOp core pa clean inval => b.when (decide (core < 32)) (fun b => b.cacheOp core pa clean inval)
  | .loadMean p ma => b.when (decide (p < 8)) (fun b => b.wr R.NLNK_LOAD_MA (min ma 4095) p)
  | .heldFlits p n => b.when (decide (p < 8)) (fun b => b.add64 R.NLNK_BP_CNT_LO R.NLNK_BP_CNT_HI n p)
  | .rakTrain => b.when (b.rakRuns && b.rd R.RAK_STATUS_LINK == 0) (fun b => b.wr R.RAK_STATUS_LINK 1)
  | .leaveTogether d n => b.when (decide (d < 4)) (fun b => b.lvTogether d n)
  | .echoIn p => b.when (decide (p < 8)) (fun b => b.echoIn p)

end Sys2Proof.Machine
end

