-- ==== Sys2Proof/Machine/Step.lean ====
section
/-! DEFINITION. One step: the command at the front of the queue runs. -/

namespace Sys2Proof.Machine

/-- One step: the command at the front of the queue runs on the block with the rest of the queue. On an empty queue the first of what happens without a command
happens; where nothing does, the block idles (log entry 1). -/
def step (s : State) : Host.Outcome State Fault Refusal :=
  match s.pending with
  | [] =>
    match s.obs with
    | [] => .next s
    | o :: rest => .next { s with blk := s.blk.observe o, obs := rest }
  | c :: rest => exec c { s with pending := rest }

/-- The state with the command that a word spells in front of its queue. No row of the opcode table gives a command bits, so no word spells one (log entry 1). -/
def State.withFetchWord (s : State) (nbits w : Nat) : State :=
  match decodeTableWord nbits w with
  | some c => { s with pending := c :: s.pending }
  | none => s

end Sys2Proof.Machine
end

