-- ==== Sys2Proof/WellFormed.lean ====
section
/-! DEFINITION. Which commands are well formed: their operands name units, registers and values that exist. Every meaning checks it first (`cmd`). -/

namespace Sys2Proof

open Sys2Proof.Machine

/-- Whether a command's operands name what exists. -/
def Instr.wf : Instr → Bool
  | .ownerClaim _ => true
  | .ownerRelease _ => true
  | .forceClear ini => iniOk ini
  | .serviceToken _ _ => true
  | .serviceConsent => true
  | .serviceHoldLapse _ => true
  | .serviceExit => true
  | .zeroiseQuiesceEnd => true
  | .zeroiseMediaDone => true
  | .claimArm ini => iniOk ini
  | .claimWindowExpire => true
  | .claimLeftTick => true
  | .lidDomainRekey ini mask => fldOk ini .lid 0 R.LID_DOMAIN_REKEY mask
  | .domainKeyInstalled d => decide (d < 8)
  | .firmwareApproval _ => true
  | .imageReadyPoint kind => decide (kind < 8)
  | .debugOpen _ => true
  | .lidDebugClose ini => iniOk ini
  | .nearRekeyDue p => decide (p < 8)
  | .keyNext p _ => decide (p < 8)
  | .nearKeyInstalled p => decide (p < 8)
  | .keyReady p _ => decide (p < 8)
  | .keyRetire p _ => decide (p < 8)
  | .farRekeyDue peer _ => decide (peer < 8)
  | .farPrevKeyExpire peer => decide (peer < 8)
  | .sanitisedWindowEnd sample => sample.temps.length == 22 && sample.loads.length == 8
  | .lidLogGet ini v => fldOk ini .lid 0 R.LID_LOG_GET v
  | .lidLogBase ini v => iniOk ini && decide (v < 2 ^ 48)
  | .registerWrite ini off v => accOk ini off v
  | .pairLoRead ini off => accOk ini off 0 && loAt off
  | .pairLoWrite ini off v => accOk ini off v && rwLoAt off
  | .pairHiWrite ini off v => accOk ini off v && decide (4 ≤ off % 4096) && rwLoAt (off - 4)
  | .pgCtrlEnable ini pg i _ => iniOk ini && pageOk pg i
  | .pgCtrlQuiesceReq ini pg i _ => iniOk ini && pageOk pg i
  | .pgCtrlIsolate ini pg i _ => iniOk ini && pageOk pg i
  | .blockReset ini pg i => iniOk ini && pageOk pg i
  | .pgEventClear ini pg i v => iniOk ini && pageOk pg i && decide (v < 2 ^ 32)
  | .pgLock ini pg i => iniOk ini && pageOk pg i
  | .pgOwnerWrite ini pg i v => fldOk ini pg i (R.PG_OWNER pg) v
  | .blockInitDone pg i => pageOk pg i
  | .blockInitTimeout pg i => pageOk pg i
  | .blockDrained pg i => pageOk pg i
  | .quiesceTimeout pg i => pageOk pg i
  | .blockSelfCheckFail pg i => pageOk pg i
  | .beatTick _ => true
  | .workListTake w => decide (w < 200)
  | .syncEdge _ => true
  | .syncEvaluate => true
  | .beatPeriod ini v => fldOk ini .beat 0 R.BEAT_PERIOD v
  | .beatCtrlStrict ini _ => iniOk ini
  | .beatCtrlSyncEn ini _ => iniOk ini
  | .beatCtrlSyncOutEn ini _ => iniOk ini
  | .cdcTimeout p i stopped live => pageOk p i && decide (stopped < 40) && decide (live < 40)
  | .creditTimeout t => tidOk t
  | .nop t => tidOk t
  | .add t => tidOk t
  | .sub t => tidOk t
  | .mul t => tidOk t
  | .mulhu t => tidOk t
  | .andOp t => tidOk t
  | .orOp t => tidOk t
  | .xor t => tidOk t
  | .sll t => tidOk t
  | .srl t => tidOk t
  | .sra t => tidOk t
  | .min t => tidOk t
  | .max t => tidOk t
  | .minu t => tidOk t
  | .maxu t => tidOk t
  | .slt t => tidOk t
  | .sltu t => tidOk t
  | .seq t => tidOk t
  | .li t => tidOk t
  | .lih t => tidOk t
  | .sel t => tidOk t
  | .beq t => tidOk t
  | .bne t => tidOk t
  | .blt t => tidOk t
  | .bge t => tidOk t
  | .bltu t => tidOk t
  | .bgeu t => tidOk t
  | .jal t => tidOk t
  | .jalr t => tidOk t
  | .ld t => tidOk t
  | .st t => tidOk t
  | .amo t => tidOk t
  | .issMat t => tidOk t
  | .issVec t => tidOk t
  | .issRow t => tidOk t
  | .issDma t => tidOk t
  | .issSum t => tidOk t
  | .twait t => tidOk t
  | .fence t => tidOk t
  | .bar t => tidOk t
  | .bwait t => tidOk t
  | .halt t => tidOk t
  | .sumrd t => tidOk t
  | .rdid t => tidOk t
  | .phase t => tidOk t
  | .undefinedOpcode t => tidOk t
  | .stakeStart ini t => iniOk ini && tidOk t
  | .stakePause ini t => iniOk ini && tidOk t
  | .stakeResume ini t => iniOk ini && tidOk t
  | .stakeRelease ini t => iniOk ini && tidOk t
  | .stakeReleaseSkip ini t => iniOk ini && tidOk t
  | .stakeKill ini t => iniOk ini && tidOk t
  | .stakeIcacheInvalidate ini k => fldOk ini .stake k R.STAKE_ICACHE 1
  | .stakeRegAccess ini t reg write => iniOk ini && tidOk t && decide (reg ≤ 32) && decide (write.getD 0 < if reg = 32 then 2 ^ 32 else 2 ^ 64)
  | .schedWlPut ini w v => fldOk ini .sched w R.SCHED_WL_PUT v
  | .schedPeakClr ini w => fldOk ini .sched w R.SCHED_SB_STATUS_PEAK_CLR 1
  | .sumCombine w => decide (w < 200)
  | .sumPost w => decide (w < 200)
  | .sumClear w => decide (w < 200)
  | .sumLoss w => decide (w < 200)
  | .summaryOpEnd w => decide (w < 200)
  | .sumPostPop ini w => iniOk ini && pageOk .sum w
  | .matrixOpStart k => decide (k < 6400)
  | .matrixOpEnd k => decide (k < 6400)
  | .matrixSuspend k addr => decide (k < 6400) && (inGeneral addr 1 || inWale addr 1)
  | .chainOpStart k => decide (k < 6400)
  | .chainOpEnd k => decide (k < 6400)
  | .chainSuspend k addr => decide (k < 6400) && (inGeneral addr 1 || inWale addr 1)
  | .rowOpStart w => decide (w < 200)
  | .rowOpEnd w => decide (w < 200)
  | .rowSuspend w addr => decide (w < 200) && inWale addr 1
  | .rowSideClr ini w => fldOk ini .row w R.ROW_SIDE_CLR_START 1
  | .sideClearDone w => decide (w < 200)
  | .leaveWindow d => decide (d < 4)
  | .dmaStreamStart c => decide (c < 16896) && !(decide (12800 ≤ c) && decide (c < 14848))
  | .dmaStreamEnd c => decide (c < 16896)
  | .dmaStreamFault c ue => decide (c < 16896) && decide (ue.getD 0 < 2 ^ 42)
  | .translationWalkEnd u va _ _ => decide (u ≤ modXl) && decide (va < 2 ^ 48)
  | .xltInvalRange ini va pages => iniOk ini && decide (va < 2 ^ 48) && decide (pages < 2 ^ 24)
  | .xltInvalAll ini => iniOk ini
  | .invalComplete => true
  | .xltFaultResume ini kind unit => iniOk ini && decide (kind < 16) && decide (unit < 2 ^ 15)
  | .xltFaultDiscard ini kind unit => iniOk ini && decide (kind < 16) && decide (unit < 2 ^ 15)
  | .xltFqGet ini v => fldOk ini .xlt 0 R.XLT_FQ_GET v
  | .xltFqBase ini v => iniOk ini && decide (v < 2 ^ 48)
  | .scrubLine pa _ _ => isDram pa
  | .hoopMemoryAccess core a _ n data => decide (core < 32) && decide (a < 2 ^ 64) && [1, 2, 4, 8, 16, 32, 64].contains n && decide (data < 256 ^ n)
  | .applyDescriptorTake n => decide (n < 12)
  | .applyChunkStart n => decide (n < 12)
  | .applyChunkCommit n => decide (n < 12)
  | .applyChunkAbort n _ => decide (n < 12)
  | .applyRetry n => decide (n < 12)
  | .bankResume ini n => iniOk ini && pageOk .bank n
  | .bankAbandon ini n => iniOk ini && pageOk .bank n
  | .bankSkip ini n => iniOk ini && pageOk .bank n
  | .bankPause ini n _ => iniOk ini && pageOk .bank n
  | .gateClr ini n => iniOk ini && pageOk .bank n
  | .exportSend n => decide (n < 12)
  | .lossValue => true
  | .lossRelease ini => iniOk ini
  | .lossStatsReset ini => iniOk ini
  | .digestReady shard => decide (shard < 256)
  | .digestReceive _ shard step d => decide (shard < 256) && decide (step < 2 ^ 24) && decide (d < 2 ^ 64)
  | .digestWaitExpire shard _ => decide (shard < 256)
  | .repairServe _ shard _ _ _ _ => decide (shard < 256)
  | .repairChunkReceive c => decide (c.shard < 256) && decide (c.count ≤ chunkLen) && c.master.length == c.count
  | .gatherReq q _ _ step => decide (q.group < 256) && decide (q.commit < 2 ^ 24) && decide (q.shard < 256) && decide (q.attempt < 256) && decide (step < 2 ^ 24) && decide (q.layer < 2 ^ 16) && decide (q.peer < 2 ^ 16)
  | .gatherServe data => decide (data.length < 2 ^ 32)
  | .gatherPiece p group layer rank version _ => decide (p < 8) && decide (group < 256) && decide (layer < 2 ^ 16) && decide (rank < 2 ^ 16) && decide (version < 2 ^ 64)
  | .handoverForward p h _ _ => decide (p < 8) && decide (h.slot < 24) && !h.back && decide (h.step < 2 ^ 24) && decide (h.mb < 2 ^ 16) && decide (h.attempt < 256) && decide (h.variant < 256)
  | .handoverBackward p h _ _ => decide (p < 8) && decide (h.slot < 24) && h.back && decide (h.step < 2 ^ 24) && decide (h.mb < 2 ^ 16) && decide (h.attempt < 256) && decide (h.variant < 256)
  | .countRecord p x n size _ => decide (p < 8) && decide (x.group < 256) && decide (x.step < 2 ^ 24) && decide (x.attempt < 256) && decide (x.xid < 2 ^ 16) && decide (x.rank < 2 ^ 16) && decide (n < 2 ^ 32) && decide (size < 2 ^ 32)
  | .expertTokens p x _ _ => decide (p < 8) && decide (x.group < 256) && decide (x.step < 2 ^ 24) && decide (x.attempt < 256) && decide (x.xid < 2 ^ 16) && decide (x.rank < 2 ^ 16)
  | .flitReceive p f => decide (p < 8) && decide (f.bit < 2) && f.plain.length == 243
  | .nak p bit seq0 => decide (p < 8) && decide (bit < 2) && decide (seq0 < 2 ^ 15)
  | .replayTimeout p => decide (p < 8)
  | .creditReturn p l _ => decide (p < 8) && l.all (fun e => decide (e.1 < 8))
  | .linkTraining ini p _ => iniOk ini && pageOk .nlnk p
  | .trainingStepDone p _ => decide (p < 8)
  | .trainingStepTimeout p => decide (p < 8)
  | .trainingRetry p => decide (p < 8)
  | .capabilityRecord p _ => decide (p < 8)
  | .cableOvercurrent p ma => decide (p < 8) && decide (2000 < ma)
  | .loadSwitchReclose p => decide (p < 8)
  | .nlnkLoadRetry ini p => iniOk ini && pageOk .nlnk p
  | .nlnkForce4 ini p _ => iniOk ini && pageOk .nlnk p
  | .laneFail p n => decide (p < 8) && decide (n < 8)
  | .width p w bad => decide (p < 8) && (w == 4 || w == 8) && decide (bad < 256)
  | .laneRetrainAttempt p good => decide (p < 8) && decide (good < 256)
  | .laneRestore p => decide (p < 8)
  | .rate p k => decide (p < 8) && decide (2 ≤ k) && decide (k ≤ 8)
  | .backpressurePeriod p _ _ => decide (p < 8)
  | .sidebandRecord p r => decide (p < 8) && r.length == 16
  | .postTake => true
  | .openMsg p k => decide (p < 8) && bkeyOk k
  | .grant p k => decide (p < 8) && bkeyOk k
  | .bucketData p m => decide (p < 8) && bkeyOk (bucketKey m)
  | .bucketDeadlineExpire k => bkeyOk k
  | .abortMsg p step attempt cls origin group bucket => decide (p < 8) && decide (step < 2 ^ 24) && decide (attempt < 256) && decide (cls < 256) && decide (origin < 2 ^ 14) && decide (group < 256) && decide (bucket < 65536)
  | .nredAbortGo ini p => iniOk ini && pageOk .nred p
  | .nredSlotsGrant ini p v => fldOk ini .nred p R.NRED_SLOTS_GRANT v
  | .joinAck p channel group => decide (p < 8) && decide (channel < 4) && decide (group < 256)
  | .reject p channel group => decide (p < 8) && decide (channel < 4) && decide (group < 256)
  | .switchResult p r => decide (p < 8) && decide (r.channel < 4) && decide (r.step < 2 ^ 24) && decide (r.attempt < 256) && decide (r.msg = 4) && r.vals.all (fun v => decide (v < 2 ^ 64))
  | .codedBlockRerequest p k _ _ => decide (p < 8) && bkeyOk k
  | .codecBlockEncode c => decide (c < 10)
  | .codecBlockDecode c => decide (c < 10)
  | .fcodEncode f => decide (f < 2)
  | .fcodDecode f => decide (f < 2)
  | .fcodJobEnd f => decide (f < 2)
  | .heartbeatTimer _ answers => answers.all (fun a => decide (a.site < 8))
  | .heartbeat h _ _ _ => hdrOk h
  | .echo h _ => hdrOk h
  | .ack h below ranges window => hdrOk h && decide (ranges.length ≤ 64) && decide (below < 2 ^ 64) && decide (window < 2 ^ 64)
  | .dataRec h plain => hdrOk h && decide (plain.length = 8192)
  | .ackTimer peer => decide (peer < 8)
  | .resendTimeout peer _ => decide (peer < 8)
  | .routeLostTimeout peer route => decide (peer < 8) && decide (route < 2)
  | .routeDown h route => hdrOk h && decide (route < 2)
  | .keyRec h e => hdrOk h && decide (e < 2 ^ 16)
  | .neighborDiscovery f _ => decide (f < 2)
  | .farFrameDrop f _ => decide (f < 2)
  | .fxpCtrlEn ini f _ answers => iniOk ini && pageOk .fxp f && answers.all (fun a => decide (a.site < 8))
  | .sendDescriptorTake => true
  | .fxpRxFree ini f v => fldOk ini .fxp f R.FXP_RX_FREE v
  | .manifestCloseTimeout => true
  | .manifestSigned => true
  | .manifest mid _ => midOk mid && midType mid == 2
  | .fetchWaitExpire mid => midOk mid && midType mid == 1
  | .fxpCtrlJoin ini f => iniOk ini && pageOk .fxp f
  | .fxpRound ini f v => fldOk ini .fxp f R.FXP_ROUND v
  | .supplyWarn => true
  | .supplyRecover => true
  | .warningRelease => true
  | .bubbleRamp => true
  | .brownOut => true
  | .overVoltage => true
  | .pwrAlert => true
  | .alertRelease => true
  | .fastLoop _ => true
  | .estimateCompare _ _ => true
  | .telCap ini v => fldOk ini .tel 0 R.TEL_CAP v
  | .telGroup ini v => iniOk ini && decide (v < 2 ^ 18)
  | .pwcPhaseTab ini k v => iniOk ini && decide (k < 64) && decide (v < 2 ^ 16)
  | .sensorReading k _ _ => decide (k < 256)
  | .thermalCountStep d => decide (d < 4)
  | .sensorStop k => decide (k < 256)
  | .tripRelease => true
  | .coolantLeak => true
  | .powerOn => true
  | .rstN => true
  | .refclkLoss => true
  | .powerGood _ _ => true
  | .baseStageEnd => true
  | .baseStageTimeout => true
  | .bootDecision => true
  | .bootStepEnd row _ _ _ => decide (row < 9)
  | .bootBudget ini v => fldOk ini .boot 0 R.BOOT_BUDGET v
  | .warmN => true
  | .bootReset ini => iniOk ini
  | .warmStart => true
  | .bootShutdown ini => iniOk ini
  | .bistTest ini kind inst => iniOk ini && decide (kind < 4) && decide (inst < 2 ^ 16)
  | .bistRetire ini kind inst => iniOk ini && decide (kind < 4) && decide (inst < 2 ^ 16)
  | .bistComplete kind _ _ _ => decide (kind < 8)
  | .waleTest ini w => iniOk ini && pageOk .wale w
  | .waleRetire ini w => iniOk ini && pageOk .wale w
  | .portFwActivate kind _ => kind == 4 || kind == 5
  | .hoopMigrate ini => iniOk ini
  | .hoopGParked ini g v => fldOk ini .hoopg g R.HOOP_G_PARKED v
  | .hoopGClaim ini g v => fldOk ini .hoopg g R.HOOP_G_CLAIM v
  | .hoopCoreGroup ini k v => iniOk ini && decide (k < 4) && decide (v < 2 ^ 32)
  | .hoopDmaDoorbell ini g v => fldOk ini .hoopg g R.HOOP_G_DQ_PUT v
  | .hoopGEvtGet ini g v => fldOk ini .hoopg g R.HOOP_G_EVT_GET v
  | .d2dLaneRepair d q => decide (d < 4) && decide (q < 4) && d != q
  | .d2dLinkFail d q => decide (d < 4) && decide (q < 4) && d != q
  | .diePllUnlock d pll => decide (d < 4) && decide (pll < 3)
  | .raklineLight => true
  | .raklineLinkLoss => true
  | .raklineFrame h _ _ _ => rakHdrOk h
  | .raklineAckTimer => true
  | .raklineNak seq0 => decide (seq0 < 2 ^ 64)
  | .raklineReplayTimeout => true
  | .getNonce => true
  | .sessionInit _ _ _ _ => true
  | .getQuote _ nonce => decide (nonce < 2 ^ 256)
  | .getCerts _ => true
  | .regRead m => regCmd 1 m
  | .regWrite m => regCmd 2 m
  | .regWarmReset m => regCmd 3 m
  | .regShutdown m => regCmd 4 m
  | .bulkWrite m => bulkCmd 1 m
  | .bulkRead m => bulkCmd 2 m
  | .bulkData m => bulkFrameOk m
  | .bulkTransferEnd k => decide (k < 16)
  | .console _ data => decide (data.length ≤ 4096)
  | .i3cEntdaa addr => decide (addr < 128)
  | .setEndpointId eid => decide (eid < 256)
  | .getEndpointId => true
  | .getEndpointUuid => true
  | .getMctpVersionSupport type => decide (type < 256)
  | .getMessageTypeSupport => true
  | .getVendorDefinedMessageSupport k => decide (k < 256)
  | .getTid => true
  | .setTid tid => decide (tid < 256)
  | .getPldmVersion type => decide (type < 64)
  | .getPldmTypes => true
  | .getPldmCommands type => decide (type < 64)
  | .getPdrRepositoryInfo => true
  | .getPdr id => decide (id < 2 ^ 16)
  | .getSensorReading id => decide (id < 2 ^ 16)
  | .getStateSensorReadings id => decide (id < 2 ^ 16)
  | .setNumericEffecterValue id v => decide (id < 2 ^ 16) && decide (v < 2 ^ 32)
  | .getNumericEffecterValue id => decide (id < 2 ^ 16)
  | .setStateEffecterStates id v => decide (id < 2 ^ 16) && decide (v < 256)
  | .getStateEffecterStates id => decide (id < 2 ^ 16)
  | .setEventReceiver eid => decide (eid < 256)
  | .queryDeviceIdentifiers => true
  | .getFirmwareParameters => true
  | .requestUpdate => true
  | .passComponentTable _ => true
  | .updateComponent kind => decide (kind < 2 ^ 16)
  | .verifyComplete _ => true
  | .activateFirmware => true
  | .getStatus => true
  | .cancelUpdateComponent => true
  | .cancelUpdate => true
  | .fmacLinkDown f lanes => decide (f < 2) && decide (lanes < 15)
  | .fmacLinkUp f => decide (f < 2)
  | .cblPresentN p _ => decide (p < 8)
  | .creditReturnTimer p => decide (p < 8)
  | .groupDeadlineExpire group step attempt => decide (group < 256) && decide (step < 2 ^ 24) && decide (attempt < 256)
  | .refclkReturn => true
  | .inletSensorReading _ => true
  | .coolantLeakDeassert => true
  | .platformEventAck sensor => decide (sensor < 2 ^ 16)

end Sys2Proof
end

