-- ==== Sys2Proof/Safety.lean ====
section
/-! DEFINITION. What claims are stated in: queues that hold no ill-formed command, memory in canonical form, and what no command can take back. -/

namespace Sys2Proof.Machine

/-- Every waiting command names only what exists (WellFormed). -/
def State.ready (s : State) : Bool := s.pending.all Instr.wf

/-- `b'` may come after `b`: a canonical memory stays canonical; the monotonic counters of module flash (R51, R52: ownership epoch, boot count, anti-rollback
counter per image kind) do not fall; what the module has sent stands; the counters behind nonces and free values do not fall. -/
structure Blk.Follows (b b' : Blk) : Prop where
  mem : b.mem.wf = true → b'.mem.wf = true
  epoch : b.flash.epoch ≤ b'.flash.epoch
  boots : b.flash.boots ≤ b'.flash.boots
  rollback : ∀ k, SMap.get 0 b.flash.rollback k ≤ SMap.get 0 b'.flash.rollback k
  out : b.io.out <+: b'.io.out
  ent : b.io.ent ≤ b'.io.ent
  fv : b.io.fv ≤ b'.io.fv

/-- A state that claims start from: canonical memory and a queue of well-formed commands. -/
structure State.Inv (s : State) : Prop where
  mem : s.blk.mem.wf = true
  ready : s.ready = true

/-- Thread `t` is about to run the instruction `i` of an opcode (R135–R137): it is in RUN and sleeps in nothing but a stall, its fetch answers a word of that opcode and
those fields, which keep R135, and leaves the block as `b'`. -/
structure Blk.Runs (b : Blk) (t : Tid) (opc : Nat) (i : Ins) (b' : Blk) : Prop where
  tid : tidOk t = true
  run : (b.thread t).st = tRun
  awake : (b.thread t).sleep = .awake ∨ (b.thread t).sleep = .stall
  fetch : ∃ w, b.fetch t = (b', .ok w) ∧ bits w 57 7 = opc ∧ insOf w = i
  fields : fieldsOk opc i = true

/-- The page accepts a register write of an initiator (R82, R84, R93, R96, R162). -/
structure Blk.Accepts (b : Blk) (ini : Ini) (p : Page) (i off v : Nat) : Prop where
  sender : iniOk ini = true
  page : pageOk p i = true
  there : b.waleGone p i = false
  may : b.mayWrite (b.iniClass ini) p i = true
  writer : b.narrowed (b.iniClass ini) p i off v = false
  shut : b.threadShut p i off = false

/-- The page accepts a register read of an initiator. -/
structure Blk.Answers (b : Blk) (ini : Ini) (p : Page) (i off : Nat) : Prop where
  sender : iniOk ini = true
  page : pageOk p i = true
  there : (b.waleGone p i && p != .wale) = false
  may : b.mayRead (b.iniClass ini) p i = true
  shut : b.threadShut p i off = false

/-- An accepted write: what the page does with it, and the response without an error (R89, R94). -/
def Blk.wrote (b : Blk) (ini : Ini) (p : Page) (i off v : Nat) : Blk := (b.pageWrite ini (b.iniClass ini) p i off v).respond ini 0 0

/-- An accepted write of one field: the register's word with that field replaced. -/
def Blk.wroteField (b : Blk) (ini : Ini) (p : Page) (i : Nat) (f : Fld) (v : Nat) : Blk := b.wrote ini p i f.off (b.wordFor p i f.off f.lo f.w v)

/-- The page accepts a write of one field. -/
abbrev Blk.AcceptsField (b : Blk) (ini : Ini) (p : Page) (i : Nat) (f : Fld) (v : Nat) : Prop := b.Accepts ini p i f.off (b.wordFor p i f.off f.lo f.w v)

end Sys2Proof.Machine
end

