-- ==== Sys2Proof/Certificates/Slice0/Obligations.lean ====
section
/-! DEFINITION. The statements of this model, one definition each, in the order of OBLIGATIONS.json. -/

open Sys2Proof Sys2Proof.Machine

/-- For every command, block and queue: a step of the state with the command in front of the queue is exec of the command on the block with the rest of the queue. On an empty queue a step answers the state after the first of its observations, with the others left; where there is none, the same state (the model's choice, log entry 1: the spec's table has no command for what happens without one). -/
def Obligations.StepRunsTheFrontCommand : Prop :=
  (∀ (c : Instr) (b : Blk) (q : List Instr) (os : List Obs), step ⟨b, c :: q, os⟩ = exec c ⟨b, q, os⟩)
  ∧ (∀ (b : Blk) (o : Obs) (os : List Obs), step ⟨b, [], o :: os⟩ = .next ⟨b.observe o, [], os⟩) ∧ (∀ b : Blk, step ⟨b, [], []⟩ = .next ⟨b, [], []⟩)

/-- State.reset has an empty queue and no observations, canonical memory, every register field at its reset value (its table's Reset column; where the spec gives none, the model's value, log entry 8), every thread in IDLE with no slot in use, no stream, and nothing sent. -/
def Obligations.ResetStateHolds : Prop :=
  State.reset.Inv ∧ State.reset.pending = [] ∧ State.reset.obs = [] ∧ (∀ (f : Fld) (i : Nat), State.reset.blk.rd f i = f.resetOf i)
  ∧ (∀ t : Tid, (State.reset.blk.thread t).st = tIdle ∧ ∀ k, (State.reset.blk.thread t).tok k = .idle)
  ∧ (∀ c : Nat, State.reset.blk.stream c = none) ∧ State.reset.blk.io.out = []

/-- For every command and state: if the command is well-formed, exec answers a next state whose queue and observations are the given ones; if it is not, exec refuses it as ill-formed (the model's choice, log entry 3: it names what the spec says does not exist). No command faults. -/
def Obligations.WellFormedCommandsComplete : Prop :=
  ∀ (c : Instr) (s : State), (c.wf = true → ∃ b', exec c s = .next ⟨b', s.pending, s.obs⟩) ∧ (c.wf = false → exec c s = .refused .illFormed)

/-- For every state and every step to a next state: canonical memory stays canonical; the ownership epoch, the boot count and the anti-rollback counter of every image kind (R51, R52) do not fall; what the module has sent stays sent, in order; the counters behind fresh keys and nonces and behind free values do not fall. -/
def Obligations.EveryStepFollows : Prop :=
  ∀ s s' : State, step s = .next s' → s.blk.Follows s'.blk

/-- If a state's memory is in its canonical form and every waiting command is well-formed, the same holds after every step that answers a next state. -/
def Obligations.StepKeepsInv : Prop :=
  ∀ s s' : State, s.Inv → step s = .next s' → s'.Inv

/-- From every state whose waiting commands are all well-formed, running as many steps as commands wait ends in a next state with an empty queue, with no fault and no refusal on the way, and that state's block follows the first one (counters not lower, memory canonical if it was, sent messages a prefix). -/
def Obligations.QueueDrains : Prop :=
  ∀ s : State, s.ready = true → ∃ b', Host.Core.run Sys2Proof.core s.pending.length s = Host.Outcome.next (⟨b', [], s.obs⟩ : State) ∧ s.blk.Follows b'

/-- A REGISTER_WRITE at an offset that is not a multiple of 4, and a hoop core's load or store at an address that its page tables take to the register window, of another size than 4 bytes, or not aligned to 4 bytes, answers the state with an error response of class ACCESS_DENIED (0x0C) to the initiator; the block is otherwise as it was. -/
def Obligations.RegisterAccessesAreAligned32Bit : Prop :=
  (∀ (b : Blk) (q : List Instr) (os : List Obs) (ini : Ini) (off v : Nat), iniOk ini = true → off < 2 ^ 27 → v < 2 ^ 32 → off % 4 ≠ 0 →
    exec (.registerWrite ini off v) ⟨b, q, os⟩ = .next ⟨b.respond ini 0 0x0C, q, os⟩)
  ∧ (∀ (b : Blk) (q : List Instr) (os : List Obs) (core a off n data : Nat) (write : Bool), core < 32 → a < 2 ^ 64 → b.iniClass (.core core) ≠ 0 → off < 2 ^ 27 →
    n ∈ [1, 2, 4, 8, 16, 32, 64] → data < 256 ^ n → n ≠ 4 ∨ off % 4 ≠ 0 → b.corePa core a write = .pa (regLo + off) →
    exec (.hoopMemoryAccess core a write n data) ⟨b, q, os⟩ = .next ⟨b.respond (.core core) 0 0x0C, q, os⟩)

/-- An accepted PG_OWNER_WRITE on a page whose PG_LOCK is 0 leaves the value written where the value is 1–7 and the initiator's class is O, or 0 and its class V; with any other value, and on a locked page, the field keeps what it held. The reset value is 0 on pages whose write classes in OWNED are V alone and 1 on all other pages. -/
def Obligations.PgOwnerTakesItsClasses : Prop :=
  (∀ (b : Blk) (q : List Instr) (os : List Obs) (ini : Ini) (p : Page) (i v : Nat), v < 8 → b.AcceptsField ini p i (R.PG_OWNER p) v →
    ∃ b', exec (.pgOwnerWrite ini p i v) ⟨b, q, os⟩ = .next ⟨b', q, os⟩
      ∧ b'.rd (R.PG_OWNER p) i = if b.on (R.PG_LOCK p) i = false ∧ ((v ≠ 0 ∧ b.iniClass ini = clsO) ∨ (v = 0 ∧ b.iniClass ini = clsV)) then v
          else b.rd (R.PG_OWNER p) i)
  ∧ (∀ (p : Page) (i : Nat), (R.PG_OWNER p).resetOf i = if ownedAccess p i % 256 = clsV then 0 else 1)

/-- Where PG_ACCESS has no bit for the initiator's class, or the write would act through a field that names other writers, REGISTER_WRITE at a register of a page in service answers the state with the denial recorded (MOD_DENIED, R95) and the error response of class ACCESS_DENIED; so does PAIR_LO_READ on a page that the class may not read. REGISTER_WRITE at a page of a wale that is not enabled is answered with ACCESS_DENIED; at that wale's header page, where the class may write it, without an error, and the write is counted in PG_SEQ (R89); neither changes anything else. No field of a page takes the value. -/
def Obligations.DeniedAccessesChangeNothingElse : Prop :=
  (∀ (b : Blk) (q : List Instr) (os : List Obs) (ini : Ini) (p : Page) (i off v : Nat), iniOk ini = true → pageOk p i = true → off < 4096 → off % 4 = 0 → v < 2 ^ 32 →
    b.waleGone p i = false → b.mayWrite (b.iniClass ini) p i = false ∨ b.narrowed (b.iniClass ini) p i off v = true →
    exec (.registerWrite ini (regAt p i off) v) ⟨b, q, os⟩ = .next ⟨(b.noteDenied (b.iniClass ini) (regAt p i off)).respond ini 0 0x0C, q, os⟩)
  ∧ (∀ (b : Blk) (q : List Instr) (os : List Obs) (ini : Ini) (p : Page) (i off : Nat), iniOk ini = true → pageOk p i = true → off < 4096 → off % 4 = 0 →
    pairLo p off = true → b.waleGone p i = false → b.mayRead (b.iniClass ini) p i = false →
    exec (.pairLoRead ini (regAt p i off)) ⟨b, q, os⟩ = .next ⟨(b.noteDenied (b.iniClass ini) (regAt p i off)).respond ini 0 0x0C, q, os⟩)
  ∧ (∀ (b : Blk) (q : List Instr) (os : List Obs) (ini : Ini) (p : Page) (i off v : Nat), iniOk ini = true → pageOk p i = true → off < 4096 → off % 4 = 0 → v < 2 ^ 32 →
    b.waleGone p i = true → p ≠ .wale →
    exec (.registerWrite ini (regAt p i off) v) ⟨b, q, os⟩ = .next ⟨b.respond ini 0 0x0C, q, os⟩)
  ∧ (∀ (b : Blk) (q : List Instr) (os : List Obs) (ini : Ini) (w off v : Nat), iniOk ini = true → w < 200 → off < 4096 → off % 4 = 0 → v < 2 ^ 32 →
    b.waleGone .wale w = true → b.mayWrite (b.iniClass ini) .wale w = true → b.narrowed (b.iniClass ini) .wale w off v = false →
    exec (.registerWrite ini (regAt .wale w off) v) ⟨b, q, os⟩ = .next ⟨(b.addW (R.PG_SEQ .wale) 1 w).respond ini 0 0, q, os⟩)

/-- An accepted REGISTER_WRITE at a header offset other than those of PG_CTRL and PG_EVENT (whose writes start the state machine and clear capture) raises PG_SEQ by 1 modulo 2^32, leaves every register field of every page that is neither PG_SEQ of the page nor a field at that offset of the page as it was, and leaves every other part of the block as it was, but for the response it sends. A write of an RO field is counted too. -/
def Obligations.HeaderWritesKeepTheRest : Prop :=
  ∀ (b : Blk) (q : List Instr) (os : List Obs) (ini : Ini) (p : Page) (i off v : Nat), off < 0x040 → off % 4 = 0 → off ≠ 0x00C → off ≠ 0x014 → v < 2 ^ 32 →
    b.Accepts ini p i off v →
    ∃ b', exec (.registerWrite ini (regAt p i off) v) ⟨b, q, os⟩ = .next ⟨b', q, os⟩
      ∧ b'.rd (R.PG_SEQ p) i = (b.rd (R.PG_SEQ p) i + 1) % 2 ^ 32
      ∧ (∀ (f : Fld) (j : Nat), f.key j ≠ (R.PG_SEQ p).key i → (∀ g ∈ pageFields p i off, f.key j ≠ g.key i) → b'.rd f j = b.rd f j)
      ∧ { b' with regs := b.regs, io := b.io } = b ∧ b'.io.out = b.io.out ++ [.resp ini 0 0]

/-- An accepted PAIR_LO_WRITE of DIG_TABLE stages its half for that initiator and changes no register but PG_SEQ. An accepted PAIR_HI_WRITE of it by the same initiator then commits both, on a page that is not locked: the low field takes the staged half, or keeps its value where that initiator has staged none, and the high field takes the half written; on a locked page both fields keep their values. Nothing of that initiator stays staged. -/
def Obligations.PairsCommitInOneUpdate : Prop :=
  (∀ (b : Blk) (q : List Instr) (os : List Obs) (ini : Ini) (v : Nat), v < 2 ^ 32 → b.Accepts ini .dig 0 R.DIG_TABLE_LO.off v →
    ∃ b', exec (.pairLoWrite ini (regAt .dig 0 R.DIG_TABLE_LO.off) v) ⟨b, q, os⟩ = .next ⟨b', q, os⟩
      ∧ SMap.get none b'.io.stage (pairKey ini .dig 0 R.DIG_TABLE_LO.off) = some v
      ∧ ∀ (f : Fld) (j : Nat), f.key j ≠ (R.PG_SEQ .dig).key 0 → b'.rd f j = b.rd f j)
  ∧ (∀ (b : Blk) (q : List Instr) (os : List Obs) (ini : Ini) (v : Nat), v < 2 ^ 32 → b.Accepts ini .dig 0 R.DIG_TABLE_HI.off v →
    ∃ b', exec (.pairHiWrite ini (regAt .dig 0 R.DIG_TABLE_HI.off) v) ⟨b, q, os⟩ = .next ⟨b', q, os⟩
      ∧ b'.rd R.DIG_TABLE_HI = (if b.on (R.PG_LOCK .dig) = false then v % 2 ^ R.DIG_TABLE_HI.w else b.rd R.DIG_TABLE_HI)
      ∧ b'.rd R.DIG_TABLE_LO = (if b.on (R.PG_LOCK .dig) = false then
          (match SMap.get none b.io.stage (pairKey ini .dig 0 R.DIG_TABLE_LO.off) with
            | some x => bits x R.DIG_TABLE_LO.lo R.DIG_TABLE_LO.w
            | none => b.rd R.DIG_TABLE_LO % 2 ^ R.DIG_TABLE_LO.w)
          else b.rd R.DIG_TABLE_LO)
      ∧ SMap.get none b'.io.stage (pairKey ini .dig 0 R.DIG_TABLE_LO.off) = none)

/-- An accepted SCHED_WL_PUT with (PUT − GET) modulo 2^16 above the slot count answers the state in which PG_SEQ counts the write and WL_BAD of that SCHED page is set with its delivery, PUT not written. -/
def Obligations.WorkListPutStaysInItsRing : Prop :=
  ∀ (b : Blk) (q : List Instr) (os : List Obs) (ini : Ini) (w v : Nat), v < 2 ^ 16 → b.AcceptsField ini .sched w R.SCHED_WL_PUT v →
    2 ^ b.rd R.SCHED_WL_SIZE w < (v + 2 ^ 16 - b.rd R.SCHED_WL_GET w) % 2 ^ 16 →
    exec (.schedWlPut ini w v) ⟨b, q, os⟩ = .next ⟨((b.addW (R.PG_SEQ .sched) 1 w).event .sched 17 w).respond ini 0 0, q, os⟩

/-- When the LID page accepts the write of an initiator, FORCE_CLEAR, CLAIM_ARM, LID_DOMAIN_REKEY, LID_DEBUG_CLOSE and LID_LOG_GET answer the next state of an accepted write of that field with its response and change nothing else, and LID_LOG_BASE that of the writes of its two halves. -/
def Obligations.LidRegistersComplete : Prop :=
  (∀ (b : Blk) (q : List Instr) (os : List Obs) (ini : Ini), b.AcceptsField ini .lid 0 R.LID_ZERO_CTRL_FORCE_CLEAR 1 → 
    exec (.forceClear ini) ⟨b, q, os⟩ = .next ⟨b.wroteField ini .lid 0 R.LID_ZERO_CTRL_FORCE_CLEAR 1, q, os⟩)
  ∧ (∀ (b : Blk) (q : List Instr) (os : List Obs) (ini : Ini), b.AcceptsField ini .lid 0 R.LID_CLAIM_ARM 1 → 
    exec (.claimArm ini) ⟨b, q, os⟩ = .next ⟨b.wroteField ini .lid 0 R.LID_CLAIM_ARM 1, q, os⟩)
  ∧ (∀ (b : Blk) (q : List Instr) (os : List Obs) (ini : Ini) (mask : Nat), mask < 2 ^ R.LID_DOMAIN_REKEY.w → b.AcceptsField ini .lid 0 R.LID_DOMAIN_REKEY mask → 
    exec (.lidDomainRekey ini mask) ⟨b, q, os⟩ = .next ⟨b.wroteField ini .lid 0 R.LID_DOMAIN_REKEY mask, q, os⟩)
  ∧ (∀ (b : Blk) (q : List Instr) (os : List Obs) (ini : Ini), b.AcceptsField ini .lid 0 R.LID_DEBUG_CLOSE 1 → 
    exec (.lidDebugClose ini) ⟨b, q, os⟩ = .next ⟨b.wroteField ini .lid 0 R.LID_DEBUG_CLOSE 1, q, os⟩)
  ∧ (∀ (b : Blk) (q : List Instr) (os : List Obs) (ini : Ini) (v : Nat), v < 2 ^ R.LID_LOG_GET.w → b.AcceptsField ini .lid 0 R.LID_LOG_GET v → 
    exec (.lidLogGet ini v) ⟨b, q, os⟩ = .next ⟨b.wroteField ini .lid 0 R.LID_LOG_GET v, q, os⟩)
  ∧ (∀ (b : Blk) (q : List Instr) (os : List Obs) (ini : Ini) (v : Nat), v < 2 ^ 48 → b.Accepts ini .lid 0 R.LID_LOG_BASE_LO.off (v % 2 ^ 32) → (b.wrote ini .lid 0 R.LID_LOG_BASE_LO.off (v % 2 ^ 32)).Accepts ini .lid 0 R.LID_LOG_BASE_HI.off (v / 2 ^ 32) → 
    exec (.lidLogBase ini v) ⟨b, q, os⟩ = .next ⟨(b.wrote ini .lid 0 R.LID_LOG_BASE_LO.off (v % 2 ^ 32)).wrote ini .lid 0 R.LID_LOG_BASE_HI.off (v / 2 ^ 32), q, os⟩)

/-- On every page that accepts the write of an initiator, PG_CTRL_ENABLE, PG_CTRL_QUIESCE_REQ, PG_CTRL_ISOLATE, BLOCK_RESET, PG_LOCK and PG_OWNER_WRITE answer the next state of an accepted write of that header field with its response, and PG_EVENT_CLEAR that of a write of PG_EVENT, and change nothing else. -/
def Obligations.HeaderRegistersComplete : Prop :=
  (∀ (b : Blk) (q : List Instr) (os : List Obs) (ini : Ini) (p : Page) (i : Nat) (on : Bool), b.AcceptsField ini p i (R.PG_CTRL_ENABLE p) (b2n on) → 
    exec (.pgCtrlEnable ini p i on) ⟨b, q, os⟩ = .next ⟨b.wroteField ini p i (R.PG_CTRL_ENABLE p) (b2n on), q, os⟩)
  ∧ (∀ (b : Blk) (q : List Instr) (os : List Obs) (ini : Ini) (p : Page) (i : Nat) (on : Bool), b.AcceptsField ini p i (R.PG_CTRL_QUIESCE_REQ p) (b2n on) → 
    exec (.pgCtrlQuiesceReq ini p i on) ⟨b, q, os⟩ = .next ⟨b.wroteField ini p i (R.PG_CTRL_QUIESCE_REQ p) (b2n on), q, os⟩)
  ∧ (∀ (b : Blk) (q : List Instr) (os : List Obs) (ini : Ini) (p : Page) (i : Nat) (on : Bool), b.AcceptsField ini p i (R.PG_CTRL_ISOLATE p) (b2n on) → 
    exec (.pgCtrlIsolate ini p i on) ⟨b, q, os⟩ = .next ⟨b.wroteField ini p i (R.PG_CTRL_ISOLATE p) (b2n on), q, os⟩)
  ∧ (∀ (b : Blk) (q : List Instr) (os : List Obs) (ini : Ini) (p : Page) (i : Nat), b.AcceptsField ini p i (R.PG_CTRL_BLOCK_RESET p) 1 → 
    exec (.blockReset ini p i) ⟨b, q, os⟩ = .next ⟨b.wroteField ini p i (R.PG_CTRL_BLOCK_RESET p) 1, q, os⟩)
  ∧ (∀ (b : Blk) (q : List Instr) (os : List Obs) (ini : Ini) (p : Page) (i : Nat), b.AcceptsField ini p i (R.PG_LOCK p) 1 → 
    exec (.pgLock ini p i) ⟨b, q, os⟩ = .next ⟨b.wroteField ini p i (R.PG_LOCK p) 1, q, os⟩)
  ∧ (∀ (b : Blk) (q : List Instr) (os : List Obs) (ini : Ini) (p : Page) (i v : Nat), v < 2 ^ (R.PG_OWNER p).w → b.AcceptsField ini p i (R.PG_OWNER p) v → 
    exec (.pgOwnerWrite ini p i v) ⟨b, q, os⟩ = .next ⟨b.wroteField ini p i (R.PG_OWNER p) v, q, os⟩)
  ∧ (∀ (b : Blk) (q : List Instr) (os : List Obs) (ini : Ini) (p : Page) (i v : Nat), v < 2 ^ 32 → b.Accepts ini p i 0x014 v → 
    exec (.pgEventClear ini p i v) ⟨b, q, os⟩ = .next ⟨b.wrote ini p i 0x014 v, q, os⟩)

/-- REGISTER_WRITE, PAIR_LO_WRITE and PAIR_HI_WRITE at a register of a page that accepts the write answer the next state of the accepted write with its response, and PAIR_LO_READ at a register of a page that answers the initiator that of the read with its response: the pair rows where a pair stands at that offset. -/
def Obligations.RegisterAccessesComplete : Prop :=
  (∀ (b : Blk) (q : List Instr) (os : List Obs) (ini : Ini) (p : Page) (i off v : Nat), off < 4096 → off % 4 = 0 → v < 2 ^ 32 → b.Accepts ini p i off v → 
    exec (.registerWrite ini (regAt p i off) v) ⟨b, q, os⟩ = .next ⟨b.wrote ini p i off v, q, os⟩)
  ∧ (∀ (b : Blk) (q : List Instr) (os : List Obs) (ini : Ini) (p : Page) (i off : Nat), off < 4096 → off % 4 = 0 → pairLo p off = true → b.Answers ini p i off → 
    exec (.pairLoRead ini (regAt p i off)) ⟨b, q, os⟩ = .next ⟨(b.pageRead ini (b.iniClass ini) p i off).1.respond ini (b.pageRead ini (b.iniClass ini) p i off).2 0, q, os⟩)
  ∧ (∀ (b : Blk) (q : List Instr) (os : List Obs) (ini : Ini) (p : Page) (i off v : Nat), off < 4096 → off % 4 = 0 → v < 2 ^ 32 → rwPair p i off = true → b.Accepts ini p i off v → 
    exec (.pairLoWrite ini (regAt p i off) v) ⟨b, q, os⟩ = .next ⟨b.wrote ini p i off v, q, os⟩)
  ∧ (∀ (b : Blk) (q : List Instr) (os : List Obs) (ini : Ini) (p : Page) (i off v : Nat), off < 4096 → off % 4 = 0 → 4 ≤ off → v < 2 ^ 32 → rwPair p i (off - 4) = true → b.Accepts ini p i off v → 
    exec (.pairHiWrite ini (regAt p i off) v) ⟨b, q, os⟩ = .next ⟨b.wrote ini p i off v, q, os⟩)

/-- When the page accepts the write of an initiator, BEAT_PERIOD, BEAT_CTRL_STRICT, BEAT_CTRL_SYNC_EN, BEAT_CTRL_SYNC_OUT_EN, the six STAKE_CMD rows, STAKE_ICACHE_INVALIDATE, SCHED_WL_PUT, SCHED_PEAK_CLR and ROW_SIDE_CLR answer the next state of the accepted write with its response; SUM_POST_POP and STAKE_REG_ACCESS on the PC answer that of their read or write. -/
def Obligations.BeatAndStakeRegistersComplete : Prop :=
  (∀ (b : Blk) (q : List Instr) (os : List Obs) (ini : Ini) (v : Nat), v < 2 ^ R.BEAT_PERIOD.w → b.AcceptsField ini .beat 0 R.BEAT_PERIOD v → 
    exec (.beatPeriod ini v) ⟨b, q, os⟩ = .next ⟨b.wroteField ini .beat 0 R.BEAT_PERIOD v, q, os⟩)
  ∧ (∀ (b : Blk) (q : List Instr) (os : List Obs) (ini : Ini) (on : Bool), b.AcceptsField ini .beat 0 R.BEAT_CTRL_STRICT (b2n on) → 
    exec (.beatCtrlStrict ini on) ⟨b, q, os⟩ = .next ⟨b.wroteField ini .beat 0 R.BEAT_CTRL_STRICT (b2n on), q, os⟩)
  ∧ (∀ (b : Blk) (q : List Instr) (os : List Obs) (ini : Ini) (on : Bool), b.AcceptsField ini .beat 0 R.BEAT_CTRL_SYNC_EN (b2n on) → 
    exec (.beatCtrlSyncEn ini on) ⟨b, q, os⟩ = .next ⟨b.wroteField ini .beat 0 R.BEAT_CTRL_SYNC_EN (b2n on), q, os⟩)
  ∧ (∀ (b : Blk) (q : List Instr) (os : List Obs) (ini : Ini) (on : Bool), b.AcceptsField ini .beat 0 R.BEAT_CTRL_SYNC_OUT_EN (b2n on) → 
    exec (.beatCtrlSyncOutEn ini on) ⟨b, q, os⟩ = .next ⟨b.wroteField ini .beat 0 R.BEAT_CTRL_SYNC_OUT_EN (b2n on), q, os⟩)
  ∧ (∀ (b : Blk) (q : List Instr) (os : List Obs) (ini : Ini) (t : Tid), tidOk t = true → b.Accepts ini .stake t.stake R.STAKE_CMD_CMD.off (t.thread + 16 * 1) → 
    exec (.stakeStart ini t) ⟨b, q, os⟩ = .next ⟨b.wrote ini .stake t.stake R.STAKE_CMD_CMD.off (t.thread + 16 * 1), q, os⟩)
  ∧ (∀ (b : Blk) (q : List Instr) (os : List Obs) (ini : Ini) (t : Tid), tidOk t = true → b.Accepts ini .stake t.stake R.STAKE_CMD_CMD.off (t.thread + 16 * 2) → 
    exec (.stakePause ini t) ⟨b, q, os⟩ = .next ⟨b.wrote ini .stake t.stake R.STAKE_CMD_CMD.off (t.thread + 16 * 2), q, os⟩)
  ∧ (∀ (b : Blk) (q : List Instr) (os : List Obs) (ini : Ini) (t : Tid), tidOk t = true → b.Accepts ini .stake t.stake R.STAKE_CMD_CMD.off (t.thread + 16 * 3) → 
    exec (.stakeResume ini t) ⟨b, q, os⟩ = .next ⟨b.wrote ini .stake t.stake R.STAKE_CMD_CMD.off (t.thread + 16 * 3), q, os⟩)
  ∧ (∀ (b : Blk) (q : List Instr) (os : List Obs) (ini : Ini) (t : Tid), tidOk t = true → b.Accepts ini .stake t.stake R.STAKE_CMD_CMD.off (t.thread + 16 * 4) → 
    exec (.stakeRelease ini t) ⟨b, q, os⟩ = .next ⟨b.wrote ini .stake t.stake R.STAKE_CMD_CMD.off (t.thread + 16 * 4), q, os⟩)
  ∧ (∀ (b : Blk) (q : List Instr) (os : List Obs) (ini : Ini) (t : Tid), tidOk t = true → b.Accepts ini .stake t.stake R.STAKE_CMD_CMD.off (t.thread + 16 * 5) → 
    exec (.stakeReleaseSkip ini t) ⟨b, q, os⟩ = .next ⟨b.wrote ini .stake t.stake R.STAKE_CMD_CMD.off (t.thread + 16 * 5), q, os⟩)
  ∧ (∀ (b : Blk) (q : List Instr) (os : List Obs) (ini : Ini) (t : Tid), tidOk t = true → b.Accepts ini .stake t.stake R.STAKE_CMD_CMD.off (t.thread + 16 * 6) → 
    exec (.stakeKill ini t) ⟨b, q, os⟩ = .next ⟨b.wrote ini .stake t.stake R.STAKE_CMD_CMD.off (t.thread + 16 * 6), q, os⟩)
  ∧ (∀ (b : Blk) (q : List Instr) (os : List Obs) (ini : Ini) (k : Nat), b.AcceptsField ini .stake k R.STAKE_ICACHE 1 → 
    exec (.stakeIcacheInvalidate ini k) ⟨b, q, os⟩ = .next ⟨b.wroteField ini .stake k R.STAKE_ICACHE 1, q, os⟩)
  ∧ (∀ (b : Blk) (q : List Instr) (os : List Obs) (ini : Ini) (t : Tid), tidOk t = true → b.Answers ini .stake t.stake (0x084 + 16 * t.thread) → 
    exec (.stakeRegAccess ini t 32 none) ⟨b, q, os⟩ = .next ⟨(b.pageRead ini (b.iniClass ini) .stake t.stake (0x084 + 16 * t.thread)).1.respond ini (b.pageRead ini (b.iniClass ini) .stake t.stake (0x084 + 16 * t.thread)).2 0, q, os⟩)
  ∧ (∀ (b : Blk) (q : List Instr) (os : List Obs) (ini : Ini) (t : Tid) (v : Nat), tidOk t = true → v < 2 ^ 32 → b.Accepts ini .stake t.stake (0x084 + 16 * t.thread) v → 
    exec (.stakeRegAccess ini t 32 (some v)) ⟨b, q, os⟩ = .next ⟨b.wrote ini .stake t.stake (0x084 + 16 * t.thread) v, q, os⟩)
  ∧ (∀ (b : Blk) (q : List Instr) (os : List Obs) (ini : Ini) (t : Tid) (r v : Nat), tidOk t = true → r < 32 → v < 2 ^ 64 → b.Accepts ini .stake t.stake (0x800 + 256 * t.thread + 8 * r) (v % 2 ^ 32) → (b.wrote ini .stake t.stake (0x800 + 256 * t.thread + 8 * r) (v % 2 ^ 32)).Accepts ini .stake t.stake (0x804 + 256 * t.thread + 8 * r) (v / 2 ^ 32) → 
    exec (.stakeRegAccess ini t r (some v)) ⟨b, q, os⟩ = .next ⟨(b.wrote ini .stake t.stake (0x800 + 256 * t.thread + 8 * r) (v % 2 ^ 32)).wrote ini .stake t.stake (0x804 + 256 * t.thread + 8 * r) (v / 2 ^ 32), q, os⟩)
  ∧ (∀ (b : Blk) (q : List Instr) (os : List Obs) (ini : Ini) (w v : Nat), v < 2 ^ R.SCHED_WL_PUT.w → b.AcceptsField ini .sched w R.SCHED_WL_PUT v → 
    exec (.schedWlPut ini w v) ⟨b, q, os⟩ = .next ⟨b.wroteField ini .sched w R.SCHED_WL_PUT v, q, os⟩)
  ∧ (∀ (b : Blk) (q : List Instr) (os : List Obs) (ini : Ini) (w : Nat), b.AcceptsField ini .sched w R.SCHED_SB_STATUS_PEAK_CLR 1 → 
    exec (.schedPeakClr ini w) ⟨b, q, os⟩ = .next ⟨b.wroteField ini .sched w R.SCHED_SB_STATUS_PEAK_CLR 1, q, os⟩)
  ∧ (∀ (b : Blk) (q : List Instr) (os : List Obs) (ini : Ini) (w : Nat), b.Answers ini .sum w R.SUM_POST_LO.off → 
    exec (.sumPostPop ini w) ⟨b, q, os⟩ = .next ⟨((b.postPop w).2.setLatch (pairKey ini .sum w 0x048) (some ((b.postPop w).1 / 2 ^ 32))).respond ini ((b.postPop w).1 % 2 ^ 32) 0, q, os⟩)
  ∧ (∀ (b : Blk) (q : List Instr) (os : List Obs) (ini : Ini) (w : Nat), b.AcceptsField ini .row w R.ROW_SIDE_CLR_START 1 → 
    exec (.rowSideClr ini w) ⟨b, q, os⟩ = .next ⟨b.wroteField ini .row w R.ROW_SIDE_CLR_START 1, q, os⟩)

/-- When the page accepts the writes of an initiator, the XLT, BANK and LOSS register rows (invalidations, fault commands, the fault queue's GET and BASE, the bank's commands, pause and gate clear, the loss monitor's release and reset) answer the next state of the accepted writes with their responses. -/
def Obligations.MemoryRegistersComplete : Prop :=
  (∀ (b : Blk) (q : List Instr) (os : List Obs) (ini : Ini) (va pages : Nat), va < 2 ^ 48 → pages < 2 ^ 24 → b.Accepts ini .xlt 0 R.XLT_INVAL_VA_LO.off (va % 2 ^ 32) → (b.wrote ini .xlt 0 R.XLT_INVAL_VA_LO.off (va % 2 ^ 32)).Accepts ini .xlt 0 R.XLT_INVAL_VA_HI.off (va / 2 ^ 32) → ((b.wrote ini .xlt 0 R.XLT_INVAL_VA_LO.off (va % 2 ^ 32)).wrote ini .xlt 0 R.XLT_INVAL_VA_HI.off (va / 2 ^ 32)).Accepts ini .xlt 0 R.XLT_INVAL_CMD_SCOPE.off (1 + 256 * pages) → 
    exec (.xltInvalRange ini va pages) ⟨b, q, os⟩ = .next ⟨((b.wrote ini .xlt 0 R.XLT_INVAL_VA_LO.off (va % 2 ^ 32)).wrote ini .xlt 0 R.XLT_INVAL_VA_HI.off (va / 2 ^ 32)).wrote ini .xlt 0 R.XLT_INVAL_CMD_SCOPE.off (1 + 256 * pages), q, os⟩)
  ∧ (∀ (b : Blk) (q : List Instr) (os : List Obs) (ini : Ini), b.Accepts ini .xlt 0 R.XLT_INVAL_CMD_SCOPE.off 2 → 
    exec (.xltInvalAll ini) ⟨b, q, os⟩ = .next ⟨b.wrote ini .xlt 0 R.XLT_INVAL_CMD_SCOPE.off 2, q, os⟩)
  ∧ (∀ (b : Blk) (q : List Instr) (os : List Obs) (ini : Ini) (kind unit : Nat), kind < 16 → unit < 2 ^ 15 → b.Accepts ini .xlt 0 R.XLT_FAULT_CMD_ACTION.off (1 + 16 * kind + 65536 * unit) → 
    exec (.xltFaultResume ini kind unit) ⟨b, q, os⟩ = .next ⟨b.wrote ini .xlt 0 R.XLT_FAULT_CMD_ACTION.off (1 + 16 * kind + 65536 * unit), q, os⟩)
  ∧ (∀ (b : Blk) (q : List Instr) (os : List Obs) (ini : Ini) (kind unit : Nat), kind < 16 → unit < 2 ^ 15 → b.Accepts ini .xlt 0 R.XLT_FAULT_CMD_ACTION.off (2 + 16 * kind + 65536 * unit) → 
    exec (.xltFaultDiscard ini kind unit) ⟨b, q, os⟩ = .next ⟨b.wrote ini .xlt 0 R.XLT_FAULT_CMD_ACTION.off (2 + 16 * kind + 65536 * unit), q, os⟩)
  ∧ (∀ (b : Blk) (q : List Instr) (os : List Obs) (ini : Ini) (v : Nat), v < 2 ^ R.XLT_FQ_GET.w → b.AcceptsField ini .xlt 0 R.XLT_FQ_GET v → 
    exec (.xltFqGet ini v) ⟨b, q, os⟩ = .next ⟨b.wroteField ini .xlt 0 R.XLT_FQ_GET v, q, os⟩)
  ∧ (∀ (b : Blk) (q : List Instr) (os : List Obs) (ini : Ini) (v : Nat), v < 2 ^ 48 → b.Accepts ini .xlt 0 R.XLT_FQ_BASE_LO.off (v % 2 ^ 32) → (b.wrote ini .xlt 0 R.XLT_FQ_BASE_LO.off (v % 2 ^ 32)).Accepts ini .xlt 0 R.XLT_FQ_BASE_HI.off (v / 2 ^ 32) → 
    exec (.xltFqBase ini v) ⟨b, q, os⟩ = .next ⟨(b.wrote ini .xlt 0 R.XLT_FQ_BASE_LO.off (v % 2 ^ 32)).wrote ini .xlt 0 R.XLT_FQ_BASE_HI.off (v / 2 ^ 32), q, os⟩)
  ∧ (∀ (b : Blk) (q : List Instr) (os : List Obs) (ini : Ini) (n : Nat), b.AcceptsField ini .bank n R.BANK_CMD 1 → 
    exec (.bankResume ini n) ⟨b, q, os⟩ = .next ⟨b.wroteField ini .bank n R.BANK_CMD 1, q, os⟩)
  ∧ (∀ (b : Blk) (q : List Instr) (os : List Obs) (ini : Ini) (n : Nat), b.AcceptsField ini .bank n R.BANK_CMD 2 → 
    exec (.bankAbandon ini n) ⟨b, q, os⟩ = .next ⟨b.wroteField ini .bank n R.BANK_CMD 2, q, os⟩)
  ∧ (∀ (b : Blk) (q : List Instr) (os : List Obs) (ini : Ini) (n : Nat), b.AcceptsField ini .bank n R.BANK_CMD 3 → 
    exec (.bankSkip ini n) ⟨b, q, os⟩ = .next ⟨b.wroteField ini .bank n R.BANK_CMD 3, q, os⟩)
  ∧ (∀ (b : Blk) (q : List Instr) (os : List Obs) (ini : Ini) (n : Nat) (on : Bool), b.AcceptsField ini .bank n R.BANK_CTRL_PAUSE (b2n on) → 
    exec (.bankPause ini n on) ⟨b, q, os⟩ = .next ⟨b.wroteField ini .bank n R.BANK_CTRL_PAUSE (b2n on), q, os⟩)
  ∧ (∀ (b : Blk) (q : List Instr) (os : List Obs) (ini : Ini) (n : Nat), b.AcceptsField ini .bank n R.BANK_CTRL_GATE_CLR 1 → 
    exec (.gateClr ini n) ⟨b, q, os⟩ = .next ⟨b.wroteField ini .bank n R.BANK_CTRL_GATE_CLR 1, q, os⟩)
  ∧ (∀ (b : Blk) (q : List Instr) (os : List Obs) (ini : Ini), b.AcceptsField ini .loss 0 R.LOSS_RELEASE 1 → 
    exec (.lossRelease ini) ⟨b, q, os⟩ = .next ⟨b.wroteField ini .loss 0 R.LOSS_RELEASE 1, q, os⟩)
  ∧ (∀ (b : Blk) (q : List Instr) (os : List Obs) (ini : Ini), b.AcceptsField ini .loss 0 R.LOSS_CTRL_RESET 1 → 
    exec (.lossStatsReset ini) ⟨b, q, os⟩ = .next ⟨b.wroteField ini .loss 0 R.LOSS_CTRL_RESET 1, q, os⟩)

/-- When the page accepts the write of an initiator, LINK_TRAINING, NLNK_LOAD_RETRY, NLNK_FORCE4, NRED_ABORT_GO, NRED_SLOTS_GRANT, FXP_RX_FREE, FXP_CTRL_JOIN and FXP_ROUND answer the next state of the accepted write with its response; FXP_CTRL_EN answers that of its write, followed, where the exchange runs after it, by the session answers that come with it. -/
def Obligations.PortRegistersComplete : Prop :=
  (∀ (b : Blk) (q : List Instr) (os : List Obs) (ini : Ini) (p : Nat) (on : Bool), b.AcceptsField ini .nlnk p R.NLNK_CTRL_TRAIN (b2n on) → 
    exec (.linkTraining ini p on) ⟨b, q, os⟩ = .next ⟨b.wroteField ini .nlnk p R.NLNK_CTRL_TRAIN (b2n on), q, os⟩)
  ∧ (∀ (b : Blk) (q : List Instr) (os : List Obs) (ini : Ini) (p : Nat), b.AcceptsField ini .nlnk p R.NLNK_LOAD_CTRL_RETRY 1 → 
    exec (.nlnkLoadRetry ini p) ⟨b, q, os⟩ = .next ⟨b.wroteField ini .nlnk p R.NLNK_LOAD_CTRL_RETRY 1, q, os⟩)
  ∧ (∀ (b : Blk) (q : List Instr) (os : List Obs) (ini : Ini) (p : Nat) (on : Bool), b.AcceptsField ini .nlnk p R.NLNK_CTRL_FORCE4 (b2n on) → 
    exec (.nlnkForce4 ini p on) ⟨b, q, os⟩ = .next ⟨b.wroteField ini .nlnk p R.NLNK_CTRL_FORCE4 (b2n on), q, os⟩)
  ∧ (∀ (b : Blk) (q : List Instr) (os : List Obs) (ini : Ini) (p : Nat), b.AcceptsField ini .nred p R.NRED_ABORT_GO 1 → 
    exec (.nredAbortGo ini p) ⟨b, q, os⟩ = .next ⟨b.wroteField ini .nred p R.NRED_ABORT_GO 1, q, os⟩)
  ∧ (∀ (b : Blk) (q : List Instr) (os : List Obs) (ini : Ini) (p v : Nat), v < 2 ^ R.NRED_SLOTS_GRANT.w → b.AcceptsField ini .nred p R.NRED_SLOTS_GRANT v → 
    exec (.nredSlotsGrant ini p v) ⟨b, q, os⟩ = .next ⟨b.wroteField ini .nred p R.NRED_SLOTS_GRANT v, q, os⟩)
  ∧ (∀ (b : Blk) (q : List Instr) (os : List Obs) (ini : Ini) (f : Nat) (on : Bool) (l : List FarAnswer), l.all (fun a => decide (a.site < 8)) = true → b.AcceptsField ini .fxp f R.FXP_CTRL_EN (b2n on) → ((b.wroteField ini .fxp f R.FXP_CTRL_EN (b2n on)).on R.FXP_CTRL_EN && ((b.wroteField ini .fxp f R.FXP_CTRL_EN (b2n on)).serving .fxp 0 || (b.wroteField ini .fxp f R.FXP_CTRL_EN (b2n on)).serving .fxp 1)) = true → 
    exec (.fxpCtrlEn ini f on l) ⟨b, q, os⟩ = .next ⟨(b.wroteField ini .fxp f R.FXP_CTRL_EN (b2n on)).each l Blk.sessionAnswer, q, os⟩)
  ∧ (∀ (b : Blk) (q : List Instr) (os : List Obs) (ini : Ini) (f : Nat) (on : Bool) (l : List FarAnswer), l.all (fun a => decide (a.site < 8)) = true → b.AcceptsField ini .fxp f R.FXP_CTRL_EN (b2n on) → ((b.wroteField ini .fxp f R.FXP_CTRL_EN (b2n on)).on R.FXP_CTRL_EN && ((b.wroteField ini .fxp f R.FXP_CTRL_EN (b2n on)).serving .fxp 0 || (b.wroteField ini .fxp f R.FXP_CTRL_EN (b2n on)).serving .fxp 1)) = false → 
    exec (.fxpCtrlEn ini f on l) ⟨b, q, os⟩ = .next ⟨b.wroteField ini .fxp f R.FXP_CTRL_EN (b2n on), q, os⟩)
  ∧ (∀ (b : Blk) (q : List Instr) (os : List Obs) (ini : Ini) (f v : Nat), v < 2 ^ R.FXP_RX_FREE.w → b.AcceptsField ini .fxp f R.FXP_RX_FREE v → 
    exec (.fxpRxFree ini f v) ⟨b, q, os⟩ = .next ⟨b.wroteField ini .fxp f R.FXP_RX_FREE v, q, os⟩)
  ∧ (∀ (b : Blk) (q : List Instr) (os : List Obs) (ini : Ini) (f : Nat), b.AcceptsField ini .fxp f R.FXP_CTRL_JOIN 1 → 
    exec (.fxpCtrlJoin ini f) ⟨b, q, os⟩ = .next ⟨b.wroteField ini .fxp f R.FXP_CTRL_JOIN 1, q, os⟩)
  ∧ (∀ (b : Blk) (q : List Instr) (os : List Obs) (ini : Ini) (f v : Nat), v < 2 ^ R.FXP_ROUND.w → b.AcceptsField ini .fxp f R.FXP_ROUND v → 
    exec (.fxpRound ini f v) ⟨b, q, os⟩ = .next ⟨b.wroteField ini .fxp f R.FXP_ROUND v, q, os⟩)

/-- When the page accepts the write of an initiator, the TEL, PWC, BOOT, WALE and HOOP register rows (cap, power group, phase table, budget, reset, shutdown, BIST and wale tests and retirements, core groups, parking, claims, doorbells, event GET) answer the next state of the accepted write with its response. -/
def Obligations.ControlRegistersComplete : Prop :=
  (∀ (b : Blk) (q : List Instr) (os : List Obs) (ini : Ini) (v : Nat), v < 2 ^ R.TEL_CAP.w → b.AcceptsField ini .tel 0 R.TEL_CAP v → 
    exec (.telCap ini v) ⟨b, q, os⟩ = .next ⟨b.wroteField ini .tel 0 R.TEL_CAP v, q, os⟩)
  ∧ (∀ (b : Blk) (q : List Instr) (os : List Obs) (ini : Ini) (v : Nat), v < 2 ^ 18 → b.Accepts ini .tel 0 R.TEL_GROUP_GROUP.off v → 
    exec (.telGroup ini v) ⟨b, q, os⟩ = .next ⟨b.wrote ini .tel 0 R.TEL_GROUP_GROUP.off v, q, os⟩)
  ∧ (∀ (b : Blk) (q : List Instr) (os : List Obs) (ini : Ini) (k v : Nat), k < 64 → v < 2 ^ 16 → b.AcceptsField ini .pwc 0 (R.PWC_PHASE_TAB.at k) v → 
    exec (.pwcPhaseTab ini k v) ⟨b, q, os⟩ = .next ⟨b.wroteField ini .pwc 0 (R.PWC_PHASE_TAB.at k) v, q, os⟩)
  ∧ (∀ (b : Blk) (q : List Instr) (os : List Obs) (ini : Ini) (v : Nat), v < 2 ^ R.BOOT_BUDGET.w → b.AcceptsField ini .boot 0 R.BOOT_BUDGET v → 
    exec (.bootBudget ini v) ⟨b, q, os⟩ = .next ⟨b.wroteField ini .boot 0 R.BOOT_BUDGET v, q, os⟩)
  ∧ (∀ (b : Blk) (q : List Instr) (os : List Obs) (ini : Ini), b.AcceptsField ini .boot 0 R.BOOT_RESET 1 → 
    exec (.bootReset ini) ⟨b, q, os⟩ = .next ⟨b.wroteField ini .boot 0 R.BOOT_RESET 1, q, os⟩)
  ∧ (∀ (b : Blk) (q : List Instr) (os : List Obs) (ini : Ini), b.AcceptsField ini .boot 0 R.BOOT_SHUTDOWN 1 → 
    exec (.bootShutdown ini) ⟨b, q, os⟩ = .next ⟨b.wroteField ini .boot 0 R.BOOT_SHUTDOWN 1, q, os⟩)
  ∧ (∀ (b : Blk) (q : List Instr) (os : List Obs) (ini : Ini) (kind inst : Nat), kind < 4 → inst < 2 ^ 16 → b.Accepts ini .boot 0 R.BOOT_BIST_CMD_ACTION.off (1 + 256 * kind + 65536 * inst) → 
    exec (.bistTest ini kind inst) ⟨b, q, os⟩ = .next ⟨b.wrote ini .boot 0 R.BOOT_BIST_CMD_ACTION.off (1 + 256 * kind + 65536 * inst), q, os⟩)
  ∧ (∀ (b : Blk) (q : List Instr) (os : List Obs) (ini : Ini) (kind inst : Nat), kind < 4 → inst < 2 ^ 16 → b.Accepts ini .boot 0 R.BOOT_BIST_CMD_ACTION.off (2 + 256 * kind + 65536 * inst) → 
    exec (.bistRetire ini kind inst) ⟨b, q, os⟩ = .next ⟨b.wrote ini .boot 0 R.BOOT_BIST_CMD_ACTION.off (2 + 256 * kind + 65536 * inst), q, os⟩)
  ∧ (∀ (b : Blk) (q : List Instr) (os : List Obs) (ini : Ini) (w : Nat), b.AcceptsField ini .wale w R.WALE_REQ_TEST 1 → 
    exec (.waleTest ini w) ⟨b, q, os⟩ = .next ⟨b.wroteField ini .wale w R.WALE_REQ_TEST 1, q, os⟩)
  ∧ (∀ (b : Blk) (q : List Instr) (os : List Obs) (ini : Ini) (w : Nat), b.AcceptsField ini .wale w R.WALE_REQ_RETIRE 1 → 
    exec (.waleRetire ini w) ⟨b, q, os⟩ = .next ⟨b.wroteField ini .wale w R.WALE_REQ_RETIRE 1, q, os⟩)
  ∧ (∀ (b : Blk) (q : List Instr) (os : List Obs) (ini : Ini), b.AcceptsField ini .hoop 0 R.HOOP_MIGRATE_GO 1 → 
    exec (.hoopMigrate ini) ⟨b, q, os⟩ = .next ⟨b.wroteField ini .hoop 0 R.HOOP_MIGRATE_GO 1, q, os⟩)
  ∧ (∀ (b : Blk) (q : List Instr) (os : List Obs) (ini : Ini) (g v : Nat), v < 2 ^ R.HOOP_G_PARKED.w → b.AcceptsField ini .hoopg g R.HOOP_G_PARKED v → 
    exec (.hoopGParked ini g v) ⟨b, q, os⟩ = .next ⟨b.wroteField ini .hoopg g R.HOOP_G_PARKED v, q, os⟩)
  ∧ (∀ (b : Blk) (q : List Instr) (os : List Obs) (ini : Ini) (g v : Nat), v < 2 ^ R.HOOP_G_CLAIM.w → b.AcceptsField ini .hoopg g R.HOOP_G_CLAIM v → 
    exec (.hoopGClaim ini g v) ⟨b, q, os⟩ = .next ⟨b.wroteField ini .hoopg g R.HOOP_G_CLAIM v, q, os⟩)
  ∧ (∀ (b : Blk) (q : List Instr) (os : List Obs) (ini : Ini) (k v : Nat), k < 4 → v < 2 ^ 32 → b.Accepts ini .hoop 0 (0x040 + 4 * k) v → 
    exec (.hoopCoreGroup ini k v) ⟨b, q, os⟩ = .next ⟨b.wrote ini .hoop 0 (0x040 + 4 * k) v, q, os⟩)
  ∧ (∀ (b : Blk) (q : List Instr) (os : List Obs) (ini : Ini) (g v : Nat), v < 2 ^ R.HOOP_G_DQ_PUT.w → b.AcceptsField ini .hoopg g R.HOOP_G_DQ_PUT v → 
    exec (.hoopDmaDoorbell ini g v) ⟨b, q, os⟩ = .next ⟨b.wroteField ini .hoopg g R.HOOP_G_DQ_PUT v, q, os⟩)
  ∧ (∀ (b : Blk) (q : List Instr) (os : List Obs) (ini : Ini) (g v : Nat), v < 2 ^ R.HOOP_G_EVT_GET.w → b.AcceptsField ini .hoopg g R.HOOP_G_EVT_GET v → 
    exec (.hoopGEvtGet ini g v) ⟨b, q, os⟩ = .next ⟨b.wroteField ini .hoopg g R.HOOP_G_EVT_GET v, q, os⟩)

/-- When a thread runs ADD, SUB, MUL, MULHU, AND, OR, XOR, SLL, SRL, SRA, MIN, MAX, MINU, MAXU, SLT, SLTU or SEQ, with x the value of SRC1 and y operand B (SRC2, or the sign-extended immediate), the next state is the fetch's with the result modulo 2^64 in DEST, the PC past the instruction and the retirement counted; nothing else changes. -/
def Obligations.ArithmeticInstructionsComplete : Prop :=
  (∀ (b : Blk) (q : List Instr) (os : List Obs) (t : Tid) (i : Ins) (b' : Blk) (x y : Nat), b.Runs t 0x01 i b' → x = (b'.thread t).reg i.src1 → y = aluB (b'.thread t) i → 
    exec (.add t) ⟨b, q, os⟩ = .next ⟨b'.next t ((b'.thread t).setReg i.dest (x + y)), q, os⟩)
  ∧ (∀ (b : Blk) (q : List Instr) (os : List Obs) (t : Tid) (i : Ins) (b' : Blk) (x y : Nat), b.Runs t 0x02 i b' → x = (b'.thread t).reg i.src1 → y = aluB (b'.thread t) i → 
    exec (.sub t) ⟨b, q, os⟩ = .next ⟨b'.next t ((b'.thread t).setReg i.dest (toBits 64 ((x : Int) - y))), q, os⟩)
  ∧ (∀ (b : Blk) (q : List Instr) (os : List Obs) (t : Tid) (i : Ins) (b' : Blk) (x y : Nat), b.Runs t 0x03 i b' → x = (b'.thread t).reg i.src1 → y = aluB (b'.thread t) i → 
    exec (.mul t) ⟨b, q, os⟩ = .next ⟨b'.next t ((b'.thread t).setReg i.dest (x * y)), q, os⟩)
  ∧ (∀ (b : Blk) (q : List Instr) (os : List Obs) (t : Tid) (i : Ins) (b' : Blk) (x y : Nat), b.Runs t 0x04 i b' → x = (b'.thread t).reg i.src1 → y = aluB (b'.thread t) i → 
    exec (.mulhu t) ⟨b, q, os⟩ = .next ⟨b'.next t ((b'.thread t).setReg i.dest (x * y / 2 ^ 64)), q, os⟩)
  ∧ (∀ (b : Blk) (q : List Instr) (os : List Obs) (t : Tid) (i : Ins) (b' : Blk) (x y : Nat), b.Runs t 0x05 i b' → x = (b'.thread t).reg i.src1 → y = aluB (b'.thread t) i → 
    exec (.andOp t) ⟨b, q, os⟩ = .next ⟨b'.next t ((b'.thread t).setReg i.dest (x &&& y)), q, os⟩)
  ∧ (∀ (b : Blk) (q : List Instr) (os : List Obs) (t : Tid) (i : Ins) (b' : Blk) (x y : Nat), b.Runs t 0x06 i b' → x = (b'.thread t).reg i.src1 → y = aluB (b'.thread t) i → 
    exec (.orOp t) ⟨b, q, os⟩ = .next ⟨b'.next t ((b'.thread t).setReg i.dest (x ||| y)), q, os⟩)
  ∧ (∀ (b : Blk) (q : List Instr) (os : List Obs) (t : Tid) (i : Ins) (b' : Blk) (x y : Nat), b.Runs t 0x07 i b' → x = (b'.thread t).reg i.src1 → y = aluB (b'.thread t) i → 
    exec (.xor t) ⟨b, q, os⟩ = .next ⟨b'.next t ((b'.thread t).setReg i.dest (x ^^^ y)), q, os⟩)
  ∧ (∀ (b : Blk) (q : List Instr) (os : List Obs) (t : Tid) (i : Ins) (b' : Blk) (x y : Nat), b.Runs t 0x08 i b' → x = (b'.thread t).reg i.src1 → y = aluB (b'.thread t) i → 
    exec (.sll t) ⟨b, q, os⟩ = .next ⟨b'.next t ((b'.thread t).setReg i.dest (x * 2 ^ (y % 64))), q, os⟩)
  ∧ (∀ (b : Blk) (q : List Instr) (os : List Obs) (t : Tid) (i : Ins) (b' : Blk) (x y : Nat), b.Runs t 0x09 i b' → x = (b'.thread t).reg i.src1 → y = aluB (b'.thread t) i → 
    exec (.srl t) ⟨b, q, os⟩ = .next ⟨b'.next t ((b'.thread t).setReg i.dest (x / 2 ^ (y % 64))), q, os⟩)
  ∧ (∀ (b : Blk) (q : List Instr) (os : List Obs) (t : Tid) (i : Ins) (b' : Blk) (x y : Nat), b.Runs t 0x0A i b' → x = (b'.thread t).reg i.src1 → y = aluB (b'.thread t) i → 
    exec (.sra t) ⟨b, q, os⟩ = .next ⟨b'.next t ((b'.thread t).setReg i.dest (toBits 64 (sext 64 x / 2 ^ (y % 64)))), q, os⟩)
  ∧ (∀ (b : Blk) (q : List Instr) (os : List Obs) (t : Tid) (i : Ins) (b' : Blk) (x y : Nat), b.Runs t 0x0B i b' → x = (b'.thread t).reg i.src1 → y = aluB (b'.thread t) i → 
    exec (.min t) ⟨b, q, os⟩ = .next ⟨b'.next t ((b'.thread t).setReg i.dest (if sext 64 x < sext 64 y then x else y)), q, os⟩)
  ∧ (∀ (b : Blk) (q : List Instr) (os : List Obs) (t : Tid) (i : Ins) (b' : Blk) (x y : Nat), b.Runs t 0x0C i b' → x = (b'.thread t).reg i.src1 → y = aluB (b'.thread t) i → 
    exec (.max t) ⟨b, q, os⟩ = .next ⟨b'.next t ((b'.thread t).setReg i.dest (if sext 64 x < sext 64 y then y else x)), q, os⟩)
  ∧ (∀ (b : Blk) (q : List Instr) (os : List Obs) (t : Tid) (i : Ins) (b' : Blk) (x y : Nat), b.Runs t 0x0D i b' → x = (b'.thread t).reg i.src1 → y = aluB (b'.thread t) i → 
    exec (.minu t) ⟨b, q, os⟩ = .next ⟨b'.next t ((b'.thread t).setReg i.dest (min x y)), q, os⟩)
  ∧ (∀ (b : Blk) (q : List Instr) (os : List Obs) (t : Tid) (i : Ins) (b' : Blk) (x y : Nat), b.Runs t 0x0E i b' → x = (b'.thread t).reg i.src1 → y = aluB (b'.thread t) i → 
    exec (.maxu t) ⟨b, q, os⟩ = .next ⟨b'.next t ((b'.thread t).setReg i.dest (max x y)), q, os⟩)
  ∧ (∀ (b : Blk) (q : List Instr) (os : List Obs) (t : Tid) (i : Ins) (b' : Blk) (x y : Nat), b.Runs t 0x0F i b' → x = (b'.thread t).reg i.src1 → y = aluB (b'.thread t) i → 
    exec (.slt t) ⟨b, q, os⟩ = .next ⟨b'.next t ((b'.thread t).setReg i.dest (if sext 64 x < sext 64 y then 1 else 0)), q, os⟩)
  ∧ (∀ (b : Blk) (q : List Instr) (os : List Obs) (t : Tid) (i : Ins) (b' : Blk) (x y : Nat), b.Runs t 0x10 i b' → x = (b'.thread t).reg i.src1 → y = aluB (b'.thread t) i → 
    exec (.sltu t) ⟨b, q, os⟩ = .next ⟨b'.next t ((b'.thread t).setReg i.dest (if x < y then 1 else 0)), q, os⟩)
  ∧ (∀ (b : Blk) (q : List Instr) (os : List Obs) (t : Tid) (i : Ins) (b' : Blk) (x y : Nat), b.Runs t 0x11 i b' → x = (b'.thread t).reg i.src1 → y = aluB (b'.thread t) i → 
    exec (.seq t) ⟨b, q, os⟩ = .next ⟨b'.next t ((b'.thread t).setReg i.dest (if x = y then 1 else 0)), q, os⟩)

/-- When a thread runs NOP, LI, LIH, SEL, FENCE, SUMRD (of a slot that exists), RDID or PHASE, the next state is the fetch's with the instruction's result (the immediate, the word with its upper half replaced, the selected register, the emptied instruction cache, the summary slot, the identifier, the stake's phase) and the retirement, and nothing else changes. -/
def Obligations.MoveInstructionsComplete : Prop :=
  (∀ (b : Blk) (q : List Instr) (os : List Obs) (t : Tid) (i : Ins) (b' : Blk), b.Runs t 0x00 i b' → 
    exec (.nop t) ⟨b, q, os⟩ = .next ⟨b'.next t (b'.thread t), q, os⟩)
  ∧ (∀ (b : Blk) (q : List Instr) (os : List Obs) (t : Tid) (i : Ins) (b' : Blk), b.Runs t 0x12 i b' → 
    exec (.li t) ⟨b, q, os⟩ = .next ⟨b'.next t ((b'.thread t).setReg i.dest (toBits 64 (sext 32 i.imm))), q, os⟩)
  ∧ (∀ (b : Blk) (q : List Instr) (os : List Obs) (t : Tid) (i : Ins) (b' : Blk), b.Runs t 0x13 i b' → 
    exec (.lih t) ⟨b, q, os⟩ = .next ⟨b'.next t ((b'.thread t).setReg i.dest ((b'.thread t).reg i.src1 % 2 ^ 32 + 2 ^ 32 * i.imm)), q, os⟩)
  ∧ (∀ (b : Blk) (q : List Instr) (os : List Obs) (t : Tid) (i : Ins) (b' : Blk), b.Runs t 0x14 i b' → (b'.thread t).reg i.src1 ≠ 0 → 
    exec (.sel t) ⟨b, q, os⟩ = .next ⟨b'.next t ((b'.thread t).setReg i.dest ((b'.thread t).reg i.src2)), q, os⟩)
  ∧ (∀ (b : Blk) (q : List Instr) (os : List Obs) (t : Tid) (i : Ins) (b' : Blk), b.Runs t 0x14 i b' → (b'.thread t).reg i.src1 = 0 → 
    exec (.sel t) ⟨b, q, os⟩ = .next ⟨b'.next t (b'.thread t), q, os⟩)
  ∧ (∀ (b : Blk) (q : List Instr) (os : List Obs) (t : Tid) (i : Ins) (b' : Blk), b.Runs t 0x39 i b' → bit i.mod 0 = true → 
    exec (.fence t) ⟨b, q, os⟩ = .next ⟨(b'.icacheInval t.stake).next t ((b'.icacheInval t.stake).thread t), q, os⟩)
  ∧ (∀ (b : Blk) (q : List Instr) (os : List Obs) (t : Tid) (i : Ins) (b' : Blk), b.Runs t 0x39 i b' → bit i.mod 0 = false → 
    exec (.fence t) ⟨b, q, os⟩ = .next ⟨b'.next t (b'.thread t), q, os⟩)
  ∧ (∀ (b : Blk) (q : List Instr) (os : List Obs) (t : Tid) (i : Ins) (b' : Blk), b.Runs t 0x40 i b' → (b'.thread t).ea i ≤ 255 → 
    exec (.sumrd t) ⟨b, q, os⟩ = .next ⟨b'.next t ((b'.thread t).setReg i.dest (SMap.get 0 (b'.wale (waleOf t.stake)).slots ((b'.thread t).ea i))), q, os⟩)
  ∧ (∀ (b : Blk) (q : List Instr) (os : List Obs) (t : Tid) (i : Ins) (b' : Blk), b.Runs t 0x41 i b' → i.imm = 0 → 
    exec (.rdid t) ⟨b, q, os⟩ = .next ⟨b'.next t ((b'.thread t).setReg i.dest (t.stake)), q, os⟩)
  ∧ (∀ (b : Blk) (q : List Instr) (os : List Obs) (t : Tid) (i : Ins) (b' : Blk), b.Runs t 0x41 i b' → i.imm = 1 → 
    exec (.rdid t) ⟨b, q, os⟩ = .next ⟨b'.next t ((b'.thread t).setReg i.dest (t.thread)), q, os⟩)
  ∧ (∀ (b : Blk) (q : List Instr) (os : List Obs) (t : Tid) (i : Ins) (b' : Blk), b.Runs t 0x41 i b' → i.imm = 2 → 
    exec (.rdid t) ⟨b, q, os⟩ = .next ⟨b'.next t ((b'.thread t).setReg i.dest (waleOf t.stake)), q, os⟩)
  ∧ (∀ (b : Blk) (q : List Instr) (os : List Obs) (t : Tid) (i : Ins) (b' : Blk), b.Runs t 0x41 i b' → i.imm = 3 → 
    exec (.rdid t) ⟨b, q, os⟩ = .next ⟨b'.next t ((b'.thread t).setReg i.dest (dieOf (waleOf t.stake))), q, os⟩)
  ∧ (∀ (b : Blk) (q : List Instr) (os : List Obs) (t : Tid) (i : Ins) (b' : Blk), b.Runs t 0x41 i b' → i.imm = 4 → 
    exec (.rdid t) ⟨b, q, os⟩ = .next ⟨b'.next t ((b'.thread t).setReg i.dest ((b'.wale (waleOf t.stake)).unitBeat % 2 ^ 32)), q, os⟩)
  ∧ (∀ (b : Blk) (q : List Instr) (os : List Obs) (t : Tid) (i : Ins) (b' : Blk), b.Runs t 0x42 i b' → 
    exec (.phase t) ⟨b, q, os⟩ = .next ⟨(b'.setStake t.stake { b'.stake t.stake with phase := i.imm }).next t ((b'.setStake t.stake { b'.stake t.stake with phase := i.imm }).thread t), q, os⟩)

/-- When a thread runs BEQ, BNE, BLT, BGE, BLTU or BGEU, the next state retires it at PC + sext(IMM) × 8 where the comparison of SRC1 with SRC2 holds and at PC + 8 where it does not; JAL and JALR write PC + 8 to DEST and retire at PC + sext(IMM) × 8 and at SRC1 + sext(IMM) with bits [2:0] cleared. Nothing else changes. -/
def Obligations.BranchInstructionsComplete : Prop :=
  (∀ (b : Blk) (q : List Instr) (os : List Obs) (t : Tid) (i : Ins) (b' : Blk) (x y : Nat), b.Runs t 0x20 i b' → x = (b'.thread t).reg i.src1 → y = (b'.thread t).reg i.src2 → 
    exec (.beq t) ⟨b, q, os⟩ = .next ⟨if x = y then b'.retire t (b'.thread t) (branchTo (b'.thread t).pc i.imm) else b'.next t (b'.thread t), q, os⟩)
  ∧ (∀ (b : Blk) (q : List Instr) (os : List Obs) (t : Tid) (i : Ins) (b' : Blk) (x y : Nat), b.Runs t 0x21 i b' → x = (b'.thread t).reg i.src1 → y = (b'.thread t).reg i.src2 → 
    exec (.bne t) ⟨b, q, os⟩ = .next ⟨if x ≠ y then b'.retire t (b'.thread t) (branchTo (b'.thread t).pc i.imm) else b'.next t (b'.thread t), q, os⟩)
  ∧ (∀ (b : Blk) (q : List Instr) (os : List Obs) (t : Tid) (i : Ins) (b' : Blk) (x y : Nat), b.Runs t 0x22 i b' → x = (b'.thread t).reg i.src1 → y = (b'.thread t).reg i.src2 → 
    exec (.blt t) ⟨b, q, os⟩ = .next ⟨if sext 64 x < sext 64 y then b'.retire t (b'.thread t) (branchTo (b'.thread t).pc i.imm) else b'.next t (b'.thread t), q, os⟩)
  ∧ (∀ (b : Blk) (q : List Instr) (os : List Obs) (t : Tid) (i : Ins) (b' : Blk) (x y : Nat), b.Runs t 0x23 i b' → x = (b'.thread t).reg i.src1 → y = (b'.thread t).reg i.src2 → 
    exec (.bge t) ⟨b, q, os⟩ = .next ⟨if sext 64 y ≤ sext 64 x then b'.retire t (b'.thread t) (branchTo (b'.thread t).pc i.imm) else b'.next t (b'.thread t), q, os⟩)
  ∧ (∀ (b : Blk) (q : List Instr) (os : List Obs) (t : Tid) (i : Ins) (b' : Blk) (x y : Nat), b.Runs t 0x24 i b' → x = (b'.thread t).reg i.src1 → y = (b'.thread t).reg i.src2 → 
    exec (.bltu t) ⟨b, q, os⟩ = .next ⟨if x < y then b'.retire t (b'.thread t) (branchTo (b'.thread t).pc i.imm) else b'.next t (b'.thread t), q, os⟩)
  ∧ (∀ (b : Blk) (q : List Instr) (os : List Obs) (t : Tid) (i : Ins) (b' : Blk) (x y : Nat), b.Runs t 0x25 i b' → x = (b'.thread t).reg i.src1 → y = (b'.thread t).reg i.src2 → 
    exec (.bgeu t) ⟨b, q, os⟩ = .next ⟨if y ≤ x then b'.retire t (b'.thread t) (branchTo (b'.thread t).pc i.imm) else b'.next t (b'.thread t), q, os⟩)
  ∧ (∀ (b : Blk) (q : List Instr) (os : List Obs) (t : Tid) (i : Ins) (b' : Blk), b.Runs t 0x26 i b' → 
    exec (.jal t) ⟨b, q, os⟩ = .next ⟨b'.retire t ((b'.thread t).setReg i.dest ((b'.thread t).pc + 8)) (branchTo (b'.thread t).pc i.imm), q, os⟩)
  ∧ (∀ (b : Blk) (q : List Instr) (os : List Obs) (t : Tid) (i : Ins) (b' : Blk), b.Runs t 0x27 i b' → 
    exec (.jalr t) ⟨b, q, os⟩ = .next ⟨b'.retire t ((b'.thread t).setReg i.dest ((b'.thread t).pc + 8)) ((b'.thread t).ea i / 8 * 8), q, os⟩)

/-- When a thread runs LD, ST or AMO at an aligned address of its local map (for AMO of wale SRAM), and the memory answers without an error, LD writes the bytes read to DEST, sign-extended where MOD[2] is 1, ST leaves the block as its write of SRC2's low bytes does, AMO writes the old doubleword to DEST and stores the operation's value where it stores one; each retires past the instruction and changes nothing else. -/
def Obligations.MemoryInstructionsComplete : Prop :=
  (∀ (b : Blk) (q : List Instr) (os : List Obs) (t : Tid) (i : Ins) (b' : Blk) (n pa v : Nat), b.Runs t 0x28 i b' → n = 2 ^ bits i.mod 0 2 → (b'.thread t).ea i % n = 0 → localPa t.stake ((b'.thread t).ea i) n .load = .ok pa → b'.sramRead pa n = .ok v → 
    exec (.ld t) ⟨b, q, os⟩ = .next ⟨b'.next t ((b'.thread t).setReg i.dest (if bit i.mod 2 then toBits 64 (sext (8 * n) v) else v)), q, os⟩)
  ∧ (∀ (b : Blk) (q : List Instr) (os : List Obs) (t : Tid) (i : Ins) (b' : Blk) (n pa : Nat) (b2 : Blk), b.Runs t 0x29 i b' → n = 2 ^ bits i.mod 0 2 → (b'.thread t).ea i % n = 0 → localPa t.stake ((b'.thread t).ea i) n .store = .ok pa → b'.sramWrite pa n ((b'.thread t).reg i.src2) = .ok b2 → 
    exec (.st t) ⟨b, q, os⟩ = .next ⟨b2.next t (b'.thread t), q, os⟩)
  ∧ (∀ (b : Blk) (q : List Instr) (os : List Obs) (t : Tid) (i : Ins) (b' : Blk) (pa old : Nat), b.Runs t 0x2A i b' → (b'.thread t).ea i % 8 = 0 → localPa t.stake ((b'.thread t).ea i) 8 .atomic = .ok pa → b'.sramRead pa 8 = .ok old → amoNew i.mod old ((b'.thread t).reg i.src2) ((b'.thread t).reg i.dest) = none → 
    exec (.amo t) ⟨b, q, os⟩ = .next ⟨b'.next t ((b'.thread t).setReg i.dest old), q, os⟩)
  ∧ (∀ (b : Blk) (q : List Instr) (os : List Obs) (t : Tid) (i : Ins) (b' : Blk) (pa old v : Nat) (b2 : Blk), b.Runs t 0x2A i b' → (b'.thread t).ea i % 8 = 0 → localPa t.stake ((b'.thread t).ea i) 8 .atomic = .ok pa → b'.sramRead pa 8 = .ok old → amoNew i.mod old ((b'.thread t).reg i.src2) ((b'.thread t).reg i.dest) = some v → b'.sramWrite pa 8 v = .ok b2 → 
    exec (.amo t) ⟨b, q, os⟩ = .next ⟨b2.next t ((b'.thread t).setReg i.dest old), q, os⟩)

/-- A thread that runs TWAIT wakes at once with the done slots of its mask in DEST where the wait is satisfied and no slot holds an error, and sleeps in it otherwise; BAR releases the barrier with the arrival that reaches the count and sleeps before it; BWAIT ends the part at once, or with DRAIN sleeps while a slot is pending; HALT enters IDLE where no slot is pending or holds an error, and sleeps while one is pending. -/
def Obligations.WaitInstructionsComplete : Prop :=
  (∀ (b : Blk) (q : List Instr) (os : List Obs) (t : Tid) (i : Ins) (b' : Blk), b.Runs t 0x38 i b' → (b'.thread t).twaitDone i.imm (bit i.mod 0) = true → (b'.thread t).firstErr i.imm = none → 
    exec (.twait t) ⟨b, q, os⟩ = .next ⟨b'.next t ((b'.thread t).setReg i.dest (maskOf ((b'.thread t).doneIn i.imm))), q, os⟩)
  ∧ (∀ (b : Blk) (q : List Instr) (os : List Obs) (t : Tid) (i : Ins) (b' : Blk), b.Runs t 0x38 i b' → (b'.thread t).twaitDone i.imm (bit i.mod 0) = false → 
    exec (.twait t) ⟨b, q, os⟩ = .next ⟨b'.setThread t { (b'.thread t) with sleep := .twait i.dest i.imm (bit i.mod 0) }, q, os⟩)
  ∧ (∀ (b : Blk) (q : List Instr) (os : List Obs) (t : Tid) (i : Ins) (b' : Blk), b.Runs t 0x3A i b' → b'.barCount (waleOf t.stake) i.imm ≠ 0 → b'.barCount (waleOf t.stake) i.imm ≤ (b'.atBar (waleOf t.stake) i.imm).length + 1 → 
    exec (.bar t) ⟨b, q, os⟩ = .next ⟨(b'.barRelease (waleOf t.stake) i.imm).next t ((b'.barRelease (waleOf t.stake) i.imm).thread t), q, os⟩)
  ∧ (∀ (b : Blk) (q : List Instr) (os : List Obs) (t : Tid) (i : Ins) (b' : Blk), b.Runs t 0x3A i b' → (b'.atBar (waleOf t.stake) i.imm).length + 1 < b'.barCount (waleOf t.stake) i.imm → 
    exec (.bar t) ⟨b, q, os⟩ = .next ⟨b'.setThread t { (b'.thread t) with sleep := .bar i.imm }, q, os⟩)
  ∧ (∀ (b : Blk) (q : List Instr) (os : List Obs) (t : Tid) (i : Ins) (b' : Blk), b.Runs t 0x3B i b' → (bit i.mod 0 && !((b'.thread t).pendingIn allSlots).isEmpty) = false → 
    exec (.bwait t) ⟨b, q, os⟩ = .next ⟨b'.beatWait t, q, os⟩)
  ∧ (∀ (b : Blk) (q : List Instr) (os : List Obs) (t : Tid) (i : Ins) (b' : Blk), b.Runs t 0x3B i b' → (bit i.mod 0 && !((b'.thread t).pendingIn allSlots).isEmpty) = true → 
    exec (.bwait t) ⟨b, q, os⟩ = .next ⟨b'.setThread t { (b'.thread t) with sleep := .drain }, q, os⟩)
  ∧ (∀ (b : Blk) (q : List Instr) (os : List Obs) (t : Tid) (i : Ins) (b' : Blk), b.Runs t 0x3C i b' → (b'.thread t).pendingIn allSlots = [] → (b'.thread t).firstErr allSlots = none → 
    exec (.halt t) ⟨b, q, os⟩ = .next ⟨(b'.next t (b'.thread t)).toIdle t false, q, os⟩)
  ∧ (∀ (b : Blk) (q : List Instr) (os : List Obs) (t : Tid) (i : Ins) (b' : Blk), b.Runs t 0x3C i b' → (b'.thread t).pendingIn allSlots ≠ [] → 
    exec (.halt t) ⟨b, q, os⟩ = .next ⟨b'.setThread t { (b'.thread t) with sleep := .halt }, q, os⟩)

/-- When a thread runs an issue instruction whose descriptor pointer is aligned and local, whose TOKEN slot is free, whose queue's pages serve, whose descriptor the engine accepts, and for which a credit and a scoreboard entry are free, the next state is that of the accepted issue. A credit timeout of a stalled thread, where leave is not held, faults it with class CREDIT_TIMEOUT and detail 0x09; an opcode that is not listed faults it with ACCESS_DENIED and detail 0x01. -/
def Obligations.IssueInstructionsComplete : Prop :=
  (∀ (b : Blk) (q : List Instr) (os : List Obs) (t : Tid) (i : Ins) (b' : Blk) (pa v : Nat) (d : List Nat), b.Runs t 0x30 i b' → (b'.thread t).reg i.src1 % 64 = 0 → localPa t.stake ((b'.thread t).reg i.src1) 64 .load = .ok pa → ((b'.thread t).tok (bits i.mod 0 4)).err = 0 → (b'.thread t).tok (bits i.mod 0 4) ≠ .pending → b'.issueFenced t.stake .mat = false → b'.issueServing t.stake .mat = true → b'.sramRead pa 64 = .ok v → d = (List.range 8).map (fun k => bits v (64 * k) 64) → issueValid .mat d i.imm = true → b'.credits t.stake .mat ≠ 0 → (b'.sbRes t.stake < 2 ∨ b'.sbShared (waleOf t.stake) < 64) → 
    exec (.issMat t) ⟨b, q, os⟩ = .next ⟨b'.issueAccept t .mat i d, q, os⟩)
  ∧ (∀ (b : Blk) (q : List Instr) (os : List Obs) (t : Tid) (i : Ins) (b' : Blk) (pa v : Nat) (d : List Nat), b.Runs t 0x31 i b' → (b'.thread t).reg i.src1 % 64 = 0 → localPa t.stake ((b'.thread t).reg i.src1) 64 .load = .ok pa → ((b'.thread t).tok (bits i.mod 0 4)).err = 0 → (b'.thread t).tok (bits i.mod 0 4) ≠ .pending → b'.issueFenced t.stake .vec = false → b'.issueServing t.stake .vec = true → b'.sramRead pa 64 = .ok v → d = (List.range 8).map (fun k => bits v (64 * k) 64) → issueValid .vec d i.imm = true → b'.credits t.stake .vec ≠ 0 → (b'.sbRes t.stake < 2 ∨ b'.sbShared (waleOf t.stake) < 64) → 
    exec (.issVec t) ⟨b, q, os⟩ = .next ⟨b'.issueAccept t .vec i d, q, os⟩)
  ∧ (∀ (b : Blk) (q : List Instr) (os : List Obs) (t : Tid) (i : Ins) (b' : Blk) (pa v : Nat) (d : List Nat), b.Runs t 0x32 i b' → (b'.thread t).reg i.src1 % 64 = 0 → localPa t.stake ((b'.thread t).reg i.src1) 64 .load = .ok pa → ((b'.thread t).tok (bits i.mod 0 4)).err = 0 → (b'.thread t).tok (bits i.mod 0 4) ≠ .pending → b'.issueFenced t.stake .row = false → b'.issueServing t.stake .row = true → b'.sramRead pa 64 = .ok v → d = (List.range 8).map (fun k => bits v (64 * k) 64) → issueValid .row d i.imm = true → b'.credits t.stake .row ≠ 0 → (b'.sbRes t.stake < 2 ∨ b'.sbShared (waleOf t.stake) < 64) → 
    exec (.issRow t) ⟨b, q, os⟩ = .next ⟨b'.issueAccept t .row i d, q, os⟩)
  ∧ (∀ (b : Blk) (q : List Instr) (os : List Obs) (t : Tid) (i : Ins) (b' : Blk) (pa v : Nat) (d : List Nat), b.Runs t 0x33 i b' → (b'.thread t).reg i.src1 % 64 = 0 → localPa t.stake ((b'.thread t).reg i.src1) 64 .load = .ok pa → ((b'.thread t).tok (bits i.mod 0 4)).err = 0 → (b'.thread t).tok (bits i.mod 0 4) ≠ .pending → b'.issueFenced t.stake .dma = false → b'.issueServing t.stake .dma = true → b'.sramRead pa 64 = .ok v → d = (List.range 8).map (fun k => bits v (64 * k) 64) → issueValid .dma d i.imm = true → b'.credits t.stake .dma ≠ 0 → (b'.sbRes t.stake < 2 ∨ b'.sbShared (waleOf t.stake) < 64) → 
    exec (.issDma t) ⟨b, q, os⟩ = .next ⟨b'.issueAccept t .dma i d, q, os⟩)
  ∧ (∀ (b : Blk) (q : List Instr) (os : List Obs) (t : Tid) (i : Ins) (b' : Blk) (pa v : Nat) (d : List Nat), b.Runs t 0x34 i b' → (b'.thread t).reg i.src1 % 64 = 0 → localPa t.stake ((b'.thread t).reg i.src1) 64 .load = .ok pa → ((b'.thread t).tok (bits i.mod 0 4)).err = 0 → (b'.thread t).tok (bits i.mod 0 4) ≠ .pending → b'.issueFenced t.stake .sum = false → b'.issueServing t.stake .sum = true → b'.sramRead pa 64 = .ok v → d = (List.range 8).map (fun k => bits v (64 * k) 64) → issueValid .sum d i.imm = true → b'.credits t.stake .sum ≠ 0 → (b'.sbRes t.stake < 2 ∨ b'.sbShared (waleOf t.stake) < 64) → 
    exec (.issSum t) ⟨b, q, os⟩ = .next ⟨b'.issueAccept t .sum i d, q, os⟩)
  ∧ (∀ (b : Blk) (q : List Instr) (os : List Obs) (t : Tid), tidOk t = true → (b.thread t).st = tRun → (b.thread t).sleep = .stall → b.rd R.SCHED_CREDIT_LIMIT (waleOf t.stake) ≠ 0 → b.leaveHeld = false → 
    exec (.creditTimeout t) ⟨b, q, os⟩ = .next ⟨b.threadFault t eCredit 0x09, q, os⟩)
  ∧ (∀ (b : Blk) (q : List Instr) (os : List Obs) (t : Tid) (b' : Blk) (w : Nat), tidOk t = true → (b.thread t).st = tRun → (b.thread t).sleep = .awake → b.fetch t = (b', .ok w) → opUses (bits w 57 7) = none → 
    exec (.undefinedOpcode t) ⟨b, q, os⟩ = .next ⟨b'.threadFault t eDenied 0x01, q, os⟩)

/-- With an operation of its kind at the head of the unit's queue and no error in its AFTER slot, SUM_COMBINE, SUM_POST, SUM_CLEAR and SUM_LOSS take it and answer the combined record in its slot, the records in the post FIFO, the source slots emptied, the values of the named slots read; SUMMARY_OP_END of an operation that has made its writes frees the unit, sends the values read to the loss monitor, counts a COMBINE and posts the token. -/
def Obligations.SummaryCommandsComplete : Prop :=
  (∀ (b : Blk) (q : List Instr) (os : List Obs) (w : Nat) (op : QOp) (l : List QOp) (b' : Blk), w < 200 → b.sumHead w = some (op, l, 0) → (sumDesc op.desc).op = 0 → b' = (b.setWale w { b.wale w with sumQ := l }).setWale w { (b.setWale w { b.wale w with sumQ := l }).wale w with sum := some { op := op, made := true } } → 
    exec (.sumCombine w) ⟨b, q, os⟩ = .next ⟨b'.combine w op (sumDesc op.desc), q, os⟩)
  ∧ (∀ (b : Blk) (q : List Instr) (os : List Obs) (w : Nat) (op : QOp) (l : List QOp) (b' : Blk), w < 200 → b.sumHead w = some (op, l, 0) → (sumDesc op.desc).op = 1 → b' = (b.setWale w { b.wale w with sumQ := l }).setWale w { (b.setWale w { b.wale w with sumQ := l }).wale w with sum := some { op := op, made := true } } → 
    exec (.sumPost w) ⟨b, q, os⟩ = .next ⟨Blk.postGo w op (sumDesc op.desc) (sumDesc op.desc).count 0 b', q, os⟩)
  ∧ (∀ (b : Blk) (q : List Instr) (os : List Obs) (w : Nat) (op : QOp) (l : List QOp) (b' : Blk), w < 200 → b.sumHead w = some (op, l, 0) → (sumDesc op.desc).op = 2 → b' = (b.setWale w { b.wale w with sumQ := l }).setWale w { (b.setWale w { b.wale w with sumQ := l }).wale w with sum := some { op := op, made := true } } → 
    exec (.sumClear w) ⟨b, q, os⟩ = .next ⟨b'.setWale w { b'.wale w with slots := (b'.wale w).slots.filter (fun e => !(sumDesc op.desc).sources.contains e.1) }, q, os⟩)
  ∧ (∀ (b : Blk) (q : List Instr) (os : List Obs) (w : Nat) (op : QOp) (l : List QOp) (b' : Blk), w < 200 → b.sumHead w = some (op, l, 0) → (sumDesc op.desc).op = 3 → b' = (b.setWale w { b.wale w with sumQ := l }).setWale w { (b.setWale w { b.wale w with sumQ := l }).wale w with sum := some { op := op, made := true } } → 
    exec (.sumLoss w) ⟨b, q, os⟩ = .next ⟨b'.setWale w { b'.wale w with sum := some { op := op, made := true, loss := b'.lossRead w (sumDesc op.desc) } }, q, os⟩)
  ∧ (∀ (b : Blk) (q : List Instr) (os : List Obs) (w : Nat) (r : SumRun) (b1 : Blk), w < 200 → (b.wale w).sum = some r → r.made = true → b1 = (b.setWale w { b.wale w with sum := none }).lossSend w r.loss → 
    exec (.summaryOpEnd w) ⟨b, q, os⟩ = .next ⟨(if (sumDesc r.op.desc).op = 0 then b1.inc R.SUM_COMBINE_CNT w else b1).post r.op 0, q, os⟩)

/-- With the unit idle, an operation at the head of its queue and its AFTER slot done without an error, MATRIX_OP_START reads and checks the descriptor's entry, asks for leave where the operation needs it and takes it into the unit on the grant, or at once where it needs none; CHAIN_OP_START takes the operation into the unit, ROW_OP_START takes it and asks for leave, and DMA_STREAM_START takes it into its stream context, where one of 1 MiB or more asks for leave first. -/
def Obligations.EngineStartsComplete : Prop :=
  (∀ (b : Blk) (q : List Instr) (os : List Obs) (k : Nat) (op : QOp) (l : List QOp) (v : Nat), k < 6400 → (b.stake k).mat = none → (b.stake k).matQ = op :: l → afterGate op = some 0 → (b.stake k).matEnt = some v → b.lvGranted (.mat k) = true → 
    exec (.matrixOpStart k) ⟨b, q, os⟩ = .next ⟨(b.setStake k { b.stake k with matQ := l, matEnt := none, mat := some { op := op, ent := some v } }).lvDrop (.mat k), q, os⟩)
  ∧ (∀ (b : Blk) (q : List Instr) (os : List Obs) (k : Nat) (op : QOp) (l : List QOp) (v : Nat) (d : MatDesc), k < 6400 → (b.stake k).mat = none → (b.stake k).matQ = op :: l → afterGate op = some 0 → (b.stake k).matEnt = none → d = matDesc op.desc → b.matRead k d = .ok v → d.geom (d.entry v) = true → d.needsLeave d.blocks = true → 
    exec (.matrixOpStart k) ⟨b, q, os⟩ = .next ⟨(b.setStake k { b.stake k with matEnt := some v }).lvAsk (.mat k), q, os⟩)
  ∧ (∀ (b : Blk) (q : List Instr) (os : List Obs) (k : Nat) (op : QOp) (l : List QOp) (v : Nat) (d : MatDesc), k < 6400 → (b.stake k).mat = none → (b.stake k).matQ = op :: l → afterGate op = some 0 → (b.stake k).matEnt = none → d = matDesc op.desc → b.matRead k d = .ok v → d.geom (d.entry v) = true → d.needsLeave d.blocks = false → 
    exec (.matrixOpStart k) ⟨b, q, os⟩ = .next ⟨b.setStake k { b.stake k with matQ := l, mat := some { op := op, ent := some v } }, q, os⟩)
  ∧ (∀ (b : Blk) (q : List Instr) (os : List Obs) (k : Nat) (op : QOp) (l : List QOp), k < 6400 → (b.stake k).vec = none → (b.stake k).vecQ = op :: l → afterGate op = some 0 → 
    exec (.chainOpStart k) ⟨b, q, os⟩ = .next ⟨b.setStake k { b.stake k with vecQ := l, vec := some { op := op } }, q, os⟩)
  ∧ (∀ (b : Blk) (q : List Instr) (os : List Obs) (w : Nat) (op : QOp) (l : List QOp), w < 200 → (b.wale w).row = none → (b.wale w).rowQ = op :: l → b.on R.ROW_SIDE_CLR_BUSY_CLR w = false → afterGate op = some 0 → 
    exec (.rowOpStart w) ⟨b, q, os⟩ = .next ⟨(b.setWale w { b.wale w with rowQ := l, row := some { op := op, st := .wait } }).lvAsk (.row w), q, os⟩)
  ∧ (∀ (b : Blk) (q : List Instr) (os : List Obs) (c : Nat) (op : QOp), c < 12800 → (b.stream c).isSome = false → b.dmaNext (c / 64) = some op → afterGate op = some 0 → (dmaDesc op.desc).total < 2 ^ 20 → 
    exec (.dmaStreamStart c) ⟨b, q, os⟩ = .next ⟨(b.setWale (c / 64) { b.wale (c / 64) with dmaQ := (b.wale (c / 64)).dmaQ.erase op }).setStream c (some { orig := .op op, desc := op.desc, imm := op.imm, st := .run, started := true }), q, os⟩)
  ∧ (∀ (b : Blk) (q : List Instr) (os : List Obs) (c : Nat) (op : QOp), c < 12800 → (b.stream c).isSome = false → b.dmaNext (c / 64) = some op → afterGate op = some 0 → 2 ^ 20 ≤ (dmaDesc op.desc).total → 
    exec (.dmaStreamStart c) ⟨b, q, os⟩ = .next ⟨((b.setWale (c / 64) { b.wale (c / 64) with dmaQ := (b.wale (c / 64)).dmaQ.erase op }).setStream c (some { orig := .op op, desc := op.desc, imm := op.imm, st := .wait, started := false })).lvAsk (.dma c), q, os⟩)

/-- With an operation running in the unit, MATRIX_OP_END, CHAIN_OP_END, ROW_OP_END and DMA_STREAM_END answer the block after the unit has made the operation's reads, results, writes and token; MATRIX_SUSPEND, CHAIN_SUSPEND, ROW_SUSPEND and DMA_STREAM_FAULT do the same where the named operand bytes are uncorrectable and this leaves the operation suspended. SIDE_CLEAR_DONE zeroes the side memory, clears BUSY and raises its event. -/
def Obligations.EngineEndsComplete : Prop :=
  (∀ (b : Blk) (q : List Instr) (os : List Obs) (k : Nat) (r : Run), k < 6400 → b.matRunning k = some r → 
    exec (.matrixOpEnd k) ⟨b, q, os⟩ = .next ⟨b.matFinish k r, q, os⟩)
  ∧ (∀ (b : Blk) (q : List Instr) (os : List Obs) (k addr : Nat) (r r' : Run) (b' : Blk), k < 6400 → (inGeneral addr 1 || inWale addr 1) = true → b.matRunning k = some r → b' = (b.markUe (lpa k addr)).matFinish k r → (b'.stake k).mat = some r' → r'.st = .susp → r'.op = r.op → 
    exec (.matrixSuspend k addr) ⟨b, q, os⟩ = .next ⟨b', q, os⟩)
  ∧ (∀ (b : Blk) (q : List Instr) (os : List Obs) (k : Nat) (r : Run), k < 6400 → b.chRunning k = some r → 
    exec (.chainOpEnd k) ⟨b, q, os⟩ = .next ⟨b.chFinish k r, q, os⟩)
  ∧ (∀ (b : Blk) (q : List Instr) (os : List Obs) (k addr : Nat) (r : Run) (f : RFail), k < 6400 → (inGeneral addr 1 || inWale addr 1) = true → b.chRunning k = some r → ((b.markUe (lpa k addr)).chAll k (chDesc r.op.desc) r.op.imm).2 = some f → 
    exec (.chainSuspend k addr) ⟨b, q, os⟩ = .next ⟨(b.markUe (lpa k addr)).chFinish k r, q, os⟩)
  ∧ (∀ (b : Blk) (q : List Instr) (os : List Obs) (w : Nat) (r : Run), w < 200 → b.rowRunning w = some r → 
    exec (.rowOpEnd w) ⟨b, q, os⟩ = .next ⟨b.rowFinish w r, q, os⟩)
  ∧ (∀ (b : Blk) (q : List Instr) (os : List Obs) (w addr : Nat) (r r' : Run) (b' : Blk), w < 200 → inWale addr 1 = true → b.rowRunning w = some r → b' = (b.markUe (lpa (w * 32) addr)).rowFinish w r → (b'.wale w).row = some r' → r'.st = .susp → r'.op = r.op → 
    exec (.rowSuspend w addr) ⟨b, q, os⟩ = .next ⟨b', q, os⟩)
  ∧ (∀ (b : Blk) (q : List Instr) (os : List Obs) (c : Nat) (x : Stream), c < 12800 ∨ 14848 ≤ c ∧ c < 16896 → b.dmaRunning c = some x → 
    exec (.dmaStreamEnd c) ⟨b, q, os⟩ = .next ⟨b.dmaFinish c x, q, os⟩)
  ∧ (∀ (b : Blk) (q : List Instr) (os : List Obs) (c : Nat) (ue : Option Nat) (x x' : Stream) (b' : Blk), c < 12800 ∨ 14848 ≤ c ∧ c < 16896 → ue.getD 0 < 2 ^ 42 → b.dmaRunning c = some x → b' = (match ue with | some a => b.markUe a | none => b).dmaFinish c x → b'.stream c = some x' → x'.st = .susp → 
    exec (.dmaStreamFault c ue) ⟨b, q, os⟩ = .next ⟨b', q, os⟩)
  ∧ (∀ (b : Blk) (q : List Instr) (os : List Obs) (w : Nat), w < 200 → b.on R.ROW_SIDE_CLR_BUSY_CLR w = true → 
    exec (.sideClearDone w) ⟨b, q, os⟩ = .next ⟨((b.zeroRange (waleWin w + 0x80_0000) 0x10_0000).wr R.ROW_SIDE_CLR_BUSY_CLR 0 w).event .row 18 w, q, os⟩)

/-- LEAVE_WINDOW grants the oldest requests of its die, 64 or, in slow leave, 8, and none while leave is held, counts the grants, and counts a wait where requests remain. TRANSLATION_WALK_END of a walk that runs ends it, its result kept in the caches unless an invalidation has met it since; without one it leaves the block as the walk made now does, with the record and the event of a failed one. INVAL_COMPLETE ends an invalidation. SCRUB_LINE leaves the block as the scrub of its line does. HOOP_MEMORY_ACCESS leaves the block as the core's access at the physical address of its page tables does, or answers the core a page fault. -/
def Obligations.LeaveTranslationScrubComplete : Prop :=
  (∀ (b : Blk) (q : List Instr) (os : List Obs) (d : Nat) (n : Nat) (b1 : Blk), d < 4 → n = (if b.leaveHeld then 0 else if b.slowLeave then 8 else 64) → b1 = (({ b with leave := { b.leave with reqs := SMap.set [] b.leave.reqs d ((b.lvReqs d).drop n) } }).each ((b.lvReqs d).take n) (fun b r => b.grant r)).add64 (R.PWC_LEAVE_GRANT_LO.at d) (R.PWC_LEAVE_GRANT_HI.at d) ((b.lvReqs d).take n).length → 
    exec (.leaveWindow d) ⟨b, q, os⟩ = .next ⟨if (b.lvReqs d).length > n then b1.inc (R.PWC_LEAVE_WAIT.at d) else b1, q, os⟩)
  ∧ (∀ (b : Blk) (q : List Instr) (os : List Obs) (u va : Nat) (write v : Bool) (b' : Blk) (pa dom sz pte : Nat), u ≤ modXl → va < 2 ^ 48 → b.xlt.walks.find? (fun x => x.unit == u && x.va == va && x.cls == (if v then clsV else clsO) && x.write == write) = none → b.xlate1 u (if v then clsV else clsO) write va = (b', .ok pa dom sz pte) → 
    exec (.translationWalkEnd u va write v) ⟨b, q, os⟩ = .next ⟨b', q, os⟩)
  ∧ (∀ (b : Blk) (q : List Instr) (os : List Obs) (u va : Nat) (write v : Bool) (x : WalkRun) (b1 : Blk) (pa dom sz pte : Nat), u ≤ modXl → va < 2 ^ 48 → b.xlt.walks.find? (fun x => x.unit == u && x.va == va && x.cls == (if v then clsV else clsO) && x.write == write) = some x → x.res = .ok pa dom sz pte → b1 = { b with xlt := { b.xlt with walks := b.xlt.walks.erase x } } → 
    exec (.translationWalkEnd u va write v) ⟨b, q, os⟩ = .next ⟨if x.stale then b1 else b1.xlFill x.unit x.va x.ents x.res, q, os⟩)
  ∧ (∀ (b : Blk) (q : List Instr) (os : List Obs) (u va : Nat) (write v : Bool) (b' : Blk) (c d pte a : Nat), u ≤ modXl → va < 2 ^ 48 → b.xlt.walks.find? (fun x => x.unit == u && x.va == va && x.cls == (if v then clsV else clsO) && x.write == write) = none → b.xlate1 u (if v then clsV else clsO) write va = (b', .bad c d pte a) → 
    exec (.translationWalkEnd u va write v) ⟨b, q, os⟩ = .next ⟨b'.walkFailed u va (if v then clsV else clsO) c d a, q, os⟩)
  ∧ (∀ (b : Blk) (q : List Instr) (os : List Obs), b.on R.XLT_INVAL_STATUS_BUSY = true → 
    exec .invalComplete ⟨b, q, os⟩ = .next ⟨(b.wr R.XLT_INVAL_STATUS_BUSY 0).event .xlt 18, q, os⟩)
  ∧ (∀ (b : Blk) (q : List Instr) (os : List Obs) (pa : Nat) (ce last : Bool), isDram pa = true → 
    exec (.scrubLine pa ce last) ⟨b, q, os⟩ = .next ⟨b.scrub pa ce last, q, os⟩)
  ∧ (∀ (b : Blk) (q : List Instr) (os : List Obs) (core a : Nat) (wr : Bool) (n data : Nat) (pa : Nat), core < 32 → a < 2 ^ 64 → [1, 2, 4, 8, 16, 32, 64].contains n = true → data < 256 ^ n → b.corePa core a wr = .pa pa → 
    exec (.hoopMemoryAccess core a wr n data) ⟨b, q, os⟩ = .next ⟨b.coreAccess core pa wr n data, q, os⟩)
  ∧ (∀ (b : Blk) (q : List Instr) (os : List Obs) (core a : Nat) (wr : Bool) (n data : Nat), core < 32 → a < 2 ^ 64 → [1, 2, 4, 8, 16, 32, 64].contains n = true → data < 256 ^ n → b.corePa core a wr = .page → 
    exec (.hoopMemoryAccess core a wr n data) ⟨b, q, os⟩ = .next ⟨b.send (.corePageFault core), q, os⟩)

/-- While the beat runs, BEAT_TICK advances the timer, then the power controller, the border, the digest unit and each wale in order. WORK_LIST_TAKE takes the next list of a wale that may take one. SYNC_EDGE inside the beat acquires in ACQUIRING and matches in LOCKED and LOST; SYNC_EVALUATE evaluates a tick not yet evaluated in LOCKED or LOST. CDC_TIMEOUT of a block that runs records CDC_TIMEOUT with both domains and fails the block. -/
def Obligations.BeatCommandsComplete : Prop :=
  (∀ (b : Blk) (q : List Instr) (os : List Obs) (m : TickMeasure), b.beat.running = true → 
    exec (.beatTick m) ⟨b, q, os⟩ = .next ⟨((b.tickTimer.pwcTick m).tickBorder.tickDigest).each (List.range 200) (fun b w => b.tickWale w), q, os⟩)
  ∧ (∀ (b : Blk) (q : List Instr) (os : List Obs) (w : Nat), w < 200 → b.mayTake w = true → 
    exec (.workListTake w) ⟨b, q, os⟩ = .next ⟨b.take w, q, os⟩)
  ∧ (∀ (b : Blk) (q : List Instr) (os : List Obs) (x : Nat), x < b.beat.len → b.rd R.BEAT_SYNC_STATUS_STATE = 1 → 
    exec (.syncEdge x) ⟨b, q, os⟩ = .next ⟨b.syncAcquire x, q, os⟩)
  ∧ (∀ (b : Blk) (q : List Instr) (os : List Obs) (x : Nat), x < b.beat.len → b.rd R.BEAT_SYNC_STATUS_STATE = 2 ∨ b.rd R.BEAT_SYNC_STATUS_STATE = 3 → 
    exec (.syncEdge x) ⟨b, q, os⟩ = .next ⟨b.syncMatchEdge x, q, os⟩)
  ∧ (∀ (b : Blk) (q : List Instr) (os : List Obs), b.beat.evaluated = false → b.rd R.BEAT_SYNC_STATUS_STATE = syLocked ∨ b.rd R.BEAT_SYNC_STATUS_STATE = syLost → 
    exec .syncEvaluate ⟨b, q, os⟩ = .next ⟨b.syncEval, q, os⟩)
  ∧ (∀ (b : Blk) (q : List Instr) (os : List Obs) (p : Page) (i stopped live : Nat), pageOk p i = true → stopped < 40 → live < 40 → live ≠ stopped → (pageClocks p i).any (fun c => c.code == live) = true → ([sOff, sReset, sIsolated, sFailed] : List Nat).contains (b.st p i) = false → 
    exec (.cdcTimeout p i stopped live) ⟨b, q, os⟩ = .next ⟨(b.error p i { cls := eCdc, info0 := stopped + 256 * live }).failBlock p i, q, os⟩)

/-- BLOCK_INIT_DONE of a module that runs ends initialisation; BLOCK_INIT_TIMEOUT of a block in RESET fails it; BLOCK_DRAINED of a drained block in QUIESCING ends the drain; QUIESCE_TIMEOUT drops the work and isolates the block where ISOLATE is 1 or an orderly shutdown waits for it (log entry 40), and raises its event otherwise; BLOCK_SELF_CHECK_FAIL fails a block that has not failed; D2D_LANE_REPAIR, D2D_LINK_FAIL and DIE_PLL_UNLOCK count, raise their events and fail the blocks that R40 and R41 name. -/
def Obligations.BlockStateCommandsComplete : Prop :=
  (∀ (b : Blk) (q : List Instr) (os : List Obs) (p : Page) (i : Nat), pageOk p i = true → b.blocksRun = true → b.lid.zero = none → 
    exec (.blockInitDone p i) ⟨b, q, os⟩ = .next ⟨b.initDone p i, q, os⟩)
  ∧ (∀ (b : Blk) (q : List Instr) (os : List Obs) (p : Page) (i : Nat), pageOk p i = true → b.st p i = sReset → b.blocksRun = true → b.lid.zero = none → 
    exec (.blockInitTimeout p i) ⟨b, q, os⟩ = .next ⟨b.failBlock p i, q, os⟩)
  ∧ (∀ (b : Blk) (q : List Instr) (os : List Obs) (p : Page) (i : Nat), pageOk p i = true → b.st p i = sQuiescing → b.idleAt p i = true → 
    exec (.blockDrained p i) ⟨b, q, os⟩ = .next ⟨b.drainedTo p i, q, os⟩)
  ∧ (∀ (b : Blk) (q : List Instr) (os : List Obs) (p : Page) (i : Nat), pageOk p i = true → b.st p i = sQuiescing → b.on (R.PG_CTRL_ISOLATE p) i = true ∨ (b.boot.shut ≠ [] ∧ zeroSpares p = false) → 
    exec (.quiesceTimeout p i) ⟨b, q, os⟩ = .next ⟨(((b.wr (R.PG_CTRL_ISOLATE p) 1 i).denyRings p i).dropBlock p i).isolated p i true, q, os⟩)
  ∧ (∀ (b : Blk) (q : List Instr) (os : List Obs) (p : Page) (i : Nat), pageOk p i = true → b.st p i = sQuiescing → b.on (R.PG_CTRL_ISOLATE p) i = false → b.boot.shut = [] ∨ zeroSpares p = true → 
    exec (.quiesceTimeout p i) ⟨b, q, os⟩ = .next ⟨b.raise p i 4, q, os⟩)
  ∧ (∀ (b : Blk) (q : List Instr) (os : List Obs) (p : Page) (i : Nat), pageOk p i = true → b.st p i ≠ sFailed → 
    exec (.blockSelfCheckFail p i) ⟨b, q, os⟩ = .next ⟨b.failBlock p i, q, os⟩)
  ∧ (∀ (b : Blk) (q : List Instr) (os : List Obs) (d k : Nat), d < 4 → k < 4 → d ≠ k → b.rd R.D2D_STATUS_LINK (4 * d + k) ≠ 0 → 
    exec (.d2dLaneRepair d k) ⟨b, q, os⟩ = .next ⟨(b.inc R.D2D_STATUS_REPAIRED (4 * d + k)).event .d2d 16 (4 * d + k), q, os⟩)
  ∧ (∀ (b : Blk) (q : List Instr) (os : List Obs) (d k : Nat), d < 4 → k < 4 → d ≠ k → 
    exec (.d2dLinkFail d k) ⟨b, q, os⟩ = .next ⟨(((((b.wr R.D2D_STATUS_LINK 0 (4 * d + k)).event .d2d 17 (4 * d + k)).failBlock .d2d (4 * d + k)).wr R.D2D_STATUS_LINK 0 (4 * k + d)).event .d2d 17 (4 * k + d)).failBlock .d2d (4 * k + d), q, os⟩)
  ∧ (∀ (b : Blk) (q : List Instr) (os : List Obs) (d : Nat), d < 4 → 
    exec (.diePllUnlock d 0) ⟨b, q, os⟩ = .next ⟨((b.wr R.DIE_STATUS_ARITH_LOCK 0 d).event .die 16 d).failBlock .die d, q, os⟩)
  ∧ (∀ (b : Blk) (q : List Instr) (os : List Obs) (d : Nat), d < 4 → 
    exec (.diePllUnlock d 1) ⟨b, q, os⟩ = .next ⟨((b.wr R.DIE_STATUS_MESH_LOCK 0 d).event .die 16 d).failBlock .die d, q, os⟩)
  ∧ (∀ (b : Blk) (q : List Instr) (os : List Obs) (d : Nat), d < 4 → 
    exec (.diePllUnlock d 2) ⟨b, q, os⟩ = .next ⟨((b.wr R.DIE_STATUS_SRAM_LOCK 0 d).event .die 16 d).failBlock .die d, q, os⟩)

/-- APPLY_DESCRIPTOR_TAKE refuses a ring entry that fails or is not valid, with the class, and latches a valid one with its group's coefficients and runs the unit; APPLY_CHUNK_START runs a unit that holds a descriptor; APPLY_CHUNK_COMMIT writes the computed chunk with its commit record; APPLY_CHUNK_ABORT of a line that the chunk reads aborts the chunk; APPLY_RETRY runs the waiting unit; EXPORT_SEND sends the oldest record on its far route or hands it to Rakline. -/
def Obligations.BankCommandsComplete : Prop :=
  (∀ (b : Blk) (q : List Instr) (os : List Obs) (n : Nat) (l : List Nat), n < 12 → b.serving .bank n = true → (b.bank n).desc = none → b.rd R.BANK_RING_PUT n ≠ b.rd R.BANK_RING_GET n → b.bankEntry n = .ok l → applyValid n l = true → 
    exec (.applyDescriptorTake n) ⟨b, q, os⟩ = .next ⟨(b.setBank n { b.bank n with desc := some l, coef := b.coefs n (applyDesc l).group }).bankRun n, q, os⟩)
  ∧ (∀ (b : Blk) (q : List Instr) (os : List Obs) (n : Nat) (l : List Nat), n < 12 → b.serving .bank n = true → (b.bank n).desc = none → b.rd R.BANK_RING_PUT n ≠ b.rd R.BANK_RING_GET n → b.bankEntry n = .ok l → applyValid n l = false → 
    exec (.applyDescriptorTake n) ⟨b, q, os⟩ = .next ⟨b.bankRefuse n eDenied, q, os⟩)
  ∧ (∀ (b : Blk) (q : List Instr) (os : List Obs) (n : Nat) (l : List Nat), n < 12 → (b.bank n).desc = some l → 
    exec (.applyChunkStart n) ⟨b, q, os⟩ = .next ⟨b.bankRun n, q, os⟩)
  ∧ (∀ (b : Blk) (q : List Instr) (os : List Obs) (n : Nat) (l : List Nat) (x : ChunkWork), n < 12 → (b.bank n).desc = some l → (b.bank n).work = some x → (b.bank n).staged.isEmpty = true → 
    exec (.applyChunkCommit n) ⟨b, q, os⟩ = .next ⟨b.bankCommit n l x, q, os⟩)
  ∧ (∀ (b : Blk) (q : List Instr) (os : List Obs) (n a : Nat) (l : List Nat) (x : ChunkWork), n < 12 → (b.bank n).desc = some l → (b.bank n).work = some x → chunkReads (applyDesc l) (b.bank n).chunk (if (applyDesc l).opt = 5 then x.slot else 1 - x.slot) a = true → 
    exec (.applyChunkAbort n a) ⟨b, q, os⟩ = .next ⟨(b.markUe a).bankAbort n (applyDesc l) { cls := eEcc, pa := a }, q, os⟩)
  ∧ (∀ (b : Blk) (q : List Instr) (os : List Obs) (n : Nat), n < 12 → (b.bank n).waiting = true → b.recHeld 5 n = false → 
    exec (.applyRetry n) ⟨b, q, os⟩ = .next ⟨(b.setBank n { b.bank n with waiting := false }).bankRun n, q, os⟩)
  ∧ (∀ (b : Blk) (q : List Instr) (os : List Obs) (n : Nat) (r : List Byte) (l : List (List Byte)) (f : Nat), n < 12 → (b.bank n).expQ = r :: l → f < 2 → b.rd R.BANK_EXP_ROUTE n = f + 1 → b.farLive f = true → 
    exec (.exportSend n) ⟨b, q, os⟩ = .next ⟨(b.send (.exportFar f n r)).expSent n r l, q, os⟩)
  ∧ (∀ (b : Blk) (q : List Instr) (os : List Obs) (n : Nat) (r : List Byte) (l : List (List Byte)), n < 12 → (b.bank n).expQ = r :: l → b.rd R.BANK_EXP_ROUTE n = 0 → b.rakUp = true → SMap.get none b.rak.expSent n = none → 
    exec (.exportSend n) ⟨b, q, os⟩ = .next ⟨({ b with rak := { b.rak with expSent := SMap.set none b.rak.expSent n (some 0) } }).bulkPump, q, os⟩)

/-- LOSS_VALUE takes the oldest value of the loss queue into the monitor; DIGEST_READY and DIGEST_RECEIVE leave the block as the shard's own digest and a member's digest do; DIGEST_WAIT_EXPIRE decides a comparison that has waited for DIG_WAIT beats; REPAIR_SERVE begins a fetch that it takes up, and serves a chunk it owes with its record sent and counted; REPAIR_CHUNK_RECEIVE writes a chunk that was asked for and counts it as fetched. -/
def Obligations.ReplicaCommandsComplete : Prop :=
  (∀ (b : Blk) (q : List Instr) (os : List Obs) (x : Nat) (l : List Nat), b.lossQ = x :: l → 
    exec .lossValue ⟨b, q, os⟩ = .next ⟨({ b with lossQ := l }).lossValue x, q, os⟩)
  ∧ (∀ (b : Blk) (q : List Instr) (os : List Obs) (shard : Nat), shard < 256 → 
    exec (.digestReady shard) ⟨b, q, os⟩ = .next ⟨b.digestReady shard, q, os⟩)
  ∧ (∀ (b : Blk) (q : List Instr) (os : List Obs) (src shard step d : Nat), shard < 256 → step < 2 ^ 24 → d < 2 ^ 64 → b.tcAny 6 = true → 
    exec (.digestReceive src shard step d) ⟨b, q, os⟩ = .next ⟨b.digestReceive src shard step d, q, os⟩)
  ∧ (∀ (b : Blk) (q : List Instr) (os : List Obs) (shard step : Nat) (c : DigCmp) (own : Nat), shard < 256 → b.dig.cmps.find? (fun c => c.shard == shard && c.step == step) = some c → c.own = some own → b.rd R.DIG_WAIT ≤ c.waited → 
    exec (.digestWaitExpire shard step) ⟨b, q, os⟩ = .next ⟨b.decideCmp c own, q, os⟩)
  ∧ (∀ (b : Blk) (q : List Instr) (os : List Obs) (src shard part chunk step : Nat) (x : DigPart), shard < 256 → b.digPart shard part = some x → chunk < (applyDesc x.desc).chunks → b.tcAny 6 = true → 
    exec (.repairServe src shard part chunk step false) ⟨b, q, os⟩ = .next ⟨b.serveBegin src shard part chunk step, q, os⟩)
  ∧ (∀ (b : Blk) (q : List Instr) (os : List Obs) (src shard part chunk step : Nat) (x : DigPart) (c : RepairChunk), shard < 256 → b.digPart shard part = some x → chunk < (applyDesc x.desc).chunks → b.dig.serve.any (fun f => f.shard == shard && f.step == step && f.rank == src && f.chunks.contains (part, chunk)) = true → b.serveChunk x chunk step = .ok c → 
    exec (.repairServe src shard part chunk step true) ⟨b, q, os⟩ = .next ⟨(((({ b with dig := { b.dig with serve := (b.dig.serve.map (fun f : Fetch => if f.shard = shard ∧ f.step = step ∧ f.rank = src then f.drop (part, chunk) else f)).filter (fun f : Fetch => !f.chunks.isEmpty) } }).inc R.DIG_SERVE_CNT).sendTo 6 src (64 + 4 * (c.master.length + c.m.length + c.v.length)) (.repairChunk src c))).wakeBanks, q, os⟩)
  ∧ (∀ (b : Blk) (q : List Instr) (os : List Obs) (c : RepairChunk) (x : DigPart), c.shard < 256 → c.count ≤ chunkLen → c.master.length = c.count → b.tcAny 6 = true → b.dig.fetch.any (fun f => f.shard == c.shard && f.step == c.step && f.chunks.contains (c.part, c.chunk)) = true → b.digPart c.shard c.part = some x → 
    exec (.repairChunkReceive c) ⟨b, q, os⟩ = .next ⟨b.repairWith x c (b.readRec (b.repairDesc x) c.chunk), q, os⟩)

/-- On a port whose link carries flits, FLIT_RECEIVE, NAK, REPLAY_TIMEOUT, CREDIT_RETURN, CREDIT_RETURN_TIMER, LANE_FAIL, WIDTH, RATE and BACKPRESSURE_PERIOD answer the block after the flit's checks and delivery, the replay, the credits, the lanes and the rate of R316 to R332; LANE_RETRAIN_ATTEMPT and LANE_RESTORE act on a degraded port; SIDEBAND_RECORD of the module's own group answers the block after the balances of R426 and R427. -/
def Obligations.NearLinkCommandsComplete : Prop :=
  (∀ (b : Blk) (q : List Instr) (os : List Obs) (p : Nat) (f : FlitIn), p < 8 → f.bit < 2 → f.plain.length = 243 → b.flitsPass p = true → 
    exec (.flitReceive p f) ⟨b, q, os⟩ = .next ⟨b.flit p f, q, os⟩)
  ∧ (∀ (b : Blk) (q : List Instr) (os : List Obs) (p ep seq : Nat) (k : Nat), p < 8 → ep < 2 → seq < 2 ^ 15 → b.flitsPass p = true → nakPlace (b.nport p).replay ep seq = some k → 
    exec (.nak p ep seq) ⟨b, q, os⟩ = .next ⟨b.replayFrom p k, q, os⟩)
  ∧ (∀ (b : Blk) (q : List Instr) (os : List Obs) (p : Nat), p < 8 → b.flitsPass p = true → 
    exec (.replayTimeout p) ⟨b, q, os⟩ = .next ⟨b.replayFrom p 0, q, os⟩)
  ∧ (∀ (b : Blk) (q : List Instr) (os : List Obs) (p : Nat) (l : List (Nat × Nat)) (slots : Nat) (b1 b2 : Blk), p < 8 → l.all (fun x => decide (x.1 < 8)) = true → b.tcOpen p 0 = true → b1 = b.each l (fun b x => b.wr (R.NLNK_CREDIT_AVAIL.at x.1) (min (b.rd (R.NLNK_CREDIT_AVAIL.at x.1) p + x.2) (b.rd (R.NLNK_CREDIT_GRANTED.at x.1) p)) p) → b2 = (b1.slotsBack p slots).pump p → 
    exec (.creditReturn p l slots) ⟨b, q, os⟩ = .next ⟨Blk.hoDrain p b2.border.hoHeld.length b2, q, os⟩)
  ∧ (∀ (b : Blk) (q : List Instr) (os : List Obs) (p : Nat), p < 8 → b.nearUp p = true → 
    exec (.creditReturnTimer p) ⟨b, q, os⟩ = .next ⟨b.returnCredits p, q, os⟩)
  ∧ (∀ (b : Blk) (q : List Instr) (os : List Obs) (p n : Nat), p < 8 → n < 8 → b.nearUp p = true → bit (b.nport p).bad n = false → 
    exec (.laneFail p n) ⟨b, q, os⟩ = .next ⟨(((b.setNport p { b.nport p with bad := (b.nport p).bad + 2 ^ n }).inc R.NLNK_LANE_FAIL_CNT p).control p (.width 4)).lanes4 p, q, os⟩)
  ∧ (∀ (b : Blk) (q : List Instr) (os : List Obs) (p bad : Nat), p < 8 → bad < 256 → b.nearUp p = true → 
    exec (.width p 4 bad) ⟨b, q, os⟩ = .next ⟨(b.setNport p { b.nport p with bad := (b.nport p).bad ||| bad, narrow := true }).lanes4 p, q, os⟩)
  ∧ (∀ (b : Blk) (q : List Instr) (os : List Obs) (p bad : Nat), p < 8 → bad < 256 → b.nearUp p = true → 
    exec (.width p 8 bad) ⟨b, q, os⟩ = .next ⟨(b.setNport p { b.nport p with bad := 0, narrow := false }).lanes8 p, q, os⟩)
  ∧ (∀ (b : Blk) (q : List Instr) (os : List Obs) (p good : Nat), p < 8 → good < 256 → b.link p = lkDegraded → 
    exec (.laneRetrainAttempt p good) ⟨b, q, os⟩ = .next ⟨b.setNport p { b.nport p with bad := (b.nport p).bad - ((b.nport p).bad &&& good) }, q, os⟩)
  ∧ (∀ (b : Blk) (q : List Instr) (os : List Obs) (p : Nat), p < 8 → b.link p = lkDegraded → (b.nport p).bad = 0 → b.on R.NLNK_CTRL_FORCE4 p = false → 
    exec (.laneRestore p) ⟨b, q, os⟩ = .next ⟨(b.control p (.width 8)).lanes8 p, q, os⟩)
  ∧ (∀ (b : Blk) (q : List Instr) (os : List Obs) (p k : Nat), p < 8 → 2 ≤ k → k ≤ 8 → b.nearUp p = true → 
    exec (.rate p k) ⟨b, q, os⟩ = .next ⟨b.wr R.NLNK_RATE_TX k p, q, os⟩)
  ∧ (∀ (b : Blk) (q : List Instr) (os : List Obs) (p : Nat) (withheld low : Bool) (k : Nat), p < 8 → b.nearUp p = true → k = (if withheld then max 2 (b.rd R.NLNK_RATE_RX p - 1) else if low then min 8 (b.rd R.NLNK_RATE_RX p + 1) else b.rd R.NLNK_RATE_RX p) → 
    exec (.backpressurePeriod p withheld low) ⟨b, q, os⟩ = .next ⟨if k = b.rd R.NLNK_RATE_RX p then b else (b.wr R.NLNK_RATE_RX k p).control p (.rate k), q, os⟩)
  ∧ (∀ (b : Blk) (q : List Instr) (os : List Obs) (p : Nat) (r : List Byte) (b1 b2 b3 : Blk), p < 8 → r.length = 16 → b.nearUp p = true → bits (leNat r) 0 8 = b.rd R.TEL_GROUP_GROUP → bits (leNat r) 0 8 ≠ 0 → b1 = b.setNbr p { b.pwr.nbrOf p with want := if bit (leNat r) 16 then some (bits (leNat r) 8 8) else none, reverting := (b.pwr.nbrOf p).reverting && !bit (leNat r) 18 } → b2 = (if bit (leNat r) 17 then (b1.setBalance p 0).setNbr p { b1.pwr.nbrOf p with back := 0 } else b1) → b3 = (if bit (leNat r) 17 then b2.nearSend p 7 16 (.slack (b2.sideband false true 0)) else b2) → 
    exec (.sidebandRecord p r) ⟨b, q, os⟩ = .next ⟨(b3.give p (bits (leNat r) 32 16)).pwcShow, q, os⟩)

/-- TRAINING_STEP_DONE answers the block after the step that ends; TRAINING_STEP_TIMEOUT stops a training for its retry and TRAINING_RETRY starts it again; CAPABILITY_RECORD in step 4 refuses the partner with the number of the check that fails or accepts it with its identity; CBL_PRESENT_N, CABLE_OVERCURRENT and LOAD_SWITCH_RECLOSE move the cable's supply switch. NEAR_REKEY_DUE, KEY_NEXT, NEAR_KEY_INSTALLED, KEY_READY and KEY_RETIRE take the steps of an epoch change in turn. -/
def Obligations.NearTrainingCommandsComplete : Prop :=
  (∀ (b : Blk) (q : List Instr) (os : List Obs) (p : Nat) (r : TrainResult), p < 8 → 
    exec (.trainingStepDone p r) ⟨b, q, os⟩ = .next ⟨b.trainStep p r, q, os⟩)
  ∧ (∀ (b : Blk) (q : List Instr) (os : List Obs) (p : Nat), p < 8 → (b.nport p).step ≠ 0 → 
    exec (.trainingStepTimeout p) ⟨b, q, os⟩ = .next ⟨b.setNport p { b.nport p with step := 0, waiting := true }, q, os⟩)
  ∧ (∀ (b : Blk) (q : List Instr) (os : List Obs) (p : Nat), p < 8 → (b.nport p).waiting = true → b.on R.NLNK_CTRL_TRAIN p = true → 
    exec (.trainingRetry p) ⟨b, q, os⟩ = .next ⟨(b.wr R.NLNK_STATUS_LINK lkTraining p).setNport p { b.nport p with step := 1, waiting := false }, q, os⟩)
  ∧ (∀ (b : Blk) (q : List Instr) (os : List Obs) (p : Nat) (r : CapRecord) (b1 : Blk), p < 8 → (b.nport p).step = 4 → b.capCheck p r ≠ 0 → b1 = ((b.inc R.LID_AUTH_FAIL_CNT).error .nlnk p { cls := eAuth, info0 := b.capCheck p r }).wr R.NLNK_STATUS_LINK lkAuthFailed p → 
    exec (.capabilityRecord p r) ⟨b, q, os⟩ = .next ⟨b1.setNport p { b1.nport p with step := 0, waiting := true, retrain := false }, q, os⟩)
  ∧ (∀ (b : Blk) (q : List Instr) (os : List Obs) (p : Nat) (r : CapRecord) (b1 : Blk), p < 8 → (b.nport p).step = 4 → b.capCheck p r = 0 → b1 = (if (b.nport p).partner = some (capIdentity r) then b else b.endSession p) → 
    exec (.capabilityRecord p r) ⟨b, q, os⟩ = .next ⟨((b1.setNport p { b1.nport p with accepted := true, partner := some (capIdentity r), coder := capCoder r, window := capWindow r }).wr64 R.NLNK_PARTNER_LO R.NLNK_PARTNER_HI (capIdentity r % 2 ^ 64) p).wr R.NLNK_STATUS_SWITCH (b2n (capSwitch r)) p, q, os⟩)
  ∧ (∀ (b : Blk) (q : List Instr) (os : List Obs) (p : Nat) (present : Bool), p < 8 → 
    exec (.cblPresentN p present) ⟨b, q, os⟩ = .next ⟨(b.setNport p { b.nport p with cable := present }).loadSwitch p, q, os⟩)
  ∧ (∀ (b : Blk) (q : List Instr) (os : List Obs) (p ma : Nat) (b1 : Blk), p < 8 → 2000 < ma → b.on R.NLNK_LOAD_ON p = true → b1 = ((b.wr R.NLNK_LOAD_MA (min 4095 ma) p).wr R.NLNK_LOAD_TRIPPED 1 p).loadSwitch p → 
    exec (.cableOvercurrent p ma) ⟨b, q, os⟩ = .next ⟨((b1.setNport p { b1.nport p with trips := (b1.nport p).trips + 1 }).linkDown p lkLoadOff).event .nlnk 20 p, q, os⟩)
  ∧ (∀ (b : Blk) (q : List Instr) (os : List Obs) (p : Nat), p < 8 → b.on R.NLNK_LOAD_TRIPPED p = true → (b.nport p).trips = 1 → 
    exec (.loadSwitchReclose p) ⟨b, q, os⟩ = .next ⟨b.loadRetry p, q, os⟩)
  ∧ (∀ (b : Blk) (q : List Instr) (os : List Obs) (p : Nat), p < 8 → b.sessionUp p = true → 
    exec (.nearRekeyDue p) ⟨b, q, os⟩ = .next ⟨b.rekey p, q, os⟩)
  ∧ (∀ (b : Blk) (q : List Instr) (os : List Obs) (p k : Nat), p < 8 → b.sessionUp p = true → k = b.rd R.NKEY_RX_EPOCH p + 1 → b.on R.NKEY_STATUS_RX_TWO p = false → 
    exec (.keyNext p k) ⟨b, q, os⟩ = .next ⟨b.setNport p { b.nport p with rxNext := some k }, q, os⟩)
  ∧ (∀ (b : Blk) (q : List Instr) (os : List Obs) (p : Nat) (k : Nat), p < 8 → (b.nport p).rxNext = some k → 
    exec (.nearKeyInstalled p) ⟨b, q, os⟩ = .next ⟨(((((b.setNport p { b.nport p with rxNext := none }).rxInstall p k).wr R.NKEY_RX_EPOCH k p).wr R.NKEY_STATUS_RX_TWO 1 p).epochChange p).control p (.keyReady k), q, os⟩)
  ∧ (∀ (b : Blk) (q : List Instr) (os : List Obs) (p k : Nat), p < 8 → (b.nport p).txAsked = true → k = b.rd R.NKEY_TX_EPOCH p + 1 → 
    exec (.keyReady p k) ⟨b, q, os⟩ = .next ⟨((((((b.setNport p { b.nport p with txAsked := false, txSeq := 0 }).txInstall p k).wr R.NKEY_TX_EPOCH k p).wr R.NKEY_STATUS_TX_TWO 1 p).epochChange p).retireTx p).pump p, q, os⟩)
  ∧ (∀ (b : Blk) (q : List Instr) (os : List Obs) (p k : Nat), p < 8 → b.on R.NKEY_STATUS_RX_TWO p = true → k + 1 = b.rd R.NKEY_RX_EPOCH p → 
    exec (.keyRetire p k) ⟨b, q, os⟩ = .next ⟨(b.wr R.NKEY_STATUS_RX_TWO 0 p).keyWrite R.NKEY_SLOT p (rxSlot k) 0, q, os⟩)

/-- On a port whose class is open, for a step and attempt that its attempt rule admits, OPEN, GRANT, BUCKET_DATA, CODED_BLOCK_REREQUEST, HANDOVER_FORWARD, HANDOVER_BACKWARD, COUNT_RECORD and EXPERT_TOKENS answer the block after the record's effect at this module and after what that releases; GATHER_PIECE the same for its piece. ABORT of an attempt aborts it here and passes it on; GATHER_REQ joins the requests held; GATHER_SERVE serves the first that may be served. -/
def Obligations.BorderRecordCommandsComplete : Prop :=
  (∀ (b : Blk) (q : List Instr) (os : List Obs) (p : Nat) (k : BKey) (b1 : Blk), p < 8 → bkeyOk k = true → b.tcOpen p 1 = true → b.attemptGate k.step k.attempt = (b1, 0) → 
    exec (.openMsg p k) ⟨b, q, os⟩ = .next ⟨(b1.openIn p k).settled, q, os⟩)
  ∧ (∀ (b : Blk) (q : List Instr) (os : List Obs) (p : Nat) (k : BKey) (b1 : Blk), p < 8 → bkeyOk k = true → b.tcOpen p 1 = true → b.attemptGate k.step k.attempt = (b1, 0) → 
    exec (.grant p k) ⟨b, q, os⟩ = .next ⟨(b1.grantIn p k).settled, q, os⟩)
  ∧ (∀ (b : Blk) (q : List Instr) (os : List Obs) (p : Nat) (k : BKey) (r : Nat) (data : List Nat) (b1 : Blk), p < 8 → bkeyOk k = true → b.tcOpen p 1 = true → b.attemptGate k.step k.attempt = (b1, 0) → 
    exec (.bucketData p (.piece k r data)) ⟨b, q, os⟩ = .next ⟨(b1.rxCore p (.bucket k r data)).settled, q, os⟩)
  ∧ (∀ (b : Blk) (q : List Instr) (os : List Obs) (p : Nat) (k : BKey) (first block : Nat) (data : List Byte) (b1 : Blk), p < 8 → bkeyOk k = true → b.tcOpen p 1 = true → b.attemptGate k.step k.attempt = (b1, 0) → 
    exec (.bucketData p (.coded k first block data)) ⟨b, q, os⟩ = .next ⟨(b1.rxCore p (.coded k first block data)).settled, q, os⟩)
  ∧ (∀ (b : Blk) (q : List Instr) (os : List Obs) (p : Nat) (k : BKey) (first block : Nat) (b1 : Blk), p < 8 → bkeyOk k = true → b.tcOpen p 1 = true → b.attemptGate k.step k.attempt = (b1, 0) → 
    exec (.codedBlockRerequest p k first block) ⟨b, q, os⟩ = .next ⟨(b1.resendCoded p k first block).settled, q, os⟩)
  ∧ (∀ (b : Blk) (q : List Instr) (os : List Obs) (p : Nat) (h : Handover) (group : Nat) (b1 : Blk), p < 8 → h.slot < 24 → h.back = false → h.step < 2 ^ 24 → h.mb < 2 ^ 16 → h.attempt < 256 → h.variant < 256 → b.tcOpen p 3 = true → b.attemptGate h.step h.attempt = (b1, 0) → 
    exec (.handoverForward p h false group) ⟨b, q, os⟩ = .next ⟨(b1.hoForward p h).settled, q, os⟩)
  ∧ (∀ (b : Blk) (q : List Instr) (os : List Obs) (p : Nat) (h : Handover) (group : Nat), p < 8 → h.slot < 24 → h.back = false → h.step < 2 ^ 24 → h.mb < 2 ^ 16 → h.attempt < 256 → h.variant < 256 → 
    exec (.handoverForward p h true group) ⟨b, q, os⟩ = .next ⟨b.hoSend p group h, q, os⟩)
  ∧ (∀ (b : Blk) (q : List Instr) (os : List Obs) (p : Nat) (h : Handover) (group : Nat) (b1 : Blk), p < 8 → h.slot < 24 → h.back = true → h.step < 2 ^ 24 → h.mb < 2 ^ 16 → h.attempt < 256 → h.variant < 256 → b.tcOpen p 3 = true → b.attemptGate h.step h.attempt = (b1, 0) → 
    exec (.handoverBackward p h false group) ⟨b, q, os⟩ = .next ⟨(b1.hoBackward p h).settled, q, os⟩)
  ∧ (∀ (b : Blk) (q : List Instr) (os : List Obs) (p : Nat) (h : Handover) (group : Nat), p < 8 → h.slot < 24 → h.back = true → h.step < 2 ^ 24 → h.mb < 2 ^ 16 → h.attempt < 256 → h.variant < 256 → 
    exec (.handoverBackward p h true group) ⟨b, q, os⟩ = .next ⟨b.hoReturn p group h, q, os⟩)
  ∧ (∀ (b : Blk) (q : List Instr) (os : List Obs) (p : Nat) (x : ExpertHdr) (n size : Nat) (b1 : Blk), p < 8 → x.group < 256 → x.step < 2 ^ 24 → x.attempt < 256 → x.xid < 2 ^ 16 → x.rank < 2 ^ 16 → n < 2 ^ 32 → size < 2 ^ 32 → b.tcOpen p 4 = true → b.attemptGate x.step x.attempt = (b1, 0) → 
    exec (.countRecord p x n size false) ⟨b, q, os⟩ = .next ⟨(b1.countIn p x.group x.step x.attempt x.xid x.rank n size).settled, q, os⟩)
  ∧ (∀ (b : Blk) (q : List Instr) (os : List Obs) (p : Nat) (x : ExpertHdr) (data : List Byte) (b1 : Blk), p < 8 → x.group < 256 → x.step < 2 ^ 24 → x.attempt < 256 → x.xid < 2 ^ 16 → x.rank < 2 ^ 16 → b.tcOpen p 4 = true → b.attemptGate x.step x.attempt = (b1, 0) → 
    exec (.expertTokens p x data false) ⟨b, q, os⟩ = .next ⟨(b1.tokensIn p x.group x.step x.attempt x.xid x.rank data).settled, q, os⟩)
  ∧ (∀ (b : Blk) (q : List Instr) (os : List Obs) (p : Nat) (x : ExpertHdr) (n size : Nat), p < 8 → x.group < 256 → x.step < 2 ^ 24 → x.attempt < 256 → x.xid < 2 ^ 16 → x.rank < 2 ^ 16 → n < 2 ^ 32 → size < 2 ^ 32 → 
    exec (.countRecord p x n size true) ⟨b, q, os⟩ = .next ⟨b.countSend x.group x.step x.attempt x.xid x.rank n size, q, os⟩)
  ∧ (∀ (b : Blk) (q : List Instr) (os : List Obs) (p : Nat) (x : ExpertHdr) (data : List Byte), p < 8 → x.group < 256 → x.step < 2 ^ 24 → x.attempt < 256 → x.xid < 2 ^ 16 → x.rank < 2 ^ 16 → 
    exec (.expertTokens p x data true) ⟨b, q, os⟩ = .next ⟨b.tokensSend x.group x.step x.attempt x.xid x.rank data, q, os⟩)
  ∧ (∀ (b : Blk) (q : List Instr) (os : List Obs) (p group layer rank version : Nat) (data : List Byte), p < 8 → group < 256 → layer < 2 ^ 16 → rank < 2 ^ 16 → version < 2 ^ 64 → b.tcOpen p 2 = true → 
    exec (.gatherPiece p group layer rank version data) ⟨b, q, os⟩ = .next ⟨(b.gatherPiece p group layer rank version data).settled, q, os⟩)
  ∧ (∀ (b : Blk) (q : List Instr) (os : List Obs) (p step attempt cls origin group bucket : Nat), p < 8 → step < 2 ^ 24 → attempt < 256 → cls < 256 → origin < 2 ^ 14 → group < 256 → bucket < 65536 → b.tcOpen p 0 = true → 
    exec (.abortMsg p step attempt cls origin group bucket) ⟨b, q, os⟩ = .next ⟨(b.abortStep step attempt p (some p) { cls := cls, origin := origin, group := group, bucket := bucket }).settled, q, os⟩)
  ∧ (∀ (b : Blk) (q : List Instr) (os : List Obs) (r : GatherQ) (back : Bool) (step : Nat), r.group < 256 → r.commit < 2 ^ 24 → r.shard < 256 → r.attempt < 256 → step < 2 ^ 24 → r.layer < 2 ^ 16 → r.peer < 2 ^ 16 → b.tcAny 2 = true → 
    exec (.gatherReq r false back step) ⟨b, q, os⟩ = .next ⟨b.setBorder { b.border with gwait := b.border.gwait ++ [⟨r.peer, r.group, r.layer, r.commit, r.shard, r.attempt⟩] }, q, os⟩)
  ∧ (∀ (b : Blk) (q : List Instr) (os : List Obs) (data : List Byte) (r : GatherReq), data.length < 2 ^ 32 → b.border.gwait.find? (fun r => b.mayServe r) = some r → 
    exec (.gatherServe data) ⟨b, q, os⟩ = .next ⟨(b.setBorder { b.border with gwait := b.border.gwait.erase r }).sendTo 2 r.src (16 + data.length) (.gatherPiece r.src r.group r.layer (match b.groupAt r.group with | some g => g.self | none => 0) (b.version r.shard) r.attempt data), q, os⟩)

/-- POST_TAKE takes the ring's next post; a bucket's or a group's deadline at 0 raises the step abort; JOIN_ACK and REJECT settle a join that waits, the first running the group's buckets; SWITCH_RESULT leaves the block as the result's rules do; CODEC_BLOCK_ENCODE and CODEC_BLOCK_DECODE leave it as a near or far coder's block does. -/
def Obligations.BorderEngineCommandsComplete : Prop :=
  (∀ (b : Blk) (q : List Instr) (os : List Obs), b.rd R.NRED_POST_PUT ≠ b.rd R.NRED_POST_GET → 
    exec .postTake ⟨b, q, os⟩ = .next ⟨b.takePost, q, os⟩)
  ∧ (∀ (b : Blk) (q : List Instr) (os : List Obs) (k : BKey) (x : Bucket), bkeyOk k = true → b.bucket? k = some x → x.complete = false → x.left = some 0 → 
    exec (.bucketDeadlineExpire k) ⟨b, q, os⟩ = .next ⟨(b.ownAbort k.step k.attempt ((hopPorts x.hops).headD 0) { cls := eAbort, origin := b.rd R.NRED_SITE_RANK, group := k.group, bucket := k.bucket }).settled, q, os⟩)
  ∧ (∀ (b : Blk) (q : List Instr) (os : List Obs) (group step attempt : Nat), group < 256 → step < 2 ^ 24 → attempt < 256 → b.border.gexp.any (fun x => x.group == group && x.step == step && x.attempt == attempt && x.left == some 0) = true → 
    exec (.groupDeadlineExpire group step attempt) ⟨b, q, os⟩ = .next ⟨(b.ownAbort step attempt 0 { cls := eAbort, origin := b.rd R.NRED_SITE_RANK, group := group }).settled, q, os⟩)
  ∧ (∀ (b : Blk) (q : List Instr) (os : List Obs) (p channel group : Nat), p < 8 → channel < 4 → group < 256 → b.tcOpen p 5 = true → SMap.get 0 b.border.join (swKey channel group) = 1 → 
    exec (.joinAck p channel group) ⟨b, q, os⟩ = .next ⟨(b.setBorder { b.border with join := SMap.set 0 b.border.join (swKey channel group) 2 }).runBuckets (fun x => x.grp.switch && x.key.group == group), q, os⟩)
  ∧ (∀ (b : Blk) (q : List Instr) (os : List Obs) (p channel group : Nat), p < 8 → channel < 4 → group < 256 → b.tcOpen p 5 = true → SMap.get 0 b.border.join (swKey channel group) = 1 → 
    exec (.reject p channel group) ⟨b, q, os⟩ = .next ⟨(b.setBorder { b.border with join := SMap.set 0 b.border.join (swKey channel group) 3 }).inc R.NRED_SW_BAD_CNT p, q, os⟩)
  ∧ (∀ (b : Blk) (q : List Instr) (os : List Obs) (p : Nat) (r : SwRec), p < 8 → r.channel < 4 → r.step < 2 ^ 24 → r.attempt < 256 → r.msg = 4 → r.vals.all (fun v => decide (v < 2 ^ 64)) = true → b.tcOpen p 5 = true → 
    exec (.switchResult p r) ⟨b, q, os⟩ = .next ⟨b.swResult p r, q, os⟩)
  ∧ (∀ (b : Blk) (q : List Instr) (os : List Obs) (c : Nat), c < 8 → 
    exec (.codecBlockEncode c) ⟨b, q, os⟩ = .next ⟨b.nearBlock c false, q, os⟩)
  ∧ (∀ (b : Blk) (q : List Instr) (os : List Obs) (c : Nat), 8 ≤ c → c < 10 → 
    exec (.codecBlockEncode c) ⟨b, q, os⟩ = .next ⟨b.farBlock (c - 8) false, q, os⟩)
  ∧ (∀ (b : Blk) (q : List Instr) (os : List Obs) (c : Nat), c < 8 → 
    exec (.codecBlockDecode c) ⟨b, q, os⟩ = .next ⟨b.nearBlock c true, q, os⟩)
  ∧ (∀ (b : Blk) (q : List Instr) (os : List Obs) (c : Nat), 8 ≤ c → c < 10 → 
    exec (.codecBlockDecode c) ⟨b, q, os⟩ = .next ⟨b.farBlock (c - 8) true, q, os⟩)

/-- HEARTBEAT, ECHO, ACK, DATA, ROUTE_DOWN and KEY answer the block after their record is accepted under its header and has its effect; ACK_TIMER of an established peer with records to acknowledge sends the ACK; RESEND_TIMEOUT resends the record; HEARTBEAT_TIMER answers the block after the session answers and the heartbeats; ROUTE_LOST_TIMEOUT of a live route records and loses it; FAR_REKEY_DUE starts a new epoch and FAR_PREV_KEY_EXPIRE drops the previous key. -/
def Obligations.FarRecordCommandsComplete : Prop :=
  (∀ (b : Blk) (q : List Instr) (os : List Obs) (h : FarHdr) (seq time turn : Nat) (f : Blk → Blk), hdrOk h = true → f = (fun b1 : Blk => if ((b1.fpeer h.peer).route h.port).st = rtLost ∨ ((b1.fpeer h.peer).route h.port).st = rtReturning then (b1.setFpeer h.peer ((b1.fpeer h.peer).setRoute h.port { (b1.fpeer h.peer).route h.port with st := rtReturning, hb := ((b1.fpeer h.peer).route h.port).hb + 1 })).routeBack h.peer h.port else b1) → 
    exec (.heartbeat h seq time turn) ⟨b, q, os⟩ = .next ⟨b.farIn h (fun b => f (b.farSend h.peer h.port (.echo seq time turn))), q, os⟩)
  ∧ (∀ (b : Blk) (q : List Instr) (os : List Obs) (h : FarHdr) (sample : Nat), hdrOk h = true → 
    exec (.echo h sample) ⟨b, q, os⟩ = .next ⟨b.farIn h (fun b => if ((b.fpeer h.peer).route h.port).st = rtReturning then (b.setFpeer h.peer ((b.fpeer h.peer).setRoute h.port { (b.fpeer h.peer).route h.port with ec := ((b.fpeer h.peer).route h.port).ec + 1 })).routeBack h.peer h.port else if ((b.fpeer h.peer).route h.port).st = rtData ∨ ((b.fpeer h.peer).route h.port).st = rtStandby then b.setFpeer h.peer ((b.fpeer h.peer).setRoute h.port (((b.fpeer h.peer).route h.port).sample sample)) else b), q, os⟩)
  ∧ (∀ (b : Blk) (q : List Instr) (os : List Obs) (h : FarHdr) (below : Nat) (ranges : List (Nat × Nat)) (window : Nat) (c : FarSent → Bool), hdrOk h = true → ranges.length ≤ 64 → below < 2 ^ 64 → window < 2 ^ 64 → c = (fun x : FarSent => decide (x.num < below) || ranges.any (fun r => decide (r.1 ≤ x.num) && decide (x.num ≤ r.2))) → 
    exec (.ack h below ranges window) ⟨b, q, os⟩ = .next ⟨b.farIn h (fun b => ((b.setFpeer h.peer { b.fpeer h.peer with sent := (b.fpeer h.peer).sent.filter (fun x => !c x), lim := some (below + window) }).each (((b.fpeer h.peer).sent.filter c).map (·.mid)).eraseDups (fun b m => b.sendDone h.peer m)).pumpPeer h.peer), q, os⟩)
  ∧ (∀ (b : Blk) (q : List Instr) (os : List Obs) (h : FarHdr) (l : List Byte), hdrOk h = true → l.length = 8192 → 
    exec (.dataRec h l) ⟨b, q, os⟩ = .next ⟨b.dataIn h (fieldAt l 8 8) (fieldAt l 0x10 8) (fieldAt l 0x18 8) (plainData l), q, os⟩)
  ∧ (∀ (b : Blk) (q : List Instr) (os : List Obs) (h : FarHdr) (r : Nat), hdrOk h = true → r < 2 → 
    exec (.routeDown h r) ⟨b, q, os⟩ = .next ⟨b.farIn h (fun b => if ((b.fpeer h.peer).route r).st = rtData ∨ ((b.fpeer h.peer).route r).st = rtStandby ∨ ((b.fpeer h.peer).route r).st = rtReturning then b.routeLost h.peer r else b), q, os⟩)
  ∧ (∀ (b : Blk) (q : List Instr) (os : List Obs) (h : FarHdr) (ep : Nat), hdrOk h = true → ep < 2 ^ 16 → 
    exec (.keyRec h ep) ⟨b, q, os⟩ = .next ⟨b.farIn h (fun b => b), q, os⟩)
  ∧ (∀ (b : Blk) (q : List Instr) (os : List Obs) (peer : Nat), peer < 8 → b.fsess peer = 2 → (b.fpeer peer).ackDue ≠ 0 → 
    exec (.ackTimer peer) ⟨b, q, os⟩ = .next ⟨b.sendAck peer, q, os⟩)
  ∧ (∀ (b : Blk) (q : List Instr) (os : List Obs) (peer rec : Nat) (x : FarSent), peer < 8 → b.fsess peer = 2 → (b.fpeer peer).sent.find? (fun x => x.num == rec) = some x → 
    exec (.resendTimeout peer rec) ⟨b, q, os⟩ = .next ⟨b.resend peer x, q, os⟩)
  ∧ (∀ (b : Blk) (q : List Instr) (os : List Obs) (now : Nat) (l : List FarAnswer) (b1 : Blk), l.all (fun a => decide (a.site < 8)) = true → b1 = (if b.on R.FXP_CTRL_EN && (b.serving .fxp 0 || b.serving .fxp 1) then b.each l Blk.sessionAnswer else b) → 
    exec (.heartbeatTimer now l) ⟨b, q, os⟩ = .next ⟨b1.each (List.range 8) (fun b p => b.each [0, 1] (fun b r => if b.fsess p = 2 ∧ ((b.fpeer p).route r).st ≠ rtUnused then (b.setFpeer p { b.fpeer p with hbSeq := (b.fpeer p).hbSeq + 1 }).farSend p r (.heartbeat (b.fpeer p).hbSeq now) else b)), q, os⟩)
  ∧ (∀ (b : Blk) (q : List Instr) (os : List Obs) (peer r : Nat) (b1 : Blk), peer < 8 → r < 2 → b.fsess peer = 2 → ((b.fpeer peer).route r).st = rtData ∨ ((b.fpeer peer).route r).st = rtStandby → b1 = ((b.inc R.FXP_ROUTE_LOST_CNT r).error .fxp r { cls := eRoute, info0 := peer + b.rd R.FXP_ROUND * 2 ^ 8 }).event .fxp 16 r → 
    exec (.routeLostTimeout peer r) ⟨b, q, os⟩ = .next ⟨(if ((b1.fpeer peer).route (1 - r)).st = rtData ∨ ((b1.fpeer peer).route (1 - r)).st = rtStandby then b1.farSend peer (1 - r) (.routeDown r) else b1).routeLost peer r, q, os⟩)
  ∧ (∀ (b : Blk) (q : List Instr) (os : List Obs) (peer age : Nat), peer < 8 → b.fsess peer = 2 → b.rd R.LID_FAR_REKEY_S ≤ age ∨ b.farEpochFull peer = true → 
    exec (.farRekeyDue peer age) ⟨b, q, os⟩ = .next ⟨b.farRekey peer, q, os⟩)
  ∧ (∀ (b : Blk) (q : List Instr) (os : List Obs) (peer : Nat), peer < 8 → 
    exec (.farPrevKeyExpire peer) ⟨b, q, os⟩ = .next ⟨b.wr (R.FKEY_PEER_PREV_HELD.at peer) 0, q, os⟩)

/-- FAR_FRAME_DROP counts a dropped frame by its reason; NEIGHBOR_DISCOVERY on a live port answers a solicitation of its own address and keeps its router's address; FMAC_LINK_DOWN and FMAC_LINK_UP move the link with their events; SEND_DESCRIPTOR_TAKE takes or refuses the next send descriptor; MANIFEST, MANIFEST_CLOSE_TIMEOUT, MANIFEST_SIGNED and FETCH_WAIT_EXPIRE take the steps of a round; FCOD_ENCODE, FCOD_DECODE and FCOD_JOB_END take and end a coder job. -/
def Obligations.FarEngineCommandsComplete : Prop :=
  (∀ (b : Blk) (q : List Instr) (os : List Obs) (f : Nat), f < 2 → 
    exec (.farFrameDrop f .other) ⟨b, q, os⟩ = .next ⟨(b.add64 R.FMAC_RX_FRAMES_LO R.FMAC_RX_FRAMES_HI 1 f).inc R.FXP_PKT_DROP_CNT f, q, os⟩)
  ∧ (∀ (b : Blk) (q : List Instr) (os : List Obs) (f : Nat), f < 2 → 
    exec (.farFrameDrop f .fcs) ⟨b, q, os⟩ = .next ⟨((b.add64 R.FMAC_RX_FRAMES_LO R.FMAC_RX_FRAMES_HI 1 f).inc R.FXP_PKT_DROP_CNT f).inc R.FMAC_RX_BAD_CNT f, q, os⟩)
  ∧ (∀ (b : Blk) (q : List Instr) (os : List Obs) (f : Nat), f < 2 → 
    exec (.farFrameDrop f .pause) ⟨b, q, os⟩ = .next ⟨(b.add64 R.FMAC_RX_FRAMES_LO R.FMAC_RX_FRAMES_HI 1 f).inc R.FMAC_PAUSE_CNT f, q, os⟩)
  ∧ (∀ (b : Blk) (q : List Instr) (os : List Obs) (f : Nat), f < 2 → 
    exec (.farFrameDrop f .uncorrectable) ⟨b, q, os⟩ = .next ⟨b.inc R.FMAC_FEC_UNCORR_CNT f, q, os⟩)
  ∧ (∀ (b : Blk) (q : List Instr) (os : List Obs) (f n : Nat), f < 2 → 
    exec (.farFrameDrop f (.corrected n)) ⟨b, q, os⟩ = .next ⟨b.add64 R.FMAC_FEC_CORR_LO R.FMAC_FEC_CORR_HI n f, q, os⟩)
  ∧ (∀ (b : Blk) (q : List Instr) (os : List Obs) (f : Nat) (t : Nat) (b1 : Blk) (l : List Byte), f < 2 → b.farLive f = true → (b.add64 R.FMAC_RX_FRAMES_LO R.FMAC_RX_FRAMES_HI 1 f).peerEntry (b.add64 R.FMAC_RX_FRAMES_LO R.FMAC_RX_FRAMES_HI 1 f).site = (b1, some l) → t = leNat ((l.drop (8 + 16 * f)).take 16) → 
    exec (.neighborDiscovery f (.solicit t)) ⟨b, q, os⟩ = .next ⟨(b1.add64 R.FMAC_TX_FRAMES_LO R.FMAC_TX_FRAMES_HI 1 f).send (.neighbour f t (macOf f)), q, os⟩)
  ∧ (∀ (b : Blk) (q : List Instr) (os : List Obs) (f : Nat) (t mac : Nat) (b1 : Blk) (l : List Byte), f < 2 → b.farLive f = true → (b.add64 R.FMAC_RX_FRAMES_LO R.FMAC_RX_FRAMES_HI 1 f).peerEntry (b.add64 R.FMAC_RX_FRAMES_LO R.FMAC_RX_FRAMES_HI 1 f).site = (b1, some l) → t = leNat ((l.drop (0x28 + 16 * f)).take 16) → 
    exec (.neighborDiscovery f (.advert t mac)) ⟨b, q, os⟩ = .next ⟨b1.setFar { b1.far with router := SMap.set 0 b1.far.router f mac }, q, os⟩)
  ∧ (∀ (b : Blk) (q : List Instr) (os : List Obs) (f lanes : Nat), f < 2 → lanes < 15 → 
    exec (.fmacLinkDown f lanes) ⟨b, q, os⟩ = .next ⟨if b.on R.FMAC_STATUS_LINK f then ((b.wr R.FMAC_STATUS_LANES lanes f).wr R.FMAC_STATUS_LINK 0 f).event .fmac 17 f else b.wr R.FMAC_STATUS_LANES lanes f, q, os⟩)
  ∧ (∀ (b : Blk) (q : List Instr) (os : List Obs) (f : Nat), f < 2 → b.on R.FMAC_CTRL_EN f = true → b.on R.FMAC_STATUS_LINK f = false → 
    exec (.fmacLinkUp f) ⟨b, q, os⟩ = .next ⟨((b.wr R.FMAC_STATUS_LANES 15 f).wr R.FMAC_STATUS_LINK 1 f).event .fmac 16 f, q, os⟩)
  ∧ (∀ (b : Blk) (q : List Instr) (os : List Obs) (b1 : Blk) (l : List Byte), (b.serving .fxp 0 || b.serving .fxp 1) = true → b.rd R.FXP_SQ_PUT ≠ b.rd R.FXP_SQ_GET → b.loadVa modXl clsH none (b.rdAddr R.FXP_SQ_BASE_LO R.FXP_SQ_BASE_HI + b.rd R.FXP_SQ_GET % 2 ^ b.rd R.FXP_SQ_SIZE * 32) 32 = (b1, .ok l) → 
    exec .sendDescriptorTake ⟨b, q, os⟩ = .next ⟨b1.sqTake l, q, os⟩)
  ∧ (∀ (b : Blk) (q : List Instr) (os : List Obs) (b1 : Blk) (f : Fail), (b.serving .fxp 0 || b.serving .fxp 1) = true → b.rd R.FXP_SQ_PUT ≠ b.rd R.FXP_SQ_GET → b.loadVa modXl clsH none (b.rdAddr R.FXP_SQ_BASE_LO R.FXP_SQ_BASE_HI + b.rd R.FXP_SQ_GET % 2 ^ b.rd R.FXP_SQ_SIZE * 32) 32 = (b1, .error f) → 
    exec .sendDescriptorTake ⟨b, q, os⟩ = .next ⟨b1.sqRefuse f.cls 0 0, q, os⟩)
  ∧ (∀ (b : Blk) (q : List Instr) (os : List Obs) (mid : Nat) (signer : Option Nat) (m : RecvMsg), midOk mid = true → midType mid = 2 → b.recvMsg? mid = some m → m.whole = true → m.seq = none → b.far.waiting.any (fun x => x.1 == mid) = false → 
    exec (.manifest mid signer) ⟨b, q, os⟩ = .next ⟨b.manifestIn mid signer, q, os⟩)
  ∧ (∀ (b : Blk) (q : List Instr) (os : List Obs) (mid : Nat), b.ownContribution b.nextRound = some mid → b.far.closing = none → b.on R.FXP_CTRL_JOIN = false → 
    exec .manifestCloseTimeout ⟨b, q, os⟩ = .next ⟨if b.keeperOf b.nextRound = b.site then b.closeRound b.nextRound (midShard mid) else b.roundLate (b.keeperOf b.nextRound) b.nextRound, q, os⟩)
  ∧ (∀ (b : Blk) (q : List Instr) (os : List Obs) (x : ManOut), b.far.closing = some x → 
    exec .manifestSigned ⟨b, q, os⟩ = .next ⟨Blk.manSend x (b.anchorDigest x.round x.shard), q, os⟩)
  ∧ (∀ (b : Blk) (q : List Instr) (os : List Obs) (mid : Nat), midOk mid = true → midType mid = 1 → b.far.last.any (fun x => x.mid == mid) = true → midSite mid ≠ b.site → b.far.lastKeeper ≠ b.site → (match b.recvMsg? mid with | some m => m.complete | none => false) = false → 
    exec (.fetchWaitExpire mid) ⟨b, q, os⟩ = .next ⟨match b.postMsg (midOf (midRound mid) 4 (midSite mid) (midShard mid)) (natLe 8 mid) (2 ^ b.far.lastKeeper) false with | (b1, .ok true) => b1 | (b1, .ok false) => b1.inc R.FXP_SEND_WAIT_CNT | (b1, .error f) => b1.farFail f, q, os⟩)
  ∧ (∀ (b : Blk) (q : List Instr) (os : List Obs) (f : Nat), f < 2 → 
    exec (.fcodEncode f) ⟨b, q, os⟩ = .next ⟨b.takeJob f false, q, os⟩)
  ∧ (∀ (b : Blk) (q : List Instr) (os : List Obs) (f : Nat), f < 2 → 
    exec (.fcodDecode f) ⟨b, q, os⟩ = .next ⟨b.takeJob f true, q, os⟩)
  ∧ (∀ (b : Blk) (q : List Instr) (os : List Obs) (f : Nat) (j : FJob) (c d ring : Nat) (o : Blk × Option Fail) (b1 b2 b3 : Blk), f < 2 → b.fjob f = some j → j.ended = some (c, d) → o = b.storeVa modXl (b.fjobCls f) none (b.fjobVa f + 56) (natLe 8 (j.pos + 2 ^ 40 * c + 2 ^ 48 * d + 2 ^ 63)) → ring = b.rd R.FCOD_JOB_GET f % 2 ^ b.rd R.FCOD_JOB_SIZE f → b1 = (match o.2 with | none => o.1 | some e => o.1.error .fcod f { cls := e.cls, info1 := ring, addr := if e.cls = eEcc then e.pa else e.va + 2 ^ 63 }) → b2 = (if c = 0 ∨ c = eCodec then b1 else b1.error .fcod f { cls := c, info1 := ring }) → b3 = ((b2.setFjob f none).addW R.FCOD_JOB_GET 1 f).event .fcod 19 f → 
    exec (.fcodJobEnd f) ⟨b, q, os⟩ = .next ⟨if c = 0 then b3 else b3.event .fcod 20 f, q, os⟩)

/-- The supply warning, its recovery and release, the alert and its release move the power state with its records and events; BUBBLE_RAMP lowers each die's bubble count by one towards its demand; FAST_LOOP moves each die's count by one against the cap; ESTIMATE_COMPARE counts towards and away from UNTRUSTED; the thermal step, a sensor that stops, the inlet sensor and the leak sensor act on the PWC and TEL registers. -/
def Obligations.PowerCommandsComplete : Prop :=
  (∀ (b : Blk) (q : List Instr) (os : List Obs) (v : Nat) (b1 : Blk), b.pwr.warn = false → b.draw = (v, b1) → 
    exec .supplyWarn ⟨b, q, os⟩ = .next ⟨(((b1.setPwr { b1.pwr with warn := true, relRun := false }).pwcError { cls := eSupply, info0 := powerInfo v }).inc R.TEL_SUPPLY_WARN_CNT).event .tel 16, q, os⟩)
  ∧ (∀ (b : Blk) (q : List Instr) (os : List Obs), b.pwr.warn = true → 
    exec .supplyRecover ⟨b, q, os⟩ = .next ⟨b.setPwr { b.pwr with relRun := true }, q, os⟩)
  ∧ (∀ (b : Blk) (q : List Instr) (os : List Obs), b.pwr.warn = true → b.pwr.relRun = true → 
    exec .warningRelease ⟨b, q, os⟩ = .next ⟨b.setPwr (rampFrom b { b.pwr with warn := false, relRun := false }), q, os⟩)
  ∧ (∀ (b : Blk) (q : List Instr) (os : List Obs), 
    exec .bubbleRamp ⟨b, q, os⟩ = .next ⟨b.setPwr { b.pwr with ramp := [0, 1, 2, 3].foldl (fun m d => SMap.set 0 m d (if b.pwr.rampOf d ≤ b.demand d + 1 then 0 else b.pwr.rampOf d - 1)) b.pwr.ramp }, q, os⟩)
  ∧ (∀ (b : Blk) (q : List Instr) (os : List Obs) (v : Nat) (b1 : Blk), b.pwr.alertPin = false → 2 ≤ b.boot.stage → b.boot.refHeld = false → ({ b with pwr := { b.pwr with alertPin := true } }).draw = (v, b1) → 
    exec .pwrAlert ⟨b, q, os⟩ = .next ⟨(((b1.setPwr { b1.pwr with alert := true }).pwcError { cls := eAlert, info0 := powerInfo v }).inc R.TEL_ALERT_CNT).event .tel 17, q, os⟩)
  ∧ (∀ (b : Blk) (q : List Instr) (os : List Obs), b.pwr.alertPin = false → b.boot.stage < 2 ∨ b.boot.refHeld = true → 
    exec .pwrAlert ⟨b, q, os⟩ = .next ⟨{ b with pwr := { b.pwr with alertPin := true } }, q, os⟩)
  ∧ (∀ (b : Blk) (q : List Instr) (os : List Obs), b.pwr.alert = true → 
    exec .alertRelease ⟨b, q, os⟩ = .next ⟨({ b with pwr := { b.pwr with alertPin := false } }).setPwr (rampFrom b { b.pwr with alertPin := false, alert := false }), q, os⟩)
  ∧ (∀ (b : Blk) (q : List Instr) (os : List Obs) (mw : Nat) (hi lo slow : Bool) (m : SMap Nat), b.on R.PWC_CTRL_FAST = true → b.pwcUp = true → hi = decide ((mw : Int) > b.effCap * (if b.on R.PWC_STATE_UNTRUSTED then 900 else 1020)) → lo = decide ((mw : Int) < b.effCap * (if b.on R.PWC_STATE_UNTRUSTED then 850 else 950)) → m = [0, 1, 2, 3].foldl (fun m d => SMap.set 0 m d (if hi then min 60 (b.pwr.ctlOf d + 1) else if lo ∧ b.pwr.ctlOf d > b.pwr.div then b.pwr.ctlOf d - 1 else b.pwr.ctlOf d)) b.pwr.ctl → slow = (if [0, 1, 2, 3].all (fun d => SMap.get 0 m d == 60) && hi then true else if (mw : Int) < b.effCap * 1000 then false else b.pwr.slow) → 
    exec (.fastLoop mw) ⟨b, q, os⟩ = .next ⟨(b.add R.PWC_FAST_CNT (if hi then ([0, 1, 2, 3].filter (fun d => decide (b.pwr.ctlOf d < 60))).length else 0)).setPwr { b.pwr with ctl := m, slow := slow }, q, os⟩)
  ∧ (∀ (b : Blk) (q : List Instr) (os : List Obs) (x m : Nat) (n : Nat), b.on R.PWC_STATE_UNTRUSTED = false → n = (if ((x : Int) - m).natAbs * 100 > 15 * m then b.pwr.bad + 1 else 0) → n < 10 → 
    exec (.estimateCompare x m) ⟨b, q, os⟩ = .next ⟨b.setPwr { b.pwr with bad := n }, q, os⟩)
  ∧ (∀ (b : Blk) (q : List Instr) (os : List Obs) (x m : Nat), b.on R.PWC_STATE_UNTRUSTED = false → ((x : Int) - m).natAbs * 100 > 15 * m → 9 ≤ b.pwr.bad → 
    exec (.estimateCompare x m) ⟨b, q, os⟩ = .next ⟨(((((b.wr R.PWC_STATE_UNTRUSTED 1).setPwr { b.pwr with bad := 0, good := 0 }).inc R.PWC_UNTRUSTED_CNT).event .pwc 17).inc R.TEL_UNTRUSTED_CNT).event .tel 19, q, os⟩)
  ∧ (∀ (b : Blk) (q : List Instr) (os : List Obs) (x m : Nat) (n : Nat), b.on R.PWC_STATE_UNTRUSTED = true → n = (if ((x : Int) - m).natAbs * 100 > 15 * m then 0 else b.pwr.good + 1) → 
    exec (.estimateCompare x m) ⟨b, q, os⟩ = .next ⟨if 1000 ≤ n then (b.wr R.PWC_STATE_UNTRUSTED 0).setPwr { b.pwr with good := 0, bad := 0 } else b.setPwr { b.pwr with good := n }, q, os⟩)
  ∧ (∀ (b : Blk) (q : List Instr) (os : List Obs) (d : Nat), d < 4 → 
    exec (.thermalCountStep d) ⟨b, q, os⟩ = .next ⟨b.thermStep d, q, os⟩)
  ∧ (∀ (b : Blk) (q : List Instr) (os : List Obs) (k : Nat), k < 256 → (b.sensor k).stopped = false → 
    exec (.sensorStop k) ⟨b, q, os⟩ = .next ⟨(({ b with pwr := { b.pwr with sensors := SMap.set {} b.pwr.sensors k { b.sensor k with stopped := true } } }).pwcError { cls := eThermal, info0 := thermInfo k 1680 }).thermals, q, os⟩)
  ∧ (∀ (b : Blk) (q : List Instr) (os : List Obs) (t : Int) (out : Bool), out = (decide (t < 240) || decide (720 < t)) → 
    exec (.inletSensorReading t) ⟨b, q, os⟩ = .next ⟨if out && !b.on R.TEL_STATUS_INLET_RANGE then ((b.wr R.TEL_STATUS_INLET_RANGE (b2n out)).event .tel 21).stateEvents else (b.wr R.TEL_STATUS_INLET_RANGE (b2n out)).stateEvents, q, os⟩)
  ∧ (∀ (b : Blk) (q : List Instr) (os : List Obs) (b1 : Blk), b.pwr.leakPin = false → b.on R.TEL_STATUS_LEAK = false → b1 = { b with pwr := { b.pwr with leakPin := true } } → 
    exec .coolantLeak ⟨b, q, os⟩ = .next ⟨((b1.wr R.TEL_STATUS_LEAK 1).event .tel 20).stateEvents, q, os⟩)
  ∧ (∀ (b : Blk) (q : List Instr) (os : List Obs), 
    exec .coolantLeakDeassert ⟨b, q, os⟩ = .next ⟨(({ b with pwr := { b.pwr with leakPin := false } }).wr R.TEL_STATUS_LEAK 0).stateEvents, q, os⟩)

/-- POWER_ON, RST_N, BROWN_OUT and OVER_VOLTAGE answer the cold reset with their cause, REFCLK_LOSS one that REFCLK holds until REFCLK_RETURN, WARM_N the warm reset of the pin; POWER_GOOD starts base stage 2, with an alert that stands, or, where no attempt of the first 8 reconstructs the root or the counters fail, enters SAFE; BASE_STAGE_END ends the stage in progress, BASE_STAGE_TIMEOUT enters SAFE; BOOT_DECISION decides the next steps; BOOT_STEP_END of a running step ends it; WARM_START goes on after a warm reset. -/
def Obligations.BootCommandsComplete : Prop :=
  (∀ (b : Blk) (q : List Instr) (os : List Obs), 
    exec .powerOn ⟨b, q, os⟩ = .next ⟨b.coldReset 0, q, os⟩)
  ∧ (∀ (b : Blk) (q : List Instr) (os : List Obs), 
    exec .rstN ⟨b, q, os⟩ = .next ⟨b.coldReset 1, q, os⟩)
  ∧ (∀ (b : Blk) (q : List Instr) (os : List Obs), 
    exec .brownOut ⟨b, q, os⟩ = .next ⟨b.coldReset 2, q, os⟩)
  ∧ (∀ (b : Blk) (q : List Instr) (os : List Obs), 
    exec .overVoltage ⟨b, q, os⟩ = .next ⟨b.coldReset 3, q, os⟩)
  ∧ (∀ (b : Blk) (q : List Instr) (os : List Obs), 
    exec .refclkLoss ⟨b, q, os⟩ = .next ⟨{ b.coldReset 0 with boot := { (b.coldReset 0).boot with refHeld := true } }, q, os⟩)
  ∧ (∀ (b : Blk) (q : List Instr) (os : List Obs), b.boot.refHeld = true → 
    exec .refclkReturn ⟨b, q, os⟩ = .next ⟨{ b with boot := { b.boot with refHeld := false } }, q, os⟩)
  ∧ (∀ (b : Blk) (q : List Instr) (os : List Obs) (l : List Bool) (ok : Bool) (b1 b2 : Blk), b.boot.stage = 1 → b.boot.refHeld = false → b1 = { b with boot := { b.boot with stage := 2 }, beat := { b.beat with running := true } } → b2 = (if b1.pwr.alertPin then b1.alertIn else b1) → 
    exec (.powerGood l ok) ⟨b, q, os⟩ = .next ⟨if (l.take 8).any id && b2.flash.helper && ok then b2.stage2 else b2.toSafe, q, os⟩)
  ∧ (∀ (b : Blk) (q : List Instr) (os : List Obs), b.own ≠ 3 → b.lid.zero = none → b.boot.inWarm = false → b.boot.refHeld = false → 
    exec .baseStageEnd ⟨b, q, os⟩ = .next ⟨match b.boot.stage with | 2 => b.stage2End | 3 => b.stage3End | 4 => b.sequence | _ => b, q, os⟩)
  ∧ (∀ (b : Blk) (q : List Instr) (os : List Obs), 2 ≤ b.boot.stage → b.boot.stage < 5 → b.boot.inWarm = false → 
    exec .baseStageTimeout ⟨b, q, os⟩ = .next ⟨b.toSafe, q, os⟩)
  ∧ (∀ (b : Blk) (q : List Instr) (os : List Obs), 
    exec .bootDecision ⟨b, q, os⟩ = .next ⟨b.bootDecide, q, os⟩)
  ∧ (∀ (b : Blk) (q : List Instr) (os : List Obs) (row unit : Nat) (ok : Bool) (us : Nat) (x : BootStep) (b1 b2 b3 : Blk), row < 9 → b.boot.steps.find? (fun x => x.row == row && x.unit == unit && x.st == 1) = some x → b1 = b.stepSet x 2 → b2 = (if ok || row == 7 || row == 8 then b1.each (b1.stepPages x) (fun b y => b.leaveReset y.1 y.2.1) else b1.stepFailed x) → b3 = (if row = 5 then { b2 with boot := { b2.boot with isoBack := b2.boot.isoBack.filter (fun w => w / 50 != unit) } } else b2) → 
    exec (.bootStepEnd row unit ok us) ⟨b, q, os⟩ = .next ⟨(if b3.own != 3 && b3.boot.steps.all (fun y => y.st == 2) then (b3.wr R.BOOT_TIME us).event .boot 16 else b3).bootShow.bootDecide, q, os⟩)
  ∧ (∀ (b : Blk) (q : List Instr) (os : List Obs), 
    exec .warmN ⟨b, q, os⟩ = .next ⟨b.warmReset 4, q, os⟩)
  ∧ (∀ (b : Blk) (q : List Instr) (os : List Obs), b.boot.inWarm = true → b.pwr.trip = false → 
    exec .warmStart ⟨b, q, os⟩ = .next ⟨(if b.own = 3 then { b with boot := { b.boot with inWarm := false, stage := 5 } } else { b with boot := { b.boot with inWarm := false, stage := 3 } }).bootShow, q, os⟩)
  ∧ (∀ (b : Blk) (q : List Instr) (os : List Obs) (k : Nat) (t : Int) (full : Bool) (b1 : Blk), k < 256 → b1 = b.sensorRead k t full → 
    exec (.sensorReading k t full) ⟨b, q, os⟩ = .next ⟨if b1.tripDue k t then ((b1.tripRecord k t).note .boot 7).warmReset 7 else b1, q, os⟩)
  ∧ (∀ (b : Blk) (q : List Instr) (os : List Obs), b.pwr.trip = true → (List.range 256).all (fun k => !(b.sensor k).live || (match (b.sensor k).temp with | some t => decide (t ≤ 1520) | none => true)) = true → 
    exec .tripRelease ⟨b, q, os⟩ = .next ⟨{ b with pwr := { b.pwr with trip := false } }, q, os⟩)

/-- BIST_COMPLETE of a test that runs repeats a first one out of its conditions, discards a second, and otherwise gives its result, with the event and the shutdown's progress; PORT_FW_ACTIVATE takes the next drained port of a kind through QUIESCING and READY and retrains it under its staged image, or returns the ports already tried; IMAGE_READY_POINT commits an image that every unit of its kind runs. -/
def Obligations.RepairCommandsComplete : Prop :=
  (∀ (b : Blk) (q : List Instr) (os : List Obs) (kind inst : Nat) (passed inRange : Bool) (t : Bist), kind < 8 → b.boot.tests.find? (fun t => t.kind == kind && t.inst == inst) = some t → inRange = false → t.again = false → 
    exec (.bistComplete kind inst passed inRange) ⟨b, q, os⟩ = .next ⟨{ b with boot := { b.boot with tests := b.boot.tests.map (fun y => if y = t then { y with again := true } else y) } }, q, os⟩)
  ∧ (∀ (b : Blk) (q : List Instr) (os : List Obs) (kind inst : Nat) (passed : Bool) (t : Bist) (b1 : Blk), kind < 8 → b.boot.tests.find? (fun t => t.kind == kind && t.inst == inst) = some t → b1 = { b with boot := { b.boot with tests := b.boot.tests.filter (fun y => y != t) } } → 
    exec (.bistComplete kind inst passed true) ⟨b, q, os⟩ = .next ⟨(((b1.testResult kind inst passed).bistShow kind inst (if passed then 2 else 3)).event .boot 17).shutDone kind inst true, q, os⟩)
  ∧ (∀ (b : Blk) (q : List Instr) (os : List Obs) (kind : Nat) (k : Nat), kind = 4 ∨ kind = 5 → b.activatable kind = true → b.boot.stage = 5 → b.boot.inWarm = false → b.own ≠ 3 → ((b.imagePorts kind).take (SMap.get 0 b.lid.trying kind)).all (fun k => b.portSettled kind k) = true → (b.imagePorts kind)[SMap.get 0 b.lid.trying kind]? = some k → b.portQuiet kind k = true → 
    exec (.portFwActivate kind true) ⟨b, q, os⟩ = .next ⟨((b.tryImage kind (SMap.get 0 b.lid.trying kind + 1)).portCycle kind k).portRetrain kind k, q, os⟩)
  ∧ (∀ (b : Blk) (q : List Instr) (os : List Obs) (kind : Nat), kind = 4 ∨ kind = 5 → 0 < SMap.get 0 b.lid.trying kind → 
    exec (.portFwActivate kind false) ⟨b, q, os⟩ = .next ⟨((b.tryImage kind 0).each ((b.imagePorts kind).take (SMap.get 0 b.lid.trying kind)) (fun b k => b.portRetrain kind k)).event .boot 21, q, os⟩)
  ∧ (∀ (b : Blk) (q : List Instr) (os : List Obs) (kind : Nat), kind < 8 → 0 < SMap.get 0 b.lid.trying kind → b.imageUnits kind ≤ SMap.get 0 b.lid.trying kind → kind ≠ 1 → 
    exec (.imageReadyPoint kind) ⟨b, q, os⟩ = .next ⟨b.commitImage kind, q, os⟩)
  ∧ (∀ (b : Blk) (q : List Instr) (os : List Obs), 0 < SMap.get 0 b.lid.trying 1 → b.imageUnits 1 ≤ SMap.get 0 b.lid.trying 1 → b.on R.HOOP_MIGRATE_BUSY = true → 
    exec (.imageReadyPoint 1) ⟨b, q, os⟩ = .next ⟨b.migrateEnd.commitImage 1, q, os⟩)

/-- With the token valid and the module in the state that R45 names, OWNER_CLAIM records the claim, makes the module OWNED and accepts; OWNER_RELEASE starts the zeroisation to BLANK and accepts, or joins the one that runs and is answered as merged; DEBUG_OPEN and FIRMWARE_APPROVAL open the scope and hold the approvals and accept; SERVICE_TOKEN and SERVICE_CONSENT hold their part, answer, and enter SERVICE where both are held; SERVICE_EXIT starts the zeroisation to BLANK. The claim window, the hold, the zeroisation steps and the domain keys follow their events. -/
def Obligations.LidCommandsComplete : Prop :=
  (∀ (b : Blk) (q : List Instr) (os : List Obs) (tok : Token), b.rakOpen = true → b.own = 0 → b.lid.zero = none → b.on R.LID_CLAIM_ARM = true → b.tokenOk tok 4 = true → 
    exec (.ownerClaim tok) ⟨b, q, os⟩ = .next ⟨(((((b.claimRecord (tokKeyHash tok)).wr R.LID_OWN_STATE_STATE 1).lidVoid).nonceUsed).stateEvents).attest .accepted, q, os⟩)
  ∧ (∀ (b : Blk) (q : List Instr) (os : List Obs) (tok : Token), b.rakOpen = true → b.own = 1 → b.tokenOk tok 3 = true → 
    exec (.ownerRelease tok) ⟨b, q, os⟩ = .next ⟨((b.zeroStart 0 1).nonceUsed).attest (if b.lid.zero.isSome then .merged else .accepted), q, os⟩)
  ∧ (∀ (b : Blk) (q : List Instr) (os : List Obs) (tok : Token), b.rakOpen = true → b.own = 1 → b.tokenOk tok 2 = true → 
    exec (.debugOpen tok) ⟨b, q, os⟩ = .next ⟨((b.orBits R.LID_OWN_STATE_DEBUG_SCOPE (tokScope tok)).nonceUsed).attest .accepted, q, os⟩)
  ∧ (∀ (b : Blk) (q : List Instr) (os : List Obs) (tok : Token), b.rakOpen = true → b.own = 1 → b.tokenOk tok 1 = true → 
    exec (.firmwareApproval tok) ⟨b, q, os⟩ = .next ⟨({ b with lid := { b.lid with approvals := (setBits 8 (tokScope tok)).foldl (fun m k => SMap.set none m k (some ⟨tokSubject tok, tokEpoch tok, tokLastBoot tok⟩)) b.lid.approvals } }).attest .accepted, q, os⟩)
  ∧ (∀ (b : Blk) (q : List Instr) (os : List Obs) (tok : SvcToken), b.mgmtUp = true → b.svcFrom = true → b.svcValid tok = true → 
    exec (.serviceToken true tok) ⟨b, q, os⟩ = .next ⟨(({ b with lid := { b.lid with svcToken := some tok } }).mgmtAnswer 0 []).svcMeet, q, os⟩)
  ∧ (∀ (b : Blk) (q : List Instr) (os : List Obs) (tok : SvcToken), b.rakOpen = true → b.svcFrom = true → b.svcValid tok = true → 
    exec (.serviceToken false tok) ⟨b, q, os⟩ = .next ⟨(({ b with lid := { b.lid with svcToken := some tok } }).attest .accepted).svcMeet, q, os⟩)
  ∧ (∀ (b : Blk) (q : List Instr) (os : List Obs), b.mgmtUp = true → b.svcFrom = true → 
    exec .serviceConsent ⟨b, q, os⟩ = .next ⟨(({ b with lid := { b.lid with svcConsent := true } }).mgmtAnswer 0 []).svcMeet, q, os⟩)
  ∧ (∀ (b : Blk) (q : List Instr) (os : List Obs), 
    exec (.serviceHoldLapse true) ⟨b, q, os⟩ = .next ⟨{ b with lid := { b.lid with svcConsent := false } }, q, os⟩)
  ∧ (∀ (b : Blk) (q : List Instr) (os : List Obs), 
    exec (.serviceHoldLapse false) ⟨b, q, os⟩ = .next ⟨{ b with lid := { b.lid with svcToken := none } }, q, os⟩)
  ∧ (∀ (b : Blk) (q : List Instr) (os : List Obs), b.own = 2 → 
    exec .serviceExit ⟨b, q, os⟩ = .next ⟨b.zeroStart 0 4, q, os⟩)
  ∧ (∀ (b : Blk) (q : List Instr) (os : List Obs), 
    exec .zeroiseQuiesceEnd ⟨b, q, os⟩ = .next ⟨b.zeroQuiesced, q, os⟩)
  ∧ (∀ (b : Blk) (q : List Instr) (os : List Obs), 
    exec .zeroiseMediaDone ⟨b, q, os⟩ = .next ⟨b.zeroDone, q, os⟩)
  ∧ (∀ (b : Blk) (q : List Instr) (os : List Obs), b.on R.LID_CLAIM_ARM = true → 
    exec .claimWindowExpire ⟨b, q, os⟩ = .next ⟨(b.wr R.LID_CLAIM_ARM 0).wr R.LID_CLAIM_LEFT 0, q, os⟩)
  ∧ (∀ (b : Blk) (q : List Instr) (os : List Obs), b.on R.LID_CLAIM_ARM = true → 1 < b.rd R.LID_CLAIM_LEFT → 
    exec .claimLeftTick ⟨b, q, os⟩ = .next ⟨b.dec R.LID_CLAIM_LEFT, q, os⟩)
  ∧ (∀ (b : Blk) (q : List Instr) (os : List Obs) (d : Nat), d < 8 → bit (b.rd R.LID_DOMAIN_REKEY) d = true → 
    exec (.domainKeyInstalled d) ⟨b, q, os⟩ = .next ⟨({ b with lid := { b.lid with domGen := SMap.modify 0 b.lid.domGen d (· + 1) } }).clrBits R.LID_DOMAIN_REKEY (2 ^ d), q, os⟩)
  ∧ (∀ (b : Blk) (q : List Instr) (os : List Obs) (x : WindowSample) (b1 b2 : Blk), x.temps.length = 22 → x.loads.length = 8 → b.boot.refHeld = false → b1 = (b.send (.sanitised b.lid.san)).telWindow x → b2 = { b1 with lid := { b1.lid with san := [] }, mgmt := { b1.mgmt with window := classCounts b.lid.san } } → 
    exec (.sanitisedWindowEnd x) ⟨b, q, os⟩ = .next ⟨(if b2.rd R.MGMT_STATUS_RX_EID = 0 then b2 else b2.each (classCounts b.lid.san) (fun b y => b.platformEvent (0x0200 + y.1) y.2)).stateEvents, q, os⟩)

/-- RAKLINE_LIGHT brings the link of a block that runs UP; with the link UP, RAKLINE_LINK_LOSS takes it down, the timers acknowledge and resend, and RAKLINE_FRAME counts the frame and answers a damaged one with a NAK, counts a dropped one, and takes any other. GET_NONCE, GET_QUOTE, GET_CERTS and SESSION_INIT answer on ATTEST; in a session the register, BULK and console commands answer the block after their accesses, transfers and responses, with their credits. -/
def Obligations.RaklineCommandsComplete : Prop :=
  (∀ (b : Blk) (q : List Instr) (os : List Obs), b.rakRuns = true → b.rd R.RAK_STATUS_LINK ≠ 2 → 
    exec .raklineLight ⟨b, q, os⟩ = .next ⟨(b.wr R.RAK_STATUS_LINK 2).event .rak 16, q, os⟩)
  ∧ (∀ (b : Blk) (q : List Instr) (os : List Obs), b.rd R.RAK_STATUS_LINK = 2 → 
    exec .raklineLinkLoss ⟨b, q, os⟩ = .next ⟨b.rakDown, q, os⟩)
  ∧ (∀ (b : Blk) (q : List Instr) (os : List Obs), b.rd R.RAK_STATUS_LINK = 2 → 0 < b.rak.unacked → 
    exec .raklineAckTimer ⟨b, q, os⟩ = .next ⟨b.rakAck, q, os⟩)
  ∧ (∀ (b : Blk) (q : List Instr) (os : List Obs) (n : Nat), n < 2 ^ 64 → b.rd R.RAK_STATUS_LINK = 2 → 
    exec (.raklineNak n) ⟨b, q, os⟩ = .next ⟨b.rakResend, q, os⟩)
  ∧ (∀ (b : Blk) (q : List Instr) (os : List Obs), b.rd R.RAK_STATUS_LINK = 2 → 
    exec .raklineReplayTimeout ⟨b, q, os⟩ = .next ⟨b.rakResend, q, os⟩)
  ∧ (∀ (b : Blk) (q : List Instr) (os : List Obs) (h : List Byte) (tagOk : Bool) (m : RakLinkMsg) (b1 : Blk), rakHdrOk h = true → b.rd R.RAK_STATUS_LINK = 2 → b1 = b.add64 R.RAK_RX_FRAMES_LO R.RAK_RX_FRAMES_HI 1 → b1.rakDrops h tagOk = false → 
    exec (.raklineFrame h true tagOk m) ⟨b, q, os⟩ = .next ⟨b1.rakTake h m, q, os⟩)
  ∧ (∀ (b : Blk) (q : List Instr) (os : List Obs) (h : List Byte) (tagOk : Bool) (m : RakLinkMsg) (b1 : Blk), rakHdrOk h = true → b.rd R.RAK_STATUS_LINK = 2 → b1 = (b.add64 R.RAK_RX_FRAMES_LO R.RAK_RX_FRAMES_HI 1) → b1.rakDrops h tagOk = true → 
    exec (.raklineFrame h true tagOk m) ⟨b, q, os⟩ = .next ⟨if !rakClear h && b.rakUp && !tagOk then (b1.inc R.RAK_DROP_CNT).inc R.LID_AUTH_FAIL_CNT else b1.inc R.RAK_DROP_CNT, q, os⟩)
  ∧ (∀ (b : Blk) (q : List Instr) (os : List Obs) (h : List Byte) (tagOk : Bool) (m : RakLinkMsg), rakHdrOk h = true → b.rd R.RAK_STATUS_LINK = 2 → 
    exec (.raklineFrame h false tagOk m) ⟨b, q, os⟩ = .next ⟨((b.add64 R.RAK_RX_FRAMES_LO R.RAK_RX_FRAMES_HI 1).inc R.RAK_CRC_ERR_CNT).rakLink (.nak (rakSeq h)), q, os⟩)
  ∧ (∀ (b : Blk) (q : List Instr) (os : List Obs) (nonce : Nat), nonce < 2 ^ 256 → b.rakOpen = true → 
    exec (.getQuote false nonce) ⟨b, q, os⟩ = .next ⟨b.attest (.quote (b.quoteBody nonce) (b.quoteSig (b.quoteBody nonce))), q, os⟩)
  ∧ (∀ (b : Blk) (q : List Instr) (os : List Obs) (nonce : Nat), nonce < 2 ^ 256 → b.mgmtUp = true → 
    exec (.getQuote true nonce) ⟨b, q, os⟩ = .next ⟨b.mgmtLid (.quoteMgmt (b.quoteBody nonce) (b.quoteSig (b.quoteBody nonce))), q, os⟩)
  ∧ (∀ (b : Blk) (q : List Instr) (os : List Obs), b.rakOpen = true → 
    exec (.getCerts false) ⟨b, q, os⟩ = .next ⟨b.attest (.certs b.aliasChain), q, os⟩)
  ∧ (∀ (b : Blk) (q : List Instr) (os : List Obs), b.mgmtUp = true → 
    exec (.getCerts true) ⟨b, q, os⟩ = .next ⟨b.mgmtLid (.certsMgmt b.aliasChain), q, os⟩)
  ∧ (∀ (b : Blk) (q : List Instr) (os : List Obs), b.rakOpen = true → 
    exec .getNonce ⟨b, q, os⟩ = .next ⟨({ b.entUsed with lid := { b.lid with nonce := some ((Config.nonce b.io.ent).toNat) } }).attest (.nonce ((Config.nonce b.io.ent).toNat)), q, os⟩)
  ∧ (∀ (b : Blk) (q : List Instr) (os : List Obs) (key nonce keyHash : Nat) (sigOk : Bool) (b1 : Blk) (body : List Byte) (ct : Nat), b.rakOpen = true → b1 = (if b.rakUp then b.rakEnd else b) → b1.sessionOk nonce keyHash sigOk = true → body = b1.quoteBody nonce → ct = Config.crypto 2 [key, b1.io.ent] → 
    exec (.sessionInit key nonce keyHash sigOk) ⟨b, q, os⟩ = .next ⟨((b1.attest (.sessionReply ct body (b1.quoteSig body))).nonceUsed.entUsed).rakBegin (sessionKey (Config.crypto 21 [key, b1.io.ent]) ([nonce, key, keyHash, ct, b1.quoteSig body] ++ body.map (·.toNat))), q, os⟩)
  ∧ (∀ (b : Blk) (q : List Instr) (os : List Obs) (m : List Byte) (o : Blk × List Nat × Nat × Nat), regCmd 1 m = true → (b.rakOpen && b.rakUp) = true → regForm m 0 = true → o = Blk.readRun (regCount m) 0 (regOff m) b → 
    exec (.regRead m) ⟨b, q, os⟩ = .next ⟨o.1.regResp 1 o.2.2.1 (regTag m) o.2.2.2 o.2.1, q, os⟩)
  ∧ (∀ (b : Blk) (q : List Instr) (os : List Obs) (m : List Byte) (o : Blk × Nat × Nat), regCmd 2 m = true → (b.rakOpen && b.rakUp) = true → regForm m (regCount m) = true → o = Blk.writeRun (regData m) 0 (regOff m) b → 
    exec (.regWrite m) ⟨b, q, os⟩ = .next ⟨o.1.regResp 2 o.2.1 (regTag m) o.2.2 [], q, os⟩)
  ∧ (∀ (b : Blk) (q : List Instr) (os : List Obs) (m : List Byte), regCmd 3 m = true → (b.rakOpen && b.rakUp) = true → 
    exec (.regWarmReset m) ⟨b, q, os⟩ = .next ⟨(b.regResp 3 0 (regTag m) 0 []).warmReset 6, q, os⟩)
  ∧ (∀ (b : Blk) (q : List Instr) (os : List Obs) (m : List Byte), regCmd 4 m = true → (b.rakOpen && b.rakUp) = true → 
    exec (.regShutdown m) ⟨b, q, os⟩ = .next ⟨(b.regResp 4 0 (regTag m) 0 []).shutdown, q, os⟩)
  ∧ (∀ (b : Blk) (q : List Instr) (os : List Obs) (m : List Byte), bulkCmd 1 m = true → (b.rakOpen && b.rakUp) = true → b.bulkHolds (.start true (bulkK m) (bulkVa m) (bulkLen m)) = false → 
    exec (.bulkWrite m) ⟨b, q, os⟩ = .next ⟨b.bulkOpen true (bulkK m) (bulkVa m) (bulkLen m), q, os⟩)
  ∧ (∀ (b : Blk) (q : List Instr) (os : List Obs) (m : List Byte), bulkCmd 2 m = true → (b.rakOpen && b.rakUp) = true → b.bulkHolds (.start false (bulkK m) (bulkVa m) (bulkLen m)) = false → 
    exec (.bulkRead m) ⟨b, q, os⟩ = .next ⟨b.bulkOpen false (bulkK m) (bulkVa m) (bulkLen m), q, os⟩)
  ∧ (∀ (b : Blk) (q : List Instr) (os : List Obs) (m : List Byte), bulkFrameOk m = true → (b.rakOpen && b.rakUp) = true → b.bulkHolds (.data (fieldAt m 0 1) (fieldAt m 8 8) (m.drop 16)) = false → 
    exec (.bulkData m) ⟨b, q, os⟩ = .next ⟨(b.bulkIn (fieldAt m 0 1) (fieldAt m 8 8) (m.drop 16)).rakCredit 2, q, os⟩)
  ∧ (∀ (b : Blk) (q : List Instr) (os : List Obs) (k : Nat) (x : Bulk), k < 16 → b.bulkAt k = some x → x.moved = x.len → 
    exec (.bulkTransferEnd k) ⟨b, q, os⟩ = .next ⟨b.bulkEnd k 0 x.len, q, os⟩)
  ∧ (∀ (b : Blk) (q : List Instr) (os : List Obs) (data : List Byte), data.length ≤ 4096 → (b.rakOpen && b.rakUp) = true → 
    exec (.console true data) ⟨b, q, os⟩ = .next ⟨({ b with rak := { b.rak with conWait := b.rak.conWait ++ [RakMsg.console data] } }).conFrames (b.rak.conWait.length + 1), q, os⟩)
  ∧ (∀ (b : Blk) (q : List Instr) (os : List Obs) (data : List Byte), data.length ≤ 4096 → (b.rakOpen && b.rakUp) = true → 
    exec (.console false data) ⟨b, q, os⟩ = .next ⟨(b.send (.consoleIn (b.rd R.RAK_STATUS_SESSION) (b.rd R.LID_OWN_STATE_DEBUG_SCOPE) data)).rakCredit 5, q, os⟩)

/-- While the management plane answers, I3C_ENTDAA, the MCTP control requests, the PLDM base requests, GET_PDR_REPOSITORY_INFO, GET_PDR, QUERY_DEVICE_IDENTIFIERS and GET_FIRMWARE_PARAMETERS store what they set and send their answer, counted: a request that names a type or record that does not exist gets completion code 0x02. -/
def Obligations.MgmtEndpointCommandsComplete : Prop :=
  (∀ (b : Blk) (q : List Instr) (os : List Obs) (addr : Nat), addr < 128 → b.mgmtUp = true → 
    exec (.i3cEntdaa addr) ⟨b, q, os⟩ = .next ⟨(((b.wr R.MGMT_STATUS_DYN_ADDR addr).wr R.MGMT_STATUS_ADDR_VALID 1).event .mgmt 16).send (.provisionedId provisionedId), q, os⟩)
  ∧ (∀ (b : Blk) (q : List Instr) (os : List Obs) (eid : Nat), eid < 256 → b.mgmtUp = true → 
    exec (.setEndpointId eid) ⟨b, q, os⟩ = .next ⟨(b.wr R.MGMT_STATUS_EID eid).mgmtAnswer 0 [eid], q, os⟩)
  ∧ (∀ (b : Blk) (q : List Instr) (os : List Obs), b.mgmtUp = true → 
    exec .getEndpointId ⟨b, q, os⟩ = .next ⟨b.mgmtAnswer 0 [b.rd R.MGMT_STATUS_EID], q, os⟩)
  ∧ (∀ (b : Blk) (q : List Instr) (os : List Obs), b.mgmtUp = true → 
    exec .getEndpointUuid ⟨b, q, os⟩ = .next ⟨b.mgmtAnswer 0 [Config.crypto 12 [Config.identityHash.toNat]], q, os⟩)
  ∧ (∀ (b : Blk) (q : List Instr) (os : List Obs) (type : Nat), type < 256 → b.mgmtUp = true → 
    exec (.getMctpVersionSupport type) ⟨b, q, os⟩ = .next ⟨b.mgmtAnswer 0 [Config.crypto 13 [type]], q, os⟩)
  ∧ (∀ (b : Blk) (q : List Instr) (os : List Obs), b.mgmtUp = true → 
    exec .getMessageTypeSupport ⟨b, q, os⟩ = .next ⟨b.mgmtAnswer 0 [0x00, 0x01, 0x7F], q, os⟩)
  ∧ (∀ (b : Blk) (q : List Instr) (os : List Obs), b.mgmtUp = true → 
    exec (.getVendorDefinedMessageSupport 0) ⟨b, q, os⟩ = .next ⟨b.mgmtAnswer 0 [Config.crypto 14 []], q, os⟩)
  ∧ (∀ (b : Blk) (q : List Instr) (os : List Obs) (k : Nat), k < 256 → k ≠ 0 → b.mgmtUp = true → 
    exec (.getVendorDefinedMessageSupport k) ⟨b, q, os⟩ = .next ⟨b.mgmtAnswer 2 [], q, os⟩)
  ∧ (∀ (b : Blk) (q : List Instr) (os : List Obs), b.mgmtUp = true → 
    exec .getTid ⟨b, q, os⟩ = .next ⟨b.mgmtAnswer 0 [b.mgmt.tid], q, os⟩)
  ∧ (∀ (b : Blk) (q : List Instr) (os : List Obs) (tid : Nat), tid < 256 → b.mgmtUp = true → 
    exec (.setTid tid) ⟨b, q, os⟩ = .next ⟨({ b with mgmt := { b.mgmt with tid := tid } }).mgmtAnswer 0 [], q, os⟩)
  ∧ (∀ (b : Blk) (q : List Instr) (os : List Obs) (type : Nat), type = 0 ∨ type = 2 ∨ type = 5 → b.mgmtUp = true → 
    exec (.getPldmVersion type) ⟨b, q, os⟩ = .next ⟨b.mgmtAnswer 0 [Config.crypto 15 [type]], q, os⟩)
  ∧ (∀ (b : Blk) (q : List Instr) (os : List Obs) (type : Nat), type < 64 → type ≠ 0 → type ≠ 2 → type ≠ 5 → b.mgmtUp = true → 
    exec (.getPldmVersion type) ⟨b, q, os⟩ = .next ⟨b.mgmtAnswer 2 [], q, os⟩)
  ∧ (∀ (b : Blk) (q : List Instr) (os : List Obs), b.mgmtUp = true → 
    exec .getPldmTypes ⟨b, q, os⟩ = .next ⟨b.mgmtAnswer 0 [0, 2, 5], q, os⟩)
  ∧ (∀ (b : Blk) (q : List Instr) (os : List Obs) (type : Nat), type = 0 ∨ type = 2 ∨ type = 5 → b.mgmtUp = true → 
    exec (.getPldmCommands type) ⟨b, q, os⟩ = .next ⟨b.mgmtAnswer 0 (pldmCommands type), q, os⟩)
  ∧ (∀ (b : Blk) (q : List Instr) (os : List Obs), b.mgmtUp = true → 
    exec .getPdrRepositoryInfo ⟨b, q, os⟩ = .next ⟨b.mgmtAnswer 0 [60], q, os⟩)
  ∧ (∀ (b : Blk) (q : List Instr) (os : List Obs) (id : Nat) (k : Nat), id < 2 ^ 16 → pdrKind id = some k → b.mgmtUp = true → 
    exec (.getPdr id) ⟨b, q, os⟩ = .next ⟨b.mgmtAnswer 0 [id, k], q, os⟩)
  ∧ (∀ (b : Blk) (q : List Instr) (os : List Obs) (id : Nat), id < 2 ^ 16 → pdrKind id = none → b.mgmtUp = true → 
    exec (.getPdr id) ⟨b, q, os⟩ = .next ⟨b.mgmtAnswer 2 [], q, os⟩)
  ∧ (∀ (b : Blk) (q : List Instr) (os : List Obs), b.mgmtUp = true → 
    exec .queryDeviceIdentifiers ⟨b, q, os⟩ = .next ⟨b.mgmtAnswer 0 [Config.identityHash.toNat], q, os⟩)
  ∧ (∀ (b : Blk) (q : List Instr) (os : List Obs), b.mgmtUp = true → 
    exec .getFirmwareParameters ⟨b, q, os⟩ = .next ⟨b.mgmtAnswer 0 ((List.range 8).flatMap (fun k => [match SMap.get none b.lid.running k with | some x => x.secver | none => Config.crypto 5 [k], b2n (SMap.get none b.lid.staged k).isSome])), q, os⟩)

/-- While the management plane answers, GET_SENSOR_READING, GET_STATE_SENSOR_READINGS and the effecter requests send the register's value or the completion code of its read or write as class P, and 0x02 for an identifier that does not exist; SET_EVENT_RECEIVER stores the receiver with its event and answer; PLATFORM_EVENT_ACK drops the oldest event of its sensor and shows what is pending. -/
def Obligations.MgmtSensorCommandsComplete : Prop :=
  (∀ (b : Blk) (q : List Instr) (os : List Obs) (id : Nat), 0x0201 ≤ id → id ≤ 0x0211 → b.mgmtUp = true → 
    exec (.getSensorReading id) ⟨b, q, os⟩ = .next ⟨b.mgmtAnswer 0 [SMap.get 0 b.mgmt.window (id - 0x0200)], q, os⟩)
  ∧ (∀ (b : Blk) (q : List Instr) (os : List Obs) (id : Nat) (f : Fld), id < 2 ^ 16 → classSensor id = false → numSensor id = some f → b.mgmtUp = true → 
    exec (.getSensorReading id) ⟨b, q, os⟩ = .next ⟨Blk.readAnswer (b.mgmtRead f), q, os⟩)
  ∧ (∀ (b : Blk) (q : List Instr) (os : List Obs) (id : Nat), id < 2 ^ 16 → classSensor id = false → numSensor id = none → b.mgmtUp = true → 
    exec (.getSensorReading id) ⟨b, q, os⟩ = .next ⟨b.mgmtAnswer 2 [], q, os⟩)
  ∧ (∀ (b : Blk) (q : List Instr) (os : List Obs) (id : Nat) (f : Fld) (b' : Blk) (v : Nat), id < 2 ^ 16 → stateFld id = some f → b.mgmtRead f = (b', .ok v) → b.mgmtUp = true → 
    exec (.getStateSensorReadings id) ⟨b, q, os⟩ = .next ⟨b'.mgmtAnswer 0 [b.stateSensor id], q, os⟩)
  ∧ (∀ (b : Blk) (q : List Instr) (os : List Obs) (id : Nat) (f : Fld) (b' : Blk) (c : Nat), id < 2 ^ 16 → stateFld id = some f → b.mgmtRead f = (b', .error c) → b.mgmtUp = true → 
    exec (.getStateSensorReadings id) ⟨b, q, os⟩ = .next ⟨b'.mgmtAnswer c [], q, os⟩)
  ∧ (∀ (b : Blk) (q : List Instr) (os : List Obs) (v : Nat), v < 2 ^ 12 → b.mgmtUp = true → 
    exec (.setNumericEffecterValue 0x1000 v) ⟨b, q, os⟩ = .next ⟨Blk.writeAnswer (b.mgmtWrite .tel R.TEL_CAP.off v), q, os⟩)
  ∧ (∀ (b : Blk) (q : List Instr) (os : List Obs) (v : Nat), v < 2 ^ 18 → b.mgmtUp = true → 
    exec (.setNumericEffecterValue 0x1001 v) ⟨b, q, os⟩ = .next ⟨Blk.writeAnswer (b.mgmtWrite .tel R.TEL_GROUP_GROUP.off v), q, os⟩)
  ∧ (∀ (b : Blk) (q : List Instr) (os : List Obs) (v : Nat), v < 2 ^ 12 → b.mgmtUp = true → 
    exec (.setNumericEffecterValue 0x1002 v) ⟨b, q, os⟩ = .next ⟨Blk.writeAnswer (b.mgmtWrite .boot R.BOOT_BUDGET.off v), q, os⟩)
  ∧ (∀ (b : Blk) (q : List Instr) (os : List Obs) (v : Nat), v < 2 ^ 18 → b.mgmtUp = true → 
    exec (.setNumericEffecterValue 0x1003 v) ⟨b, q, os⟩ = .next ⟨Blk.writeAnswer (b.mgmtWrite .boot R.BOOT_BIST_CMD_ACTION.off (1 + 256 * (v / 65536) + 65536 * (v % 65536))), q, os⟩)
  ∧ (∀ (b : Blk) (q : List Instr) (os : List Obs), b.mgmtUp = true → 
    exec (.getNumericEffecterValue 0x1000) ⟨b, q, os⟩ = .next ⟨Blk.readAnswer (b.mgmtRead R.TEL_CAP), q, os⟩)
  ∧ (∀ (b : Blk) (q : List Instr) (os : List Obs), b.mgmtUp = true → 
    exec (.getNumericEffecterValue 0x1002) ⟨b, q, os⟩ = .next ⟨Blk.readAnswer (b.mgmtRead R.BOOT_BUDGET), q, os⟩)
  ∧ (∀ (b : Blk) (q : List Instr) (os : List Obs), b.mgmtUp = true → 
    exec (.getNumericEffecterValue 0x1003) ⟨b, q, os⟩ = .next ⟨Blk.readAnswer (b.mgmtRead R.BOOT_BIST_CMD_INSTANCE), q, os⟩)
  ∧ (∀ (b : Blk) (q : List Instr) (os : List Obs), b.mgmtUp = true → 
    exec (.setStateEffecterStates 0x1100 1) ⟨b, q, os⟩ = .next ⟨Blk.writeAnswer (b.mgmtWrite .boot R.BOOT_RESET.off 1), q, os⟩)
  ∧ (∀ (b : Blk) (q : List Instr) (os : List Obs), b.mgmtUp = true → 
    exec (.setStateEffecterStates 0x1100 2) ⟨b, q, os⟩ = .next ⟨Blk.writeAnswer (b.mgmtWrite .boot R.BOOT_SHUTDOWN.off 1), q, os⟩)
  ∧ (∀ (b : Blk) (q : List Instr) (os : List Obs), b.mgmtUp = true → 
    exec (.setStateEffecterStates 0x1101 1) ⟨b, q, os⟩ = .next ⟨Blk.writeAnswer (b.mgmtWrite .lid R.LID_CLAIM_ARM.off 1), q, os⟩)
  ∧ (∀ (b : Blk) (q : List Instr) (os : List Obs), b.mgmtUp = true → 
    exec (.getStateEffecterStates 0x1100) ⟨b, q, os⟩ = .next ⟨Blk.readAnswer (b.mgmtRead R.BOOT_RESET), q, os⟩)
  ∧ (∀ (b : Blk) (q : List Instr) (os : List Obs), b.mgmtUp = true → 
    exec (.getStateEffecterStates 0x1101) ⟨b, q, os⟩ = .next ⟨Blk.readAnswer (b.mgmtRead R.LID_CLAIM_ARM), q, os⟩)
  ∧ (∀ (b : Blk) (q : List Instr) (os : List Obs) (eid : Nat), eid < 256 → b.mgmtUp = true → 
    exec (.setEventReceiver eid) ⟨b, q, os⟩ = .next ⟨(((b.wr R.MGMT_STATUS_RX_EID eid).event .mgmt 17).mgmtAnswer 0 []).stateEvents, q, os⟩)
  ∧ (∀ (b : Blk) (q : List Instr) (os : List Obs) (k : Nat) (x : PlatEvt), k < 2 ^ 16 → b.mgmt.events.find? (fun x : PlatEvt => x.sensor == k) = some x → b.mgmtUp = true → 
    exec (.platformEventAck k) ⟨b, q, os⟩ = .next ⟨(({ b with mgmt := { b.mgmt with events := b.mgmt.events.erase x } }).wr R.MGMT_EVT_PEND (b.mgmt.events.erase x).length).stateEvents, q, os⟩)

/-- REQUEST_UPDATE opens an update from IDLE or after one, PASS_COMPONENT_TABLE takes a table of kinds that exist, UPDATE_COMPONENT of a kind in it asks for its data, VERIFY_COMPLETE says that its transfer is complete, marks the component ready where its signature and security version allow, says so and, then, that it is applied, ACTIVATE_FIRMWARE stages the ready images once all are ready, GET_STATUS answers the state, and the two cancels go back; each answers completion code 0. -/
def Obligations.FirmwareUpdateCommandsComplete : Prop :=
  (∀ (b : Blk) (q : List Instr) (os : List Obs), b.updState = 0 ∨ b.updState = 5 → b.mgmtUp = true → 
    exec .requestUpdate ⟨b, q, os⟩ = .next ⟨({ b with mgmt := { b.mgmt with upd := 1, comps := [], cur := none, ready := [] } }).mgmtAnswer 0 [], q, os⟩)
  ∧ (∀ (b : Blk) (q : List Instr) (os : List Obs) (l : List Nat), b.mgmt.upd = 1 → l ≠ [] → l.any (fun k => decide (8 ≤ k)) = false → b.mgmtUp = true → 
    exec (.passComponentTable l) ⟨b, q, os⟩ = .next ⟨({ b with mgmt := { b.mgmt with upd := 2, comps := l.eraseDups } }).mgmtAnswer 0 [], q, os⟩)
  ∧ (∀ (b : Blk) (q : List Instr) (os : List Obs) (kind : Nat), kind < 2 ^ 16 → b.mgmt.upd = 2 ∨ b.mgmt.upd = 4 → b.mgmt.comps.contains kind = true → b.mgmtUp = true → 
    exec (.updateComponent kind) ⟨b, q, os⟩ = .next ⟨(({ b with mgmt := { b.mgmt with upd := 3, cur := some kind } }).mgmtAnswer 0 []).send (.requestFirmwareData kind), q, os⟩)
  ∧ (∀ (b : Blk) (q : List Instr) (os : List Obs) (im : ImageIn) (k : Nat) (ok : Bool) (m : SMap (Option Image)) (b0 b1 : Blk), b.mgmt.upd = 3 → b.mgmt.cur = some k → ok = (im.sigOk && decide (SMap.get 0 b.flash.rollback k ≤ im.secver)) → m = (if ok then SMap.set none b.mgmt.ready k (some ⟨im.hash, im.secver, true⟩) else b.mgmt.ready) → b0 = { b with mgmt := { b.mgmt with ready := m, cur := none, upd := if b.mgmt.comps.all (fun c => (SMap.get none m c).isSome) then 4 else 2 } } → b1 = (b0.send (.transferComplete k)).send (.verifyComplete k ok) → b.mgmtUp = true → 
    exec (.verifyComplete im) ⟨b, q, os⟩ = .next ⟨if ok then b1.send (.applyComplete k) else b1, q, os⟩)
  ∧ (∀ (b : Blk) (q : List Instr) (os : List Obs), b.mgmt.upd = 4 → b.mgmt.ready.any (fun x => SMap.get 0 b.lid.trying x.1 != 0) = false → b.mgmtUp = true → 
    exec .activateFirmware ⟨b, q, os⟩ = .next ⟨b.stage.mgmtAnswer 0 [], q, os⟩)
  ∧ (∀ (b : Blk) (q : List Instr) (os : List Obs), b.mgmtUp = true → 
    exec .getStatus ⟨b, q, os⟩ = .next ⟨b.mgmtAnswer 0 [b.updState], q, os⟩)
  ∧ (∀ (b : Blk) (q : List Instr) (os : List Obs), b.mgmt.upd = 3 → b.mgmtUp = true → 
    exec .cancelUpdateComponent ⟨b, q, os⟩ = .next ⟨({ b with mgmt := { b.mgmt with upd := 2, cur := none } }).mgmtAnswer 0 [], q, os⟩)
  ∧ (∀ (b : Blk) (q : List Instr) (os : List Obs), 1 ≤ b.mgmt.upd → b.mgmt.upd ≤ 4 → b.mgmtUp = true → 
    exec .cancelUpdate ⟨b, q, os⟩ = .next ⟨({ b with mgmt := { b.mgmt with upd := 0, comps := [], cur := none, ready := [] } }).mgmtAnswer 0 [], q, os⟩)

/-- When a thread runs NOP, an arithmetic instruction, LI, LIH, SEL, a branch, JAL, JALR or RDID, exec answers a next state in which every other thread, every register of the thread but DEST, its token slots, all of memory, the wales' state, the flash and every register field but the stake's STAKE_ISSUE count are as they were, and nothing is sent; the thread is still in RUN, and s0 still reads 0, so that an instruction whose DEST is s0 writes no register. -/
def Obligations.ScalarInstructionsKeepTheRest : Prop :=
  ∀ (b : Blk) (q : List Instr) (os : List Obs) (t : Tid) (i : Ins) (b1 : Blk) (x : Nat × Instr),
    x ∈ [(0x00, Instr.nop t), (0x01, .add t), (0x02, .sub t), (0x03, .mul t), (0x04, .mulhu t), (0x05, .andOp t), (0x06, .orOp t), (0x07, .xor t),
      (0x08, .sll t), (0x09, .srl t), (0x0A, .sra t), (0x0B, .min t), (0x0C, .max t), (0x0D, .minu t), (0x0E, .maxu t), (0x0F, .slt t), (0x10, .sltu t),
      (0x11, .seq t), (0x12, .li t), (0x13, .lih t), (0x14, .sel t), (0x20, .beq t), (0x21, .bne t), (0x22, .blt t), (0x23, .bge t), (0x24, .bltu t),
      (0x25, .bgeu t), (0x26, .jal t), (0x27, .jalr t), (0x41, .rdid t)] →
    b.Runs t x.1 i b1 →
    ∃ b2, exec x.2 ⟨b, q, os⟩ = .next ⟨b2, q, os⟩ ∧ (∀ u, tkey u ≠ tkey t → b2.thread u = b.thread u)
      ∧ (∀ r, r ≠ i.dest → (b2.thread t).reg r = (b.thread t).reg r) ∧ (b2.thread t).toks = (b.thread t).toks ∧ (b2.thread t).st = tRun ∧ (b2.thread t).reg 0 = 0
      ∧ b2.mem = b.mem ∧ b2.wales = b.wales ∧ b2.flash = b.flash ∧ b2.io.out = b.io.out
      ∧ ∀ (f : Fld) (j : Nat), f.key j ≠ R.STAKE_ISSUE_LO.key t.stake → f.key j ≠ R.STAKE_ISSUE_HI.key t.stake → b2.rd f j = b.rd f j

/-- When a thread runs ST at an aligned address that the local map sends to a physical address pa, in a window that answers, with no uncorrectable word in the range, exec answers a next state in which byte k of the form's width reads at pa + k as byte k of SRC2, every byte outside pa up to pa + width reads as before under every domain, and every other thread, every register of the thread, the wales' state, the flash and every register field but STAKE_ISSUE are as before. -/
def Obligations.StoreFrame : Prop :=
  ∀ (b : Blk) (q : List Instr) (os : List Obs) (t : Tid) (i : Ins) (b1 : Blk) (n pa : Nat),
    b.Runs t 0x29 i b1 → n = 2 ^ bits i.mod 0 2 → (b.thread t).ea i % n = 0 → localPa t.stake ((b.thread t).ea i) n .store = .ok pa →
    b.memGateN clsO pa n = 0 → b.firstUe pa n = none →
    ∃ b2, exec (.st t) ⟨b, q, os⟩ = .next ⟨b2, q, os⟩
      ∧ (∀ k dom, k < n → b2.byteAt dom (pa + k) = BitVec.ofNat 8 ((b.thread t).reg i.src2 / 256 ^ k))
      ∧ (∀ a dom, a < pa ∨ pa + n ≤ a → b2.byteAt dom a = b.byteAt dom a)
      ∧ (∀ u, tkey u ≠ tkey t → b2.thread u = b.thread u) ∧ (b2.thread t).regs = (b.thread t).regs ∧ (b2.thread t).toks = (b.thread t).toks
      ∧ (b2.thread t).pc = ((b.thread t).pc + 8) % 2 ^ 32 ∧ b2.wales = b.wales ∧ b2.flash = b.flash ∧ b2.io.out = b.io.out
      ∧ ∀ (f : Fld) (j : Nat), f.key j ≠ R.STAKE_ISSUE_LO.key t.stake → f.key j ≠ R.STAKE_ISSUE_HI.key t.stake → b2.rd f j = b.rd f j

/-- When a thread runs AMO at an aligned address of wale SRAM whose window answers, with no uncorrectable word there, exec answers a next state with the old doubleword in DEST (s0 aside), in which the eight bytes at the address read as the operation's value (R136: sum, SRC2, AND, OR, signed maximum, signed minimum, or SRC2 where the old value equals DEST) where it stores one and as before where it stores none, and every byte outside them reads as before; every register but DEST and every other thread are as before. -/
def Obligations.AmoFrame : Prop :=
  ∀ (b : Blk) (q : List Instr) (os : List Obs) (t : Tid) (i : Ins) (b1 : Blk) (pa old : Nat),
    b.Runs t 0x2A i b1 → (b.thread t).ea i % 8 = 0 → localPa t.stake ((b.thread t).ea i) 8 .atomic = .ok pa →
    b.memGateN clsO pa 8 = 0 → b.firstUe pa 8 = none → old = b.readNat 0 pa 8 →
    ∃ b2, exec (.amo t) ⟨b, q, os⟩ = .next ⟨b2, q, os⟩
      ∧ (b2.thread t).reg i.dest = (if i.dest = 0 then 0 else old)
      ∧ (∀ k dom, k < 8 → b2.byteAt dom (pa + k) =
          (match amoNew i.mod old ((b.thread t).reg i.src2) ((b.thread t).reg i.dest) with
            | some v => BitVec.ofNat 8 (v / 256 ^ k)
            | none => b.byteAt dom (pa + k)))
      ∧ (∀ a dom, a < pa ∨ pa + 8 ≤ a → b2.byteAt dom a = b.byteAt dom a)
      ∧ (∀ r, r ≠ i.dest → (b2.thread t).reg r = (b.thread t).reg r) ∧ (∀ u, tkey u ≠ tkey t → b2.thread u = b.thread u)
      ∧ b2.wales = b.wales ∧ b2.flash = b.flash ∧ b2.io.out = b.io.out

/-- After ST of a width at an aligned local address, LD without sign extension of the same width at the same address by the same thread leaves the low bytes of the stored register in DEST. -/
def Obligations.LoadReadsTheStore : Prop :=
  ∀ (b : Blk) (q : List Instr) (os : List Obs) (t : Tid) (i : Ins) (b1 : Blk) (n pa : Nat) (b2 : Blk) (i' : Ins) (b3 : Blk),
    b.Runs t 0x29 i b1 → n = 2 ^ bits i.mod 0 2 → (b.thread t).ea i % n = 0 → localPa t.stake ((b.thread t).ea i) n .store = .ok pa →
    b.memGateN clsO pa n = 0 → b.firstUe pa n = none →
    exec (.st t) ⟨b, q, os⟩ = .next ⟨b2, q, os⟩ →
    b2.Runs t 0x28 i' b3 → (b2.thread t).ea i' = (b.thread t).ea i → bits i'.mod 0 2 = bits i.mod 0 2 → bit i'.mod 2 = false → i'.dest ≠ 0 →
    ∃ b4, exec (.ld t) ⟨b2, q, os⟩ = .next ⟨b4, q, os⟩ ∧ (b4.thread t).reg i'.dest = (b.thread t).reg i.src2 % 256 ^ n % 2 ^ 64

/-- At a device physical address of HBM or the slow tier that a class may reach: a write of less than a whole aligned 64-byte line, inside one line that reads as uncorrectable, is refused with class ECC_UNCORRECTED, and the block, with every line, is as it was; of a line that is not uncorrectable it leaves the bytes it does not write as they read under the writer's domain. A write of a whole aligned line succeeds whatever the line held, and the line then is not uncorrectable and reads as written under the writer's domain. -/
def Obligations.PartialLineWritesAreReadModifyWrites : Prop :=
  (∀ (b : Blk) (cls dom pa : Nat) (l : List Byte), isDram pa = true → 0 < l.length → l.length < 64 → pa % 64 + l.length ≤ 64 →
    b.memGateN cls pa l.length = 0 → b.ueAt pa = true →
    ∃ f, b.writePa cls dom pa l = (b, some f) ∧ f.cls = eEcc ∧ f.pa = pa)
  ∧ (∀ (b : Blk) (cls dom pa : Nat) (l : List Byte), isDram pa = true → 0 < l.length → l.length < 64 → pa % 64 + l.length ≤ 64 →
    b.memGateN cls pa l.length = 0 → b.ueAt pa = false →
    ∃ b', b.writePa cls dom pa l = (b', none)
      ∧ ∀ a, a / 64 = pa / 64 → b'.byteAt dom a = if h : pa ≤ a ∧ a - pa < l.length then l[a - pa]'h.2 else b.byteAt dom a)
  ∧ (∀ (b : Blk) (cls dom pa : Nat) (l : List Byte), isDram pa = true → l.length = 64 → pa % 64 = 0 → b.memGateN cls pa 64 = 0 →
    ∃ b', b.writePa cls dom pa l = (b', none) ∧ b'.ueAt pa = false ∧ b'.readBytes dom pa 64 = l)

/-- A byte of HBM or the slow tier that was written under a domain's key reads as plaintext under that domain. Once the domain's key generation has moved on (R58), or under another domain (R57), the read returns the byte of the 16-byte block that AES-256-XTS under the reader's key makes of the writer's ciphertext, with the tweak of the address (R56): both directions of the cipher and the keys are opaque, so nothing can be proved of that byte; the uncorrectable marks are as before. SRAM reads the same under every domain (R58). -/
def Obligations.WrongKeysReadNoPlaintext : Prop :=
  (∀ (b : Blk) (d g dom pa : Nat), isDram pa = true → b.mem.line pa = .keyed d g → d = dom ∧ g = b.domGen dom → b.byteAt dom pa = b.mem.raw pa)
  ∧ (∀ (b : Blk) (d g dom pa : Nat), isDram pa = true → b.mem.line pa = .keyed d g → d ≠ dom ∨ g ≠ b.domGen dom →
    b.byteAt dom pa = byteOf (Config.xtsDec (Config.domainKey b.mem.power dom (b.domGen dom)) (bits pa 6 36) (pa / 16 % 4)
      (Config.xtsEnc (Config.domainKey b.mem.power d g) (bits pa 6 36) (pa / 16 % 4) (b.mem.cipherBlock pa))) (pa % 16))
  ∧ (∀ (b : Blk) (dom dom' pa : Nat), isDram pa = false → b.byteAt dom pa = b.byteAt dom' pa)
  ∧ (∀ (b : Blk) (q : List Instr) (os : List Obs) (d : Nat), d < 8 → bit (b.rd R.LID_DOMAIN_REKEY) d = true →
    ∃ b', exec (.domainKeyInstalled d) ⟨b, q, os⟩ = .next ⟨b', q, os⟩ ∧ b'.domGen d ≠ b.domGen d ∧ b'.mem = b.mem ∧ ∀ e, e ≠ d → b'.domGen e = b.domGen e)

/-- A thread in RUN whose PC is not a multiple of 8 faults at any instruction with ACCESS_DENIED and detail 0x03; one whose word sets a field that the opcode does not use faults with detail 0x02; LD, ST and AMO at a misaligned address fault with detail 0x03, and at an address that the local map does not grant with the detail of the map (0x04 or 0x05). A fault leaves the thread in FAULT with the class, detail and slot recorded, awake, its registers, PC and token slots as they were, and leaves every other thread, every stake, wale and stream and the flash as they were. -/
def Obligations.ThreadFaultsKeepTheThread : Prop :=
  (∀ (b : Blk) (q : List Instr) (os : List Obs) (t : Tid) (x : Nat × Instr),
    x ∈ [(0x00, Instr.nop t), (0x01, .add t), (0x02, .sub t), (0x03, .mul t), (0x04, .mulhu t), (0x05, .andOp t), (0x06, .orOp t), (0x07, .xor t),
      (0x08, .sll t), (0x09, .srl t), (0x0A, .sra t), (0x0B, .min t), (0x0C, .max t), (0x0D, .minu t), (0x0E, .maxu t), (0x0F, .slt t), (0x10, .sltu t),
      (0x11, .seq t), (0x12, .li t), (0x13, .lih t), (0x14, .sel t), (0x20, .beq t), (0x21, .bne t), (0x22, .blt t), (0x23, .bge t), (0x24, .bltu t),
      (0x25, .bgeu t), (0x26, .jal t), (0x27, .jalr t), (0x28, .ld t), (0x29, .st t), (0x2A, .amo t), (0x30, .issMat t), (0x31, .issVec t), (0x32, .issRow t),
      (0x33, .issDma t), (0x34, .issSum t), (0x38, .twait t), (0x39, .fence t), (0x3A, .bar t), (0x3B, .bwait t), (0x3C, .halt t), (0x40, .sumrd t),
      (0x41, .rdid t), (0x42, .phase t)] →
    tidOk t = true → (b.thread t).st = tRun → (b.thread t).sleep = .awake ∨ (b.thread t).sleep = .stall →
    ((b.thread t).pc % 8 ≠ 0 → exec x.2 ⟨b, q, os⟩ = .next ⟨b.threadFault t 0x0C 0x03, q, os⟩)
    ∧ ∀ b1 w, b.fetch t = (b1, .ok w) → bits w 57 7 = x.1 → fieldsOk x.1 (insOf w) = false → exec x.2 ⟨b, q, os⟩ = .next ⟨b1.threadFault t 0x0C 0x02, q, os⟩)
  ∧ (∀ (b : Blk) (q : List Instr) (os : List Obs) (t : Tid) (i : Ins) (b1 : Blk) (x : Nat × Instr × Nat × LAcc) (d : Nat),
    x ∈ [(0x28, Instr.ld t, 2 ^ bits i.mod 0 2, .load), (0x29, .st t, 2 ^ bits i.mod 0 2, .store), (0x2A, .amo t, 8, .atomic)] →
    b.Runs t x.1 i b1 →
    ((b.thread t).ea i % x.2.2.1 ≠ 0 → exec x.2.1 ⟨b, q, os⟩ = .next ⟨b1.threadFault t 0x0C 0x03, q, os⟩)
    ∧ ((b.thread t).ea i % x.2.2.1 = 0 → localPa t.stake ((b.thread t).ea i) x.2.2.1 x.2.2.2 = .error d →
      exec x.2.1 ⟨b, q, os⟩ = .next ⟨b1.threadFault t 0x0C d, q, os⟩))
  ∧ (∀ (b : Blk) (t : Tid) (cls det slot pa : Nat),
    (b.threadFault t cls det slot pa).thread t = { b.thread t with st := tFault, sleep := .awake, held := false, fCls := cls, fDet := det, fSlot := slot }
    ∧ (∀ u, tkey u ≠ tkey t → (b.threadFault t cls det slot pa).thread u = b.thread u)
    ∧ (b.threadFault t cls det slot pa).stakes = b.stakes ∧ (b.threadFault t cls det slot pa).wales = b.wales
    ∧ (b.threadFault t cls det slot pa).streams = b.streams ∧ (b.threadFault t cls det slot pa).flash = b.flash)

/-- A thread instruction's command for a thread that is not in RUN, or that sleeps in a wait, a barrier, a drain or a halt, leaves the block as it is (the model's reading of the event, log entry 2). -/
def Obligations.IdleThreadsRunNothing : Prop :=
  ∀ (b : Blk) (q : List Instr) (os : List Obs) (t : Tid) (x : Nat × Instr),
    x ∈ [(0x00, Instr.nop t), (0x01, .add t), (0x02, .sub t), (0x03, .mul t), (0x04, .mulhu t), (0x05, .andOp t), (0x06, .orOp t), (0x07, .xor t),
      (0x08, .sll t), (0x09, .srl t), (0x0A, .sra t), (0x0B, .min t), (0x0C, .max t), (0x0D, .minu t), (0x0E, .maxu t), (0x0F, .slt t), (0x10, .sltu t),
      (0x11, .seq t), (0x12, .li t), (0x13, .lih t), (0x14, .sel t), (0x20, .beq t), (0x21, .bne t), (0x22, .blt t), (0x23, .bge t), (0x24, .bltu t),
      (0x25, .bgeu t), (0x26, .jal t), (0x27, .jalr t), (0x28, .ld t), (0x29, .st t), (0x2A, .amo t), (0x30, .issMat t), (0x31, .issVec t), (0x32, .issRow t),
      (0x33, .issDma t), (0x34, .issSum t), (0x38, .twait t), (0x39, .fence t), (0x3A, .bar t), (0x3B, .bwait t), (0x3C, .halt t), (0x40, .sumrd t),
      (0x41, .rdid t), (0x42, .phase t)] →
    tidOk t = true → (b.thread t).st ≠ tRun ∨ ((b.thread t).sleep ≠ .awake ∧ (b.thread t).sleep ≠ .stall) → exec x.2 ⟨b, q, os⟩ = .next ⟨b, q, os⟩

/-- When a thread runs BAR on a barrier whose count is not 0 and its arrival makes the arrivals of the wale reach the count, exec answers a next state in which every thread of the wale that slept in RUN at that barrier is awake with its registers and slots as before, no thread of the wale sleeps at it, the arriving thread is past its BAR, and every other thread that did not sleep there is as it was. -/
def Obligations.BarrierReleasesItsGeneration : Prop :=
  ∀ (b : Blk) (q : List Instr) (os : List Obs) (t : Tid) (i : Ins) (b1 : Blk),
    b.Runs t 0x3A i b1 → b.barCount (waleOf t.stake) i.imm ≠ 0 → b.barCount (waleOf t.stake) i.imm ≤ (b.atBar (waleOf t.stake) i.imm).length + 1 →
    ∃ b2, exec (.bar t) ⟨b, q, os⟩ = .next ⟨b2, q, os⟩
      ∧ (∀ u ∈ b.atBar (waleOf t.stake) i.imm, (b2.thread u).sleep = .awake ∧ (b2.thread u).regs = (b.thread u).regs ∧ (b2.thread u).toks = (b.thread u).toks)
      ∧ (∀ u, u.thread < 8 → waleOf u.stake = waleOf t.stake → (b2.thread u).st = tRun → (b2.thread u).sleep ≠ .bar i.imm)
      ∧ (b2.thread t).pc = ((b.thread t).pc + 8) % 2 ^ 32
      ∧ (∀ u, u.thread < 8 → tkey u ≠ tkey t → u ∉ b.atBar (waleOf t.stake) i.imm → b2.thread u = b.thread u)

/-- For all FP32 patterns: if either reads as NaN, minimum and maximum are the canonical NaN 0x7FC0_0000, less, less or equal and equal are false both ways round and not-equal is true; of −0 and +0 the minimum is −0 and the maximum +0, and they compare equal; where a is less than b, the minimum is a's value and the maximum b's, both ways round. The summary MAX and MIN are these functions. -/
def Obligations.MinimaAndMaximaOrderZerosAndNaN : Prop :=
  (∀ a c : Nat, f32 a = .nan ∨ f32 c = .nan → fmin a c = 0x7FC0_0000 ∧ fmax a c = 0x7FC0_0000 ∧ flt a c = false ∧ flt c a = false ∧ fle a c = false
    ∧ fle c a = false ∧ feq a c = false)
  ∧ (∀ a c : Nat, f32 a = .fin true 0 0 → f32 c = .fin false 0 0 → fmin a c = 0x8000_0000 ∧ fmin c a = 0x8000_0000 ∧ fmax a c = 0 ∧ fmax c a = 0
    ∧ feq a c = true ∧ feq c a = true)
  ∧ (∀ a c : Nat, flt a c = true → fmin a c = toF32 (f32 a) ∧ fmin c a = toF32 (f32 a) ∧ fmax a c = toF32 (f32 c) ∧ fmax c a = toF32 (f32 c))
  ∧ (∀ a c : Nat, sumCombine 1 a c = fmax a c ∧ sumCombine 2 a c = fmin a c)

/-- For every magnitude and shift, rounding to nearest gives an integer within half a unit of the exact quotient, and an even one where the two neighbours are equally near. An FP32 pattern whose exponent field is not 0 and that is no NaN is what its value rounds to; one with exponent field 0 reads and rounds as the zero of its sign (R180). FP32 addition gives the same bits for both orders of its operands. Of the 8-bit patterns of FP8-E4M3, 0x78 and 0xF8 read as the infinities, 0x79–0x7F and 0xF9–0xFF as NaN, and every other one as a finite value of magnitude at most 240, which 0x77 has. -/
def Obligations.RoundingIsToNearestEven : Prop :=
  (∀ m k : Nat, 2 * ((roundShift .rne m k : Int) * 2 ^ k - m).natAbs ≤ 2 ^ k
    ∧ (2 * ((roundShift .rne m k : Int) * 2 ^ k - m).natAbs = 2 ^ k → roundShift .rne m k % 2 = 0))
  ∧ (∀ v : Nat, v < 2 ^ 32 → f32 v ≠ .nan → toF32 (f32 v) = if bits v 23 8 = 0 then v / 2 ^ 31 * 2 ^ 31 else v)
  ∧ (∀ a c : Nat, fadd a c = fadd c a)
  ∧ decodeF (fmtOf 4) 0x78 = .inf false ∧ decodeF (fmtOf 4) 0xF8 = .inf true
  ∧ (∀ v, 0x79 ≤ v → v ≤ 0x7F → decodeF (fmtOf 4) v = .nan ∧ decodeF (fmtOf 4) (v + 0x80) = .nan)
  ∧ (∀ v, v < 0x78 → ∃ m e, decodeF (fmtOf 4) v = .fin false m e ∧ decodeF (fmtOf 4) (v + 0x80) = .fin true m e ∧ leMag m e 240 0 = true)
  ∧ decodeF (fmtOf 4) 0x77 = .fin false 15 4

/-- While a page's PG_EVENT.ERROR is 1, capturing a further error leaves PG_ERR_FIRST and PG_ERR_INFO0–INFO2 of that page as they are, raises PG_ERR_INFO3.MORE by 1 up to its maximum and puts the class in PG_ERR_INFO3.LAST; while it is 0, the error's class, step and detail words become the first error. -/
def Obligations.FirstErrorsStandUntilRearmed : Prop :=
  ∀ (b : Blk) (p : Page) (i : Nat) (e : Err), e.cls < 256 →
    (b.on (R.PG_EVENT_ERROR p) i = true →
      (b.capture p i e).rd (R.PG_ERR_FIRST_CLASS p) i = b.rd (R.PG_ERR_FIRST_CLASS p) i
      ∧ (b.capture p i e).rd (R.PG_ERR_FIRST_STEP p) i = b.rd (R.PG_ERR_FIRST_STEP p) i
      ∧ (b.capture p i e).rd (R.PG_ERR_INFO0 p) i = b.rd (R.PG_ERR_INFO0 p) i
      ∧ (b.capture p i e).rd (R.PG_ERR_INFO1 p) i = b.rd (R.PG_ERR_INFO1 p) i
      ∧ (b.capture p i e).rd (R.PG_ERR_INFO2 p) i = b.rd (R.PG_ERR_INFO2 p) i
      ∧ (b.capture p i e).rd (R.PG_ERR_INFO3_LAST p) i = e.cls
      ∧ (b.capture p i e).rd (R.PG_ERR_INFO3_MORE p) i = min (b.rd (R.PG_ERR_INFO3_MORE p) i + 1) (R.PG_ERR_INFO3_MORE p).max)
    ∧ (b.on (R.PG_EVENT_ERROR p) i = false →
      (b.capture p i e).rd (R.PG_ERR_FIRST_CLASS p) i = e.cls
      ∧ (b.capture p i e).rd (R.PG_ERR_FIRST_STEP p) i = e.step.getD 0 % 2 ^ 24
      ∧ (b.capture p i e).rd (R.PG_ERR_INFO0 p) i = e.info0 % 2 ^ 32
      ∧ (b.capture p i e).rd (R.PG_ERR_INFO1 p) i = e.info1 % 2 ^ 32
      ∧ (b.capture p i e).rd (R.PG_ERR_INFO2 p) i = e.info2 % 2 ^ 32)
end

