-- ==== Sys2Proof/Laws/Complete.lean ====
section
/-! SUPPORT. What `exec` can answer, said once: each command is its meaning, and every meaning is an effect on the block or a refusal as ill-formed. -/

namespace Sys2Proof.Laws

open Sys2Proof.Machine

/-- What `cmd` answers. -/
@[simp] theorem cmd_true (s : State) (f : Blk → Blk) : cmd true s f = .next { s with blk := f s.blk } := rfl
@[simp] theorem cmd_false (s : State) (f : Blk → Blk) : cmd false s f = .refused .illFormed := rfl

/-- A well-formed command is its effect. -/
theorem cmd_next {ok : Bool} (h : ok = true) (s : State) (f : Blk → Blk) : cmd ok s f = .next { s with blk := f s.blk } := by rw [h, cmd_true]

/-- What happens under a condition that holds, and under one that does not. -/
@[simp] theorem when_true (b : Blk) (f : Blk → Blk) : b.when true f = f b := rfl
@[simp] theorem when_false (b : Blk) (f : Blk → Blk) : b.when false f = b := rfl

@[simp] theorem exec_ownerClaim (tok : Token) (s : State) : exec (.ownerClaim tok) s = execOwnerClaim tok s := rfl
@[simp] theorem exec_ownerRelease (tok : Token) (s : State) : exec (.ownerRelease tok) s = execOwnerRelease tok s := rfl
@[simp] theorem exec_forceClear (ini : Ini) (s : State) : exec (.forceClear ini) s = execForceClear ini s := rfl
@[simp] theorem exec_serviceToken (viaMgmt : Bool) (tok : SvcToken) (s : State) : exec (.serviceToken viaMgmt tok) s = execServiceToken viaMgmt tok s := rfl
@[simp] theorem exec_serviceConsent (s : State) : exec (.serviceConsent) s = execServiceConsent s := rfl
@[simp] theorem exec_serviceHoldLapse (consent : Bool) (s : State) : exec (.serviceHoldLapse consent) s = execServiceHoldLapse consent s := rfl
@[simp] theorem exec_serviceExit (s : State) : exec (.serviceExit) s = execServiceExit s := rfl
@[simp] theorem exec_zeroiseQuiesceEnd (s : State) : exec (.zeroiseQuiesceEnd) s = execZeroiseQuiesceEnd s := rfl
@[simp] theorem exec_zeroiseMediaDone (s : State) : exec (.zeroiseMediaDone) s = execZeroiseMediaDone s := rfl
@[simp] theorem exec_claimArm (ini : Ini) (s : State) : exec (.claimArm ini) s = execClaimArm ini s := rfl
@[simp] theorem exec_claimWindowExpire (s : State) : exec (.claimWindowExpire) s = execClaimWindowExpire s := rfl
@[simp] theorem exec_claimLeftTick (s : State) : exec (.claimLeftTick) s = execClaimLeftTick s := rfl
@[simp] theorem exec_lidDomainRekey (ini : Ini) (mask : Nat) (s : State) : exec (.lidDomainRekey ini mask) s = execLidDomainRekey ini mask s := rfl
@[simp] theorem exec_domainKeyInstalled (d : Nat) (s : State) : exec (.domainKeyInstalled d) s = execDomainKeyInstalled d s := rfl
@[simp] theorem exec_firmwareApproval (tok : Token) (s : State) : exec (.firmwareApproval tok) s = execFirmwareApproval tok s := rfl
@[simp] theorem exec_imageReadyPoint (kind : Nat) (s : State) : exec (.imageReadyPoint kind) s = execImageReadyPoint kind s := rfl
@[simp] theorem exec_debugOpen (tok : Token) (s : State) : exec (.debugOpen tok) s = execDebugOpen tok s := rfl
@[simp] theorem exec_lidDebugClose (ini : Ini) (s : State) : exec (.lidDebugClose ini) s = execLidDebugClose ini s := rfl
@[simp] theorem exec_nearRekeyDue (p : Nat) (s : State) : exec (.nearRekeyDue p) s = execNearRekeyDue p s := rfl
@[simp] theorem exec_keyNext (p : Nat) (e : Nat) (s : State) : exec (.keyNext p e) s = execKeyNext p e s := rfl
@[simp] theorem exec_nearKeyInstalled (p : Nat) (s : State) : exec (.nearKeyInstalled p) s = execNearKeyInstalled p s := rfl
@[simp] theorem exec_keyReady (p : Nat) (e : Nat) (s : State) : exec (.keyReady p e) s = execKeyReady p e s := rfl
@[simp] theorem exec_keyRetire (p : Nat) (e : Nat) (s : State) : exec (.keyRetire p e) s = execKeyRetire p e s := rfl
@[simp] theorem exec_farRekeyDue (peer age : Nat) (s : State) : exec (.farRekeyDue peer age) s = execFarRekeyDue peer age s := rfl
@[simp] theorem exec_farPrevKeyExpire (peer : Nat) (s : State) : exec (.farPrevKeyExpire peer) s = execFarPrevKeyExpire peer s := rfl
@[simp] theorem exec_sanitisedWindowEnd (sample : WindowSample) (s : State) : exec (.sanitisedWindowEnd sample) s = execSanitisedWindowEnd sample s := rfl
@[simp] theorem exec_lidLogGet (ini : Ini) (v : Nat) (s : State) : exec (.lidLogGet ini v) s = execLidLogGet ini v s := rfl
@[simp] theorem exec_lidLogBase (ini : Ini) (v : Nat) (s : State) : exec (.lidLogBase ini v) s = execLidLogBase ini v s := rfl
@[simp] theorem exec_registerWrite (ini : Ini) (off : Nat) (v : Nat) (s : State) : exec (.registerWrite ini off v) s = execRegisterWrite ini off v s := rfl
@[simp] theorem exec_pairLoRead (ini : Ini) (off : Nat) (s : State) : exec (.pairLoRead ini off) s = execPairLoRead ini off s := rfl
@[simp] theorem exec_pairLoWrite (ini : Ini) (off : Nat) (v : Nat) (s : State) : exec (.pairLoWrite ini off v) s = execPairLoWrite ini off v s := rfl
@[simp] theorem exec_pairHiWrite (ini : Ini) (off : Nat) (v : Nat) (s : State) : exec (.pairHiWrite ini off v) s = execPairHiWrite ini off v s := rfl
@[simp] theorem exec_pgCtrlEnable (ini : Ini) (pg : Page) (inst : Nat) (on : Bool) (s : State) : exec (.pgCtrlEnable ini pg inst on) s = execPgCtrlEnable ini pg inst on s := rfl
@[simp] theorem exec_pgCtrlQuiesceReq (ini : Ini) (pg : Page) (inst : Nat) (on : Bool) (s : State) : exec (.pgCtrlQuiesceReq ini pg inst on) s = execPgCtrlQuiesceReq ini pg inst on s := rfl
@[simp] theorem exec_pgCtrlIsolate (ini : Ini) (pg : Page) (inst : Nat) (on : Bool) (s : State) : exec (.pgCtrlIsolate ini pg inst on) s = execPgCtrlIsolate ini pg inst on s := rfl
@[simp] theorem exec_blockReset (ini : Ini) (pg : Page) (inst : Nat) (s : State) : exec (.blockReset ini pg inst) s = execBlockReset ini pg inst s := rfl
@[simp] theorem exec_pgEventClear (ini : Ini) (pg : Page) (inst : Nat) (v : Nat) (s : State) : exec (.pgEventClear ini pg inst v) s = execPgEventClear ini pg inst v s := rfl
@[simp] theorem exec_pgLock (ini : Ini) (pg : Page) (inst : Nat) (s : State) : exec (.pgLock ini pg inst) s = execPgLock ini pg inst s := rfl
@[simp] theorem exec_pgOwnerWrite (ini : Ini) (pg : Page) (inst : Nat) (v : Nat) (s : State) : exec (.pgOwnerWrite ini pg inst v) s = execPgOwnerWrite ini pg inst v s := rfl
@[simp] theorem exec_blockInitDone (pg : Page) (inst : Nat) (s : State) : exec (.blockInitDone pg inst) s = execBlockInitDone pg inst s := rfl
@[simp] theorem exec_blockInitTimeout (pg : Page) (inst : Nat) (s : State) : exec (.blockInitTimeout pg inst) s = execBlockInitTimeout pg inst s := rfl
@[simp] theorem exec_blockDrained (pg : Page) (inst : Nat) (s : State) : exec (.blockDrained pg inst) s = execBlockDrained pg inst s := rfl
@[simp] theorem exec_quiesceTimeout (pg : Page) (inst : Nat) (s : State) : exec (.quiesceTimeout pg inst) s = execQuiesceTimeout pg inst s := rfl
@[simp] theorem exec_blockSelfCheckFail (pg : Page) (inst : Nat) (s : State) : exec (.blockSelfCheckFail pg inst) s = execBlockSelfCheckFail pg inst s := rfl
@[simp] theorem exec_beatTick (m : TickMeasure) (s : State) : exec (.beatTick m) s = execBeatTick m s := rfl
@[simp] theorem exec_workListTake (w : Nat) (s : State) : exec (.workListTake w) s = execWorkListTake w s := rfl
@[simp] theorem exec_syncEdge (x : Nat) (s : State) : exec (.syncEdge x) s = execSyncEdge x s := rfl
@[simp] theorem exec_syncEvaluate (s : State) : exec (.syncEvaluate) s = execSyncEvaluate s := rfl
@[simp] theorem exec_beatPeriod (ini : Ini) (v : Nat) (s : State) : exec (.beatPeriod ini v) s = execBeatPeriod ini v s := rfl
@[simp] theorem exec_beatCtrlStrict (ini : Ini) (on : Bool) (s : State) : exec (.beatCtrlStrict ini on) s = execBeatCtrlStrict ini on s := rfl
@[simp] theorem exec_beatCtrlSyncEn (ini : Ini) (on : Bool) (s : State) : exec (.beatCtrlSyncEn ini on) s = execBeatCtrlSyncEn ini on s := rfl
@[simp] theorem exec_beatCtrlSyncOutEn (ini : Ini) (on : Bool) (s : State) : exec (.beatCtrlSyncOutEn ini on) s = execBeatCtrlSyncOutEn ini on s := rfl
@[simp] theorem exec_cdcTimeout (p : Page) (inst : Nat) (stopped : Nat) (live : Nat) (s : State) : exec (.cdcTimeout p inst stopped live) s = execCdcTimeout p inst stopped live s := rfl
@[simp] theorem exec_creditTimeout (t : Tid) (s : State) : exec (.creditTimeout t) s = execCreditTimeout t s := rfl
@[simp] theorem exec_nop (t : Tid) (s : State) : exec (.nop t) s = execNop t s := rfl
@[simp] theorem exec_add (t : Tid) (s : State) : exec (.add t) s = execAdd t s := rfl
@[simp] theorem exec_sub (t : Tid) (s : State) : exec (.sub t) s = execSub t s := rfl
@[simp] theorem exec_mul (t : Tid) (s : State) : exec (.mul t) s = execMul t s := rfl
@[simp] theorem exec_mulhu (t : Tid) (s : State) : exec (.mulhu t) s = execMulhu t s := rfl
@[simp] theorem exec_andOp (t : Tid) (s : State) : exec (.andOp t) s = execAndOp t s := rfl
@[simp] theorem exec_orOp (t : Tid) (s : State) : exec (.orOp t) s = execOrOp t s := rfl
@[simp] theorem exec_xor (t : Tid) (s : State) : exec (.xor t) s = execXor t s := rfl
@[simp] theorem exec_sll (t : Tid) (s : State) : exec (.sll t) s = execSll t s := rfl
@[simp] theorem exec_srl (t : Tid) (s : State) : exec (.srl t) s = execSrl t s := rfl
@[simp] theorem exec_sra (t : Tid) (s : State) : exec (.sra t) s = execSra t s := rfl
@[simp] theorem exec_min (t : Tid) (s : State) : exec (.min t) s = execMin t s := rfl
@[simp] theorem exec_max (t : Tid) (s : State) : exec (.max t) s = execMax t s := rfl
@[simp] theorem exec_minu (t : Tid) (s : State) : exec (.minu t) s = execMinu t s := rfl
@[simp] theorem exec_maxu (t : Tid) (s : State) : exec (.maxu t) s = execMaxu t s := rfl
@[simp] theorem exec_slt (t : Tid) (s : State) : exec (.slt t) s = execSlt t s := rfl
@[simp] theorem exec_sltu (t : Tid) (s : State) : exec (.sltu t) s = execSltu t s := rfl
@[simp] theorem exec_seq (t : Tid) (s : State) : exec (.seq t) s = execSeq t s := rfl
@[simp] theorem exec_li (t : Tid) (s : State) : exec (.li t) s = execLi t s := rfl
@[simp] theorem exec_lih (t : Tid) (s : State) : exec (.lih t) s = execLih t s := rfl
@[simp] theorem exec_sel (t : Tid) (s : State) : exec (.sel t) s = execSel t s := rfl
@[simp] theorem exec_beq (t : Tid) (s : State) : exec (.beq t) s = execBeq t s := rfl
@[simp] theorem exec_bne (t : Tid) (s : State) : exec (.bne t) s = execBne t s := rfl
@[simp] theorem exec_blt (t : Tid) (s : State) : exec (.blt t) s = execBlt t s := rfl
@[simp] theorem exec_bge (t : Tid) (s : State) : exec (.bge t) s = execBge t s := rfl
@[simp] theorem exec_bltu (t : Tid) (s : State) : exec (.bltu t) s = execBltu t s := rfl
@[simp] theorem exec_bgeu (t : Tid) (s : State) : exec (.bgeu t) s = execBgeu t s := rfl
@[simp] theorem exec_jal (t : Tid) (s : State) : exec (.jal t) s = execJal t s := rfl
@[simp] theorem exec_jalr (t : Tid) (s : State) : exec (.jalr t) s = execJalr t s := rfl
@[simp] theorem exec_ld (t : Tid) (s : State) : exec (.ld t) s = execLd t s := rfl
@[simp] theorem exec_st (t : Tid) (s : State) : exec (.st t) s = execSt t s := rfl
@[simp] theorem exec_amo (t : Tid) (s : State) : exec (.amo t) s = execAmo t s := rfl
@[simp] theorem exec_issMat (t : Tid) (s : State) : exec (.issMat t) s = execIssMat t s := rfl
@[simp] theorem exec_issVec (t : Tid) (s : State) : exec (.issVec t) s = execIssVec t s := rfl
@[simp] theorem exec_issRow (t : Tid) (s : State) : exec (.issRow t) s = execIssRow t s := rfl
@[simp] theorem exec_issDma (t : Tid) (s : State) : exec (.issDma t) s = execIssDma t s := rfl
@[simp] theorem exec_issSum (t : Tid) (s : State) : exec (.issSum t) s = execIssSum t s := rfl
@[simp] theorem exec_twait (t : Tid) (s : State) : exec (.twait t) s = execTwait t s := rfl
@[simp] theorem exec_fence (t : Tid) (s : State) : exec (.fence t) s = execFence t s := rfl
@[simp] theorem exec_bar (t : Tid) (s : State) : exec (.bar t) s = execBar t s := rfl
@[simp] theorem exec_bwait (t : Tid) (s : State) : exec (.bwait t) s = execBwait t s := rfl
@[simp] theorem exec_halt (t : Tid) (s : State) : exec (.halt t) s = execHalt t s := rfl
@[simp] theorem exec_sumrd (t : Tid) (s : State) : exec (.sumrd t) s = execSumrd t s := rfl
@[simp] theorem exec_rdid (t : Tid) (s : State) : exec (.rdid t) s = execRdid t s := rfl
@[simp] theorem exec_phase (t : Tid) (s : State) : exec (.phase t) s = execPhase t s := rfl
@[simp] theorem exec_undefinedOpcode (t : Tid) (s : State) : exec (.undefinedOpcode t) s = execUndefinedOpcode t s := rfl
@[simp] theorem exec_stakeStart (ini : Ini) (t : Tid) (s : State) : exec (.stakeStart ini t) s = execStakeStart ini t s := rfl
@[simp] theorem exec_stakePause (ini : Ini) (t : Tid) (s : State) : exec (.stakePause ini t) s = execStakePause ini t s := rfl
@[simp] theorem exec_stakeResume (ini : Ini) (t : Tid) (s : State) : exec (.stakeResume ini t) s = execStakeResume ini t s := rfl
@[simp] theorem exec_stakeRelease (ini : Ini) (t : Tid) (s : State) : exec (.stakeRelease ini t) s = execStakeRelease ini t s := rfl
@[simp] theorem exec_stakeReleaseSkip (ini : Ini) (t : Tid) (s : State) : exec (.stakeReleaseSkip ini t) s = execStakeReleaseSkip ini t s := rfl
@[simp] theorem exec_stakeKill (ini : Ini) (t : Tid) (s : State) : exec (.stakeKill ini t) s = execStakeKill ini t s := rfl
@[simp] theorem exec_stakeIcacheInvalidate (ini : Ini) (k : Nat) (s : State) : exec (.stakeIcacheInvalidate ini k) s = execStakeIcacheInvalidate ini k s := rfl
@[simp] theorem exec_stakeRegAccess (ini : Ini) (t : Tid) (reg : Nat) (write : Option Nat) (s : State) : exec (.stakeRegAccess ini t reg write) s = execStakeRegAccess ini t reg write s := rfl
@[simp] theorem exec_schedWlPut (ini : Ini) (w : Nat) (v : Nat) (s : State) : exec (.schedWlPut ini w v) s = execSchedWlPut ini w v s := rfl
@[simp] theorem exec_schedPeakClr (ini : Ini) (w : Nat) (s : State) : exec (.schedPeakClr ini w) s = execSchedPeakClr ini w s := rfl
@[simp] theorem exec_sumCombine (w : Nat) (s : State) : exec (.sumCombine w) s = execSumCombine w s := rfl
@[simp] theorem exec_sumPost (w : Nat) (s : State) : exec (.sumPost w) s = execSumPost w s := rfl
@[simp] theorem exec_sumClear (w : Nat) (s : State) : exec (.sumClear w) s = execSumClear w s := rfl
@[simp] theorem exec_sumLoss (w : Nat) (s : State) : exec (.sumLoss w) s = execSumLoss w s := rfl
@[simp] theorem exec_summaryOpEnd (w : Nat) (s : State) : exec (.summaryOpEnd w) s = execSummaryOpEnd w s := rfl
@[simp] theorem exec_sumPostPop (ini : Ini) (w : Nat) (s : State) : exec (.sumPostPop ini w) s = execSumPostPop ini w s := rfl
@[simp] theorem exec_matrixOpStart (k : Nat) (s : State) : exec (.matrixOpStart k) s = execMatrixOpStart k s := rfl
@[simp] theorem exec_matrixOpEnd (k : Nat) (s : State) : exec (.matrixOpEnd k) s = execMatrixOpEnd k s := rfl
@[simp] theorem exec_matrixSuspend (k : Nat) (addr : Nat) (s : State) : exec (.matrixSuspend k addr) s = execMatrixSuspend k addr s := rfl
@[simp] theorem exec_chainOpStart (k : Nat) (s : State) : exec (.chainOpStart k) s = execChainOpStart k s := rfl
@[simp] theorem exec_chainOpEnd (k : Nat) (s : State) : exec (.chainOpEnd k) s = execChainOpEnd k s := rfl
@[simp] theorem exec_chainSuspend (k : Nat) (addr : Nat) (s : State) : exec (.chainSuspend k addr) s = execChainSuspend k addr s := rfl
@[simp] theorem exec_rowOpStart (w : Nat) (s : State) : exec (.rowOpStart w) s = execRowOpStart w s := rfl
@[simp] theorem exec_rowOpEnd (w : Nat) (s : State) : exec (.rowOpEnd w) s = execRowOpEnd w s := rfl
@[simp] theorem exec_rowSuspend (w : Nat) (addr : Nat) (s : State) : exec (.rowSuspend w addr) s = execRowSuspend w addr s := rfl
@[simp] theorem exec_rowSideClr (ini : Ini) (w : Nat) (s : State) : exec (.rowSideClr ini w) s = execRowSideClr ini w s := rfl
@[simp] theorem exec_sideClearDone (w : Nat) (s : State) : exec (.sideClearDone w) s = execSideClearDone w s := rfl
@[simp] theorem exec_leaveWindow (d : Nat) (s : State) : exec (.leaveWindow d) s = execLeaveWindow d s := rfl
@[simp] theorem exec_dmaStreamStart (c : Nat) (s : State) : exec (.dmaStreamStart c) s = execDmaStreamStart c s := rfl
@[simp] theorem exec_dmaStreamEnd (c : Nat) (s : State) : exec (.dmaStreamEnd c) s = execDmaStreamEnd c s := rfl
@[simp] theorem exec_dmaStreamFault (c : Nat) (ue : Option Nat) (s : State) : exec (.dmaStreamFault c ue) s = execDmaStreamFault c ue s := rfl
@[simp] theorem exec_translationWalkEnd (u : Nat) (va : Nat) (write : Bool) (v : Bool) (s : State) : exec (.translationWalkEnd u va write v) s = execTranslationWalkEnd u va write v s := rfl
@[simp] theorem exec_xltInvalRange (ini : Ini) (va : Nat) (pages : Nat) (s : State) : exec (.xltInvalRange ini va pages) s = execXltInvalRange ini va pages s := rfl
@[simp] theorem exec_xltInvalAll (ini : Ini) (s : State) : exec (.xltInvalAll ini) s = execXltInvalAll ini s := rfl
@[simp] theorem exec_invalComplete (s : State) : exec (.invalComplete) s = execInvalComplete s := rfl
@[simp] theorem exec_xltFaultResume (ini : Ini) (kind : Nat) (unit : Nat) (s : State) : exec (.xltFaultResume ini kind unit) s = execXltFaultResume ini kind unit s := rfl
@[simp] theorem exec_xltFaultDiscard (ini : Ini) (kind : Nat) (unit : Nat) (s : State) : exec (.xltFaultDiscard ini kind unit) s = execXltFaultDiscard ini kind unit s := rfl
@[simp] theorem exec_xltFqGet (ini : Ini) (v : Nat) (s : State) : exec (.xltFqGet ini v) s = execXltFqGet ini v s := rfl
@[simp] theorem exec_xltFqBase (ini : Ini) (v : Nat) (s : State) : exec (.xltFqBase ini v) s = execXltFqBase ini v s := rfl
@[simp] theorem exec_scrubLine (pa : Nat) (ce : Bool) (last : Bool) (s : State) : exec (.scrubLine pa ce last) s = execScrubLine pa ce last s := rfl
@[simp] theorem exec_hoopMemoryAccess (core : Nat) (pa : Nat) (write : Bool) (n : Nat) (data : Nat) (s : State) : exec (.hoopMemoryAccess core pa write n data) s = execHoopMemoryAccess core pa write n data s := rfl
@[simp] theorem exec_applyDescriptorTake (n : Nat) (s : State) : exec (.applyDescriptorTake n) s = execApplyDescriptorTake n s := rfl
@[simp] theorem exec_applyChunkStart (n : Nat) (s : State) : exec (.applyChunkStart n) s = execApplyChunkStart n s := rfl
@[simp] theorem exec_applyChunkCommit (n : Nat) (s : State) : exec (.applyChunkCommit n) s = execApplyChunkCommit n s := rfl
@[simp] theorem exec_applyChunkAbort (n a : Nat) (s : State) : exec (.applyChunkAbort n a) s = execApplyChunkAbort n a s := rfl
@[simp] theorem exec_applyRetry (n : Nat) (s : State) : exec (.applyRetry n) s = execApplyRetry n s := rfl
@[simp] theorem exec_bankResume (ini : Ini) (n : Nat) (s : State) : exec (.bankResume ini n) s = execBankResume ini n s := rfl
@[simp] theorem exec_bankAbandon (ini : Ini) (n : Nat) (s : State) : exec (.bankAbandon ini n) s = execBankAbandon ini n s := rfl
@[simp] theorem exec_bankSkip (ini : Ini) (n : Nat) (s : State) : exec (.bankSkip ini n) s = execBankSkip ini n s := rfl
@[simp] theorem exec_bankPause (ini : Ini) (n : Nat) (on : Bool) (s : State) : exec (.bankPause ini n on) s = execBankPause ini n on s := rfl
@[simp] theorem exec_gateClr (ini : Ini) (n : Nat) (s : State) : exec (.gateClr ini n) s = execGateClr ini n s := rfl
@[simp] theorem exec_exportSend (n : Nat) (s : State) : exec (.exportSend n) s = execExportSend n s := rfl
@[simp] theorem exec_lossValue (s : State) : exec (.lossValue) s = execLossValue s := rfl
@[simp] theorem exec_lossRelease (ini : Ini) (s : State) : exec (.lossRelease ini) s = execLossRelease ini s := rfl
@[simp] theorem exec_lossStatsReset (ini : Ini) (s : State) : exec (.lossStatsReset ini) s = execLossStatsReset ini s := rfl
@[simp] theorem exec_digestReady (shard : Nat) (s : State) : exec (.digestReady shard) s = execDigestReady shard s := rfl
@[simp] theorem exec_digestReceive (src shard step d : Nat) (s : State) : exec (.digestReceive src shard step d) s = execDigestReceive src shard step d s := rfl
@[simp] theorem exec_digestWaitExpire (shard step : Nat) (s : State) : exec (.digestWaitExpire shard step) s = execDigestWaitExpire shard step s := rfl
@[simp] theorem exec_repairServe (src shard part chunk step : Nat) (served : Bool) (s : State) : exec (.repairServe src shard part chunk step served) s = execRepairServe src shard part chunk step served s := rfl
@[simp] theorem exec_repairChunkReceive (c : RepairChunk) (s : State) : exec (.repairChunkReceive c) s = execRepairChunkReceive c s := rfl
@[simp] theorem exec_gatherReq (q : GatherQ) (sent back : Bool) (step : Nat) (s : State) : exec (.gatherReq q sent back step) s = execGatherReq q sent back step s := rfl
@[simp] theorem exec_gatherServe (data : List Byte) (s : State) : exec (.gatherServe data) s = execGatherServe data s := rfl
@[simp] theorem exec_gatherPiece (p group layer rank version : Nat) (data : List Byte) (s : State) : exec (.gatherPiece p group layer rank version data) s = execGatherPiece p group layer rank version data s := rfl
@[simp] theorem exec_handoverForward (p : Nat) (h : Handover) (sent : Bool) (group : Nat) (s : State) : exec (.handoverForward p h sent group) s = execHandoverForward p h sent group s := rfl
@[simp] theorem exec_handoverBackward (p : Nat) (h : Handover) (sent : Bool) (group : Nat) (s : State) : exec (.handoverBackward p h sent group) s = execHandoverBackward p h sent group s := rfl
@[simp] theorem exec_countRecord (p : Nat) (x : ExpertHdr) (n size : Nat) (sent : Bool) (s : State) : exec (.countRecord p x n size sent) s = execCountRecord p x n size sent s := rfl
@[simp] theorem exec_expertTokens (p : Nat) (x : ExpertHdr) (data : List Byte) (sent : Bool) (s : State) : exec (.expertTokens p x data sent) s = execExpertTokens p x data sent s := rfl
@[simp] theorem exec_flitReceive (p : Nat) (f : FlitIn) (s : State) : exec (.flitReceive p f) s = execFlitReceive p f s := rfl
@[simp] theorem exec_nak (p bit seq : Nat) (s : State) : exec (.nak p bit seq) s = execNak p bit seq s := rfl
@[simp] theorem exec_replayTimeout (p : Nat) (s : State) : exec (.replayTimeout p) s = execReplayTimeout p s := rfl
@[simp] theorem exec_creditReturn (p : Nat) (l : List (Nat × Nat)) (slots : Nat) (s : State) : exec (.creditReturn p l slots) s = execCreditReturn p l slots s := rfl
@[simp] theorem exec_linkTraining (ini : Ini) (p : Nat) (on : Bool) (s : State) : exec (.linkTraining ini p on) s = execLinkTraining ini p on s := rfl
@[simp] theorem exec_trainingStepDone (p : Nat) (r : TrainResult) (s : State) : exec (.trainingStepDone p r) s = execTrainingStepDone p r s := rfl
@[simp] theorem exec_trainingStepTimeout (p : Nat) (s : State) : exec (.trainingStepTimeout p) s = execTrainingStepTimeout p s := rfl
@[simp] theorem exec_trainingRetry (p : Nat) (s : State) : exec (.trainingRetry p) s = execTrainingRetry p s := rfl
@[simp] theorem exec_capabilityRecord (p : Nat) (r : CapRecord) (s : State) : exec (.capabilityRecord p r) s = execCapabilityRecord p r s := rfl
@[simp] theorem exec_cableOvercurrent (p ma : Nat) (s : State) : exec (.cableOvercurrent p ma) s = execCableOvercurrent p ma s := rfl
@[simp] theorem exec_loadSwitchReclose (p : Nat) (s : State) : exec (.loadSwitchReclose p) s = execLoadSwitchReclose p s := rfl
@[simp] theorem exec_nlnkLoadRetry (ini : Ini) (p : Nat) (s : State) : exec (.nlnkLoadRetry ini p) s = execNlnkLoadRetry ini p s := rfl
@[simp] theorem exec_nlnkForce4 (ini : Ini) (p : Nat) (on : Bool) (s : State) : exec (.nlnkForce4 ini p on) s = execNlnkForce4 ini p on s := rfl
@[simp] theorem exec_laneFail (p n : Nat) (s : State) : exec (.laneFail p n) s = execLaneFail p n s := rfl
@[simp] theorem exec_width (p w bad : Nat) (s : State) : exec (.width p w bad) s = execWidth p w bad s := rfl
@[simp] theorem exec_laneRetrainAttempt (p good : Nat) (s : State) : exec (.laneRetrainAttempt p good) s = execLaneRetrainAttempt p good s := rfl
@[simp] theorem exec_laneRestore (p : Nat) (s : State) : exec (.laneRestore p) s = execLaneRestore p s := rfl
@[simp] theorem exec_rate (p k : Nat) (s : State) : exec (.rate p k) s = execRate p k s := rfl
@[simp] theorem exec_backpressurePeriod (p : Nat) (withheld low : Bool) (s : State) : exec (.backpressurePeriod p withheld low) s = execBackpressurePeriod p withheld low s := rfl
@[simp] theorem exec_sidebandRecord (p : Nat) (r : List Byte) (s : State) : exec (.sidebandRecord p r) s = execSidebandRecord p r s := rfl
@[simp] theorem exec_postTake (s : State) : exec (.postTake) s = execPostTake s := rfl
@[simp] theorem exec_openMsg (p : Nat) (k : BKey) (s : State) : exec (.openMsg p k) s = execOpenMsg p k s := rfl
@[simp] theorem exec_grant (p : Nat) (k : BKey) (s : State) : exec (.grant p k) s = execGrant p k s := rfl
@[simp] theorem exec_bucketData (p : Nat) (m : BucketIn) (s : State) : exec (.bucketData p m) s = execBucketData p m s := rfl
@[simp] theorem exec_bucketDeadlineExpire (k : BKey) (s : State) : exec (.bucketDeadlineExpire k) s = execBucketDeadlineExpire k s := rfl
@[simp] theorem exec_abortMsg (p step attempt cls origin group bucket : Nat) (s : State) : exec (.abortMsg p step attempt cls origin group bucket) s = execAbortMsg p step attempt cls origin group bucket s := rfl
@[simp] theorem exec_nredAbortGo (ini : Ini) (p : Nat) (s : State) : exec (.nredAbortGo ini p) s = execNredAbortGo ini p s := rfl
@[simp] theorem exec_nredSlotsGrant (ini : Ini) (p v : Nat) (s : State) : exec (.nredSlotsGrant ini p v) s = execNredSlotsGrant ini p v s := rfl
@[simp] theorem exec_joinAck (p channel group : Nat) (s : State) : exec (.joinAck p channel group) s = execJoinAck p channel group s := rfl
@[simp] theorem exec_reject (p channel group : Nat) (s : State) : exec (.reject p channel group) s = execReject p channel group s := rfl
@[simp] theorem exec_switchResult (p : Nat) (r : SwRec) (s : State) : exec (.switchResult p r) s = execSwitchResult p r s := rfl
@[simp] theorem exec_codedBlockRerequest (p : Nat) (k : BKey) (first block : Nat) (s : State) : exec (.codedBlockRerequest p k first block) s = execCodedBlockRerequest p k first block s := rfl
@[simp] theorem exec_codecBlockEncode (c : Nat) (s : State) : exec (.codecBlockEncode c) s = execCodecBlockEncode c s := rfl
@[simp] theorem exec_codecBlockDecode (c : Nat) (s : State) : exec (.codecBlockDecode c) s = execCodecBlockDecode c s := rfl
@[simp] theorem exec_fcodEncode (f : Nat) (s : State) : exec (.fcodEncode f) s = execFcodEncode f s := rfl
@[simp] theorem exec_fcodDecode (f : Nat) (s : State) : exec (.fcodDecode f) s = execFcodDecode f s := rfl
@[simp] theorem exec_fcodJobEnd (f : Nat) (s : State) : exec (.fcodJobEnd f) s = execFcodJobEnd f s := rfl
@[simp] theorem exec_heartbeatTimer (now : Nat) (answers : List FarAnswer) (s : State) : exec (.heartbeatTimer now answers) s = execHeartbeatTimer now answers s := rfl
@[simp] theorem exec_heartbeat (h : FarHdr) (seq time turn : Nat) (s : State) : exec (.heartbeat h seq time turn) s = execHeartbeat h seq time turn s := rfl
@[simp] theorem exec_echo (h : FarHdr) (sample : Nat) (s : State) : exec (.echo h sample) s = execEcho h sample s := rfl
@[simp] theorem exec_ack (h : FarHdr) (below : Nat) (ranges : List (Nat × Nat)) (window : Nat) (s : State) : exec (.ack h below ranges window) s = execAck h below ranges window s := rfl
@[simp] theorem exec_dataRec (h : FarHdr) (plain : List Byte) (s : State) : exec (.dataRec h plain) s = execDataRec h plain s := rfl
@[simp] theorem exec_ackTimer (peer : Nat) (s : State) : exec (.ackTimer peer) s = execAckTimer peer s := rfl
@[simp] theorem exec_resendTimeout (peer rec : Nat) (s : State) : exec (.resendTimeout peer rec) s = execResendTimeout peer rec s := rfl
@[simp] theorem exec_routeLostTimeout (peer route : Nat) (s : State) : exec (.routeLostTimeout peer route) s = execRouteLostTimeout peer route s := rfl
@[simp] theorem exec_routeDown (h : FarHdr) (route : Nat) (s : State) : exec (.routeDown h route) s = execRouteDown h route s := rfl
@[simp] theorem exec_keyRec (h : FarHdr) (e : Nat) (s : State) : exec (.keyRec h e) s = execKeyRec h e s := rfl
@[simp] theorem exec_neighborDiscovery (f : Nat) (m : NdMsg) (s : State) : exec (.neighborDiscovery f m) s = execNeighborDiscovery f m s := rfl
@[simp] theorem exec_farFrameDrop (f : Nat) (why : FarDrop) (s : State) : exec (.farFrameDrop f why) s = execFarFrameDrop f why s := rfl
@[simp] theorem exec_fxpCtrlEn (ini : Ini) (f : Nat) (on : Bool) (answers : List FarAnswer) (s : State) : exec (.fxpCtrlEn ini f on answers) s = execFxpCtrlEn ini f on answers s := rfl
@[simp] theorem exec_sendDescriptorTake (s : State) : exec (.sendDescriptorTake) s = execSendDescriptorTake s := rfl
@[simp] theorem exec_fxpRxFree (ini : Ini) (f : Nat) (v : Nat) (s : State) : exec (.fxpRxFree ini f v) s = execFxpRxFree ini f v s := rfl
@[simp] theorem exec_manifestCloseTimeout (s : State) : exec (.manifestCloseTimeout) s = execManifestCloseTimeout s := rfl
@[simp] theorem exec_manifestSigned (s : State) : exec (.manifestSigned) s = execManifestSigned s := rfl
@[simp] theorem exec_manifest (mid : Nat) (signer : Option Nat) (s : State) : exec (.manifest mid signer) s = execManifest mid signer s := rfl
@[simp] theorem exec_fetchWaitExpire (mid : Nat) (s : State) : exec (.fetchWaitExpire mid) s = execFetchWaitExpire mid s := rfl
@[simp] theorem exec_fxpCtrlJoin (ini : Ini) (f : Nat) (s : State) : exec (.fxpCtrlJoin ini f) s = execFxpCtrlJoin ini f s := rfl
@[simp] theorem exec_fxpRound (ini : Ini) (f : Nat) (v : Nat) (s : State) : exec (.fxpRound ini f v) s = execFxpRound ini f v s := rfl
@[simp] theorem exec_supplyWarn (s : State) : exec (.supplyWarn) s = execSupplyWarn s := rfl
@[simp] theorem exec_supplyRecover (s : State) : exec (.supplyRecover) s = execSupplyRecover s := rfl
@[simp] theorem exec_warningRelease (s : State) : exec (.warningRelease) s = execWarningRelease s := rfl
@[simp] theorem exec_bubbleRamp (s : State) : exec (.bubbleRamp) s = execBubbleRamp s := rfl
@[simp] theorem exec_brownOut (s : State) : exec (.brownOut) s = execBrownOut s := rfl
@[simp] theorem exec_overVoltage (s : State) : exec (.overVoltage) s = execOverVoltage s := rfl
@[simp] theorem exec_pwrAlert (s : State) : exec (.pwrAlert) s = execPwrAlert s := rfl
@[simp] theorem exec_alertRelease (s : State) : exec (.alertRelease) s = execAlertRelease s := rfl
@[simp] theorem exec_fastLoop (mw : Nat) (s : State) : exec (.fastLoop mw) s = execFastLoop mw s := rfl
@[simp] theorem exec_estimateCompare (e : Nat) (m : Nat) (s : State) : exec (.estimateCompare e m) s = execEstimateCompare e m s := rfl
@[simp] theorem exec_telCap (ini : Ini) (v : Nat) (s : State) : exec (.telCap ini v) s = execTelCap ini v s := rfl
@[simp] theorem exec_telGroup (ini : Ini) (v : Nat) (s : State) : exec (.telGroup ini v) s = execTelGroup ini v s := rfl
@[simp] theorem exec_pwcPhaseTab (ini : Ini) (k : Nat) (v : Nat) (s : State) : exec (.pwcPhaseTab ini k v) s = execPwcPhaseTab ini k v s := rfl
@[simp] theorem exec_sensorReading (k : Nat) (t : Int) (full : Bool) (s : State) : exec (.sensorReading k t full) s = execSensorReading k t full s := rfl
@[simp] theorem exec_thermalCountStep (d : Nat) (s : State) : exec (.thermalCountStep d) s = execThermalCountStep d s := rfl
@[simp] theorem exec_sensorStop (k : Nat) (s : State) : exec (.sensorStop k) s = execSensorStop k s := rfl
@[simp] theorem exec_tripRelease (s : State) : exec (.tripRelease) s = execTripRelease s := rfl
@[simp] theorem exec_coolantLeak (s : State) : exec (.coolantLeak) s = execCoolantLeak s := rfl
@[simp] theorem exec_powerOn (s : State) : exec (.powerOn) s = execPowerOn s := rfl
@[simp] theorem exec_rstN (s : State) : exec (.rstN) s = execRstN s := rfl
@[simp] theorem exec_refclkLoss (s : State) : exec (.refclkLoss) s = execRefclkLoss s := rfl
@[simp] theorem exec_powerGood (attempts : List Bool) (countersOk : Bool) (s : State) : exec (.powerGood attempts countersOk) s = execPowerGood attempts countersOk s := rfl
@[simp] theorem exec_baseStageEnd (s : State) : exec (.baseStageEnd) s = execBaseStageEnd s := rfl
@[simp] theorem exec_baseStageTimeout (s : State) : exec (.baseStageTimeout) s = execBaseStageTimeout s := rfl
@[simp] theorem exec_bootDecision (s : State) : exec (.bootDecision) s = execBootDecision s := rfl
@[simp] theorem exec_bootStepEnd (row unit : Nat) (ok : Bool) (us : Nat) (s : State) : exec (.bootStepEnd row unit ok us) s = execBootStepEnd row unit ok us s := rfl
@[simp] theorem exec_bootBudget (ini : Ini) (v : Nat) (s : State) : exec (.bootBudget ini v) s = execBootBudget ini v s := rfl
@[simp] theorem exec_warmN (s : State) : exec (.warmN) s = execWarmN s := rfl
@[simp] theorem exec_bootReset (ini : Ini) (s : State) : exec (.bootReset ini) s = execBootReset ini s := rfl
@[simp] theorem exec_warmStart (s : State) : exec (.warmStart) s = execWarmStart s := rfl
@[simp] theorem exec_bootShutdown (ini : Ini) (s : State) : exec (.bootShutdown ini) s = execBootShutdown ini s := rfl
@[simp] theorem exec_bistTest (ini : Ini) (kind inst : Nat) (s : State) : exec (.bistTest ini kind inst) s = execBistTest ini kind inst s := rfl
@[simp] theorem exec_bistRetire (ini : Ini) (kind inst : Nat) (s : State) : exec (.bistRetire ini kind inst) s = execBistRetire ini kind inst s := rfl
@[simp] theorem exec_bistComplete (kind inst : Nat) (passed inRange : Bool) (s : State) : exec (.bistComplete kind inst passed inRange) s = execBistComplete kind inst passed inRange s := rfl
@[simp] theorem exec_waleTest (ini : Ini) (w : Nat) (s : State) : exec (.waleTest ini w) s = execWaleTest ini w s := rfl
@[simp] theorem exec_waleRetire (ini : Ini) (w : Nat) (s : State) : exec (.waleRetire ini w) s = execWaleRetire ini w s := rfl
@[simp] theorem exec_portFwActivate (kind : Nat) (ok : Bool) (s : State) : exec (.portFwActivate kind ok) s = execPortFwActivate kind ok s := rfl
@[simp] theorem exec_hoopMigrate (ini : Ini) (s : State) : exec (.hoopMigrate ini) s = execHoopMigrate ini s := rfl
@[simp] theorem exec_hoopGParked (ini : Ini) (g v : Nat) (s : State) : exec (.hoopGParked ini g v) s = execHoopGParked ini g v s := rfl
@[simp] theorem exec_hoopGClaim (ini : Ini) (g v : Nat) (s : State) : exec (.hoopGClaim ini g v) s = execHoopGClaim ini g v s := rfl
@[simp] theorem exec_hoopCoreGroup (ini : Ini) (k v : Nat) (s : State) : exec (.hoopCoreGroup ini k v) s = execHoopCoreGroup ini k v s := rfl
@[simp] theorem exec_hoopDmaDoorbell (ini : Ini) (g v : Nat) (s : State) : exec (.hoopDmaDoorbell ini g v) s = execHoopDmaDoorbell ini g v s := rfl
@[simp] theorem exec_hoopGEvtGet (ini : Ini) (g v : Nat) (s : State) : exec (.hoopGEvtGet ini g v) s = execHoopGEvtGet ini g v s := rfl
@[simp] theorem exec_d2dLaneRepair (d q : Nat) (s : State) : exec (.d2dLaneRepair d q) s = execD2dLaneRepair d q s := rfl
@[simp] theorem exec_d2dLinkFail (d q : Nat) (s : State) : exec (.d2dLinkFail d q) s = execD2dLinkFail d q s := rfl
@[simp] theorem exec_diePllUnlock (d pll : Nat) (s : State) : exec (.diePllUnlock d pll) s = execDiePllUnlock d pll s := rfl
@[simp] theorem exec_raklineLight (s : State) : exec (.raklineLight) s = execRaklineLight s := rfl
@[simp] theorem exec_raklineLinkLoss (s : State) : exec (.raklineLinkLoss) s = execRaklineLinkLoss s := rfl
@[simp] theorem exec_raklineFrame (h : List Byte) (crcOk tagOk : Bool) (m : RakLinkMsg) (s : State) : exec (.raklineFrame h crcOk tagOk m) s = execRaklineFrame h crcOk tagOk m s := rfl
@[simp] theorem exec_raklineAckTimer (s : State) : exec (.raklineAckTimer) s = execRaklineAckTimer s := rfl
@[simp] theorem exec_raklineNak (seq : Nat) (s : State) : exec (.raklineNak seq) s = execRaklineNak seq s := rfl
@[simp] theorem exec_raklineReplayTimeout (s : State) : exec (.raklineReplayTimeout) s = execRaklineReplayTimeout s := rfl
@[simp] theorem exec_getNonce (s : State) : exec (.getNonce) s = execGetNonce s := rfl
@[simp] theorem exec_sessionInit (key nonce keyHash : Nat) (sigOk : Bool) (s : State) : exec (.sessionInit key nonce keyHash sigOk) s = execSessionInit key nonce keyHash sigOk s := rfl
@[simp] theorem exec_getQuote (viaMgmt : Bool) (nonce : Nat) (s : State) : exec (.getQuote viaMgmt nonce) s = execGetQuote viaMgmt nonce s := rfl
@[simp] theorem exec_getCerts (viaMgmt : Bool) (s : State) : exec (.getCerts viaMgmt) s = execGetCerts viaMgmt s := rfl
@[simp] theorem exec_regRead (m : List Byte) (s : State) : exec (.regRead m) s = execRegRead m s := rfl
@[simp] theorem exec_regWrite (m : List Byte) (s : State) : exec (.regWrite m) s = execRegWrite m s := rfl
@[simp] theorem exec_regWarmReset (m : List Byte) (s : State) : exec (.regWarmReset m) s = execRegWarmReset m s := rfl
@[simp] theorem exec_regShutdown (m : List Byte) (s : State) : exec (.regShutdown m) s = execRegShutdown m s := rfl
@[simp] theorem exec_bulkWrite (m : List Byte) (s : State) : exec (.bulkWrite m) s = execBulkWrite m s := rfl
@[simp] theorem exec_bulkRead (m : List Byte) (s : State) : exec (.bulkRead m) s = execBulkRead m s := rfl
@[simp] theorem exec_bulkData (m : List Byte) (s : State) : exec (.bulkData m) s = execBulkData m s := rfl
@[simp] theorem exec_bulkTransferEnd (k : Nat) (s : State) : exec (.bulkTransferEnd k) s = execBulkTransferEnd k s := rfl
@[simp] theorem exec_console (toNode : Bool) (data : List Byte) (s : State) : exec (.console toNode data) s = execConsole toNode data s := rfl
@[simp] theorem exec_i3cEntdaa (addr : Nat) (s : State) : exec (.i3cEntdaa addr) s = execI3cEntdaa addr s := rfl
@[simp] theorem exec_setEndpointId (eid : Nat) (s : State) : exec (.setEndpointId eid) s = execSetEndpointId eid s := rfl
@[simp] theorem exec_getEndpointId (s : State) : exec (.getEndpointId) s = execGetEndpointId s := rfl
@[simp] theorem exec_getEndpointUuid (s : State) : exec (.getEndpointUuid) s = execGetEndpointUuid s := rfl
@[simp] theorem exec_getMctpVersionSupport (type : Nat) (s : State) : exec (.getMctpVersionSupport type) s = execGetMctpVersionSupport type s := rfl
@[simp] theorem exec_getMessageTypeSupport (s : State) : exec (.getMessageTypeSupport) s = execGetMessageTypeSupport s := rfl
@[simp] theorem exec_getVendorDefinedMessageSupport (k : Nat) (s : State) : exec (.getVendorDefinedMessageSupport k) s = execGetVendorDefinedMessageSupport k s := rfl
@[simp] theorem exec_getTid (s : State) : exec (.getTid) s = execGetTid s := rfl
@[simp] theorem exec_setTid (tid : Nat) (s : State) : exec (.setTid tid) s = execSetTid tid s := rfl
@[simp] theorem exec_getPldmVersion (type : Nat) (s : State) : exec (.getPldmVersion type) s = execGetPldmVersion type s := rfl
@[simp] theorem exec_getPldmTypes (s : State) : exec (.getPldmTypes) s = execGetPldmTypes s := rfl
@[simp] theorem exec_getPldmCommands (type : Nat) (s : State) : exec (.getPldmCommands type) s = execGetPldmCommands type s := rfl
@[simp] theorem exec_getPdrRepositoryInfo (s : State) : exec (.getPdrRepositoryInfo) s = execGetPdrRepositoryInfo s := rfl
@[simp] theorem exec_getPdr (id : Nat) (s : State) : exec (.getPdr id) s = execGetPdr id s := rfl
@[simp] theorem exec_getSensorReading (id : Nat) (s : State) : exec (.getSensorReading id) s = execGetSensorReading id s := rfl
@[simp] theorem exec_getStateSensorReadings (id : Nat) (s : State) : exec (.getStateSensorReadings id) s = execGetStateSensorReadings id s := rfl
@[simp] theorem exec_setNumericEffecterValue (id v : Nat) (s : State) : exec (.setNumericEffecterValue id v) s = execSetNumericEffecterValue id v s := rfl
@[simp] theorem exec_getNumericEffecterValue (id : Nat) (s : State) : exec (.getNumericEffecterValue id) s = execGetNumericEffecterValue id s := rfl
@[simp] theorem exec_setStateEffecterStates (id v : Nat) (s : State) : exec (.setStateEffecterStates id v) s = execSetStateEffecterStates id v s := rfl
@[simp] theorem exec_getStateEffecterStates (id : Nat) (s : State) : exec (.getStateEffecterStates id) s = execGetStateEffecterStates id s := rfl
@[simp] theorem exec_setEventReceiver (eid : Nat) (s : State) : exec (.setEventReceiver eid) s = execSetEventReceiver eid s := rfl
@[simp] theorem exec_queryDeviceIdentifiers (s : State) : exec (.queryDeviceIdentifiers) s = execQueryDeviceIdentifiers s := rfl
@[simp] theorem exec_getFirmwareParameters (s : State) : exec (.getFirmwareParameters) s = execGetFirmwareParameters s := rfl
@[simp] theorem exec_requestUpdate (s : State) : exec (.requestUpdate) s = execRequestUpdate s := rfl
@[simp] theorem exec_passComponentTable (kinds : List Nat) (s : State) : exec (.passComponentTable kinds) s = execPassComponentTable kinds s := rfl
@[simp] theorem exec_updateComponent (kind : Nat) (s : State) : exec (.updateComponent kind) s = execUpdateComponent kind s := rfl
@[simp] theorem exec_verifyComplete (im : ImageIn) (s : State) : exec (.verifyComplete im) s = execVerifyComplete im s := rfl
@[simp] theorem exec_activateFirmware (s : State) : exec (.activateFirmware) s = execActivateFirmware s := rfl
@[simp] theorem exec_getStatus (s : State) : exec (.getStatus) s = execGetStatus s := rfl
@[simp] theorem exec_cancelUpdateComponent (s : State) : exec (.cancelUpdateComponent) s = execCancelUpdateComponent s := rfl
@[simp] theorem exec_cancelUpdate (s : State) : exec (.cancelUpdate) s = execCancelUpdate s := rfl
@[simp] theorem exec_fmacLinkDown (f lanes : Nat) (s : State) : exec (.fmacLinkDown f lanes) s = execFmacLinkDown f lanes s := rfl
@[simp] theorem exec_fmacLinkUp (f : Nat) (s : State) : exec (.fmacLinkUp f) s = execFmacLinkUp f s := rfl
@[simp] theorem exec_cblPresentN (p : Nat) (present : Bool) (s : State) : exec (.cblPresentN p present) s = execCblPresentN p present s := rfl
@[simp] theorem exec_creditReturnTimer (p : Nat) (s : State) : exec (.creditReturnTimer p) s = execCreditReturnTimer p s := rfl
@[simp] theorem exec_groupDeadlineExpire (group step attempt : Nat) (s : State) : exec (.groupDeadlineExpire group step attempt) s = execGroupDeadlineExpire group step attempt s := rfl
@[simp] theorem exec_refclkReturn (s : State) : exec (.refclkReturn) s = execRefclkReturn s := rfl
@[simp] theorem exec_inletSensorReading (t : Int) (s : State) : exec (.inletSensorReading t) s = execInletSensorReading t s := rfl
@[simp] theorem exec_coolantLeakDeassert (s : State) : exec (.coolantLeakDeassert) s = execCoolantLeakDeassert s := rfl
@[simp] theorem exec_platformEventAck (sensor : Nat) (s : State) : exec (.platformEventAck sensor) s = execPlatformEventAck sensor s := rfl

/-- Every meaning checks the operands, and is an effect on the block alone. -/
theorem exec_cmd (i : Instr) (s : State) : ∃ f, exec i s = cmd i.wf s f := by
  cases i with
  | ownerClaim tok => apply Exists.intro; show execOwnerClaim tok s = cmd (Instr.wf (.ownerClaim tok)) s _; unfold execOwnerClaim; rfl
  | ownerRelease tok => apply Exists.intro; show execOwnerRelease tok s = cmd (Instr.wf (.ownerRelease tok)) s _; unfold execOwnerRelease; rfl
  | forceClear ini => apply Exists.intro; show execForceClear ini s = cmd (Instr.wf (.forceClear ini)) s _; unfold execForceClear; rfl
  | serviceToken viaMgmt tok => apply Exists.intro; show execServiceToken viaMgmt tok s = cmd (Instr.wf (.serviceToken viaMgmt tok)) s _; unfold execServiceToken; rfl
  | serviceConsent => apply Exists.intro; show execServiceConsent s = cmd (Instr.wf (.serviceConsent)) s _; unfold execServiceConsent; rfl
  | serviceHoldLapse consent => apply Exists.intro; show execServiceHoldLapse consent s = cmd (Instr.wf (.serviceHoldLapse consent)) s _; unfold execServiceHoldLapse; rfl
  | serviceExit => apply Exists.intro; show execServiceExit s = cmd (Instr.wf (.serviceExit)) s _; unfold execServiceExit; rfl
  | zeroiseQuiesceEnd => apply Exists.intro; show execZeroiseQuiesceEnd s = cmd (Instr.wf (.zeroiseQuiesceEnd)) s _; unfold execZeroiseQuiesceEnd; rfl
  | zeroiseMediaDone => apply Exists.intro; show execZeroiseMediaDone s = cmd (Instr.wf (.zeroiseMediaDone)) s _; unfold execZeroiseMediaDone; rfl
  | claimArm ini => apply Exists.intro; show execClaimArm ini s = cmd (Instr.wf (.claimArm ini)) s _; unfold execClaimArm; rfl
  | claimWindowExpire => apply Exists.intro; show execClaimWindowExpire s = cmd (Instr.wf (.claimWindowExpire)) s _; unfold execClaimWindowExpire; rfl
  | claimLeftTick => apply Exists.intro; show execClaimLeftTick s = cmd (Instr.wf (.claimLeftTick)) s _; unfold execClaimLeftTick; rfl
  | lidDomainRekey ini mask => apply Exists.intro; show execLidDomainRekey ini mask s = cmd (Instr.wf (.lidDomainRekey ini mask)) s _; unfold execLidDomainRekey; rfl
  | domainKeyInstalled d => apply Exists.intro; show execDomainKeyInstalled d s = cmd (Instr.wf (.domainKeyInstalled d)) s _; unfold execDomainKeyInstalled; rfl
  | firmwareApproval tok => apply Exists.intro; show execFirmwareApproval tok s = cmd (Instr.wf (.firmwareApproval tok)) s _; unfold execFirmwareApproval; rfl
  | imageReadyPoint kind => apply Exists.intro; show execImageReadyPoint kind s = cmd (Instr.wf (.imageReadyPoint kind)) s _; unfold execImageReadyPoint; rfl
  | debugOpen tok => apply Exists.intro; show execDebugOpen tok s = cmd (Instr.wf (.debugOpen tok)) s _; unfold execDebugOpen; rfl
  | lidDebugClose ini => apply Exists.intro; show execLidDebugClose ini s = cmd (Instr.wf (.lidDebugClose ini)) s _; unfold execLidDebugClose; rfl
  | nearRekeyDue p => apply Exists.intro; show execNearRekeyDue p s = cmd (Instr.wf (.nearRekeyDue p)) s _; unfold execNearRekeyDue; rfl
  | keyNext p e => apply Exists.intro; show execKeyNext p e s = cmd (Instr.wf (.keyNext p e)) s _; unfold execKeyNext; rfl
  | nearKeyInstalled p => apply Exists.intro; show execNearKeyInstalled p s = cmd (Instr.wf (.nearKeyInstalled p)) s _; unfold execNearKeyInstalled; rfl
  | keyReady p e => apply Exists.intro; show execKeyReady p e s = cmd (Instr.wf (.keyReady p e)) s _; unfold execKeyReady; rfl
  | keyRetire p e => apply Exists.intro; show execKeyRetire p e s = cmd (Instr.wf (.keyRetire p e)) s _; unfold execKeyRetire; rfl
  | farRekeyDue peer age => apply Exists.intro; show execFarRekeyDue peer age s = cmd (Instr.wf (.farRekeyDue peer age)) s _; unfold execFarRekeyDue; rfl
  | farPrevKeyExpire peer => apply Exists.intro; show execFarPrevKeyExpire peer s = cmd (Instr.wf (.farPrevKeyExpire peer)) s _; unfold execFarPrevKeyExpire; rfl
  | sanitisedWindowEnd sample => apply Exists.intro; show execSanitisedWindowEnd sample s = cmd (Instr.wf (.sanitisedWindowEnd sample)) s _; unfold execSanitisedWindowEnd; rfl
  | lidLogGet ini v => apply Exists.intro; show execLidLogGet ini v s = cmd (Instr.wf (.lidLogGet ini v)) s _; unfold execLidLogGet; rfl
  | lidLogBase ini v => apply Exists.intro; show execLidLogBase ini v s = cmd (Instr.wf (.lidLogBase ini v)) s _; unfold execLidLogBase; rfl
  | registerWrite ini off v => apply Exists.intro; show execRegisterWrite ini off v s = cmd (Instr.wf (.registerWrite ini off v)) s _; unfold execRegisterWrite; rfl
  | pairLoRead ini off => apply Exists.intro; show execPairLoRead ini off s = cmd (Instr.wf (.pairLoRead ini off)) s _; unfold execPairLoRead; rfl
  | pairLoWrite ini off v => apply Exists.intro; show execPairLoWrite ini off v s = cmd (Instr.wf (.pairLoWrite ini off v)) s _; unfold execPairLoWrite; rfl
  | pairHiWrite ini off v => apply Exists.intro; show execPairHiWrite ini off v s = cmd (Instr.wf (.pairHiWrite ini off v)) s _; unfold execPairHiWrite; rfl
  | pgCtrlEnable ini pg inst on => apply Exists.intro; show execPgCtrlEnable ini pg inst on s = cmd (Instr.wf (.pgCtrlEnable ini pg inst on)) s _; unfold execPgCtrlEnable; rfl
  | pgCtrlQuiesceReq ini pg inst on => apply Exists.intro; show execPgCtrlQuiesceReq ini pg inst on s = cmd (Instr.wf (.pgCtrlQuiesceReq ini pg inst on)) s _; unfold execPgCtrlQuiesceReq; rfl
  | pgCtrlIsolate ini pg inst on => apply Exists.intro; show execPgCtrlIsolate ini pg inst on s = cmd (Instr.wf (.pgCtrlIsolate ini pg inst on)) s _; unfold execPgCtrlIsolate; rfl
  | blockReset ini pg inst => apply Exists.intro; show execBlockReset ini pg inst s = cmd (Instr.wf (.blockReset ini pg inst)) s _; unfold execBlockReset; rfl
  | pgEventClear ini pg inst v => apply Exists.intro; show execPgEventClear ini pg inst v s = cmd (Instr.wf (.pgEventClear ini pg inst v)) s _; unfold execPgEventClear; rfl
  | pgLock ini pg inst => apply Exists.intro; show execPgLock ini pg inst s = cmd (Instr.wf (.pgLock ini pg inst)) s _; unfold execPgLock; rfl
  | pgOwnerWrite ini pg inst v => apply Exists.intro; show execPgOwnerWrite ini pg inst v s = cmd (Instr.wf (.pgOwnerWrite ini pg inst v)) s _; unfold execPgOwnerWrite; rfl
  | blockInitDone pg inst => apply Exists.intro; show execBlockInitDone pg inst s = cmd (Instr.wf (.blockInitDone pg inst)) s _; unfold execBlockInitDone; rfl
  | blockInitTimeout pg inst => apply Exists.intro; show execBlockInitTimeout pg inst s = cmd (Instr.wf (.blockInitTimeout pg inst)) s _; unfold execBlockInitTimeout; rfl
  | blockDrained pg inst => apply Exists.intro; show execBlockDrained pg inst s = cmd (Instr.wf (.blockDrained pg inst)) s _; unfold execBlockDrained; rfl
  | quiesceTimeout pg inst => apply Exists.intro; show execQuiesceTimeout pg inst s = cmd (Instr.wf (.quiesceTimeout pg inst)) s _; unfold execQuiesceTimeout; rfl
  | blockSelfCheckFail pg inst => apply Exists.intro; show execBlockSelfCheckFail pg inst s = cmd (Instr.wf (.blockSelfCheckFail pg inst)) s _; unfold execBlockSelfCheckFail; rfl
  | beatTick m => apply Exists.intro; show execBeatTick m s = cmd (Instr.wf (.beatTick m)) s _; unfold execBeatTick; rfl
  | workListTake w => apply Exists.intro; show execWorkListTake w s = cmd (Instr.wf (.workListTake w)) s _; unfold execWorkListTake; rfl
  | syncEdge x => apply Exists.intro; show execSyncEdge x s = cmd (Instr.wf (.syncEdge x)) s _; unfold execSyncEdge; rfl
  | syncEvaluate => apply Exists.intro; show execSyncEvaluate s = cmd (Instr.wf (.syncEvaluate)) s _; unfold execSyncEvaluate; rfl
  | beatPeriod ini v => apply Exists.intro; show execBeatPeriod ini v s = cmd (Instr.wf (.beatPeriod ini v)) s _; unfold execBeatPeriod; rfl
  | beatCtrlStrict ini on => apply Exists.intro; show execBeatCtrlStrict ini on s = cmd (Instr.wf (.beatCtrlStrict ini on)) s _; unfold execBeatCtrlStrict; rfl
  | beatCtrlSyncEn ini on => apply Exists.intro; show execBeatCtrlSyncEn ini on s = cmd (Instr.wf (.beatCtrlSyncEn ini on)) s _; unfold execBeatCtrlSyncEn; rfl
  | beatCtrlSyncOutEn ini on => apply Exists.intro; show execBeatCtrlSyncOutEn ini on s = cmd (Instr.wf (.beatCtrlSyncOutEn ini on)) s _; unfold execBeatCtrlSyncOutEn; rfl
  | cdcTimeout p inst stopped live => apply Exists.intro; show execCdcTimeout p inst stopped live s = cmd (Instr.wf (.cdcTimeout p inst stopped live)) s _; unfold execCdcTimeout; rfl
  | creditTimeout t => apply Exists.intro; show execCreditTimeout t s = cmd (Instr.wf (.creditTimeout t)) s _; unfold execCreditTimeout; rfl
  | nop t => apply Exists.intro; show execNop t s = cmd (Instr.wf (.nop t)) s _; unfold execNop; rfl
  | add t => apply Exists.intro; show execAdd t s = cmd (Instr.wf (.add t)) s _; unfold execAdd; rfl
  | sub t => apply Exists.intro; show execSub t s = cmd (Instr.wf (.sub t)) s _; unfold execSub; rfl
  | mul t => apply Exists.intro; show execMul t s = cmd (Instr.wf (.mul t)) s _; unfold execMul; rfl
  | mulhu t => apply Exists.intro; show execMulhu t s = cmd (Instr.wf (.mulhu t)) s _; unfold execMulhu; rfl
  | andOp t => apply Exists.intro; show execAndOp t s = cmd (Instr.wf (.andOp t)) s _; unfold execAndOp; rfl
  | orOp t => apply Exists.intro; show execOrOp t s = cmd (Instr.wf (.orOp t)) s _; unfold execOrOp; rfl
  | xor t => apply Exists.intro; show execXor t s = cmd (Instr.wf (.xor t)) s _; unfold execXor; rfl
  | sll t => apply Exists.intro; show execSll t s = cmd (Instr.wf (.sll t)) s _; unfold execSll; rfl
  | srl t => apply Exists.intro; show execSrl t s = cmd (Instr.wf (.srl t)) s _; unfold execSrl; rfl
  | sra t => apply Exists.intro; show execSra t s = cmd (Instr.wf (.sra t)) s _; unfold execSra; rfl
  | min t => apply Exists.intro; show execMin t s = cmd (Instr.wf (.min t)) s _; unfold execMin; rfl
  | max t => apply Exists.intro; show execMax t s = cmd (Instr.wf (.max t)) s _; unfold execMax; rfl
  | minu t => apply Exists.intro; show execMinu t s = cmd (Instr.wf (.minu t)) s _; unfold execMinu; rfl
  | maxu t => apply Exists.intro; show execMaxu t s = cmd (Instr.wf (.maxu t)) s _; unfold execMaxu; rfl
  | slt t => apply Exists.intro; show execSlt t s = cmd (Instr.wf (.slt t)) s _; unfold execSlt; rfl
  | sltu t => apply Exists.intro; show execSltu t s = cmd (Instr.wf (.sltu t)) s _; unfold execSltu; rfl
  | seq t => apply Exists.intro; show execSeq t s = cmd (Instr.wf (.seq t)) s _; unfold execSeq; rfl
  | li t => apply Exists.intro; show execLi t s = cmd (Instr.wf (.li t)) s _; unfold execLi; rfl
  | lih t => apply Exists.intro; show execLih t s = cmd (Instr.wf (.lih t)) s _; unfold execLih; rfl
  | sel t => apply Exists.intro; show execSel t s = cmd (Instr.wf (.sel t)) s _; unfold execSel; rfl
  | beq t => apply Exists.intro; show execBeq t s = cmd (Instr.wf (.beq t)) s _; unfold execBeq; rfl
  | bne t => apply Exists.intro; show execBne t s = cmd (Instr.wf (.bne t)) s _; unfold execBne; rfl
  | blt t => apply Exists.intro; show execBlt t s = cmd (Instr.wf (.blt t)) s _; unfold execBlt; rfl
  | bge t => apply Exists.intro; show execBge t s = cmd (Instr.wf (.bge t)) s _; unfold execBge; rfl
  | bltu t => apply Exists.intro; show execBltu t s = cmd (Instr.wf (.bltu t)) s _; unfold execBltu; rfl
  | bgeu t => apply Exists.intro; show execBgeu t s = cmd (Instr.wf (.bgeu t)) s _; unfold execBgeu; rfl
  | jal t => apply Exists.intro; show execJal t s = cmd (Instr.wf (.jal t)) s _; unfold execJal; rfl
  | jalr t => apply Exists.intro; show execJalr t s = cmd (Instr.wf (.jalr t)) s _; unfold execJalr; rfl
  | ld t => apply Exists.intro; show execLd t s = cmd (Instr.wf (.ld t)) s _; unfold execLd; rfl
  | st t => apply Exists.intro; show execSt t s = cmd (Instr.wf (.st t)) s _; unfold execSt; rfl
  | amo t => apply Exists.intro; show execAmo t s = cmd (Instr.wf (.amo t)) s _; unfold execAmo; rfl
  | issMat t => apply Exists.intro; show execIssMat t s = cmd (Instr.wf (.issMat t)) s _; unfold execIssMat; rfl
  | issVec t => apply Exists.intro; show execIssVec t s = cmd (Instr.wf (.issVec t)) s _; unfold execIssVec; rfl
  | issRow t => apply Exists.intro; show execIssRow t s = cmd (Instr.wf (.issRow t)) s _; unfold execIssRow; rfl
  | issDma t => apply Exists.intro; show execIssDma t s = cmd (Instr.wf (.issDma t)) s _; unfold execIssDma; rfl
  | issSum t => apply Exists.intro; show execIssSum t s = cmd (Instr.wf (.issSum t)) s _; unfold execIssSum; rfl
  | twait t => apply Exists.intro; show execTwait t s = cmd (Instr.wf (.twait t)) s _; unfold execTwait; rfl
  | fence t => apply Exists.intro; show execFence t s = cmd (Instr.wf (.fence t)) s _; unfold execFence; rfl
  | bar t => apply Exists.intro; show execBar t s = cmd (Instr.wf (.bar t)) s _; unfold execBar; rfl
  | bwait t => apply Exists.intro; show execBwait t s = cmd (Instr.wf (.bwait t)) s _; unfold execBwait; rfl
  | halt t => apply Exists.intro; show execHalt t s = cmd (Instr.wf (.halt t)) s _; unfold execHalt; rfl
  | sumrd t => apply Exists.intro; show execSumrd t s = cmd (Instr.wf (.sumrd t)) s _; unfold execSumrd; rfl
  | rdid t => apply Exists.intro; show execRdid t s = cmd (Instr.wf (.rdid t)) s _; unfold execRdid; rfl
  | phase t => apply Exists.intro; show execPhase t s = cmd (Instr.wf (.phase t)) s _; unfold execPhase; rfl
  | undefinedOpcode t => apply Exists.intro; show execUndefinedOpcode t s = cmd (Instr.wf (.undefinedOpcode t)) s _; unfold execUndefinedOpcode; rfl
  | stakeStart ini t => apply Exists.intro; show execStakeStart ini t s = cmd (Instr.wf (.stakeStart ini t)) s _; unfold execStakeStart; rfl
  | stakePause ini t => apply Exists.intro; show execStakePause ini t s = cmd (Instr.wf (.stakePause ini t)) s _; unfold execStakePause; rfl
  | stakeResume ini t => apply Exists.intro; show execStakeResume ini t s = cmd (Instr.wf (.stakeResume ini t)) s _; unfold execStakeResume; rfl
  | stakeRelease ini t => apply Exists.intro; show execStakeRelease ini t s = cmd (Instr.wf (.stakeRelease ini t)) s _; unfold execStakeRelease; rfl
  | stakeReleaseSkip ini t => apply Exists.intro; show execStakeReleaseSkip ini t s = cmd (Instr.wf (.stakeReleaseSkip ini t)) s _; unfold execStakeReleaseSkip; rfl
  | stakeKill ini t => apply Exists.intro; show execStakeKill ini t s = cmd (Instr.wf (.stakeKill ini t)) s _; unfold execStakeKill; rfl
  | stakeIcacheInvalidate ini k => apply Exists.intro; show execStakeIcacheInvalidate ini k s = cmd (Instr.wf (.stakeIcacheInvalidate ini k)) s _; unfold execStakeIcacheInvalidate; rfl
  | stakeRegAccess ini t reg write => apply Exists.intro; show execStakeRegAccess ini t reg write s = cmd (Instr.wf (.stakeRegAccess ini t reg write)) s _; unfold execStakeRegAccess; rfl
  | schedWlPut ini w v => apply Exists.intro; show execSchedWlPut ini w v s = cmd (Instr.wf (.schedWlPut ini w v)) s _; unfold execSchedWlPut; rfl
  | schedPeakClr ini w => apply Exists.intro; show execSchedPeakClr ini w s = cmd (Instr.wf (.schedPeakClr ini w)) s _; unfold execSchedPeakClr; rfl
  | sumCombine w => apply Exists.intro; show execSumCombine w s = cmd (Instr.wf (.sumCombine w)) s _; unfold execSumCombine; rfl
  | sumPost w => apply Exists.intro; show execSumPost w s = cmd (Instr.wf (.sumPost w)) s _; unfold execSumPost; rfl
  | sumClear w => apply Exists.intro; show execSumClear w s = cmd (Instr.wf (.sumClear w)) s _; unfold execSumClear; rfl
  | sumLoss w => apply Exists.intro; show execSumLoss w s = cmd (Instr.wf (.sumLoss w)) s _; unfold execSumLoss; rfl
  | summaryOpEnd w => apply Exists.intro; show execSummaryOpEnd w s = cmd (Instr.wf (.summaryOpEnd w)) s _; unfold execSummaryOpEnd; rfl
  | sumPostPop ini w => apply Exists.intro; show execSumPostPop ini w s = cmd (Instr.wf (.sumPostPop ini w)) s _; unfold execSumPostPop; rfl
  | matrixOpStart k => apply Exists.intro; show execMatrixOpStart k s = cmd (Instr.wf (.matrixOpStart k)) s _; unfold execMatrixOpStart; rfl
  | matrixOpEnd k => apply Exists.intro; show execMatrixOpEnd k s = cmd (Instr.wf (.matrixOpEnd k)) s _; unfold execMatrixOpEnd; rfl
  | matrixSuspend k addr => apply Exists.intro; show execMatrixSuspend k addr s = cmd (Instr.wf (.matrixSuspend k addr)) s _; unfold execMatrixSuspend; rfl
  | chainOpStart k => apply Exists.intro; show execChainOpStart k s = cmd (Instr.wf (.chainOpStart k)) s _; unfold execChainOpStart; rfl
  | chainOpEnd k => apply Exists.intro; show execChainOpEnd k s = cmd (Instr.wf (.chainOpEnd k)) s _; unfold execChainOpEnd; rfl
  | chainSuspend k addr => apply Exists.intro; show execChainSuspend k addr s = cmd (Instr.wf (.chainSuspend k addr)) s _; unfold execChainSuspend; rfl
  | rowOpStart w => apply Exists.intro; show execRowOpStart w s = cmd (Instr.wf (.rowOpStart w)) s _; unfold execRowOpStart; rfl
  | rowOpEnd w => apply Exists.intro; show execRowOpEnd w s = cmd (Instr.wf (.rowOpEnd w)) s _; unfold execRowOpEnd; rfl
  | rowSuspend w addr => apply Exists.intro; show execRowSuspend w addr s = cmd (Instr.wf (.rowSuspend w addr)) s _; unfold execRowSuspend; rfl
  | rowSideClr ini w => apply Exists.intro; show execRowSideClr ini w s = cmd (Instr.wf (.rowSideClr ini w)) s _; unfold execRowSideClr; rfl
  | sideClearDone w => apply Exists.intro; show execSideClearDone w s = cmd (Instr.wf (.sideClearDone w)) s _; unfold execSideClearDone; rfl
  | leaveWindow d => apply Exists.intro; show execLeaveWindow d s = cmd (Instr.wf (.leaveWindow d)) s _; unfold execLeaveWindow; rfl
  | dmaStreamStart c => apply Exists.intro; show execDmaStreamStart c s = cmd (Instr.wf (.dmaStreamStart c)) s _; unfold execDmaStreamStart; rfl
  | dmaStreamEnd c => apply Exists.intro; show execDmaStreamEnd c s = cmd (Instr.wf (.dmaStreamEnd c)) s _; unfold execDmaStreamEnd; rfl
  | dmaStreamFault c ue => apply Exists.intro; show execDmaStreamFault c ue s = cmd (Instr.wf (.dmaStreamFault c ue)) s _; unfold execDmaStreamFault; rfl
  | translationWalkEnd u va write v => apply Exists.intro; show execTranslationWalkEnd u va write v s = cmd (Instr.wf (.translationWalkEnd u va write v)) s _; unfold execTranslationWalkEnd; rfl
  | xltInvalRange ini va pages => apply Exists.intro; show execXltInvalRange ini va pages s = cmd (Instr.wf (.xltInvalRange ini va pages)) s _; unfold execXltInvalRange; rfl
  | xltInvalAll ini => apply Exists.intro; show execXltInvalAll ini s = cmd (Instr.wf (.xltInvalAll ini)) s _; unfold execXltInvalAll; rfl
  | invalComplete => apply Exists.intro; show execInvalComplete s = cmd (Instr.wf (.invalComplete)) s _; unfold execInvalComplete; rfl
  | xltFaultResume ini kind unit => apply Exists.intro; show execXltFaultResume ini kind unit s = cmd (Instr.wf (.xltFaultResume ini kind unit)) s _; unfold execXltFaultResume; rfl
  | xltFaultDiscard ini kind unit => apply Exists.intro; show execXltFaultDiscard ini kind unit s = cmd (Instr.wf (.xltFaultDiscard ini kind unit)) s _; unfold execXltFaultDiscard; rfl
  | xltFqGet ini v => apply Exists.intro; show execXltFqGet ini v s = cmd (Instr.wf (.xltFqGet ini v)) s _; unfold execXltFqGet; rfl
  | xltFqBase ini v => apply Exists.intro; show execXltFqBase ini v s = cmd (Instr.wf (.xltFqBase ini v)) s _; unfold execXltFqBase; rfl
  | scrubLine pa ce last => apply Exists.intro; show execScrubLine pa ce last s = cmd (Instr.wf (.scrubLine pa ce last)) s _; unfold execScrubLine; rfl
  | hoopMemoryAccess core pa write n data => apply Exists.intro; show execHoopMemoryAccess core pa write n data s = cmd (Instr.wf (.hoopMemoryAccess core pa write n data)) s _; unfold execHoopMemoryAccess; rfl
  | applyDescriptorTake n => apply Exists.intro; show execApplyDescriptorTake n s = cmd (Instr.wf (.applyDescriptorTake n)) s _; unfold execApplyDescriptorTake; rfl
  | applyChunkStart n => apply Exists.intro; show execApplyChunkStart n s = cmd (Instr.wf (.applyChunkStart n)) s _; unfold execApplyChunkStart; rfl
  | applyChunkCommit n => apply Exists.intro; show execApplyChunkCommit n s = cmd (Instr.wf (.applyChunkCommit n)) s _; unfold execApplyChunkCommit; rfl
  | applyChunkAbort n a => apply Exists.intro; show execApplyChunkAbort n a s = cmd (Instr.wf (.applyChunkAbort n a)) s _; unfold execApplyChunkAbort; rfl
  | applyRetry n => apply Exists.intro; show execApplyRetry n s = cmd (Instr.wf (.applyRetry n)) s _; unfold execApplyRetry; rfl
  | bankResume ini n => apply Exists.intro; show execBankResume ini n s = cmd (Instr.wf (.bankResume ini n)) s _; unfold execBankResume; rfl
  | bankAbandon ini n => apply Exists.intro; show execBankAbandon ini n s = cmd (Instr.wf (.bankAbandon ini n)) s _; unfold execBankAbandon; rfl
  | bankSkip ini n => apply Exists.intro; show execBankSkip ini n s = cmd (Instr.wf (.bankSkip ini n)) s _; unfold execBankSkip; rfl
  | bankPause ini n on => apply Exists.intro; show execBankPause ini n on s = cmd (Instr.wf (.bankPause ini n on)) s _; unfold execBankPause; rfl
  | gateClr ini n => apply Exists.intro; show execGateClr ini n s = cmd (Instr.wf (.gateClr ini n)) s _; unfold execGateClr; rfl
  | exportSend n => apply Exists.intro; show execExportSend n s = cmd (Instr.wf (.exportSend n)) s _; unfold execExportSend; rfl
  | lossValue => apply Exists.intro; show execLossValue s = cmd (Instr.wf (.lossValue)) s _; unfold execLossValue; rfl
  | lossRelease ini => apply Exists.intro; show execLossRelease ini s = cmd (Instr.wf (.lossRelease ini)) s _; unfold execLossRelease; rfl
  | lossStatsReset ini => apply Exists.intro; show execLossStatsReset ini s = cmd (Instr.wf (.lossStatsReset ini)) s _; unfold execLossStatsReset; rfl
  | digestReady shard => apply Exists.intro; show execDigestReady shard s = cmd (Instr.wf (.digestReady shard)) s _; unfold execDigestReady; rfl
  | digestReceive src shard step d => apply Exists.intro; show execDigestReceive src shard step d s = cmd (Instr.wf (.digestReceive src shard step d)) s _; unfold execDigestReceive; rfl
  | digestWaitExpire shard step => apply Exists.intro; show execDigestWaitExpire shard step s = cmd (Instr.wf (.digestWaitExpire shard step)) s _; unfold execDigestWaitExpire; rfl
  | repairServe src shard part chunk step served => apply Exists.intro; show execRepairServe src shard part chunk step served s = cmd (Instr.wf (.repairServe src shard part chunk step served)) s _; unfold execRepairServe; rfl
  | repairChunkReceive c => apply Exists.intro; show execRepairChunkReceive c s = cmd (Instr.wf (.repairChunkReceive c)) s _; unfold execRepairChunkReceive; rfl
  | gatherReq q sent back step => apply Exists.intro; show execGatherReq q sent back step s = cmd (Instr.wf (.gatherReq q sent back step)) s _; unfold execGatherReq; rfl
  | gatherServe data => apply Exists.intro; show execGatherServe data s = cmd (Instr.wf (.gatherServe data)) s _; unfold execGatherServe; rfl
  | gatherPiece p group layer rank version data => apply Exists.intro; show execGatherPiece p group layer rank version data s = cmd (Instr.wf (.gatherPiece p group layer rank version data)) s _; unfold execGatherPiece; rfl
  | handoverForward p h sent group => apply Exists.intro; show execHandoverForward p h sent group s = cmd (Instr.wf (.handoverForward p h sent group)) s _; unfold execHandoverForward; rfl
  | handoverBackward p h sent group => apply Exists.intro; show execHandoverBackward p h sent group s = cmd (Instr.wf (.handoverBackward p h sent group)) s _; unfold execHandoverBackward; rfl
  | countRecord p x n size sent => apply Exists.intro; show execCountRecord p x n size sent s = cmd (Instr.wf (.countRecord p x n size sent)) s _; unfold execCountRecord; rfl
  | expertTokens p x data sent => apply Exists.intro; show execExpertTokens p x data sent s = cmd (Instr.wf (.expertTokens p x data sent)) s _; unfold execExpertTokens; rfl
  | flitReceive p f => apply Exists.intro; show execFlitReceive p f s = cmd (Instr.wf (.flitReceive p f)) s _; unfold execFlitReceive; rfl
  | nak p bit seq => apply Exists.intro; show execNak p bit seq s = cmd (Instr.wf (.nak p bit seq)) s _; unfold execNak; rfl
  | replayTimeout p => apply Exists.intro; show execReplayTimeout p s = cmd (Instr.wf (.replayTimeout p)) s _; unfold execReplayTimeout; rfl
  | creditReturn p l slots => apply Exists.intro; show execCreditReturn p l slots s = cmd (Instr.wf (.creditReturn p l slots)) s _; unfold execCreditReturn; rfl
  | linkTraining ini p on => apply Exists.intro; show execLinkTraining ini p on s = cmd (Instr.wf (.linkTraining ini p on)) s _; unfold execLinkTraining; rfl
  | trainingStepDone p r => apply Exists.intro; show execTrainingStepDone p r s = cmd (Instr.wf (.trainingStepDone p r)) s _; unfold execTrainingStepDone; rfl
  | trainingStepTimeout p => apply Exists.intro; show execTrainingStepTimeout p s = cmd (Instr.wf (.trainingStepTimeout p)) s _; unfold execTrainingStepTimeout; rfl
  | trainingRetry p => apply Exists.intro; show execTrainingRetry p s = cmd (Instr.wf (.trainingRetry p)) s _; unfold execTrainingRetry; rfl
  | capabilityRecord p r => apply Exists.intro; show execCapabilityRecord p r s = cmd (Instr.wf (.capabilityRecord p r)) s _; unfold execCapabilityRecord; rfl
  | cableOvercurrent p ma => apply Exists.intro; show execCableOvercurrent p ma s = cmd (Instr.wf (.cableOvercurrent p ma)) s _; unfold execCableOvercurrent; rfl
  | loadSwitchReclose p => apply Exists.intro; show execLoadSwitchReclose p s = cmd (Instr.wf (.loadSwitchReclose p)) s _; unfold execLoadSwitchReclose; rfl
  | nlnkLoadRetry ini p => apply Exists.intro; show execNlnkLoadRetry ini p s = cmd (Instr.wf (.nlnkLoadRetry ini p)) s _; unfold execNlnkLoadRetry; rfl
  | nlnkForce4 ini p on => apply Exists.intro; show execNlnkForce4 ini p on s = cmd (Instr.wf (.nlnkForce4 ini p on)) s _; unfold execNlnkForce4; rfl
  | laneFail p n => apply Exists.intro; show execLaneFail p n s = cmd (Instr.wf (.laneFail p n)) s _; unfold execLaneFail; rfl
  | width p w bad => apply Exists.intro; show execWidth p w bad s = cmd (Instr.wf (.width p w bad)) s _; unfold execWidth; rfl
  | laneRetrainAttempt p good => apply Exists.intro; show execLaneRetrainAttempt p good s = cmd (Instr.wf (.laneRetrainAttempt p good)) s _; unfold execLaneRetrainAttempt; rfl
  | laneRestore p => apply Exists.intro; show execLaneRestore p s = cmd (Instr.wf (.laneRestore p)) s _; unfold execLaneRestore; rfl
  | rate p k => apply Exists.intro; show execRate p k s = cmd (Instr.wf (.rate p k)) s _; unfold execRate; rfl
  | backpressurePeriod p withheld low => apply Exists.intro; show execBackpressurePeriod p withheld low s = cmd (Instr.wf (.backpressurePeriod p withheld low)) s _; unfold execBackpressurePeriod; rfl
  | sidebandRecord p r => apply Exists.intro; show execSidebandRecord p r s = cmd (Instr.wf (.sidebandRecord p r)) s _; unfold execSidebandRecord; rfl
  | postTake => apply Exists.intro; show execPostTake s = cmd (Instr.wf (.postTake)) s _; unfold execPostTake; rfl
  | openMsg p k => apply Exists.intro; show execOpenMsg p k s = cmd (Instr.wf (.openMsg p k)) s _; unfold execOpenMsg; rfl
  | grant p k => apply Exists.intro; show execGrant p k s = cmd (Instr.wf (.grant p k)) s _; unfold execGrant; rfl
  | bucketData p m => apply Exists.intro; show execBucketData p m s = cmd (Instr.wf (.bucketData p m)) s _; unfold execBucketData; rfl
  | bucketDeadlineExpire k => apply Exists.intro; show execBucketDeadlineExpire k s = cmd (Instr.wf (.bucketDeadlineExpire k)) s _; unfold execBucketDeadlineExpire; rfl
  | abortMsg p step attempt cls origin group bucket => apply Exists.intro; show execAbortMsg p step attempt cls origin group bucket s = cmd (Instr.wf (.abortMsg p step attempt cls origin group bucket)) s _; unfold execAbortMsg; rfl
  | nredAbortGo ini p => apply Exists.intro; show execNredAbortGo ini p s = cmd (Instr.wf (.nredAbortGo ini p)) s _; unfold execNredAbortGo; rfl
  | nredSlotsGrant ini p v => apply Exists.intro; show execNredSlotsGrant ini p v s = cmd (Instr.wf (.nredSlotsGrant ini p v)) s _; unfold execNredSlotsGrant; rfl
  | joinAck p channel group => apply Exists.intro; show execJoinAck p channel group s = cmd (Instr.wf (.joinAck p channel group)) s _; unfold execJoinAck; rfl
  | reject p channel group => apply Exists.intro; show execReject p channel group s = cmd (Instr.wf (.reject p channel group)) s _; unfold execReject; rfl
  | switchResult p r => apply Exists.intro; show execSwitchResult p r s = cmd (Instr.wf (.switchResult p r)) s _; unfold execSwitchResult; rfl
  | codedBlockRerequest p k first block => apply Exists.intro; show execCodedBlockRerequest p k first block s = cmd (Instr.wf (.codedBlockRerequest p k first block)) s _; unfold execCodedBlockRerequest; rfl
  | codecBlockEncode c => apply Exists.intro; show execCodecBlockEncode c s = cmd (Instr.wf (.codecBlockEncode c)) s _; unfold execCodecBlockEncode; rfl
  | codecBlockDecode c => apply Exists.intro; show execCodecBlockDecode c s = cmd (Instr.wf (.codecBlockDecode c)) s _; unfold execCodecBlockDecode; rfl
  | fcodEncode f => apply Exists.intro; show execFcodEncode f s = cmd (Instr.wf (.fcodEncode f)) s _; unfold execFcodEncode; rfl
  | fcodDecode f => apply Exists.intro; show execFcodDecode f s = cmd (Instr.wf (.fcodDecode f)) s _; unfold execFcodDecode; rfl
  | fcodJobEnd f => apply Exists.intro; show execFcodJobEnd f s = cmd (Instr.wf (.fcodJobEnd f)) s _; unfold execFcodJobEnd; rfl
  | heartbeatTimer now answers => apply Exists.intro; show execHeartbeatTimer now answers s = cmd (Instr.wf (.heartbeatTimer now answers)) s _; unfold execHeartbeatTimer; rfl
  | heartbeat h seq time turn => apply Exists.intro; show execHeartbeat h seq time turn s = cmd (Instr.wf (.heartbeat h seq time turn)) s _; unfold execHeartbeat; rfl
  | echo h sample => apply Exists.intro; show execEcho h sample s = cmd (Instr.wf (.echo h sample)) s _; unfold execEcho; rfl
  | ack h below ranges window => apply Exists.intro; show execAck h below ranges window s = cmd (Instr.wf (.ack h below ranges window)) s _; unfold execAck; rfl
  | dataRec h plain => apply Exists.intro; show execDataRec h plain s = cmd (Instr.wf (.dataRec h plain)) s _; unfold execDataRec; rfl
  | ackTimer peer => apply Exists.intro; show execAckTimer peer s = cmd (Instr.wf (.ackTimer peer)) s _; unfold execAckTimer; rfl
  | resendTimeout peer rec => apply Exists.intro; show execResendTimeout peer rec s = cmd (Instr.wf (.resendTimeout peer rec)) s _; unfold execResendTimeout; rfl
  | routeLostTimeout peer route => apply Exists.intro; show execRouteLostTimeout peer route s = cmd (Instr.wf (.routeLostTimeout peer route)) s _; unfold execRouteLostTimeout; rfl
  | routeDown h route => apply Exists.intro; show execRouteDown h route s = cmd (Instr.wf (.routeDown h route)) s _; unfold execRouteDown; rfl
  | keyRec h e => apply Exists.intro; show execKeyRec h e s = cmd (Instr.wf (.keyRec h e)) s _; unfold execKeyRec; rfl
  | neighborDiscovery f m => apply Exists.intro; show execNeighborDiscovery f m s = cmd (Instr.wf (.neighborDiscovery f m)) s _; unfold execNeighborDiscovery; rfl
  | farFrameDrop f why => apply Exists.intro; show execFarFrameDrop f why s = cmd (Instr.wf (.farFrameDrop f why)) s _; unfold execFarFrameDrop; rfl
  | fxpCtrlEn ini f on answers => apply Exists.intro; show execFxpCtrlEn ini f on answers s = cmd (Instr.wf (.fxpCtrlEn ini f on answers)) s _; unfold execFxpCtrlEn; rfl
  | sendDescriptorTake => apply Exists.intro; show execSendDescriptorTake s = cmd (Instr.wf (.sendDescriptorTake)) s _; unfold execSendDescriptorTake; rfl
  | fxpRxFree ini f v => apply Exists.intro; show execFxpRxFree ini f v s = cmd (Instr.wf (.fxpRxFree ini f v)) s _; unfold execFxpRxFree; rfl
  | manifestCloseTimeout => apply Exists.intro; show execManifestCloseTimeout s = cmd (Instr.wf (.manifestCloseTimeout)) s _; unfold execManifestCloseTimeout; rfl
  | manifestSigned => apply Exists.intro; show execManifestSigned s = cmd (Instr.wf (.manifestSigned)) s _; unfold execManifestSigned; rfl
  | manifest mid signer => apply Exists.intro; show execManifest mid signer s = cmd (Instr.wf (.manifest mid signer)) s _; unfold execManifest; rfl
  | fetchWaitExpire mid => apply Exists.intro; show execFetchWaitExpire mid s = cmd (Instr.wf (.fetchWaitExpire mid)) s _; unfold execFetchWaitExpire; rfl
  | fxpCtrlJoin ini f => apply Exists.intro; show execFxpCtrlJoin ini f s = cmd (Instr.wf (.fxpCtrlJoin ini f)) s _; unfold execFxpCtrlJoin; rfl
  | fxpRound ini f v => apply Exists.intro; show execFxpRound ini f v s = cmd (Instr.wf (.fxpRound ini f v)) s _; unfold execFxpRound; rfl
  | supplyWarn => apply Exists.intro; show execSupplyWarn s = cmd (Instr.wf (.supplyWarn)) s _; unfold execSupplyWarn; rfl
  | supplyRecover => apply Exists.intro; show execSupplyRecover s = cmd (Instr.wf (.supplyRecover)) s _; unfold execSupplyRecover; rfl
  | warningRelease => apply Exists.intro; show execWarningRelease s = cmd (Instr.wf (.warningRelease)) s _; unfold execWarningRelease; rfl
  | bubbleRamp => apply Exists.intro; show execBubbleRamp s = cmd (Instr.wf (.bubbleRamp)) s _; unfold execBubbleRamp; rfl
  | brownOut => apply Exists.intro; show execBrownOut s = cmd (Instr.wf (.brownOut)) s _; unfold execBrownOut; rfl
  | overVoltage => apply Exists.intro; show execOverVoltage s = cmd (Instr.wf (.overVoltage)) s _; unfold execOverVoltage; rfl
  | pwrAlert => apply Exists.intro; show execPwrAlert s = cmd (Instr.wf (.pwrAlert)) s _; unfold execPwrAlert; rfl
  | alertRelease => apply Exists.intro; show execAlertRelease s = cmd (Instr.wf (.alertRelease)) s _; unfold execAlertRelease; rfl
  | fastLoop mw => apply Exists.intro; show execFastLoop mw s = cmd (Instr.wf (.fastLoop mw)) s _; unfold execFastLoop; rfl
  | estimateCompare e m => apply Exists.intro; show execEstimateCompare e m s = cmd (Instr.wf (.estimateCompare e m)) s _; unfold execEstimateCompare; rfl
  | telCap ini v => apply Exists.intro; show execTelCap ini v s = cmd (Instr.wf (.telCap ini v)) s _; unfold execTelCap; rfl
  | telGroup ini v => apply Exists.intro; show execTelGroup ini v s = cmd (Instr.wf (.telGroup ini v)) s _; unfold execTelGroup; rfl
  | pwcPhaseTab ini k v => apply Exists.intro; show execPwcPhaseTab ini k v s = cmd (Instr.wf (.pwcPhaseTab ini k v)) s _; unfold execPwcPhaseTab; rfl
  | sensorReading k t full => apply Exists.intro; show execSensorReading k t full s = cmd (Instr.wf (.sensorReading k t full)) s _; unfold execSensorReading; rfl
  | thermalCountStep d => apply Exists.intro; show execThermalCountStep d s = cmd (Instr.wf (.thermalCountStep d)) s _; unfold execThermalCountStep; rfl
  | sensorStop k => apply Exists.intro; show execSensorStop k s = cmd (Instr.wf (.sensorStop k)) s _; unfold execSensorStop; rfl
  | tripRelease => apply Exists.intro; show execTripRelease s = cmd (Instr.wf (.tripRelease)) s _; unfold execTripRelease; rfl
  | coolantLeak => apply Exists.intro; show execCoolantLeak s = cmd (Instr.wf (.coolantLeak)) s _; unfold execCoolantLeak; rfl
  | powerOn => apply Exists.intro; show execPowerOn s = cmd (Instr.wf (.powerOn)) s _; unfold execPowerOn; rfl
  | rstN => apply Exists.intro; show execRstN s = cmd (Instr.wf (.rstN)) s _; unfold execRstN; rfl
  | refclkLoss => apply Exists.intro; show execRefclkLoss s = cmd (Instr.wf (.refclkLoss)) s _; unfold execRefclkLoss; rfl
  | powerGood attempts countersOk => apply Exists.intro; show execPowerGood attempts countersOk s = cmd (Instr.wf (.powerGood attempts countersOk)) s _; unfold execPowerGood; rfl
  | baseStageEnd => apply Exists.intro; show execBaseStageEnd s = cmd (Instr.wf (.baseStageEnd)) s _; unfold execBaseStageEnd; rfl
  | baseStageTimeout => apply Exists.intro; show execBaseStageTimeout s = cmd (Instr.wf (.baseStageTimeout)) s _; unfold execBaseStageTimeout; rfl
  | bootDecision => apply Exists.intro; show execBootDecision s = cmd (Instr.wf (.bootDecision)) s _; unfold execBootDecision; rfl
  | bootStepEnd row unit ok us => apply Exists.intro; show execBootStepEnd row unit ok us s = cmd (Instr.wf (.bootStepEnd row unit ok us)) s _; unfold execBootStepEnd; rfl
  | bootBudget ini v => apply Exists.intro; show execBootBudget ini v s = cmd (Instr.wf (.bootBudget ini v)) s _; unfold execBootBudget; rfl
  | warmN => apply Exists.intro; show execWarmN s = cmd (Instr.wf (.warmN)) s _; unfold execWarmN; rfl
  | bootReset ini => apply Exists.intro; show execBootReset ini s = cmd (Instr.wf (.bootReset ini)) s _; unfold execBootReset; rfl
  | warmStart => apply Exists.intro; show execWarmStart s = cmd (Instr.wf (.warmStart)) s _; unfold execWarmStart; rfl
  | bootShutdown ini => apply Exists.intro; show execBootShutdown ini s = cmd (Instr.wf (.bootShutdown ini)) s _; unfold execBootShutdown; rfl
  | bistTest ini kind inst => apply Exists.intro; show execBistTest ini kind inst s = cmd (Instr.wf (.bistTest ini kind inst)) s _; unfold execBistTest; rfl
  | bistRetire ini kind inst => apply Exists.intro; show execBistRetire ini kind inst s = cmd (Instr.wf (.bistRetire ini kind inst)) s _; unfold execBistRetire; rfl
  | bistComplete kind inst passed inRange => apply Exists.intro; show execBistComplete kind inst passed inRange s = cmd (Instr.wf (.bistComplete kind inst passed inRange)) s _; unfold execBistComplete; rfl
  | waleTest ini w => apply Exists.intro; show execWaleTest ini w s = cmd (Instr.wf (.waleTest ini w)) s _; unfold execWaleTest; rfl
  | waleRetire ini w => apply Exists.intro; show execWaleRetire ini w s = cmd (Instr.wf (.waleRetire ini w)) s _; unfold execWaleRetire; rfl
  | portFwActivate kind ok => apply Exists.intro; show execPortFwActivate kind ok s = cmd (Instr.wf (.portFwActivate kind ok)) s _; unfold execPortFwActivate; rfl
  | hoopMigrate ini => apply Exists.intro; show execHoopMigrate ini s = cmd (Instr.wf (.hoopMigrate ini)) s _; unfold execHoopMigrate; rfl
  | hoopGParked ini g v => apply Exists.intro; show execHoopGParked ini g v s = cmd (Instr.wf (.hoopGParked ini g v)) s _; unfold execHoopGParked; rfl
  | hoopGClaim ini g v => apply Exists.intro; show execHoopGClaim ini g v s = cmd (Instr.wf (.hoopGClaim ini g v)) s _; unfold execHoopGClaim; rfl
  | hoopCoreGroup ini k v => apply Exists.intro; show execHoopCoreGroup ini k v s = cmd (Instr.wf (.hoopCoreGroup ini k v)) s _; unfold execHoopCoreGroup; rfl
  | hoopDmaDoorbell ini g v => apply Exists.intro; show execHoopDmaDoorbell ini g v s = cmd (Instr.wf (.hoopDmaDoorbell ini g v)) s _; unfold execHoopDmaDoorbell; rfl
  | hoopGEvtGet ini g v => apply Exists.intro; show execHoopGEvtGet ini g v s = cmd (Instr.wf (.hoopGEvtGet ini g v)) s _; unfold execHoopGEvtGet; rfl
  | d2dLaneRepair d q => apply Exists.intro; show execD2dLaneRepair d q s = cmd (Instr.wf (.d2dLaneRepair d q)) s _; unfold execD2dLaneRepair; rfl
  | d2dLinkFail d q => apply Exists.intro; show execD2dLinkFail d q s = cmd (Instr.wf (.d2dLinkFail d q)) s _; unfold execD2dLinkFail; rfl
  | diePllUnlock d pll => apply Exists.intro; show execDiePllUnlock d pll s = cmd (Instr.wf (.diePllUnlock d pll)) s _; unfold execDiePllUnlock; rfl
  | raklineLight => apply Exists.intro; show execRaklineLight s = cmd (Instr.wf (.raklineLight)) s _; unfold execRaklineLight; rfl
  | raklineLinkLoss => apply Exists.intro; show execRaklineLinkLoss s = cmd (Instr.wf (.raklineLinkLoss)) s _; unfold execRaklineLinkLoss; rfl
  | raklineFrame h crcOk tagOk m => apply Exists.intro; show execRaklineFrame h crcOk tagOk m s = cmd (Instr.wf (.raklineFrame h crcOk tagOk m)) s _; unfold execRaklineFrame; rfl
  | raklineAckTimer => apply Exists.intro; show execRaklineAckTimer s = cmd (Instr.wf (.raklineAckTimer)) s _; unfold execRaklineAckTimer; rfl
  | raklineNak seq => apply Exists.intro; show execRaklineNak seq s = cmd (Instr.wf (.raklineNak seq)) s _; unfold execRaklineNak; rfl
  | raklineReplayTimeout => apply Exists.intro; show execRaklineReplayTimeout s = cmd (Instr.wf (.raklineReplayTimeout)) s _; unfold execRaklineReplayTimeout; rfl
  | getNonce => apply Exists.intro; show execGetNonce s = cmd (Instr.wf (.getNonce)) s _; unfold execGetNonce; rfl
  | sessionInit key nonce keyHash sigOk => apply Exists.intro; show execSessionInit key nonce keyHash sigOk s = cmd (Instr.wf (.sessionInit key nonce keyHash sigOk)) s _; unfold execSessionInit; rfl
  | getQuote viaMgmt nonce => apply Exists.intro; show execGetQuote viaMgmt nonce s = cmd (Instr.wf (.getQuote viaMgmt nonce)) s _; unfold execGetQuote; rfl
  | getCerts viaMgmt => apply Exists.intro; show execGetCerts viaMgmt s = cmd (Instr.wf (.getCerts viaMgmt)) s _; unfold execGetCerts; rfl
  | regRead m => apply Exists.intro; show execRegRead m s = cmd (Instr.wf (.regRead m)) s _; unfold execRegRead; rfl
  | regWrite m => apply Exists.intro; show execRegWrite m s = cmd (Instr.wf (.regWrite m)) s _; unfold execRegWrite; rfl
  | regWarmReset m => apply Exists.intro; show execRegWarmReset m s = cmd (Instr.wf (.regWarmReset m)) s _; unfold execRegWarmReset; rfl
  | regShutdown m => apply Exists.intro; show execRegShutdown m s = cmd (Instr.wf (.regShutdown m)) s _; unfold execRegShutdown; rfl
  | bulkWrite m => apply Exists.intro; show execBulkWrite m s = cmd (Instr.wf (.bulkWrite m)) s _; unfold execBulkWrite; rfl
  | bulkRead m => apply Exists.intro; show execBulkRead m s = cmd (Instr.wf (.bulkRead m)) s _; unfold execBulkRead; rfl
  | bulkData m => apply Exists.intro; show execBulkData m s = cmd (Instr.wf (.bulkData m)) s _; unfold execBulkData; rfl
  | bulkTransferEnd k => apply Exists.intro; show execBulkTransferEnd k s = cmd (Instr.wf (.bulkTransferEnd k)) s _; unfold execBulkTransferEnd; rfl
  | console toNode data => apply Exists.intro; show execConsole toNode data s = cmd (Instr.wf (.console toNode data)) s _; unfold execConsole; rfl
  | i3cEntdaa addr => apply Exists.intro; show execI3cEntdaa addr s = cmd (Instr.wf (.i3cEntdaa addr)) s _; unfold execI3cEntdaa; rfl
  | setEndpointId eid => apply Exists.intro; show execSetEndpointId eid s = cmd (Instr.wf (.setEndpointId eid)) s _; unfold execSetEndpointId; rfl
  | getEndpointId => apply Exists.intro; show execGetEndpointId s = cmd (Instr.wf (.getEndpointId)) s _; unfold execGetEndpointId; rfl
  | getEndpointUuid => apply Exists.intro; show execGetEndpointUuid s = cmd (Instr.wf (.getEndpointUuid)) s _; unfold execGetEndpointUuid; rfl
  | getMctpVersionSupport type => apply Exists.intro; show execGetMctpVersionSupport type s = cmd (Instr.wf (.getMctpVersionSupport type)) s _; unfold execGetMctpVersionSupport; rfl
  | getMessageTypeSupport => apply Exists.intro; show execGetMessageTypeSupport s = cmd (Instr.wf (.getMessageTypeSupport)) s _; unfold execGetMessageTypeSupport; rfl
  | getVendorDefinedMessageSupport k => apply Exists.intro; show execGetVendorDefinedMessageSupport k s = cmd (Instr.wf (.getVendorDefinedMessageSupport k)) s _; unfold execGetVendorDefinedMessageSupport; rfl
  | getTid => apply Exists.intro; show execGetTid s = cmd (Instr.wf (.getTid)) s _; unfold execGetTid; rfl
  | setTid tid => apply Exists.intro; show execSetTid tid s = cmd (Instr.wf (.setTid tid)) s _; unfold execSetTid; rfl
  | getPldmVersion type => apply Exists.intro; show execGetPldmVersion type s = cmd (Instr.wf (.getPldmVersion type)) s _; unfold execGetPldmVersion; rfl
  | getPldmTypes => apply Exists.intro; show execGetPldmTypes s = cmd (Instr.wf (.getPldmTypes)) s _; unfold execGetPldmTypes; rfl
  | getPldmCommands type => apply Exists.intro; show execGetPldmCommands type s = cmd (Instr.wf (.getPldmCommands type)) s _; unfold execGetPldmCommands; rfl
  | getPdrRepositoryInfo => apply Exists.intro; show execGetPdrRepositoryInfo s = cmd (Instr.wf (.getPdrRepositoryInfo)) s _; unfold execGetPdrRepositoryInfo; rfl
  | getPdr id => apply Exists.intro; show execGetPdr id s = cmd (Instr.wf (.getPdr id)) s _; unfold execGetPdr; rfl
  | getSensorReading id => apply Exists.intro; show execGetSensorReading id s = cmd (Instr.wf (.getSensorReading id)) s _; unfold execGetSensorReading; rfl
  | getStateSensorReadings id => apply Exists.intro; show execGetStateSensorReadings id s = cmd (Instr.wf (.getStateSensorReadings id)) s _; unfold execGetStateSensorReadings; rfl
  | setNumericEffecterValue id v => apply Exists.intro; show execSetNumericEffecterValue id v s = cmd (Instr.wf (.setNumericEffecterValue id v)) s _; unfold execSetNumericEffecterValue; rfl
  | getNumericEffecterValue id => apply Exists.intro; show execGetNumericEffecterValue id s = cmd (Instr.wf (.getNumericEffecterValue id)) s _; unfold execGetNumericEffecterValue; rfl
  | setStateEffecterStates id v => apply Exists.intro; show execSetStateEffecterStates id v s = cmd (Instr.wf (.setStateEffecterStates id v)) s _; unfold execSetStateEffecterStates; rfl
  | getStateEffecterStates id => apply Exists.intro; show execGetStateEffecterStates id s = cmd (Instr.wf (.getStateEffecterStates id)) s _; unfold execGetStateEffecterStates; rfl
  | setEventReceiver eid => apply Exists.intro; show execSetEventReceiver eid s = cmd (Instr.wf (.setEventReceiver eid)) s _; unfold execSetEventReceiver; rfl
  | queryDeviceIdentifiers => apply Exists.intro; show execQueryDeviceIdentifiers s = cmd (Instr.wf (.queryDeviceIdentifiers)) s _; unfold execQueryDeviceIdentifiers; rfl
  | getFirmwareParameters => apply Exists.intro; show execGetFirmwareParameters s = cmd (Instr.wf (.getFirmwareParameters)) s _; unfold execGetFirmwareParameters; rfl
  | requestUpdate => apply Exists.intro; show execRequestUpdate s = cmd (Instr.wf (.requestUpdate)) s _; unfold execRequestUpdate; rfl
  | passComponentTable kinds => apply Exists.intro; show execPassComponentTable kinds s = cmd (Instr.wf (.passComponentTable kinds)) s _; unfold execPassComponentTable; rfl
  | updateComponent kind => apply Exists.intro; show execUpdateComponent kind s = cmd (Instr.wf (.updateComponent kind)) s _; unfold execUpdateComponent; rfl
  | verifyComplete im => apply Exists.intro; show execVerifyComplete im s = cmd (Instr.wf (.verifyComplete im)) s _; unfold execVerifyComplete; rfl
  | activateFirmware => apply Exists.intro; show execActivateFirmware s = cmd (Instr.wf (.activateFirmware)) s _; unfold execActivateFirmware; rfl
  | getStatus => apply Exists.intro; show execGetStatus s = cmd (Instr.wf (.getStatus)) s _; unfold execGetStatus; rfl
  | cancelUpdateComponent => apply Exists.intro; show execCancelUpdateComponent s = cmd (Instr.wf (.cancelUpdateComponent)) s _; unfold execCancelUpdateComponent; rfl
  | cancelUpdate => apply Exists.intro; show execCancelUpdate s = cmd (Instr.wf (.cancelUpdate)) s _; unfold execCancelUpdate; rfl
  | fmacLinkDown f lanes => apply Exists.intro; show execFmacLinkDown f lanes s = cmd (Instr.wf (.fmacLinkDown f lanes)) s _; unfold execFmacLinkDown; rfl
  | fmacLinkUp f => apply Exists.intro; show execFmacLinkUp f s = cmd (Instr.wf (.fmacLinkUp f)) s _; unfold execFmacLinkUp; rfl
  | cblPresentN p present => apply Exists.intro; show execCblPresentN p present s = cmd (Instr.wf (.cblPresentN p present)) s _; unfold execCblPresentN; rfl
  | creditReturnTimer p => apply Exists.intro; show execCreditReturnTimer p s = cmd (Instr.wf (.creditReturnTimer p)) s _; unfold execCreditReturnTimer; rfl
  | groupDeadlineExpire group step attempt => apply Exists.intro; show execGroupDeadlineExpire group step attempt s = cmd (Instr.wf (.groupDeadlineExpire group step attempt)) s _; unfold execGroupDeadlineExpire; rfl
  | refclkReturn => apply Exists.intro; show execRefclkReturn s = cmd (Instr.wf (.refclkReturn)) s _; unfold execRefclkReturn; rfl
  | inletSensorReading t => apply Exists.intro; show execInletSensorReading t s = cmd (Instr.wf (.inletSensorReading t)) s _; unfold execInletSensorReading; rfl
  | coolantLeakDeassert => apply Exists.intro; show execCoolantLeakDeassert s = cmd (Instr.wf (.coolantLeakDeassert)) s _; unfold execCoolantLeakDeassert; rfl
  | platformEventAck sensor => apply Exists.intro; show execPlatformEventAck sensor s = cmd (Instr.wf (.platformEventAck sensor)) s _; unfold execPlatformEventAck; rfl

end Sys2Proof.Laws
end

