-- ==== Sys2Proof/Laws/Map.lean ====
section
/-! SUPPORT. Finite maps: a read after a write, and every update keeps the canonical form. -/

namespace Sys2Proof.Laws

open Sys2Proof.Machine

variable {α : Type}

theorem all_lt_trans {m : SMap α} {k j : Nat} (hjk : j < k) (h : m.all (fun e => decide (k < e.1)) = true) :
    m.all (fun e => decide (j < e.1)) = true := by
  simp only [List.all_eq_true, decide_eq_true_eq] at *
  intro e he; exact Nat.lt_trans hjk (h e he)

/-- A key below every listed key reads as the default. -/
theorem get_of_all_lt (d : α) {m : SMap α} {k : Nat} (h : m.all (fun e => decide (k < e.1)) = true) : SMap.get d m k = d := by
  induction m with
  | nil => rfl
  | cons e m ih =>
    obtain ⟨j, v⟩ := e
    simp only [List.all_cons, Bool.and_eq_true, decide_eq_true_eq] at h
    simp only [SMap.get, Nat.ne_of_gt h.1, if_false]
    exact ih h.2

@[simp] theorem del_nil (k : Nat) : SMap.del ([] : SMap α) k = [] := rfl

theorem get_del_same (d : α) (m : SMap α) (k : Nat) : SMap.get d (SMap.del m k) k = d := by
  induction m with
  | nil => rfl
  | cons e m ih =>
    obtain ⟨j, v⟩ := e
    by_cases h : j = k
    · simp [SMap.del, h, ih]
    · simp [SMap.del, SMap.get, h, ih]

theorem get_del_other (d : α) (m : SMap α) {k j : Nat} (hne : j ≠ k) : SMap.get d (SMap.del m k) j = SMap.get d m j := by
  induction m with
  | nil => rfl
  | cons e m ih =>
    obtain ⟨i, v⟩ := e
    by_cases h : i = k
    · subst h; simp [SMap.del, SMap.get, hne.symm, ih]
    · by_cases h2 : i = j
      · subst h2; simp [SMap.del, SMap.get, h]
      · simp [SMap.del, SMap.get, h, h2, ih]

theorem get_ins_same (d : α) (m : SMap α) (k : Nat) (v : α) (h : ∀ e ∈ m, e.1 ≠ k) : SMap.get d (SMap.ins m k v) k = v := by
  induction m with
  | nil => simp [SMap.ins, SMap.get]
  | cons e m ih =>
    obtain ⟨j, w⟩ := e
    have hj : j ≠ k := h (j, w) (by simp)
    by_cases hk : k < j
    · simp [SMap.ins, SMap.get, hk]
    · simp only [SMap.ins, hk, if_false, SMap.get, hj]
      exact ih (fun e he => h e (by simp [he]))

theorem get_ins_other (d : α) (m : SMap α) {k j : Nat} (v : α) (hne : j ≠ k) : SMap.get d (SMap.ins m k v) j = SMap.get d m j := by
  induction m with
  | nil => simp [SMap.ins, SMap.get, hne.symm]
  | cons e m ih =>
    obtain ⟨i, w⟩ := e
    by_cases hk : k < i
    · simp [SMap.ins, SMap.get, hk, hne.symm]
    · by_cases h2 : i = j
      · subst h2; simp [SMap.ins, SMap.get, hk]
      · simp [SMap.ins, SMap.get, hk, h2, ih]

theorem del_keys (m : SMap α) (k : Nat) : ∀ e ∈ SMap.del m k, e.1 ≠ k := by
  induction m with
  | nil => simp [SMap.del]
  | cons e m ih =>
    obtain ⟨j, v⟩ := e
    by_cases h : j = k
    · simpa [SMap.del, h] using ih
    · simp only [SMap.del, h, if_false, List.mem_cons]
      rintro e (rfl | he)
      · exact h
      · exact ih e he

/-- A read after a write of the same key. -/
@[simp] theorem get_set_same [DecidableEq α] (d : α) (m : SMap α) (k : Nat) (v : α) : SMap.get d (SMap.set d m k v) k = v := by
  unfold SMap.set
  split
  · next h => rw [get_del_same, h]
  · exact get_ins_same d _ k v (del_keys m k)

/-- A write leaves every other key as it was. -/
theorem get_set_other [DecidableEq α] (d : α) (m : SMap α) {k j : Nat} (v : α) (h : j ≠ k) :
    SMap.get d (SMap.set d m k v) j = SMap.get d m j := by
  unfold SMap.set
  split
  · exact get_del_other d m h
  · rw [get_ins_other d _ v h, get_del_other d m h]

theorem del_all {m : SMap α} {k : Nat} {p : Nat × α → Bool} (h : m.all p = true) : (SMap.del m k).all p = true := by
  induction m with
  | nil => rfl
  | cons e m ih =>
    obtain ⟨j, v⟩ := e
    simp only [List.all_cons, Bool.and_eq_true] at h
    by_cases hj : j = k
    · simpa [SMap.del, hj] using ih h.2
    · simp [SMap.del, hj, h.1, ih h.2]

theorem ins_all {m : SMap α} {k : Nat} {v : α} {p : Nat × α → Bool} (h : m.all p = true) (hk : p (k, v) = true) :
    (SMap.ins m k v).all p = true := by
  induction m with
  | nil => simp [SMap.ins, hk]
  | cons e m ih =>
    obtain ⟨j, w⟩ := e
    have h' := h
    simp only [List.all_cons, Bool.and_eq_true] at h
    by_cases hj : k < j
    · simp only [SMap.ins, hj, if_true, List.all_cons, hk, Bool.true_and]; simpa using h'
    · simp [SMap.ins, hj, h.1, ih h.2]

variable [DecidableEq α]

theorem wf_cons {d v : α} {k : Nat} {m : SMap α} :
    SMap.wf d ((k, v) :: m) = true ↔ v ≠ d ∧ m.all (fun e => decide (k < e.1)) = true ∧ SMap.wf d m = true := by
  simp [SMap.wf, and_assoc]

theorem del_wf {d : α} {m : SMap α} (k : Nat) (h : SMap.wf d m = true) : SMap.wf d (SMap.del m k) = true := by
  induction m with
  | nil => rfl
  | cons e m ih =>
    obtain ⟨j, v⟩ := e
    obtain ⟨hv, hall, hm⟩ := wf_cons.1 h
    by_cases hj : j = k
    · simpa [SMap.del, hj] using ih hm
    · simp only [SMap.del, hj, if_false]
      exact wf_cons.2 ⟨hv, del_all hall, ih hm⟩

theorem ins_wf {d v : α} {m : SMap α} {k : Nat} (hv : v ≠ d) (hk : ∀ e ∈ m, e.1 ≠ k) (h : SMap.wf d m = true) :
    SMap.wf d (SMap.ins m k v) = true := by
  induction m with
  | nil => simp [SMap.ins, SMap.wf, hv]
  | cons e m ih =>
    obtain ⟨j, w⟩ := e
    obtain ⟨hw, hall, hm⟩ := wf_cons.1 h
    have hjk : j ≠ k := hk (j, w) (by simp)
    by_cases hlt : k < j
    · simp only [SMap.ins, hlt, if_true]
      exact wf_cons.2 ⟨hv, by simp [hlt]; simpa using all_lt_trans hlt hall, h⟩
    · simp only [SMap.ins, hlt, if_false]
      exact wf_cons.2 ⟨hw, ins_all hall (by simp; omega), ih (fun e he => hk e (by simp [he])) hm⟩

/-- A write keeps the canonical form. -/
theorem set_wf {d : α} {m : SMap α} (k : Nat) (v : α) (h : SMap.wf d m = true) : SMap.wf d (SMap.set d m k v) = true := by
  unfold SMap.set
  split
  · exact del_wf k h
  · next hv => exact ins_wf hv (del_keys m k) (del_wf k h)

theorem filter_all {m : SMap α} {p q : Nat × α → Bool} (h : m.all p = true) : (m.filter q).all p = true := by
  simp only [List.all_eq_true, List.mem_filter] at *
  intro e he; exact h e he.1

/-- Leaving entries out keeps the canonical form. -/
theorem filter_wf {d : α} {m : SMap α} (q : Nat × α → Bool) (h : SMap.wf d m = true) : SMap.wf d (m.filter q) = true := by
  induction m with
  | nil => rfl
  | cons e m ih =>
    obtain ⟨j, v⟩ := e
    obtain ⟨hv, hall, hm⟩ := wf_cons.1 h
    by_cases hq : q (j, v) = true
    · rw [List.filter_cons_of_pos hq]; exact wf_cons.2 ⟨hv, filter_all hall, ih hm⟩
    · rw [List.filter_cons_of_neg hq]; exact ih hm

end Sys2Proof.Laws
end

