-- ==== Sys2Proof/Laws/Memory.lean ====
section
/-! SUPPORT. Memory: every operation keeps the canonical form, and what a store leaves alone. -/

namespace Sys2Proof.Laws

open Sys2Proof.Machine

theorem mem_wf_iff {m : Mem} :
    m.wf = true ↔ SMap.wf 0 m.bytes = true ∧ SMap.wf m.base m.lines = true ∧ SMap.wf false m.ue = true := by
  simp [Mem.wf, and_assoc]

@[simp] theorem storeRaw_base (m : Mem) (pa : Nat) (l : List Byte) : (m.storeRaw pa l).base = m.base := by
  induction l generalizing m pa with
  | nil => rfl
  | cons x l ih => simp [Mem.storeRaw, ih]

@[simp] theorem storeRaw_lines (m : Mem) (pa : Nat) (l : List Byte) : (m.storeRaw pa l).lines = m.lines := by
  induction l generalizing m pa with
  | nil => rfl
  | cons x l ih => simp [Mem.storeRaw, ih]

@[simp] theorem storeRaw_ue (m : Mem) (pa : Nat) (l : List Byte) : (m.storeRaw pa l).ue = m.ue := by
  induction l generalizing m pa with
  | nil => rfl
  | cons x l ih => simp [Mem.storeRaw, ih]

@[simp] theorem storeRaw_power (m : Mem) (pa : Nat) (l : List Byte) : (m.storeRaw pa l).power = m.power := by
  induction l generalizing m pa with
  | nil => rfl
  | cons x l ih => simp [Mem.storeRaw, ih]

/-- A store reads back. -/
theorem storeRaw_raw_in (m : Mem) (pa : Nat) (l : List Byte) (k : Nat) (h : k < l.length) : (m.storeRaw pa l).raw (pa + k) = l[k] := by
  induction l generalizing m pa k with
  | nil => simp at h
  | cons x l ih =>
    cases k with
    | succ k => simp only [Mem.storeRaw]; have := ih { m with bytes := SMap.set 0 m.bytes pa x } (pa + 1) k (by simpa using h)
                simpa [Nat.add_assoc, Nat.add_comm 1 k] using this
    | zero =>
      have key : ∀ (l : List Byte) (m : Mem) (q : Nat), pa < q → (m.storeRaw q l).raw pa = m.raw pa := by
        intro l
        induction l with
        | nil => intro m q _; rfl
        | cons y l ih2 =>
          intro m q hq
          simp only [Mem.storeRaw]
          rw [ih2 _ (q + 1) (by omega)]
          exact get_set_other 0 m.bytes y (by omega)
      simp only [Mem.storeRaw, Nat.add_zero, List.getElem_cons_zero]
      rw [key l _ (pa + 1) (by omega)]
      exact get_set_same 0 m.bytes pa x

/-- A store leaves every other byte as it was. -/
theorem storeRaw_raw_out (m : Mem) (pa : Nat) (l : List Byte) (a : Nat) (h : a < pa ∨ pa + l.length ≤ a) : (m.storeRaw pa l).raw a = m.raw a := by
  induction l generalizing m pa with
  | nil => rfl
  | cons x l ih =>
    simp only [List.length_cons] at h
    simp only [Mem.storeRaw]
    rw [ih _ (pa + 1) (by omega)]
    exact get_set_other 0 m.bytes x (by omega)

theorem storeRaw_wf {m : Mem} (pa : Nat) (l : List Byte) (h : m.wf = true) : (m.storeRaw pa l).wf = true := by
  induction l generalizing m pa with
  | nil => exact h
  | cons x l ih =>
    obtain ⟨hb, hl, hu⟩ := mem_wf_iff.1 h
    exact ih (pa + 1) (mem_wf_iff.2 ⟨set_wf pa x hb, hl, hu⟩)

theorem writeUnit_wf {b : Blk} (dom pa : Nat) (l : List Byte) (h : b.mem.wf = true) : (b.writeUnit dom pa l).mem.wf = true := by
  have h0 : ∀ m : Mem, m.wf = true → ∀ base : Nat,
      ({ m.storeRaw pa l with ue := SMap.set false (m.storeRaw pa l).ue base false } : Mem).wf = true := by
    intro m hm base
    obtain ⟨hb, hl, hu⟩ := mem_wf_iff.1 (storeRaw_wf pa l hm)
    exact mem_wf_iff.2 ⟨hb, hl, set_wf base false hu⟩
  unfold Blk.writeUnit
  dsimp only
  split
  · split
    · obtain ⟨hb, hl, hu⟩ := mem_wf_iff.1 (h0 _ (storeRaw_wf (eccBase pa) (b.readBytes dom (eccBase pa) (eccUnit pa)) h) (eccBase pa))
      exact mem_wf_iff.2 ⟨hb, set_wf _ _ hl, hu⟩
    · obtain ⟨hb, hl, hu⟩ := mem_wf_iff.1 (h0 _ h (eccBase pa))
      exact mem_wf_iff.2 ⟨hb, set_wf _ _ hl, hu⟩
  · split
    · exact h0 _ (storeRaw_wf _ _ h) _
    · exact h0 _ h _

theorem markUe_wf {b : Blk} (pa : Nat) (h : b.mem.wf = true) : (b.markUe pa).mem.wf = true := by
  obtain ⟨hb, hl, hu⟩ := mem_wf_iff.1 h
  exact mem_wf_iff.2 ⟨hb, hl, set_wf (eccBase pa) true hu⟩

theorem zeroRange_wf {b : Blk} (lo n : Nat) (h : b.mem.wf = true) : (b.zeroRange lo n).mem.wf = true := by
  obtain ⟨hb, hl, hu⟩ := mem_wf_iff.1 h
  exact mem_wf_iff.2 ⟨filter_wf _ hb, hl, filter_wf _ hu⟩

theorem warm_wf {m : Mem} (h : m.wf = true) : m.warm.wf = true := by
  obtain ⟨hb, hl, hu⟩ := mem_wf_iff.1 h
  exact mem_wf_iff.2 ⟨filter_wf _ hb, hl, filter_wf _ hu⟩

theorem zeroised_wf {m : Mem} (media : Bool) (h : m.wf = true) : (m.zeroised media).wf = true := by
  cases media
  · exact warm_wf h
  · rfl

theorem dramLost_wf {b : Blk} (h : b.mem.wf = true) : b.dramLost.mem.wf = true := by
  obtain ⟨hb, _, hu⟩ := mem_wf_iff.1 h
  exact mem_wf_iff.2 ⟨filter_wf _ hb, rfl, filter_wf _ hu⟩

/-- An anti-rollback counter raised to a version leaves none lower. -/
theorem modify_max_le (m : SMap Nat) (k x j : Nat) : SMap.get 0 m j ≤ SMap.get 0 (SMap.modify 0 m k (fun v => max v x)) j := by
  unfold SMap.modify
  by_cases h : j = k
  · subst h; rw [get_set_same]; exact Nat.le_max_left _ _
  · rw [get_set_other 0 m _ h]

theorem reset_mem_wf : State.reset.blk.mem.wf = true := rfl

end Sys2Proof.Laws
end

