-- ==== Sys2Proof/Laws/Follows.lean ====
section
/-! SUPPORT. `Blk.Follows` is a preorder, and what the primitives and the combinators of the operations need to stay in it. -/

namespace Sys2Proof.Laws

open Sys2Proof.Machine

theorem follows_refl (b : Blk) : b.Follows b := ⟨id, Nat.le_refl _, Nat.le_refl _, fun _ => Nat.le_refl _, List.prefix_refl _, Nat.le_refl _, Nat.le_refl _⟩

theorem follows_trans {a b c : Blk} (h : a.Follows b) (g : b.Follows c) : a.Follows c :=
  ⟨fun w => g.mem (h.mem w), Nat.le_trans h.epoch g.epoch, Nat.le_trans h.boots g.boots, fun k => Nat.le_trans (h.rollback k) (g.rollback k),
   List.IsPrefix.trans h.out g.out, Nat.le_trans h.ent g.ent, Nat.le_trans h.fv g.fv⟩

variable {a b : Blk} {α β ε : Type}

/-- An update of anything but memory, the interface and the flash. -/
theorem follows_mk {regs : SMap Nat} {xlt : XltSt} {lid : LidSt} {rak : RakSt} {steps : List StepRec} {border : Border}
    {threads : SMap Thread} {stakes : SMap Stake} {wales : SMap Wale} {streams : SMap (Option Stream)} {leave : LeaveSt} {beat : BeatSt}
    {hoopDma : SMap HoopDma} {lossQ : List Nat} {pwr : Pwr} {near : SMap NPort} {banks : SMap Bank} {dig : Dig} {lossFlag : Bool} {far : Far}
    {boot : BootSt} {hoop : HoopSt} {mgmt : MgmtSt} (h : a.Follows b) :
    a.Follows { regs, mem := b.mem, xlt, io := b.io, flash := b.flash, lid, rak, steps, border, threads, stakes, wales, streams, leave, beat, hoopDma, lossQ,
                pwr, near, banks, dig, lossFlag, far, boot, hoop, mgmt } :=
  follows_trans h ⟨id, Nat.le_refl _, Nat.le_refl _, fun _ => Nat.le_refl _, List.prefix_refl _, Nat.le_refl _, Nat.le_refl _⟩

/-- An update of the interface's own state and of anything but memory and the flash. -/
theorem follows_io {b' : Blk} (h : a.Follows b) (hm : b'.mem = b.mem) (hf : b'.flash = b.flash) (ho : b'.io.out = b.io.out)
    (he : b.io.ent ≤ b'.io.ent) (hv : b.io.fv ≤ b'.io.fv) : a.Follows b' :=
  follows_trans h ⟨by rw [hm]; exact id, by rw [hf], by rw [hf], fun _ => by rw [hf], by rw [ho], he, hv⟩

/-- An update of memory that keeps its canonical form, and of anything but the interface and the flash. -/
theorem follows_mem {b' : Blk} (h : a.Follows b) (hm : b.mem.wf = true → b'.mem.wf = true) (hf : b'.flash = b.flash) (hi : b'.io = b.io) : a.Follows b' :=
  follows_trans h ⟨hm, by rw [hf], by rw [hf], fun _ => by rw [hf], by rw [hi], by rw [hi], by rw [hi]⟩

/-- An update of the flash whose counters do not fall. -/
theorem follows_flash {b' : Blk} (h : a.Follows b) (hm : b'.mem = b.mem) (hi : b'.io = b.io) (he : b.flash.epoch ≤ b'.flash.epoch)
    (hb : b.flash.boots ≤ b'.flash.boots) (hr : b'.flash.rollback = b.flash.rollback) : a.Follows b' :=
  follows_trans h ⟨by rw [hm]; exact id, he, hb, fun _ => by rw [hr], by rw [hi], by rw [hi], by rw [hi]⟩

/-- A pair whose first component follows. -/
theorem follows_fst {x : α} (h : a.Follows b) : a.Follows (b, x).1 := h
theorem follows_snd {x : α} (h : a.Follows b) : a.Follows (x, b).2 := h

/-- A result taken apart. -/
theorem follows_of_fst {p : Blk × α} {x : α} (e : p = (b, x)) (h : a.Follows p.1) : a.Follows b := by subst e; exact h
theorem follows_of_snd {p : α × Blk} {x : α} (e : p = (x, b)) (h : a.Follows p.2) : a.Follows b := by subst e; exact h

/-- An optional or failing result. -/
def FollowsO (a : Blk) (o : Option Blk) : Prop := ∀ b, o = some b → a.Follows b
def FollowsE (a : Blk) (o : Except ε Blk) : Prop := ∀ b, o = .ok b → a.Follows b

theorem followsO_none : FollowsO a none := by intro b h; cases h
theorem followsO_some (h : a.Follows b) : FollowsO a (some b) := by intro c e; cases e; exact h
theorem followsE_error {x : ε} : FollowsE a (.error x : Except ε Blk) := by intro b h; cases h
theorem followsE_ok (h : a.Follows b) : FollowsE a (.ok b : Except ε Blk) := by intro c e; cases e; exact h
theorem follows_of_some {o : Option Blk} (e : o = some b) (h : FollowsO a o) : a.Follows b := h b e
theorem follows_of_ok {o : Except ε Blk} (e : o = .ok b) (h : FollowsE a o) : a.Follows b := h b e

theorem follows_when (h : a.Follows b) (c : Bool) (f : Blk → Blk) (hf : ∀ b, a.Follows b → a.Follows (f b)) : a.Follows (b.when c f) := by
  unfold Blk.when; split
  · exact hf b h
  · exact h

theorem follows_foldl (f : Blk → α → Blk) (hf : ∀ b x, a.Follows b → a.Follows (f b x)) (l : List α) (h : a.Follows b) :
    a.Follows (l.foldl f b) := by
  induction l generalizing b with
  | nil => exact h
  | cons x l ih => exact ih (hf b x h)

theorem follows_foldl_fst (f : Blk × β → α → Blk × β) (hf : ∀ p x, a.Follows p.1 → a.Follows (f p x).1) (l : List α) (p : Blk × β) (h : a.Follows p.1) :
    a.Follows (l.foldl f p).1 := by
  induction l generalizing p with
  | nil => exact h
  | cons x l ih => exact ih _ (hf p x h)

theorem follows_each (h : a.Follows b) (l : List α) (f : Blk → α → Blk) (hf : ∀ b x, a.Follows b → a.Follows (f b x)) : a.Follows (b.each l f) :=
  follows_foldl f hf l h

/-- A command whose effect follows. -/
theorem cmd_follows {ok : Bool} {s s' : State} {f : Blk → Blk} (h : cmd ok s f = .next s') (hf : s.blk.Follows (f s.blk)) : s.blk.Follows s'.blk := by
  cases ok
  · cases h
  · cases h; exact hf

theorem follows_send (h : a.Follows b) (o : Out) : a.Follows (b.send o) :=
  follows_trans h ⟨id, Nat.le_refl _, Nat.le_refl _, fun _ => Nat.le_refl _, List.prefix_append _ _, Nat.le_refl _, Nat.le_refl _⟩

end Sys2Proof.Laws
end

