-- ==== Sys2Proof/Laws/FollowsOps.lean ====
section
/-! SUPPORT. Each operation of Machine/Ops.lean stays in `Blk.Follows`: it keeps the memory canonical, lowers no flash counter and takes back nothing sent. -/

namespace Sys2Proof.Laws

open Sys2Proof.Machine

theorem wr_follows {a0 : Blk} (b : Blk) (f : Fld) (v : Nat) (i : Nat) (h_b : a0.Follows b) : Blk.Follows a0 (@Blk.wr b f v i) := by
  unfold Blk.wr
  try dsimp only
  apply follows_mk
  assumption

theorem add_follows {a0 : Blk} (b : Blk) (f : Fld) (n : Nat) (i : Nat) (h_b : a0.Follows b) : Blk.Follows a0 (@Blk.add b f n i) := by
  unfold Blk.add
  try dsimp only
  apply wr_follows
  assumption

theorem inc_follows {a0 : Blk} (b : Blk) (f : Fld) (i : Nat) (h_b : a0.Follows b) : Blk.Follows a0 (@Blk.inc b f i) := by
  unfold Blk.inc
  try dsimp only
  apply add_follows
  assumption

theorem addW_follows {a0 : Blk} (b : Blk) (f : Fld) (n : Nat) (i : Nat) (h_b : a0.Follows b) : Blk.Follows a0 (@Blk.addW b f n i) := by
  unfold Blk.addW
  try dsimp only
  apply wr_follows
  assumption

theorem dec_follows {a0 : Blk} (b : Blk) (f : Fld) (i : Nat) (h_b : a0.Follows b) : Blk.Follows a0 (@Blk.dec b f i) := by
  unfold Blk.dec
  try dsimp only
  apply wr_follows
  assumption

theorem orBits_follows {a0 : Blk} (b : Blk) (f : Fld) (m : Nat) (i : Nat) (h_b : a0.Follows b) : Blk.Follows a0 (@Blk.orBits b f m i) := by
  unfold Blk.orBits
  try dsimp only
  apply wr_follows
  assumption

theorem clrBits_follows {a0 : Blk} (b : Blk) (f : Fld) (m : Nat) (i : Nat) (h_b : a0.Follows b) : Blk.Follows a0 (@Blk.clrBits b f m i) := by
  unfold Blk.clrBits
  try dsimp only
  apply wr_follows
  assumption

theorem rstF_follows {a0 : Blk} (b : Blk) (f : Fld) (i : Nat) (h_b : a0.Follows b) : Blk.Follows a0 (@Blk.rstF b f i) := by
  unfold Blk.rstF
  try dsimp only
  apply wr_follows
  assumption

theorem wr64_follows {a0 : Blk} (b : Blk) (lo : Fld) (hi : Fld) (v : Nat) (i : Nat) (h_b : a0.Follows b) : Blk.Follows a0 (@Blk.wr64 b lo hi v i) := by
  unfold Blk.wr64
  try dsimp only
  apply wr_follows
  apply wr_follows
  assumption

theorem add64_follows {a0 : Blk} (b : Blk) (lo : Fld) (hi : Fld) (n : Nat) (i : Nat) (h_b : a0.Follows b) : Blk.Follows a0 (@Blk.add64 b lo hi n i) := by
  unfold Blk.add64
  try dsimp only
  apply wr64_follows
  assumption

theorem draw_follows {a0 : Blk} (b : Blk) (h_b : a0.Follows b) : Blk.Follows a0 (@Blk.draw b).2 := by
  exact follows_io h_b rfl rfl rfl (Nat.le_refl _) (Nat.le_succ _)

theorem entUsed_follows {a0 : Blk} (b : Blk) (h_b : a0.Follows b) : Blk.Follows a0 (@Blk.entUsed b) := by
  exact follows_io h_b rfl rfl rfl (Nat.le_succ _) (Nat.le_refl _)

end Sys2Proof.Laws
end

