-- ==== Sys2Proof/Laws/FollowsMemory.lean ====
section
/-! SUPPORT. Each operation of Machine/Memory.lean stays in `Blk.Follows`: it keeps the memory canonical, lowers no flash counter and takes back nothing sent. -/

namespace Sys2Proof.Laws

open Sys2Proof.Machine

theorem markUe_follows {a0 : Blk} (b : Blk) (pa : Nat) (h_b : a0.Follows b) : Blk.Follows a0 (@Blk.markUe b pa) := by
  exact follows_mem h_b (markUe_wf pa) rfl rfl

theorem writeUnit_follows {a0 : Blk} (b : Blk) (dom : Nat) (pa : Nat) (l : List Byte) (h_b : a0.Follows b) : Blk.Follows a0 (@Blk.writeUnit b dom pa l) := by
  exact follows_mem h_b (writeUnit_wf dom pa l) rfl rfl

theorem writeGo_follows {a0 : Blk} (b : Blk) (dom : Nat) (fuel : Nat) (pa : Nat) (a_4 : List Byte) (h_b : a0.Follows b) : Blk.Follows a0 (@Blk.writeGo b dom fuel pa a_4).1 := by
  induction fuel generalizing b dom pa a_4 h_b with
  | zero =>
  unfold Blk.writeGo
  try dsimp only
  assumption
  | succ q1 ih =>
  unfold Blk.writeGo
  try dsimp only
  split
  · apply follows_fst
    assumption
  · split
    · apply follows_fst
      assumption
    · apply ih
      apply writeUnit_follows
      assumption

theorem writeBytes_follows {a0 : Blk} (b : Blk) (dom : Nat) (pa : Nat) (l : List Byte) (h_b : a0.Follows b) : Blk.Follows a0 (@Blk.writeBytes b dom pa l).1 := by
  unfold Blk.writeBytes
  try dsimp only
  apply writeGo_follows
  assumption

theorem tryNat_follows {a0 : Blk} (b : Blk) (dom : Nat) (pa : Nat) (n : Nat) (v : Nat) (h_b : a0.Follows b) : Blk.Follows a0 (@Blk.tryNat b dom pa n v) := by
  unfold Blk.tryNat
  try dsimp only
  split
  · refine follows_of_fst (by assumption) ?_
    apply writeBytes_follows
    assumption
  · assumption

theorem setXl_follows {a0 : Blk} (b : Blk) (u : Nat) (x : Xl) (h_b : a0.Follows b) : Blk.Follows a0 (@Blk.setXl b u x) := by
  unfold Blk.setXl
  try dsimp only
  apply follows_mk
  assumption

theorem victim_follows {a0 : Blk} (b : Blk) (n : Nat) (h_b : a0.Follows b) : Blk.Follows a0 (@Blk.victim b n).2 := by
  exact follows_io h_b rfl rfl rfl (Nat.le_refl _) (Nat.le_succ _)

theorem xlFill_follows {a0 : Blk} (b : Blk) (u : Nat) (va : Nat) (ws : List WalkEnt) (r : Xlate) (h_b : a0.Follows b) : Blk.Follows a0 (@Blk.xlFill b u va ws r) := by
  unfold Blk.xlFill
  try dsimp only
  split
  · assumption
  · apply setXl_follows
    apply victim_follows
    apply victim_follows
    assumption

theorem xlate1_follows {a0 : Blk} (b : Blk) (u : Nat) (cls : Nat) (write : Bool) (va : Nat) (h_b : a0.Follows b) : Blk.Follows a0 (@Blk.xlate1 b u cls write va).1 := by
  unfold Blk.xlate1
  try dsimp only
  split
  · apply follows_fst
    split
    · assumption
    · apply add64_follows
      assumption
  · split
    · apply follows_fst
      apply xlFill_follows
      split
      · apply setXl_follows
        assumption
      · apply inc_follows
        apply setXl_follows
        assumption
    · apply follows_fst
      split
      · apply xlFill_follows
        apply setXl_follows
        assumption
      · apply inc_follows
        apply xlFill_follows
        apply inc_follows
        apply setXl_follows
        assumption

theorem xlateGo_follows {a0 : Blk} (u : Nat) (cls : Nat) (write : Bool) (fuel : Nat) (a_4 : Blk) (first : Bool) (va : Nat) (n : Nat) (h_a_4 : a0.Follows a_4) : Blk.Follows a0 (@Blk.xlateGo u cls write fuel a_4 first va n).1 := by
  induction fuel generalizing u cls write a_4 first va n h_a_4 with
  | zero =>
  unfold Blk.xlateGo
  try dsimp only
  assumption
  | succ q1 ih =>
  unfold Blk.xlateGo
  try dsimp only
  split
  · apply follows_fst
    assumption
  · split
    · apply follows_fst
      refine follows_of_fst (by assumption) ?_
      apply xlate1_follows
      assumption
    · split
      · apply follows_fst
        refine follows_of_fst (by assumption) ?_
        apply ih
        refine follows_of_fst (by assumption) ?_
        apply xlate1_follows
        assumption
      · apply follows_fst
        refine follows_of_fst (by assumption) ?_
        apply ih
        refine follows_of_fst (by assumption) ?_
        apply xlate1_follows
        assumption

theorem xlateRange_follows {a0 : Blk} (b : Blk) (u : Nat) (cls : Nat) (write : Bool) (va : Nat) (n : Nat) (h_b : a0.Follows b) : Blk.Follows a0 (@Blk.xlateRange b u cls write va n).1 := by
  unfold Blk.xlateRange
  try dsimp only
  apply xlateGo_follows
  assumption

theorem writePieces_follows {a0 : Blk} (cls : Nat) (a_1 : List Piece) (a_2 : Blk) (a_3 : List Byte) (h_a_2 : a0.Follows a_2) : Blk.Follows a0 (@Blk.writePieces cls a_1 a_2 a_3).1 := by
  induction a_1 generalizing cls a_2 a_3 h_a_2 with
  | nil =>
  unfold Blk.writePieces
  try dsimp only
  assumption
  | cons q1 q2 ih =>
  unfold Blk.writePieces
  try dsimp only
  split
  · apply follows_fst
    assumption
  · split
    · apply follows_fst
      refine follows_of_fst (by assumption) ?_
      apply writeBytes_follows
      assumption
    · apply ih
      refine follows_of_fst (by assumption) ?_
      apply writeBytes_follows
      assumption

theorem zeroRange_follows {a0 : Blk} (b : Blk) (lo : Nat) (n : Nat) (h_b : a0.Follows b) : Blk.Follows a0 (@Blk.zeroRange b lo n) := by
  exact follows_mem h_b (zeroRange_wf lo n) rfl rfl

theorem readVa_follows {a0 : Blk} (b : Blk) (u : Nat) (cls : Nat) (va : Nat) (n : Nat) (h_b : a0.Follows b) : Blk.Follows a0 (@Blk.readVa b u cls va n).1 := by
  unfold Blk.readVa
  try dsimp only
  split
  · apply follows_fst
    refine follows_of_fst (by assumption) ?_
    apply xlateRange_follows
    assumption
  · apply follows_fst
    refine follows_of_fst (by assumption) ?_
    apply xlateRange_follows
    assumption

theorem writeVa_follows {a0 : Blk} (b : Blk) (u : Nat) (cls : Nat) (va : Nat) (l : List Byte) (dom : Option Nat) (h_b : a0.Follows b) : Blk.Follows a0 (@Blk.writeVa b u cls va l dom).1 := by
  unfold Blk.writeVa
  try dsimp only
  split
  · apply follows_fst
    refine follows_of_fst (by assumption) ?_
    apply xlateRange_follows
    assumption
  · apply writePieces_follows
    refine follows_of_fst (by assumption) ?_
    apply xlateRange_follows
    assumption

theorem noteUe_follows {a0 : Blk} (b : Blk) (pa : Nat) (h_b : a0.Follows b) : Blk.Follows a0 (@Blk.noteUe b pa) := by
  unfold Blk.noteUe
  try dsimp only
  split
  · apply wr64_follows
    apply inc_follows
    assumption
  · apply wr64_follows
    apply inc_follows
    assumption
  · assumption

theorem writePa_follows {a0 : Blk} (b : Blk) (cls : Nat) (dom : Nat) (pa : Nat) (l : List Byte) (h_b : a0.Follows b) : Blk.Follows a0 (@Blk.writePa b cls dom pa l).1 := by
  unfold Blk.writePa
  try dsimp only
  apply writePieces_follows
  assumption

theorem writeNat_follows {a0 : Blk} (b : Blk) (dom : Nat) (pa : Nat) (n : Nat) (v : Nat) (h_b : a0.Follows b) : Blk.Follows a0 (@Blk.writeNat b dom pa n v) := by
  unfold Blk.writeNat
  try dsimp only
  apply writeBytes_follows
  assumption

end Sys2Proof.Laws
end

