-- ==== Sys2Proof/Laws/FollowsFlags.lean ====
section
/-! SUPPORT. Each operation of Machine/Flags.lean stays in `Blk.Follows`: it keeps the memory canonical, lowers no flash counter and takes back nothing sent. -/

namespace Sys2Proof.Laws

open Sys2Proof.Machine

theorem rakSend_follows {a0 : Blk} (b : Blk) (chan : Nat) (clear : Bool) (m : RakMsg) (h_b : a0.Follows b) : Blk.Follows a0 (@Blk.rakSend b chan clear m) := by
  unfold Blk.rakSend
  try dsimp only
  split
  · assumption
  · apply follows_send
    apply follows_mk
    apply add64_follows
    assumption

theorem rakLink_follows {a0 : Blk} (b : Blk) (m : RakMsg) (h_b : a0.Follows b) : Blk.Follows a0 (@Blk.rakLink b m) := by
  unfold Blk.rakLink
  try dsimp only
  apply rakSend_follows
  with_reducible assumption

theorem rakEvent_follows {a0 : Blk} (b : Blk) (r : EvtRec) (h_b : a0.Follows b) : Blk.Follows a0 (@Blk.rakEvent b r) := by
  unfold Blk.rakEvent
  try dsimp only
  split
  · assumption
  · split
    · apply rakSend_follows
      apply follows_mk
      assumption
    · split
      · apply inc_follows
        apply follows_mk
        assumption
      · apply follows_mk
        assumption

theorem setEvent_follows {a0 : Blk} (b : Blk) (p : Page) (i : Nat) (mask : Nat) (h_b : a0.Follows b) : Blk.Follows a0 (@Blk.setEvent b p i mask) := by
  unfold Blk.setEvent
  try dsimp only
  split
  · split
    · apply wr_follows
      split
      · apply wr_follows
        split
        · apply wr_follows
          split
          · apply wr_follows
            assumption
          · assumption
        · split
          · apply wr_follows
            assumption
          · assumption
      · split
        · apply wr_follows
          split
          · apply wr_follows
            assumption
          · assumption
        · split
          · apply wr_follows
            assumption
          · assumption
    · split
      · apply wr_follows
        split
        · apply wr_follows
          split
          · apply wr_follows
            assumption
          · assumption
        · split
          · apply wr_follows
            assumption
          · assumption
      · split
        · apply wr_follows
          split
          · apply wr_follows
            assumption
          · assumption
        · split
          · apply wr_follows
            assumption
          · assumption
  · apply orBits_follows
    split
    · apply wr_follows
      split
      · apply wr_follows
        split
        · apply wr_follows
          split
          · apply wr_follows
            assumption
          · assumption
        · split
          · apply wr_follows
            assumption
          · assumption
      · split
        · apply wr_follows
          split
          · apply wr_follows
            assumption
          · assumption
        · split
          · apply wr_follows
            assumption
          · assumption
    · split
      · apply wr_follows
        split
        · apply wr_follows
          split
          · apply wr_follows
            assumption
          · assumption
        · split
          · apply wr_follows
            assumption
          · assumption
      · split
        · apply wr_follows
          split
          · apply wr_follows
            assumption
          · assumption
        · split
          · apply wr_follows
            assumption
          · assumption

theorem capture_follows {a0 : Blk} (b : Blk) (p : Page) (i : Nat) (e : Err) (h_b : a0.Follows b) : Blk.Follows a0 (@Blk.capture b p i e) := by
  unfold Blk.capture
  try dsimp only
  split
  · apply wr_follows
    apply inc_follows
    assumption
  · apply wr_follows
    apply wr_follows
    apply wr_follows
    apply wr_follows
    apply wr_follows
    assumption

theorem sanitise_follows {a0 : Blk} (b : Blk) (ptype : Nat) (inst : Nat) (cls : Nat) (h_b : a0.Follows b) : Blk.Follows a0 (@Blk.sanitise b ptype inst cls) := by
  unfold Blk.sanitise
  try dsimp only
  apply follows_mk
  assumption

theorem logBuffer_follows {a0 : Blk} (b : Blk) (r : LogRec) (h_b : a0.Follows b) : Blk.Follows a0 (@Blk.logBuffer b r) := by
  unfold Blk.logBuffer
  try dsimp only
  split
  · apply follows_mk
    assumption
  · apply inc_follows
    assumption

theorem ueQuiet_follows {a0 : Blk} (b : Blk) (pa : Nat) (cls : Nat) (h_b : a0.Follows b) : Blk.Follows a0 (@Blk.ueQuiet b pa cls) := by
  unfold Blk.ueQuiet
  try dsimp only
  split
  · apply logBuffer_follows
    apply sanitise_follows
    apply setEvent_follows
    apply capture_follows
    apply noteUe_follows
    apply draw_follows
    with_reducible assumption
  · apply logBuffer_follows
    apply sanitise_follows
    apply setEvent_follows
    apply capture_follows
    apply noteUe_follows
    apply draw_follows
    with_reducible assumption
  · with_reducible assumption

theorem evtMsi_follows {a0 : Blk} (b : Blk) (g : Nat) (h_b : a0.Follows b) : Blk.Follows a0 (@Blk.evtMsi b g) := by
  unfold Blk.evtMsi
  try dsimp only
  split
  · apply follows_send
    assumption
  · assumption

theorem evtWrite_follows {a0 : Blk} (b : Blk) (g : Nat) (r : EvtRec) (h_b : a0.Follows b) : Blk.Follows a0 (@Blk.evtWrite b g r).1 := by
  unfold Blk.evtWrite
  try dsimp only
  split
  · dsimp only
    apply evtMsi_follows
    apply addW_follows
    refine follows_of_fst (by assumption) ?_
    apply writeVa_follows
    with_reducible assumption
  · dsimp only
    split
    · apply ueQuiet_follows
      with_reducible assumption
    · with_reducible assumption

theorem setEvtQueue_follows {a0 : Blk} (b : Blk) (g : Nat) (l : List EvtRec) (h_b : a0.Follows b) : Blk.Follows a0 (@Blk.setEvtQueue b g l) := by
  exact follows_io h_b rfl rfl rfl (Nat.le_refl _) (Nat.le_refl _)

theorem evtPost_follows {a0 : Blk} (b : Blk) (g : Nat) (r : EvtRec) (h_b : a0.Follows b) : Blk.Follows a0 (@Blk.evtPost b g r) := by
  unfold Blk.evtPost
  try dsimp only
  split
  · apply inc_follows
    apply setEvtQueue_follows
    with_reducible assumption
  · split
    · split
      · refine follows_of_fst (by assumption) ?_
        apply evtWrite_follows
        with_reducible assumption
      · apply setEvtQueue_follows
        refine follows_of_fst (by assumption) ?_
        apply evtWrite_follows
        with_reducible assumption
    · apply setEvtQueue_follows
      with_reducible assumption

theorem evtDrain_follows {a0 : Blk} (b : Blk) (g : Nat) (fuel : Nat) (h_b : a0.Follows b) : Blk.Follows a0 (@Blk.evtDrain b g fuel) := by
  induction fuel generalizing b g h_b with
  | zero =>
    unfold Blk.evtDrain
    try dsimp only
    with_reducible assumption
  | succ fuel ih =>
    unfold Blk.evtDrain
    try dsimp only
    split
    · with_reducible assumption
    · split
      · split
        · apply ih
          apply setEvtQueue_follows
          refine follows_of_fst (by assumption) ?_
          apply evtWrite_follows
          with_reducible assumption
        · refine follows_of_fst (by assumption) ?_
          apply evtWrite_follows
          with_reducible assumption
      · with_reducible assumption

theorem deliver_follows {a0 : Blk} (b : Blk) (p : Page) (i : Nat) (mask : Nat) (h_b : a0.Follows b) : Blk.Follows a0 (@Blk.deliver b p i mask) := by
  unfold Blk.deliver
  try dsimp only
  split
  · apply rakEvent_follows
    split
    · apply evtPost_follows
      split
      · apply evtPost_follows
        assumption
      · assumption
    · split
      · apply evtPost_follows
        assumption
      · assumption
  · split
    · apply evtPost_follows
      assumption
    · assumption

theorem raise_follows {a0 : Blk} (b : Blk) (p : Page) (i : Nat) (mask : Nat) (h_b : a0.Follows b) : Blk.Follows a0 (@Blk.raise b p i mask) := by
  unfold Blk.raise
  try dsimp only
  split
  · apply setEvent_follows
    assumption
  · apply follows_each
    · apply deliver_follows
      apply setEvent_follows
      assumption
    · intros
      split
      · split
        · apply deliver_follows
          apply setEvent_follows
          assumption
        · apply setEvent_follows
          assumption
      · assumption

theorem event_follows {a0 : Blk} (b : Blk) (p : Page) (n : Nat) (i : Nat) (h_b : a0.Follows b) : Blk.Follows a0 (@Blk.event b p n i) := by
  unfold Blk.event
  try dsimp only
  apply raise_follows
  assumption

theorem setSt_follows {a0 : Blk} (b : Blk) (p : Page) (i : Nat) (s : Nat) (h_b : a0.Follows b) : Blk.Follows a0 (@Blk.setSt b p i s) := by
  unfold Blk.setSt
  try dsimp only
  apply raise_follows
  apply wr_follows
  assumption

theorem logFault_follows {a0 : Blk} (b : Blk) (va : Nat) (f : Fail) (h_b : a0.Follows b) : Blk.Follows a0 (@Blk.logFault b va f) := by
  unfold Blk.logFault
  try dsimp only
  apply logBuffer_follows
  apply sanitise_follows
  apply raise_follows
  apply capture_follows
  apply follows_mk
  assumption

theorem logDrain_follows {a0 : Blk} (b : Blk) (fuel : Nat) (h_b : a0.Follows b) : Blk.Follows a0 (@Blk.logDrain b fuel) := by
  induction fuel generalizing b h_b with
  | zero =>
    unfold Blk.logDrain
    try dsimp only
    with_reducible assumption
  | succ fuel ih =>
    unfold Blk.logDrain
    try dsimp only
    split
    · with_reducible assumption
    · split
      · with_reducible assumption
      · split
        · apply ih
          apply addW_follows
          apply follows_mk
          refine follows_of_fst (by assumption) ?_
          apply writeVa_follows
          with_reducible assumption
        · apply logFault_follows
          split
          · apply ueQuiet_follows
            with_reducible assumption
          · with_reducible assumption

theorem log_follows {a0 : Blk} (b : Blk) (ptype : Nat) (inst : Nat) (e : Err) (h_b : a0.Follows b) : Blk.Follows a0 (@Blk.log b ptype inst e) := by
  unfold Blk.log
  try dsimp only
  apply logDrain_follows
  apply logBuffer_follows
  apply sanitise_follows
  assumption

theorem error_follows {a0 : Blk} (b : Blk) (p : Page) (i : Nat) (e : Err) (h_b : a0.Follows b) : Blk.Follows a0 (@Blk.error b p i e) := by
  unfold Blk.error
  try dsimp only
  apply log_follows
  apply raise_follows
  apply capture_follows
  assumption

theorem memUe_follows {a0 : Blk} (b : Blk) (pa : Nat) (cls : Nat) (unit : Nat) (h_b : a0.Follows b) : Blk.Follows a0 (@Blk.memUe b pa cls unit) := by
  unfold Blk.memUe
  try dsimp only
  split
  · apply event_follows
    apply error_follows
    apply noteUe_follows
    with_reducible assumption
  · apply event_follows
    apply error_follows
    apply noteUe_follows
    with_reducible assumption
  · with_reducible assumption

theorem ueOf_follows {a0 : Blk} (b : Blk) (f : Fail) (cls : Nat) (unit : Option Nat) (h_b : a0.Follows b) : Blk.Follows a0 (@Blk.ueOf b f cls unit) := by
  unfold Blk.ueOf
  try dsimp only
  split
  · with_reducible assumption
  · split
    · apply memUe_follows
      with_reducible assumption
    · apply memUe_follows
      apply draw_follows
      with_reducible assumption

theorem ueIn_follows {a0 : Blk} (b : Blk) (cls : Nat) (unit : Option Nat) (pa : Nat) (n : Nat) (h_b : a0.Follows b) : Blk.Follows a0 (@Blk.ueIn b cls unit pa n) := by
  unfold Blk.ueIn
  try dsimp only
  split
  · apply ueOf_follows
    with_reducible assumption
  · with_reducible assumption

theorem loadVa_follows {a0 : Blk} (b : Blk) (u : Nat) (cls : Nat) (unit : Option Nat) (va : Nat) (n : Nat) (h_b : a0.Follows b) : Blk.Follows a0 (@Blk.loadVa b u cls unit va n).1 := by
  unfold Blk.loadVa
  try dsimp only
  split
  · dsimp only
    apply ueOf_follows
    refine follows_of_fst (by assumption) ?_
    apply readVa_follows
    with_reducible assumption
  · dsimp only
    refine follows_of_fst (by assumption) ?_
    apply readVa_follows
    with_reducible assumption

theorem storeVa_follows {a0 : Blk} (b : Blk) (u : Nat) (cls : Nat) (unit : Option Nat) (va : Nat) (l : List Byte) (dom : optParam (Option Nat) none) (h_b : a0.Follows b) : Blk.Follows a0 (@Blk.storeVa b u cls unit va l dom).1 := by
  unfold Blk.storeVa
  try dsimp only
  split
  · dsimp only
    apply ueOf_follows
    refine follows_of_fst (by assumption) ?_
    apply writeVa_follows
    with_reducible assumption
  · dsimp only
    refine follows_of_fst (by assumption) ?_
    apply writeVa_follows
    with_reducible assumption

theorem storePa_follows {a0 : Blk} (b : Blk) (cls : Nat) (unit : Option Nat) (dom : Nat) (pa : Nat) (l : List Byte) (h_b : a0.Follows b) : Blk.Follows a0 (@Blk.storePa b cls unit dom pa l).1 := by
  unfold Blk.storePa
  try dsimp only
  split
  · dsimp only
    apply ueOf_follows
    refine follows_of_fst (by assumption) ?_
    apply writePa_follows
    with_reducible assumption
  · dsimp only
    refine follows_of_fst (by assumption) ?_
    apply writePa_follows
    with_reducible assumption

theorem authFail_follows {a0 : Blk} (b : Blk) (h_b : a0.Follows b) : Blk.Follows a0 (@Blk.authFail b) := by
  unfold Blk.authFail
  try dsimp only
  apply error_follows
  apply inc_follows
  assumption

theorem setFqBroken_follows {a0 : Blk} (b : Blk) (fw : Bool) (v : Bool) (h_b : a0.Follows b) : Blk.Follows a0 (@Blk.setFqBroken b fw v) := by
  unfold Blk.setFqBroken
  try dsimp only
  apply follows_mk
  assumption

theorem fqWrite_follows {a0 : Blk} (b : Blk) (r : FaultRec) (h_b : a0.Follows b) : Blk.Follows a0 (@Blk.fqWrite b r).1 := by
  unfold Blk.fqWrite
  try dsimp only
  split
  · dsimp only
    split
    · apply event_follows
      split
      · apply inc_follows
        split
        · apply follows_mk
          split
          · apply addW_follows
            refine follows_of_fst (by assumption) ?_
            apply writeVa_follows
            with_reducible assumption
          · apply inc_follows
            apply addW_follows
            refine follows_of_fst (by assumption) ?_
            apply writeVa_follows
            with_reducible assumption
        · split
          · apply addW_follows
            refine follows_of_fst (by assumption) ?_
            apply writeVa_follows
            with_reducible assumption
          · apply inc_follows
            apply addW_follows
            refine follows_of_fst (by assumption) ?_
            apply writeVa_follows
            with_reducible assumption
      · split
        · apply follows_mk
          split
          · apply addW_follows
            refine follows_of_fst (by assumption) ?_
            apply writeVa_follows
            with_reducible assumption
          · apply inc_follows
            apply addW_follows
            refine follows_of_fst (by assumption) ?_
            apply writeVa_follows
            with_reducible assumption
        · split
          · apply addW_follows
            refine follows_of_fst (by assumption) ?_
            apply writeVa_follows
            with_reducible assumption
          · apply inc_follows
            apply addW_follows
            refine follows_of_fst (by assumption) ?_
            apply writeVa_follows
            with_reducible assumption
    · split
      · apply inc_follows
        split
        · apply follows_mk
          split
          · apply addW_follows
            refine follows_of_fst (by assumption) ?_
            apply writeVa_follows
            with_reducible assumption
          · apply inc_follows
            apply addW_follows
            refine follows_of_fst (by assumption) ?_
            apply writeVa_follows
            with_reducible assumption
        · split
          · apply addW_follows
            refine follows_of_fst (by assumption) ?_
            apply writeVa_follows
            with_reducible assumption
          · apply inc_follows
            apply addW_follows
            refine follows_of_fst (by assumption) ?_
            apply writeVa_follows
            with_reducible assumption
      · split
        · apply follows_mk
          split
          · apply addW_follows
            refine follows_of_fst (by assumption) ?_
            apply writeVa_follows
            with_reducible assumption
          · apply inc_follows
            apply addW_follows
            refine follows_of_fst (by assumption) ?_
            apply writeVa_follows
            with_reducible assumption
        · split
          · apply addW_follows
            refine follows_of_fst (by assumption) ?_
            apply writeVa_follows
            with_reducible assumption
          · apply inc_follows
            apply addW_follows
            refine follows_of_fst (by assumption) ?_
            apply writeVa_follows
            with_reducible assumption
  · dsimp only
    split
    · apply error_follows
      apply setFqBroken_follows
      apply ueOf_follows
      with_reducible assumption
    · apply event_follows
      apply error_follows
      apply setFqBroken_follows
      apply ueOf_follows
      with_reducible assumption

theorem fqHold_follows {a0 : Blk} (b : Blk) (r : FaultRec) (h_b : a0.Follows b) : Blk.Follows a0 (@Blk.fqHold b r) := by
  unfold Blk.fqHold
  try dsimp only
  split
  · apply event_follows
    apply inc_follows
    apply follows_mk
    assumption
  · apply inc_follows
    apply follows_mk
    assumption

theorem sendFault_follows {a0 : Blk} (b : Blk) (r : FaultRec) (h_b : a0.Follows b) : Blk.Follows a0 (@Blk.sendFault b r) := by
  unfold Blk.sendFault
  try dsimp only
  split
  · apply fqHold_follows
    assumption
  · split
    · refine follows_of_fst (by assumption) ?_
      apply fqWrite_follows
      assumption
    · apply fqHold_follows
      refine follows_of_fst (by assumption) ?_
      apply fqWrite_follows
      assumption

theorem fqDrain_follows {a0 : Blk} (b : Blk) (fw : Bool) (fuel : Nat) (h_b : a0.Follows b) : Blk.Follows a0 (@Blk.fqDrain b fw fuel) := by
  induction fuel generalizing b fw h_b with
  | zero =>
  unfold Blk.fqDrain
  try dsimp only
  assumption
  | succ q1 ih =>
  unfold Blk.fqDrain
  try dsimp only
  split
  · assumption
  · split
    · assumption
    · split
      · apply ih
        apply dec_follows
        apply follows_mk
        refine follows_of_fst (by assumption) ?_
        apply fqWrite_follows
        assumption
      · refine follows_of_fst (by assumption) ?_
        apply fqWrite_follows
        assumption

theorem unsusp_follows {a0 : Blk} (b : Blk) (kind : Nat) (unit : Nat) (h_b : a0.Follows b) : Blk.Follows a0 (@Blk.unsusp b kind unit) := by
  unfold Blk.unsusp
  try dsimp only
  split
  · assumption
  · split
    · apply follows_mk
      assumption
    · apply dec_follows
      apply follows_mk
      assumption

theorem unhold_follows {a0 : Blk} (b : Blk) (kind : Nat) (unit : Nat) (h_b : a0.Follows b) : Blk.Follows a0 (@Blk.unhold b kind unit) := by
  unfold Blk.unhold
  try dsimp only
  apply follows_each
  · apply follows_mk
    assumption
  · intros
    apply dec_follows
    assumption

theorem platformEvent_follows {a0 : Blk} (b : Blk) (sensor : Nat) (value : Nat) (h_b : a0.Follows b) : Blk.Follows a0 (@Blk.platformEvent b sensor value) := by
  induction sensor generalizing b value h_b with
  | zero =>
    unfold Blk.platformEvent
    try dsimp only
    split
    · apply follows_send
      apply wr_follows
      apply follows_mk
      with_reducible assumption
    · split
      · apply follows_send
        apply wr_follows
        apply follows_mk
        with_reducible assumption
      · with_reducible assumption
  | succ sensor ih =>
    unfold Blk.platformEvent
    try dsimp only
    split
    · apply follows_send
      apply wr_follows
      apply follows_mk
      with_reducible assumption
    · split
      · apply follows_send
        apply wr_follows
        apply follows_mk
        with_reducible assumption
      · with_reducible assumption

theorem stateEvents_follows {a0 : Blk} (b : Blk) (h_b : a0.Follows b) : Blk.Follows a0 (@Blk.stateEvents b) := by
  unfold Blk.stateEvents
  try dsimp only
  split
  · with_reducible assumption
  · apply follows_foldl
    · intros
      split
      · with_reducible assumption
      · apply platformEvent_follows
        apply follows_mk
        with_reducible assumption
    · with_reducible assumption

end Sys2Proof.Laws
end

