-- ==== Sys2Proof/Laws/FollowsThreads.lean ====
section
/-! SUPPORT. Each operation of Machine/Threads.lean stays in `Blk.Follows`: it keeps the memory canonical, lowers no flash counter and takes back nothing sent. -/

namespace Sys2Proof.Laws

open Sys2Proof.Machine

theorem setThread_follows {a0 : Blk} (b : Blk) (t : Tid) (x : Thread) (h_b : a0.Follows b) : Blk.Follows a0 (@Blk.setThread b t x) := by
  unfold Blk.setThread
  try dsimp only
  apply follows_mk
  assumption

theorem setStake_follows {a0 : Blk} (b : Blk) (s : Nat) (x : Stake) (h_b : a0.Follows b) : Blk.Follows a0 (@Blk.setStake b s x) := by
  unfold Blk.setStake
  try dsimp only
  apply follows_mk
  assumption

theorem setWale_follows {a0 : Blk} (b : Blk) (w : Nat) (x : Wale) (h_b : a0.Follows b) : Blk.Follows a0 (@Blk.setWale b w x) := by
  unfold Blk.setWale
  try dsimp only
  apply follows_mk
  assumption

theorem sramWrite_follows {a0 : Blk} (b : Blk) (pa : Nat) (n : Nat) (v : Nat) (h_b : a0.Follows b) : FollowsE a0 (@Blk.sramWrite b pa n v) := by
  unfold Blk.sramWrite
  try dsimp only
  split
  · exact followsE_error
  · split
    · apply followsE_ok
      refine follows_of_fst (by assumption) ?_
      apply writeBytes_follows
      assumption
    · exact followsE_error

theorem threadFault_follows {a0 : Blk} (b : Blk) (t : Tid) (cls : Nat) (det : Nat) (slot : Nat) (pa : Nat) (h_b : a0.Follows b) : Blk.Follows a0 (@Blk.threadFault b t cls det slot pa) := by
  unfold Blk.threadFault
  try dsimp only
  apply sendFault_follows
  split
  · apply event_follows
    apply inc_follows
    split
    · apply error_follows
      apply event_follows
      apply event_follows
      apply error_follows
      apply setThread_follows
      assumption
    · apply event_follows
      apply event_follows
      apply error_follows
      apply setThread_follows
      assumption
  · split
    · apply error_follows
      apply event_follows
      apply event_follows
      apply error_follows
      apply setThread_follows
      assumption
    · apply event_follows
      apply event_follows
      apply error_follows
      apply setThread_follows
      assumption

theorem deliverErr_follows {a0 : Blk} (b : Blk) (t : Tid) (slot : Nat) (h_b : a0.Follows b) : Blk.Follows a0 (@Blk.deliverErr b t slot) := by
  unfold Blk.deliverErr
  try dsimp only
  apply threadFault_follows
  apply setThread_follows
  assumption

theorem retire_follows {a0 : Blk} (b : Blk) (t : Tid) (th : Thread) (pc : Nat) (h_b : a0.Follows b) : Blk.Follows a0 (@Blk.retire b t th pc) := by
  unfold Blk.retire
  try dsimp only
  apply add64_follows
  apply setThread_follows
  assumption

theorem next_follows {a0 : Blk} (b : Blk) (t : Tid) (th : Thread) (h_b : a0.Follows b) : Blk.Follows a0 (@Blk.next b t th) := by
  unfold Blk.next
  try dsimp only
  apply retire_follows
  assumption

theorem beatWait_follows {a0 : Blk} (b : Blk) (t : Tid) (h_b : a0.Follows b) : Blk.Follows a0 (@Blk.beatWait b t) := by
  unfold Blk.beatWait
  try dsimp only
  apply setThread_follows
  apply next_follows
  assumption

theorem toIdle_follows {a0 : Blk} (b : Blk) (t : Tid) (killed : Bool) (h_b : a0.Follows b) : Blk.Follows a0 (@Blk.toIdle b t killed) := by
  unfold Blk.toIdle
  try dsimp only
  apply event_follows
  apply setThread_follows
  assumption

theorem haltEnd_follows {a0 : Blk} (b : Blk) (t : Tid) (h_b : a0.Follows b) : Blk.Follows a0 (@Blk.haltEnd b t) := by
  unfold Blk.haltEnd
  try dsimp only
  split
  · apply deliverErr_follows
    assumption
  · apply toIdle_follows
    apply next_follows
    assumption

theorem twaitEnd_follows {a0 : Blk} (b : Blk) (t : Tid) (dest : Nat) (mask : Nat) (h_b : a0.Follows b) : Blk.Follows a0 (@Blk.twaitEnd b t dest mask) := by
  unfold Blk.twaitEnd
  try dsimp only
  split
  · apply deliverErr_follows
    assumption
  · apply next_follows
    assumption

theorem wakeTok_follows {a0 : Blk} (b : Blk) (t : Tid) (h_b : a0.Follows b) : Blk.Follows a0 (@Blk.wakeTok b t) := by
  unfold Blk.wakeTok
  try dsimp only
  split
  · split
    · apply toIdle_follows
      assumption
    · assumption
  · split
    · assumption
    · split
      · split
        · apply twaitEnd_follows
          assumption
        · assumption
      · split
        · apply beatWait_follows
          assumption
        · assumption
      · split
        · apply haltEnd_follows
          assumption
        · assumption
      · assumption

theorem latchAfter_follows {a0 : Blk} (b : Blk) (t : Tid) (slot : Nat) (err : Nat) (h_b : a0.Follows b) : Blk.Follows a0 (@Blk.latchAfter b t slot err) := by
  unfold Blk.latchAfter
  try dsimp only
  apply setWale_follows
  apply setStake_follows
  with_reducible assumption

theorem post_follows {a0 : Blk} (b : Blk) (op : QOp) (err : Nat) (h_b : a0.Follows b) : Blk.Follows a0 (@Blk.post b op err) := by
  unfold Blk.post
  try dsimp only
  split
  · apply wakeTok_follows
    apply latchAfter_follows
    apply setThread_follows
    with_reducible assumption
  · with_reducible assumption

theorem fetch_follows {a0 : Blk} (b : Blk) (t : Tid) (h_b : a0.Follows b) : Blk.Follows a0 (@Blk.fetch b t).1 := by
  unfold Blk.fetch
  try dsimp only
  split
  · apply follows_fst
    assumption
  · split
    · apply follows_fst
      assumption
    · split
      · split
        · apply follows_fst
          assumption
        · apply follows_fst
          assumption
      · split
        · apply follows_fst
          assumption
        · split
          · apply follows_fst
            apply setStake_follows
            apply victim_follows
            assumption
          · split
            · apply follows_fst
              assumption
            · apply follows_fst
              assumption

theorem icacheInval_follows {a0 : Blk} (b : Blk) (s : Nat) (h_b : a0.Follows b) : Blk.Follows a0 (@Blk.icacheInval b s) := by
  unfold Blk.icacheInval
  try dsimp only
  apply setStake_follows
  assumption

theorem insn_follows {a0 : Blk} (b : Blk) (t : Tid) (opc : Nat) (f : Blk → Ins → Blk) (h_b : a0.Follows b) (h_f : ∀ y0 y1, a0.Follows y0 → Blk.Follows a0 (f y0 y1)) : Blk.Follows a0 (@Blk.insn b t opc f) := by
  unfold Blk.insn
  try dsimp only
  split
  · assumption
  · split
    · apply threadFault_follows
      refine follows_of_fst (by assumption) ?_
      apply fetch_follows
      assumption
    · split
      · assumption
      · split
        · apply_assumption
          refine follows_of_fst (by assumption) ?_
          apply fetch_follows
          assumption
        · apply threadFault_follows
          refine follows_of_fst (by assumption) ?_
          apply fetch_follows
          assumption

theorem barRelease_follows {a0 : Blk} (b : Blk) (w : Nat) (k : Nat) (h_b : a0.Follows b) : Blk.Follows a0 (@Blk.barRelease b w k) := by
  unfold Blk.barRelease
  try dsimp only
  apply follows_each
  · assumption
  · intros
    apply next_follows
    assumption

theorem stakeCmd_follows {a0 : Blk} (b : Blk) (t : Tid) (cmd : Nat) (h_b : a0.Follows b) : Blk.Follows a0 (@Blk.stakeCmd b t cmd) := by
  unfold Blk.stakeCmd
  try dsimp only
  split
  · split
    · apply setThread_follows
      assumption
    · apply inc_follows
      assumption
  · split
    · apply setThread_follows
      assumption
    · split
      · apply setThread_follows
        assumption
      · apply inc_follows
        assumption
  · split
    · apply setThread_follows
      assumption
    · apply inc_follows
      assumption
  · split
    · apply setThread_follows
      assumption
    · apply inc_follows
      assumption
  · split
    · apply setThread_follows
      assumption
    · apply inc_follows
      assumption
  · split
    · apply inc_follows
      assumption
    · split
      · apply setThread_follows
        assumption
      · split
        · apply toIdle_follows
          apply setThread_follows
          assumption
        · apply setThread_follows
          assumption
  · assumption

theorem overrunFault_follows {a0 : Blk} (b : Blk) (t : Tid) (h_b : a0.Follows b) : Blk.Follows a0 (@Blk.overrunFault b t) := by
  unfold Blk.overrunFault
  try dsimp only
  split
  · apply threadFault_follows
    assumption
  · assumption

end Sys2Proof.Laws
end

