-- ==== Sys2Proof/Laws/FollowsScalar.lean ====
section
/-! SUPPORT. Each operation of Machine/Scalar.lean stays in `Blk.Follows`: it keeps the memory canonical, lowers no flash counter and takes back nothing sent. -/

namespace Sys2Proof.Laws

open Sys2Proof.Machine

theorem access_follows {a0 : Blk} (b : Blk) (t : Tid) (addr : Nat) (n : Nat) (k : LAcc) (f : Nat → Except (Nat × Nat) Blk) (h_b : a0.Follows b) (h_f : ∀ y0,  FollowsE a0 (f y0)) : Blk.Follows a0 (@Blk.access b t addr n k f) := by
  unfold Blk.access
  try dsimp only
  split
  · apply threadFault_follows
    assumption
  · split
    · apply threadFault_follows
      assumption
    · split
      · refine follows_of_ok (by assumption) ?_
        apply h_f
      · apply threadFault_follows
        assumption

theorem bar_follows {a0 : Blk} (b : Blk) (t : Tid) (h_b : a0.Follows b) : Blk.Follows a0 (@Blk.bar b t) := by
  unfold Blk.bar
  try dsimp only
  apply insn_follows
  · assumption
  · intros
    split
    · apply threadFault_follows
      assumption
    · split
      · apply next_follows
        apply barRelease_follows
        assumption
      · apply setThread_follows
        assumption

theorem ld_follows {a0 : Blk} (b : Blk) (t : Tid) (h_b : a0.Follows b) : Blk.Follows a0 (@Blk.ld b t) := by
  unfold Blk.ld
  try dsimp only
  apply insn_follows
  · assumption
  · intros
    apply access_follows
    · assumption
    · intros
      split
      · exact followsE_error
      · apply followsE_ok
        apply next_follows
        assumption

theorem branch_follows {a0 : Blk} (b : Blk) (t : Tid) (opc : Nat) (f : Nat → Nat → Bool) (h_b : a0.Follows b) : Blk.Follows a0 (@Blk.branch b t opc f) := by
  unfold Blk.branch
  try dsimp only
  apply insn_follows
  · assumption
  · intros
    split
    · apply retire_follows
      assumption
    · apply next_follows
      assumption

theorem halt_follows {a0 : Blk} (b : Blk) (t : Tid) (h_b : a0.Follows b) : Blk.Follows a0 (@Blk.halt b t) := by
  unfold Blk.halt
  try dsimp only
  apply insn_follows
  · assumption
  · intros
    split
    · apply haltEnd_follows
      assumption
    · apply setThread_follows
      assumption

theorem fence_follows {a0 : Blk} (b : Blk) (t : Tid) (h_b : a0.Follows b) : Blk.Follows a0 (@Blk.fence b t) := by
  unfold Blk.fence
  try dsimp only
  apply insn_follows
  · assumption
  · intros
    apply next_follows
    split
    · apply icacheInval_follows
      assumption
    · assumption

theorem amo_follows {a0 : Blk} (b : Blk) (t : Tid) (h_b : a0.Follows b) : Blk.Follows a0 (@Blk.amo b t) := by
  unfold Blk.amo
  try dsimp only
  apply insn_follows
  · assumption
  · intros
    apply access_follows
    · assumption
    · intros
      split
      · exact followsE_error
      · split
        · apply followsE_ok
          apply next_follows
          assumption
        · split
          · exact followsE_error
          · apply followsE_ok
            apply next_follows
            refine follows_of_ok (by assumption) ?_
            apply sramWrite_follows
            assumption

theorem alu_follows {a0 : Blk} (b : Blk) (t : Tid) (opc : Nat) (f : Nat → Nat → Nat) (h_b : a0.Follows b) : Blk.Follows a0 (@Blk.alu b t opc f) := by
  unfold Blk.alu
  try dsimp only
  apply insn_follows
  · assumption
  · intros
    apply next_follows
    assumption

theorem rdid_follows {a0 : Blk} (b : Blk) (t : Tid) (h_b : a0.Follows b) : Blk.Follows a0 (@Blk.rdid b t) := by
  unfold Blk.rdid
  try dsimp only
  apply insn_follows
  · assumption
  · intros
    apply next_follows
    assumption

theorem value_follows {a0 : Blk} (b : Blk) (t : Tid) (opc : Nat) (f : Thread → Ins → Nat) (h_b : a0.Follows b) : Blk.Follows a0 (@Blk.value b t opc f) := by
  unfold Blk.value
  try dsimp only
  apply insn_follows
  · assumption
  · intros
    apply next_follows
    assumption

theorem phaseI_follows {a0 : Blk} (b : Blk) (t : Tid) (h_b : a0.Follows b) : Blk.Follows a0 (@Blk.phaseI b t) := by
  unfold Blk.phaseI
  try dsimp only
  apply insn_follows
  · assumption
  · intros
    apply next_follows
    apply setStake_follows
    assumption

theorem stI_follows {a0 : Blk} (b : Blk) (t : Tid) (h_b : a0.Follows b) : Blk.Follows a0 (@Blk.stI b t) := by
  unfold Blk.stI
  try dsimp only
  apply insn_follows
  · assumption
  · intros
    apply access_follows
    · assumption
    · intros
      split
      · exact followsE_error
      · apply followsE_ok
        apply next_follows
        refine follows_of_ok (by assumption) ?_
        apply sramWrite_follows
        assumption

theorem bwait_follows {a0 : Blk} (b : Blk) (t : Tid) (h_b : a0.Follows b) : Blk.Follows a0 (@Blk.bwait b t) := by
  unfold Blk.bwait
  try dsimp only
  apply insn_follows
  · assumption
  · intros
    split
    · apply setThread_follows
      assumption
    · apply beatWait_follows
      assumption

theorem undefinedOp_follows {a0 : Blk} (b : Blk) (t : Tid) (h_b : a0.Follows b) : Blk.Follows a0 (@Blk.undefinedOp b t) := by
  unfold Blk.undefinedOp
  try dsimp only
  split
  · assumption
  · split
    · apply threadFault_follows
      refine follows_of_fst (by assumption) ?_
      apply fetch_follows
      assumption
    · split
      · apply threadFault_follows
        refine follows_of_fst (by assumption) ?_
        apply fetch_follows
        assumption
      · assumption

theorem twait_follows {a0 : Blk} (b : Blk) (t : Tid) (h_b : a0.Follows b) : Blk.Follows a0 (@Blk.twait b t) := by
  unfold Blk.twait
  try dsimp only
  apply insn_follows
  · assumption
  · intros
    split
    · apply twaitEnd_follows
      assumption
    · apply setThread_follows
      assumption

theorem sumrd_follows {a0 : Blk} (b : Blk) (t : Tid) (h_b : a0.Follows b) : Blk.Follows a0 (@Blk.sumrd b t) := by
  unfold Blk.sumrd
  try dsimp only
  apply insn_follows
  · assumption
  · intros
    split
    · apply threadFault_follows
      assumption
    · apply next_follows
      assumption

end Sys2Proof.Laws
end

