-- ==== Sys2Proof/Laws/FollowsEngine.lean ====
section
/-! SUPPORT. Each operation of Machine/Engine.lean stays in `Blk.Follows`: it keeps the memory canonical, lowers no flash counter and takes back nothing sent. -/

namespace Sys2Proof.Laws

open Sys2Proof.Machine

theorem lwriteGo_follows {a0 : Blk} (s : Nat) (fuel : Nat) (a_2 : Blk) (addr : Nat) (a_4 : List Byte) (h_a_2 : a0.Follows a_2) : Blk.Follows a0 (@Blk.lwriteGo s fuel a_2 addr a_4).1 := by
  induction fuel generalizing s a_2 addr a_4 h_a_2 with
  | zero =>
  unfold Blk.lwriteGo
  try dsimp only
  assumption
  | succ q1 ih =>
  unfold Blk.lwriteGo
  try dsimp only
  split
  · apply follows_fst
    assumption
  · split
    · apply ih
      refine follows_of_ok (by assumption) ?_
      apply sramWrite_follows
      assumption
    · apply follows_fst
      apply ih
      assumption

theorem lwrite_follows {a0 : Blk} (b : Blk) (s : Nat) (addr : Nat) (l : List Byte) (h_b : a0.Follows b) : Blk.Follows a0 (@Blk.lwrite b s addr l).1 := by
  unfold Blk.lwrite
  try dsimp only
  apply lwriteGo_follows
  assumption

theorem lwriteElems_follows {a0 : Blk} (b : Blk) (s : Nat) (addr : Nat) (w : Nat) (l : List Nat) (h_b : a0.Follows b) : Blk.Follows a0 (@Blk.lwriteElems b s addr w l).1 := by
  unfold Blk.lwriteElems
  try dsimp only
  apply lwrite_follows
  assumption

theorem stakeWriteErrs_follows {a0 : Blk} (b : Blk) (op : QOp) (l : List (Nat × Nat)) (h_b : a0.Follows b) : Blk.Follows a0 (@Blk.stakeWriteErrs b op l) := by
  unfold Blk.stakeWriteErrs
  try dsimp only
  apply follows_each
  · assumption
  · intros
    apply error_follows
    assumption

theorem lvAsk_follows {a0 : Blk} (b : Blk) (r : LvReq) (h_b : a0.Follows b) : Blk.Follows a0 (@Blk.lvAsk b r) := by
  unfold Blk.lvAsk
  try dsimp only
  split
  · assumption
  · apply follows_mk
    assumption

theorem lvTogether_follows {a0 : Blk} (b : Blk) (d : Nat) (n : Nat) (h_b : a0.Follows b) : Blk.Follows a0 (@Blk.lvTogether b d n) := by
  unfold Blk.lvTogether
  try dsimp only
  apply follows_mk
  with_reducible assumption

theorem lvDrop_follows {a0 : Blk} (b : Blk) (r : LvReq) (h_b : a0.Follows b) : Blk.Follows a0 (@Blk.lvDrop b r) := by
  unfold Blk.lvDrop
  try dsimp only
  apply follows_mk
  assumption

end Sys2Proof.Laws
end

