-- ==== Sys2Proof/Laws/FollowsMatrix.lean ====
section
/-! SUPPORT. Each operation of Machine/Matrix.lean stays in `Blk.Follows`: it keeps the memory canonical, lowers no flash counter and takes back nothing sent. -/

namespace Sys2Proof.Laws

open Sys2Proof.Machine

theorem matWrite_follows {a0 : Blk} (b : Blk) (s : Nat) (d : MatDesc) (e : Option Adapter) (acc : List Nat) (h_b : a0.Follows b) : Blk.Follows a0 (@Blk.matWrite b s d e acc).1 := by
  unfold Blk.matWrite
  try dsimp only
  apply follows_foldl_fst
  · intros
    apply follows_fst
    split
    · apply lwrite_follows
      apply lwriteElems_follows
      assumption
    · apply follows_fst
      apply lwriteElems_follows
      assumption
  · apply follows_fst
    assumption

theorem matEnd_follows {a0 : Blk} (b : Blk) (s : Nat) (op : QOp) (err : Nat) (h_b : a0.Follows b) : Blk.Follows a0 (@Blk.matEnd b s op err) := by
  unfold Blk.matEnd
  try dsimp only
  apply post_follows
  apply setStake_follows
  assumption

theorem matSuspend_follows {a0 : Blk} (b : Blk) (s : Nat) (op : QOp) (ent : Option Nat) (n : Nat) (next : Nat) (acc : Option (List Nat)) (f : RFail) (h_b : a0.Follows b) : Blk.Follows a0 (@Blk.matSuspend b s op ent n next acc f) := by
  unfold Blk.matSuspend
  try dsimp only
  apply sendFault_follows
  apply error_follows
  apply writeBytes_follows
  apply setStake_follows
  with_reducible assumption

theorem matFinish_follows {a0 : Blk} (b : Blk) (s : Nat) (r : Run) (h_b : a0.Follows b) : Blk.Follows a0 (@Blk.matFinish b s r) := by
  unfold Blk.matFinish
  try dsimp only
  split
  · apply matSuspend_follows
    with_reducible assumption
  · split
    · apply matSuspend_follows
      with_reducible assumption
    · apply matEnd_follows
      apply stakeWriteErrs_follows
      apply matWrite_follows
      with_reducible assumption

theorem matStart_follows {a0 : Blk} (b : Blk) (s : Nat) (h_b : a0.Follows b) : Blk.Follows a0 (@Blk.matStart b s) := by
  unfold Blk.matStart
  try dsimp only
  split
  · split
    · with_reducible assumption
    · apply post_follows
      apply setStake_follows
      with_reducible assumption
    · split
      · apply lvDrop_follows
        apply setStake_follows
        with_reducible assumption
      · apply lvAsk_follows
        with_reducible assumption
    · split
      · apply matSuspend_follows
        apply setStake_follows
        with_reducible assumption
      · split
        · apply post_follows
          apply setStake_follows
          with_reducible assumption
        · split
          · apply lvAsk_follows
            apply setStake_follows
            with_reducible assumption
          · apply setStake_follows
            with_reducible assumption
  · with_reducible assumption

theorem matResume_follows {a0 : Blk} (b : Blk) (s : Nat) (r : Run) (h_b : a0.Follows b) : Blk.Follows a0 (@Blk.matResume b s r) := by
  unfold Blk.matResume
  try dsimp only
  split
  · apply matEnd_follows
    with_reducible assumption
  · split
    · apply matEnd_follows
      apply writeBytes_follows
      with_reducible assumption
    · split
      · apply matSuspend_follows
        apply writeBytes_follows
        with_reducible assumption
      · split
        · apply matEnd_follows
          apply writeBytes_follows
          with_reducible assumption
        · split
          · apply lvAsk_follows
            apply setStake_follows
            apply writeBytes_follows
            with_reducible assumption
          · apply setStake_follows
            apply writeBytes_follows
            with_reducible assumption

theorem ctxClear_follows {a0 : Blk} (b : Blk) (s : Nat) (thread : Nat) (h_b : a0.Follows b) : Blk.Follows a0 (@Blk.ctxClear b s thread) := by
  unfold Blk.ctxClear
  try dsimp only
  apply writeBytes_follows
  assumption

theorem matDiscard_follows {a0 : Blk} (b : Blk) (s : Nat) (r : Run) (h_b : a0.Follows b) : Blk.Follows a0 (@Blk.matDiscard b s r) := by
  unfold Blk.matDiscard
  try dsimp only
  apply matEnd_follows
  apply ctxClear_follows
  assumption

theorem matReset_follows {a0 : Blk} (b : Blk) (s : Nat) (h_b : a0.Follows b) : Blk.Follows a0 (@Blk.matReset b s) := by
  unfold Blk.matReset
  try dsimp only
  apply lvDrop_follows
  apply setStake_follows
  split
  · split
    · apply ctxClear_follows
      assumption
    · assumption
  · assumption

end Sys2Proof.Laws
end

