-- ==== Sys2Proof/Laws/FollowsChain.lean ====
section
/-! SUPPORT. Each operation of Machine/Chain.lean stays in `Blk.Follows`: it keeps the memory canonical, lowers no flash counter and takes back nothing sent. -/

namespace Sys2Proof.Laws

open Sys2Proof.Machine

theorem putElem_follows {a0 : Blk} (b : Blk) (s : Nat) (base : Nat) (w : Nat) (e : Nat) (v : Nat) (h_b : a0.Follows b) : Blk.Follows a0 (@Blk.putElem b s base w e v).1 := by
  unfold Blk.putElem
  try dsimp only
  apply lwrite_follows
  assumption

theorem chOut_follows {a0 : Blk} (b : Blk) (s : Nat) (d : ChDesc) (dst : Nat) (ds : Nat) (base : Nat) (g : Nat) (vals : List (Option Nat)) (h_b : a0.Follows b) : Blk.Follows a0 (@Blk.chOut b s d dst ds base g vals).1 := by
  unfold Blk.chOut
  try dsimp only
  apply follows_foldl_fst
  · intros
    apply follows_fst
    split
    · apply lwrite_follows
      split
      · apply lwriteElems_follows
        assumption
      · apply follows_foldl_fst
        · intros
          apply follows_fst
          apply putElem_follows
          assumption
        · apply follows_fst
          assumption
    · apply follows_fst
      split
      · apply lwriteElems_follows
        assumption
      · apply follows_foldl_fst
        · intros
          apply follows_fst
          apply putElem_follows
          assumption
        · apply follows_fst
          assumption
  · apply follows_fst
    assumption

theorem chStore_follows {a0 : Blk} (b : Blk) (s : Nat) (d : ChDesc) (gs : List (List ChLane)) (h_b : a0.Follows b) : Blk.Follows a0 (@Blk.chStore b s d gs).1 := by
  unfold Blk.chStore
  try dsimp only
  apply follows_foldl_fst
  · intros
    apply follows_fst
    split
    · apply chOut_follows
      apply chOut_follows
      assumption
    · apply follows_fst
      apply chOut_follows
      assumption
  · apply follows_fst
    assumption

theorem sumWrite_follows {a0 : Blk} (b : Blk) (w : Nat) (slot : Nat) (v : Nat) (h_b : a0.Follows b) : Blk.Follows a0 (@Blk.sumWrite b w slot v) := by
  unfold Blk.sumWrite
  try dsimp only
  split
  · assumption
  · apply setWale_follows
    assumption

theorem chEnd_follows {a0 : Blk} (b : Blk) (s : Nat) (op : QOp) (err : Nat) (h_b : a0.Follows b) : Blk.Follows a0 (@Blk.chEnd b s op err) := by
  unfold Blk.chEnd
  try dsimp only
  apply post_follows
  apply setStake_follows
  assumption

theorem chFault_follows {a0 : Blk} (b : Blk) (s : Nat) (r : Run) (d : ChDesc) (gs : List (List ChLane)) (f : RFail) (h_b : a0.Follows b) : Blk.Follows a0 (@Blk.chFault b s r d gs f) := by
  unfold Blk.chFault
  try dsimp only
  split
  · apply chEnd_follows
    apply sendFault_follows
    apply error_follows
    apply stakeWriteErrs_follows
    apply chStore_follows
    apply draw_follows
    with_reducible assumption
  · apply sendFault_follows
    apply setStake_follows
    apply error_follows
    apply stakeWriteErrs_follows
    apply chStore_follows
    apply draw_follows
    with_reducible assumption

theorem chFinish_follows {a0 : Blk} (b : Blk) (s : Nat) (r : Run) (h_b : a0.Follows b) : Blk.Follows a0 (@Blk.chFinish b s r) := by
  unfold Blk.chFinish
  try dsimp only
  split
  · apply chFault_follows
    assumption
  · apply chEnd_follows
    split
    · apply sumWrite_follows
      apply stakeWriteErrs_follows
      apply chStore_follows
      assumption
    · apply stakeWriteErrs_follows
      apply chStore_follows
      assumption

theorem chStart_follows {a0 : Blk} (b : Blk) (s : Nat) (h_b : a0.Follows b) : Blk.Follows a0 (@Blk.chStart b s) := by
  unfold Blk.chStart
  try dsimp only
  split
  · split
    · assumption
    · apply post_follows
      apply setStake_follows
      assumption
    · apply setStake_follows
      assumption
  · assumption

theorem chResume_follows {a0 : Blk} (b : Blk) (s : Nat) (r : Run) (h_b : a0.Follows b) : Blk.Follows a0 (@Blk.chResume b s r) := by
  unfold Blk.chResume
  try dsimp only
  apply setStake_follows
  assumption

theorem chDiscard_follows {a0 : Blk} (b : Blk) (s : Nat) (r : Run) (h_b : a0.Follows b) : Blk.Follows a0 (@Blk.chDiscard b s r) := by
  unfold Blk.chDiscard
  try dsimp only
  apply chEnd_follows
  assumption

end Sys2Proof.Laws
end

