-- ==== Sys2Proof/Laws/FollowsRowEngine.lean ====
section
/-! SUPPORT. Each operation of Machine/RowEngine.lean stays in `Blk.Follows`: it keeps the memory canonical, lowers no flash counter and takes back nothing sent. -/

namespace Sys2Proof.Laws

open Sys2Proof.Machine

theorem rowShow_follows {a0 : Blk} (b : Blk) (w : Nat) (busy : Bool) (susp : Bool) (op : Option QOp) (h_b : a0.Follows b) : Blk.Follows a0 (@Blk.rowShow b w busy susp op) := by
  unfold Blk.rowShow
  try dsimp only
  apply wr_follows
  apply wr_follows
  apply wr_follows
  apply wr_follows
  apply wr_follows
  assumption

theorem rowStats_follows {a0 : Blk} (b : Blk) (s : Nat) (d : RowDesc) (i : Nat) (a_4 : Option (Nat × Nat)) (h_b : a0.Follows b) : Blk.Follows a0 (@Blk.rowStats b s d i a_4) := by
  unfold Blk.rowStats
  try dsimp only
  split
  · apply writeNat_follows
    assumption
  · assumption

theorem rowWrite_follows {a0 : Blk} (b : Blk) (s : Nat) (d : RowDesc) (i : Nat) (r : RowIn) (o : RowOut) (h_b : a0.Follows b) : Blk.Follows a0 (@Blk.rowWrite b s d i r o).1 := by
  unfold Blk.rowWrite
  try dsimp only
  split
  · apply lwriteElems_follows
    split
    · apply lwriteElems_follows
      apply rowStats_follows
      apply lwriteElems_follows
      assumption
    · apply follows_fst
      apply rowStats_follows
      apply lwriteElems_follows
      assumption
  · apply follows_fst
    split
    · apply lwriteElems_follows
      apply rowStats_follows
      apply lwriteElems_follows
      assumption
    · apply follows_fst
      apply rowStats_follows
      apply lwriteElems_follows
      assumption

theorem rowEnd_follows {a0 : Blk} (b : Blk) (w : Nat) (op : QOp) (err : Nat) (h_b : a0.Follows b) : Blk.Follows a0 (@Blk.rowEnd b w op err) := by
  unfold Blk.rowEnd
  try dsimp only
  apply post_follows
  apply rowShow_follows
  apply setWale_follows
  assumption

theorem rowSuspend_follows {a0 : Blk} (b : Blk) (w : Nat) (r : Run) (i : Nat) (f : RFail) (h_b : a0.Follows b) : Blk.Follows a0 (@Blk.rowSuspend b w r i f) := by
  unfold Blk.rowSuspend
  try dsimp only
  apply sendFault_follows
  apply event_follows
  apply error_follows
  apply wr_follows
  apply rowShow_follows
  apply setWale_follows
  assumption

theorem rowResume_follows {a0 : Blk} (b : Blk) (w : Nat) (r : Run) (h_b : a0.Follows b) : Blk.Follows a0 (@Blk.rowResume b w r) := by
  unfold Blk.rowResume
  try dsimp only
  apply rowShow_follows
  apply setWale_follows
  assumption

theorem rowGranted_follows {a0 : Blk} (b : Blk) (w : Nat) (h_b : a0.Follows b) : Blk.Follows a0 (@Blk.rowGranted b w) := by
  unfold Blk.rowGranted
  try dsimp only
  split
  · apply wr_follows
    apply rowShow_follows
    apply setWale_follows
    assumption
  · assumption

theorem rowCount_follows {a0 : Blk} (b : Blk) (w : Nat) (d : RowDesc) (x : List Nat) (o : RowOut) (i : Nat) (h_b : a0.Follows b) : Blk.Follows a0 (@Blk.rowCount b w d x o i) := by
  unfold Blk.rowCount
  try dsimp only
  split
  · apply event_follows
    apply inc_follows
    split
    · apply inc_follows
      apply wr_follows
      apply add64_follows
      assumption
    · apply wr_follows
      apply add64_follows
      assumption
  · split
    · apply inc_follows
      apply wr_follows
      apply add64_follows
      assumption
    · apply wr_follows
      apply add64_follows
      assumption

theorem rowGo_follows {a0 : Blk} (w : Nat) (d : RowDesc) (fuel : Nat) (a_3 : Blk) (a_4 : Run) (i : Nat) (h_a_3 : a0.Follows a_3) : Blk.Follows a0 (@Blk.rowGo w d fuel a_3 a_4 i) := by
  induction fuel generalizing w d a_3 a_4 i h_a_3 with
  | zero =>
  unfold Blk.rowGo
  try dsimp only
  apply rowEnd_follows
  apply inc_follows
  assumption
  | succ q1 ih =>
  unfold Blk.rowGo
  try dsimp only
  split
  · apply rowSuspend_follows
    assumption
  · apply ih
    apply rowCount_follows
    apply follows_each
    · apply rowWrite_follows
      assumption
    · intros
      apply error_follows
      assumption

theorem rowFinish_follows {a0 : Blk} (b : Blk) (w : Nat) (r : Run) (h_b : a0.Follows b) : Blk.Follows a0 (@Blk.rowFinish b w r) := by
  unfold Blk.rowFinish
  try dsimp only
  apply rowGo_follows
  assumption

theorem rowDiscard_follows {a0 : Blk} (b : Blk) (w : Nat) (r : Run) (h_b : a0.Follows b) : Blk.Follows a0 (@Blk.rowDiscard b w r) := by
  unfold Blk.rowDiscard
  try dsimp only
  apply rowEnd_follows
  assumption

theorem sideClear_follows {a0 : Blk} (b : Blk) (w : Nat) (h_b : a0.Follows b) : Blk.Follows a0 (@Blk.sideClear b w) := by
  unfold Blk.sideClear
  try dsimp only
  apply wr_follows
  assumption

theorem rowStart_follows {a0 : Blk} (b : Blk) (w : Nat) (h_b : a0.Follows b) : Blk.Follows a0 (@Blk.rowStart b w) := by
  unfold Blk.rowStart
  try dsimp only
  split
  · split
    · assumption
    · split
      · assumption
      · apply post_follows
        apply setWale_follows
        assumption
      · apply lvAsk_follows
        apply setWale_follows
        assumption
  · assumption

end Sys2Proof.Laws
end

