-- ==== Sys2Proof/Laws/FollowsDma.lean ====
section
/-! SUPPORT. Each operation of Machine/Dma.lean stays in `Blk.Follows`: it keeps the memory canonical, lowers no flash counter and takes back nothing sent. -/

namespace Sys2Proof.Laws

open Sys2Proof.Machine

theorem setStream_follows {a0 : Blk} (b : Blk) (c : Nat) (x : Option Stream) (h_b : a0.Follows b) : Blk.Follows a0 (@Blk.setStream b c x) := by
  unfold Blk.setStream
  try dsimp only
  apply follows_mk
  assumption

theorem dmaMap_follows {a0 : Blk} (b : Blk) (c : Nat) (x : Machine.Stream) (isLocal : Bool) (phys : Bool) (write : Bool) (addr : Nat) (n : Nat) (h_b : a0.Follows b) : Blk.Follows a0 (@Blk.dmaMap b c x isLocal phys write addr n).1 := by
  unfold Blk.dmaMap
  try dsimp only
  split
  · with_reducible assumption
  · split
    · with_reducible assumption
    · split
      · dsimp only
        refine follows_of_fst (by assumption) ?_
        apply xlateRange_follows
        with_reducible assumption
      · dsimp only
        apply ueOf_follows
        refine follows_of_fst (by assumption) ?_
        apply xlateRange_follows
        with_reducible assumption

theorem dmaMapAll_follows {a0 : Blk} (c : Nat) (x : Stream) (isLocal : Bool) (phys : Bool) (write : Bool) (base : Nat) (pitch : Nat) (a_7 : Blk) (a_8 : List (Nat × Nat × Nat)) (h_a_7 : a0.Follows a_7) : Blk.Follows a0 (@Blk.dmaMapAll c x isLocal phys write base pitch a_7 a_8).1 := by
  induction a_8 generalizing c x isLocal phys write base pitch a_7 h_a_7 with
  | nil =>
  unfold Blk.dmaMapAll
  try dsimp only
  assumption
  | cons q1 q2 ih =>
  unfold Blk.dmaMapAll
  try dsimp only
  split
  · apply follows_fst
    refine follows_of_fst (by assumption) ?_
    apply dmaMap_follows
    assumption
  · split
    · apply follows_fst
      refine follows_of_fst (by assumption) ?_
      apply ih
      refine follows_of_fst (by assumption) ?_
      apply dmaMap_follows
      assumption
    · apply follows_fst
      refine follows_of_fst (by assumption) ?_
      apply ih
      refine follows_of_fst (by assumption) ?_
      apply dmaMap_follows
      assumption

theorem dmaBytes_follows {a0 : Blk} (b : Blk) (c : Nat) (x : Machine.Stream) (k : Nat) (dp : List Piece) (src : List Byte) (h_b : a0.Follows b) : Blk.Follows a0 (@Blk.dmaBytes b c x k dp src).1 := by
  unfold Blk.dmaBytes
  try dsimp only
  split
  · dsimp only
    apply draw_follows
    with_reducible assumption
  · with_reducible assumption

theorem dmaChunk_follows {a0 : Blk} (b : Blk) (c : Nat) (x : Machine.Stream) (k : Nat) (h_b : a0.Follows b) : Blk.Follows a0 (@Blk.dmaChunk b c x k).1 := by
  unfold Blk.dmaChunk
  try dsimp only
  split
  · dsimp only
    refine follows_of_fst (by assumption) ?_
    split
    · with_reducible assumption
    · apply dmaMapAll_follows
      with_reducible assumption
  · split
    · dsimp only
      refine follows_of_fst (by assumption) ?_
      apply dmaMapAll_follows
      refine follows_of_fst (by assumption) ?_
      split
      · with_reducible assumption
      · apply dmaMapAll_follows
        with_reducible assumption
    · split
      · dsimp only
        apply ueOf_follows
        refine follows_of_fst (by assumption) ?_
        apply dmaMapAll_follows
        refine follows_of_fst (by assumption) ?_
        split
        · with_reducible assumption
        · apply dmaMapAll_follows
          with_reducible assumption
      · split
        · dsimp only
          apply ueOf_follows
          refine follows_of_fst (by assumption) ?_
          apply writePieces_follows
          apply dmaBytes_follows
          refine follows_of_fst (by assumption) ?_
          apply dmaMapAll_follows
          refine follows_of_fst (by assumption) ?_
          split
          · with_reducible assumption
          · apply dmaMapAll_follows
            with_reducible assumption
        · dsimp only
          refine follows_of_fst (by assumption) ?_
          apply writePieces_follows
          apply dmaBytes_follows
          refine follows_of_fst (by assumption) ?_
          apply dmaMapAll_follows
          refine follows_of_fst (by assumption) ?_
          split
          · with_reducible assumption
          · apply dmaMapAll_follows
            with_reducible assumption

theorem dmaFault_follows {a0 : Blk} (b : Blk) (c : Nat) (x : Stream) (k : Nat) (f : Fail) (h_b : a0.Follows b) : Blk.Follows a0 (@Blk.dmaFault b c x k f) := by
  unfold Blk.dmaFault
  try dsimp only
  apply sendFault_follows
  split
  · apply event_follows
    apply error_follows
    apply setStream_follows
    assumption
  · apply error_follows
    apply setStream_follows
    assumption

theorem setHoopD_follows {a0 : Blk} (b : Blk) (g : Nat) (x : HoopDma) (h_b : a0.Follows b) : Blk.Follows a0 (@Blk.setHoopD b g x) := by
  unfold Blk.setHoopD
  try dsimp only
  apply follows_mk
  assumption

theorem cqDrain_follows {a0 : Blk} (b : Blk) (g : Nat) (fuel : Nat) (h_b : a0.Follows b) : Blk.Follows a0 (@Blk.cqDrain b g fuel) := by
  induction fuel generalizing b g h_b with
  | zero =>
    unfold Blk.cqDrain
    try dsimp only
    with_reducible assumption
  | succ fuel ih =>
    unfold Blk.cqDrain
    try dsimp only
    split
    · with_reducible assumption
    · split
      · with_reducible assumption
      · split
        · apply error_follows
          refine follows_of_fst (by assumption) ?_
          apply storeVa_follows
          with_reducible assumption
        · apply ih
          split
          · apply event_follows
            apply addW_follows
            apply setHoopD_follows
            refine follows_of_fst (by assumption) ?_
            apply storeVa_follows
            with_reducible assumption
          · apply addW_follows
            apply setHoopD_follows
            refine follows_of_fst (by assumption) ?_
            apply storeVa_follows
            with_reducible assumption

theorem hoopComplete_follows {a0 : Blk} (b : Blk) (g : Nat) (tag : Nat) (cls : Nat) (n : Nat) (h_b : a0.Follows b) : Blk.Follows a0 (@Blk.hoopComplete b g tag cls n) := by
  unfold Blk.hoopComplete
  try dsimp only
  apply cqDrain_follows
  apply setHoopD_follows
  assumption

theorem ringEntry_follows {a0 : Blk} (b : Blk) (g : Nat) (count : Nat) (h_b : a0.Follows b) : Blk.Follows a0 (@Blk.ringEntry b g count).1 := by
  unfold Blk.ringEntry
  try dsimp only
  split
  · dsimp only
    refine follows_of_fst (by assumption) ?_
    apply loadVa_follows
    with_reducible assumption
  · dsimp only
    refine follows_of_fst (by assumption) ?_
    apply loadVa_follows
    with_reducible assumption

theorem doorbellGo_follows {a0 : Blk} (g : Nat) (fuel : Nat) (count : Nat) (a_3 : Blk) (h_a_3 : a0.Follows a_3) : Blk.Follows a0 (@Blk.doorbellGo g fuel count a_3) := by
  induction fuel generalizing g count a_3 h_a_3 with
  | zero =>
  unfold Blk.doorbellGo
  try dsimp only
  assumption
  | succ q1 ih =>
  unfold Blk.doorbellGo
  try dsimp only
  apply ih
  split
  · refine follows_of_fst (by assumption) ?_
    apply ringEntry_follows
    assumption
  · split
    · refine follows_of_fst (by assumption) ?_
      apply ringEntry_follows
      assumption
    · apply hoopComplete_follows
      apply setHoopD_follows
      refine follows_of_fst (by assumption) ?_
      apply ringEntry_follows
      assumption

theorem passRefused_follows {a0 : Blk} (b : Blk) (g : Nat) (fuel : Nat) (h_b : a0.Follows b) : Blk.Follows a0 (@Blk.passRefused b g fuel) := by
  induction fuel generalizing b g h_b with
  | zero =>
  unfold Blk.passRefused
  try dsimp only
  assumption
  | succ q1 ih =>
  unfold Blk.passRefused
  try dsimp only
  split
  · apply ih
    apply addW_follows
    apply setHoopD_follows
    assumption
  · assumption

theorem hoopStart_follows {a0 : Blk} (b : Blk) (c : Nat) (g : Nat) (h_b : a0.Follows b) : Blk.Follows a0 (@Blk.hoopStart b c g) := by
  unfold Blk.hoopStart
  try dsimp only
  split
  · apply passRefused_follows
    with_reducible assumption
  · split
    · apply error_follows
      refine follows_of_fst (by assumption) ?_
      apply ringEntry_follows
      apply passRefused_follows
      with_reducible assumption
    · split
      · split
        · apply dmaFault_follows
          apply addW_follows
          refine follows_of_fst (by assumption) ?_
          apply ringEntry_follows
          apply passRefused_follows
          with_reducible assumption
        · apply setStream_follows
          apply addW_follows
          refine follows_of_fst (by assumption) ?_
          apply ringEntry_follows
          apply passRefused_follows
          with_reducible assumption
      · apply hoopComplete_follows
        apply addW_follows
        refine follows_of_fst (by assumption) ?_
        apply ringEntry_follows
        apply passRefused_follows
        with_reducible assumption

theorem dmaStart_follows {a0 : Blk} (b : Blk) (c : Nat) (h_b : a0.Follows b) : Blk.Follows a0 (@Blk.dmaStart b c) := by
  unfold Blk.dmaStart
  try dsimp only
  split
  · assumption
  · split
    · apply post_follows
      apply setWale_follows
      assumption
    · split
      · apply lvAsk_follows
        apply setStream_follows
        apply setWale_follows
        assumption
      · apply setStream_follows
        apply setWale_follows
        assumption

theorem dmaDone_follows {a0 : Blk} (b : Blk) (c : Nat) (x : Stream) (cls : Nat) (moved : Nat) (h_b : a0.Follows b) : Blk.Follows a0 (@Blk.dmaDone b c x cls moved) := by
  unfold Blk.dmaDone
  try dsimp only
  split
  · apply post_follows
    apply setStream_follows
    assumption
  · apply hoopComplete_follows
    apply setStream_follows
    assumption
  · apply setStream_follows
    assumption

theorem dmaGo_follows {a0 : Blk} (c : Nat) (x : Stream) (fuel : Nat) (k : Nat) (a_4 : Blk) (h_a_4 : a0.Follows a_4) : Blk.Follows a0 (@Blk.dmaGo c x fuel k a_4) := by
  induction fuel generalizing c x k a_4 h_a_4 with
  | zero =>
  unfold Blk.dmaGo
  try dsimp only
  apply dmaDone_follows
  assumption
  | succ q1 ih =>
  unfold Blk.dmaGo
  try dsimp only
  split
  · apply dmaFault_follows
    refine follows_of_fst (by assumption) ?_
    apply dmaChunk_follows
    assumption
  · apply ih
    refine follows_of_fst (by assumption) ?_
    apply dmaChunk_follows
    assumption

theorem dmaFinish_follows {a0 : Blk} (b : Blk) (c : Nat) (x : Stream) (h_b : a0.Follows b) : Blk.Follows a0 (@Blk.dmaFinish b c x) := by
  unfold Blk.dmaFinish
  try dsimp only
  apply dmaGo_follows
  assumption

theorem dmaResume_follows {a0 : Blk} (b : Blk) (c : Nat) (x : Stream) (h_b : a0.Follows b) : Blk.Follows a0 (@Blk.dmaResume b c x) := by
  unfold Blk.dmaResume
  try dsimp only
  split
  · apply lvAsk_follows
    apply setStream_follows
    assumption
  · apply setStream_follows
    assumption

theorem dmaDiscard_follows {a0 : Blk} (b : Blk) (c : Nat) (x : Stream) (h_b : a0.Follows b) : Blk.Follows a0 (@Blk.dmaDiscard b c x) := by
  unfold Blk.dmaDiscard
  try dsimp only
  apply dmaDone_follows
  assumption

theorem dmaGranted_follows {a0 : Blk} (b : Blk) (c : Nat) (h_b : a0.Follows b) : Blk.Follows a0 (@Blk.dmaGranted b c) := by
  unfold Blk.dmaGranted
  try dsimp only
  split
  · apply setStream_follows
    assumption
  · assumption

theorem faultCmd_follows {a0 : Blk} (b : Blk) (action : Nat) (kind : Nat) (unit : Nat) (h_b : a0.Follows b) : Blk.Follows a0 (@Blk.faultCmd b action kind unit) := by
  unfold Blk.faultCmd
  try dsimp only
  split
  · assumption
  · split
    · apply inc_follows
      assumption
    · split
      · split
        · split
          · apply dmaResume_follows
            apply unsusp_follows
            assumption
          · apply dmaDiscard_follows
            apply unsusp_follows
            assumption
        · apply unsusp_follows
          assumption
      · split
        · split
          · apply matResume_follows
            apply unsusp_follows
            assumption
          · apply matDiscard_follows
            apply unsusp_follows
            assumption
        · apply unsusp_follows
          assumption
      · split
        · split
          · apply chResume_follows
            apply unsusp_follows
            assumption
          · apply chDiscard_follows
            apply unsusp_follows
            assumption
        · apply unsusp_follows
          assumption
      · split
        · split
          · apply rowResume_follows
            apply unsusp_follows
            assumption
          · apply rowDiscard_follows
            apply unsusp_follows
            assumption
        · apply unsusp_follows
          assumption

theorem xlDrop_follows {a0 : Blk} (b : Blk) (range : Option (Nat × Nat)) (h_b : a0.Follows b) : Blk.Follows a0 (@Blk.xlDrop b range) := by
  unfold Blk.xlDrop
  try dsimp only
  apply follows_mk
  assumption

theorem walkBegin_follows {a0 : Blk} (b : Blk) (u : Nat) (va : Nat) (cls : Nat) (write : Bool) (h_b : a0.Follows b) : Blk.Follows a0 (@Blk.walkBegin b u va cls write) := by
  unfold Blk.walkBegin
  try dsimp only
  split
  · with_reducible assumption
  · apply follows_mk
    split
    · apply setXl_follows
      with_reducible assumption
    · apply inc_follows
      apply setXl_follows
      with_reducible assumption

theorem walkEnd_follows {a0 : Blk} (b : Blk) (w : WalkRun) (h_b : a0.Follows b) : Blk.Follows a0 (@Blk.walkEnd b w).1 := by
  unfold Blk.walkEnd
  try dsimp only
  split
  · dsimp only
    split
    · apply follows_mk
      with_reducible assumption
    · apply xlFill_follows
      apply follows_mk
      with_reducible assumption
  · dsimp only
    split
    · apply follows_mk
      with_reducible assumption
    · apply inc_follows
      apply follows_mk
      with_reducible assumption

theorem walkFailed_follows {a0 : Blk} (b : Blk) (u : Nat) (va : Nat) (cls : Nat) (c : Nat) (detail : Nat) (pa : Nat) (h_b : a0.Follows b) : Blk.Follows a0 (@Blk.walkFailed b u va cls c detail pa) := by
  unfold Blk.walkFailed
  try dsimp only
  split
  · apply ueOf_follows
    with_reducible assumption
  · split
    · apply event_follows
      apply raise_follows
      apply capture_follows
      apply ueOf_follows
      apply draw_follows
      with_reducible assumption
    · apply raise_follows
      apply capture_follows
      apply ueOf_follows
      apply draw_follows
      with_reducible assumption

theorem inval_follows {a0 : Blk} (b : Blk) (scope : Nat) (pages : Nat) (h_b : a0.Follows b) : Blk.Follows a0 (@Blk.inval b scope pages) := by
  unfold Blk.inval
  try dsimp only
  split
  · apply inc_follows
    assumption
  · split
    · apply wr_follows
      apply xlDrop_follows
      assumption
    · split
      · apply wr_follows
        apply xlDrop_follows
        assumption
      · assumption

theorem ceCount_follows {a0 : Blk} (b : Blk) (p : Page) (n : Nat) (cnt : Fld) (pass : Fld) (thr : Fld) (h_b : a0.Follows b) : Blk.Follows a0 (@Blk.ceCount b p n cnt pass thr) := by
  unfold Blk.ceCount
  try dsimp only
  split
  · apply event_follows
    apply inc_follows
    apply inc_follows
    with_reducible assumption
  · apply inc_follows
    apply inc_follows
    with_reducible assumption

theorem lineCe_follows {a0 : Blk} (b : Blk) (pa : Nat) (h_b : a0.Follows b) : Blk.Follows a0 (@Blk.lineCe b pa) := by
  unfold Blk.lineCe
  try dsimp only
  split
  · apply ceCount_follows
    with_reducible assumption
  · apply ceCount_follows
    with_reducible assumption
  · with_reducible assumption

theorem scrub_follows {a0 : Blk} (b : Blk) (pa : Nat) (ce : Bool) (last : Bool) (h_b : a0.Follows b) : Blk.Follows a0 (@Blk.scrub b pa ce last) := by
  unfold Blk.scrub
  try dsimp only
  split
  · split
    · with_reducible assumption
    · split
      · apply event_follows
        apply inc_follows
        split
        · apply event_follows
          apply error_follows
          apply wr64_follows
          apply inc_follows
          apply draw_follows
          split
          · apply wr_follows
            with_reducible assumption
          · apply wr_follows
            apply wr_follows
            with_reducible assumption
        · split
          · apply ceCount_follows
            split
            · apply wr_follows
              with_reducible assumption
            · apply wr_follows
              apply wr_follows
              with_reducible assumption
          · split
            · apply wr_follows
              with_reducible assumption
            · apply wr_follows
              apply wr_follows
              with_reducible assumption
      · split
        · apply event_follows
          apply error_follows
          apply wr64_follows
          apply inc_follows
          apply draw_follows
          split
          · apply wr_follows
            with_reducible assumption
          · apply wr_follows
            apply wr_follows
            with_reducible assumption
        · split
          · apply ceCount_follows
            split
            · apply wr_follows
              with_reducible assumption
            · apply wr_follows
              apply wr_follows
              with_reducible assumption
          · split
            · apply wr_follows
              with_reducible assumption
            · apply wr_follows
              apply wr_follows
              with_reducible assumption
  · split
    · with_reducible assumption
    · split
      · apply event_follows
        apply inc_follows
        split
        · apply event_follows
          apply error_follows
          apply wr64_follows
          apply inc_follows
          apply draw_follows
          split
          · apply wr_follows
            with_reducible assumption
          · apply wr_follows
            apply wr_follows
            with_reducible assumption
        · split
          · apply ceCount_follows
            split
            · apply wr_follows
              with_reducible assumption
            · apply wr_follows
              apply wr_follows
              with_reducible assumption
          · split
            · apply wr_follows
              with_reducible assumption
            · apply wr_follows
              apply wr_follows
              with_reducible assumption
      · split
        · apply event_follows
          apply error_follows
          apply wr64_follows
          apply inc_follows
          apply draw_follows
          split
          · apply wr_follows
            with_reducible assumption
          · apply wr_follows
            apply wr_follows
            with_reducible assumption
        · split
          · apply ceCount_follows
            split
            · apply wr_follows
              with_reducible assumption
            · apply wr_follows
              apply wr_follows
              with_reducible assumption
          · split
            · apply wr_follows
              with_reducible assumption
            · apply wr_follows
              apply wr_follows
              with_reducible assumption
  · with_reducible assumption

end Sys2Proof.Laws
end

