-- ==== Sys2Proof/Laws/FollowsSummary.lean ====
section
/-! SUPPORT. Each operation of Machine/Summary.lean stays in `Blk.Follows`: it keeps the memory canonical, lowers no flash counter and takes back nothing sent. -/

namespace Sys2Proof.Laws

open Sys2Proof.Machine

theorem sumStart_follows {a0 : Blk} (b : Blk) (w : Nat) (kind : Nat) (f : Blk → QOp → SumDesc → Blk) (h_b : a0.Follows b) (h_f : ∀ y0 y1 y2, a0.Follows y0 → Blk.Follows a0 (f y0 y1 y2)) : Blk.Follows a0 (@Blk.sumStart b w kind f) := by
  unfold Blk.sumStart
  try dsimp only
  split
  · assumption
  · split
    · assumption
    · split
      · apply post_follows
        apply setWale_follows
        assumption
      · apply_assumption
        apply setWale_follows
        apply setWale_follows
        assumption

theorem combine_follows {a0 : Blk} (b : Blk) (w : Nat) (op : QOp) (d : SumDesc) (h_b : a0.Follows b) : Blk.Follows a0 (@Blk.combine b w op d) := by
  unfold Blk.combine
  try dsimp only
  split
  · apply setWale_follows
    assumption
  · apply inc_follows
    apply setWale_follows
    assumption

theorem postGo_follows {a0 : Blk} (w : Nat) (op : QOp) (d : SumDesc) (fuel : Nat) (i : Nat) (a_5 : Blk) (h_a_5 : a0.Follows a_5) : Blk.Follows a0 (@Blk.postGo w op d fuel i a_5) := by
  induction fuel generalizing w op d i a_5 h_a_5 with
  | zero =>
  unfold Blk.postGo
  try dsimp only
  apply setWale_follows
  assumption
  | succ q1 ih =>
  unfold Blk.postGo
  try dsimp only
  split
  · apply event_follows
    apply setWale_follows
    assumption
  · apply ih
    split
    · apply event_follows
      apply setWale_follows
      assumption
    · apply setWale_follows
      assumption

theorem postMore_follows {a0 : Blk} (b : Blk) (w : Nat) (h_b : a0.Follows b) : Blk.Follows a0 (@Blk.postMore b w) := by
  unfold Blk.postMore
  try dsimp only
  split
  · split
    · assumption
    · apply postGo_follows
      assumption
  · assumption

theorem lossSend_follows {a0 : Blk} (b : Blk) (w : Nat) (l : List (Option Nat)) (h_b : a0.Follows b) : Blk.Follows a0 (@Blk.lossSend b w l) := by
  unfold Blk.lossSend
  try dsimp only
  apply follows_each
  · with_reducible assumption
  · intros
    split
    · apply follows_mk
      with_reducible assumption
    · apply inc_follows
      with_reducible assumption

theorem postPop_follows {a0 : Blk} (b : Blk) (w : Nat) (h_b : a0.Follows b) : Blk.Follows a0 (@Blk.postPop b w).2 := by
  unfold Blk.postPop
  try dsimp only
  split
  · apply follows_snd
    assumption
  · apply follows_snd
    apply postMore_follows
    apply setWale_follows
    assumption

end Sys2Proof.Laws
end

