-- ==== Sys2Proof/Laws/FollowsIssue.lean ====
section
/-! SUPPORT. Each operation of Machine/Issue.lean stays in `Blk.Follows`: it keeps the memory canonical, lowers no flash counter and takes back nothing sent. -/

namespace Sys2Proof.Laws

open Sys2Proof.Machine

theorem enqueue_follows {a0 : Blk} (b : Blk) (q : Queue) (op : QOp) (h_b : a0.Follows b) : Blk.Follows a0 (@Blk.enqueue b q op) := by
  unfold Blk.enqueue
  try dsimp only
  split
  · apply setStake_follows
    assumption
  · apply setStake_follows
    assumption
  · apply setWale_follows
    assumption
  · apply setWale_follows
    assumption
  · apply setWale_follows
    assumption

theorem issueAccept_follows {a0 : Blk} (b : Blk) (t : Tid) (q : Queue) (i : Ins) (desc : List Nat) (h_b : a0.Follows b) : Blk.Follows a0 (@Blk.issueAccept b t q i desc) := by
  unfold Blk.issueAccept
  try dsimp only
  apply wr_follows
  apply enqueue_follows
  apply next_follows
  assumption

theorem issue_follows {a0 : Blk} (b : Blk) (t : Tid) (opc : Nat) (q : Queue) (h_b : a0.Follows b) : Blk.Follows a0 (@Blk.issue b t opc q) := by
  unfold Blk.issue
  try dsimp only
  apply insn_follows
  · with_reducible assumption
  · intros
    split
    · apply threadFault_follows
      with_reducible assumption
    · split
      · apply threadFault_follows
        with_reducible assumption
      · split
        · apply deliverErr_follows
          with_reducible assumption
        · split
          · apply setThread_follows
            with_reducible assumption
          · split
            · apply threadFault_follows
              with_reducible assumption
            · split
              · apply setThread_follows
                with_reducible assumption
              · split
                · apply threadFault_follows
                  with_reducible assumption
                · split
                  · apply threadFault_follows
                    with_reducible assumption
                  · split
                    · apply setThread_follows
                      with_reducible assumption
                    · apply issueAccept_follows
                      with_reducible assumption

end Sys2Proof.Laws
end

