-- ==== Sys2Proof/Laws/FollowsNearFlit.lean ====
section
/-! SUPPORT. Each operation of Machine/NearFlit.lean stays in `Blk.Follows`: it keeps the memory canonical, lowers no flash counter and takes back nothing sent. -/

namespace Sys2Proof.Laws

open Sys2Proof.Machine

theorem setNport_follows {a0 : Blk} (b : Blk) (p : Nat) (x : NPort) (h_b : a0.Follows b) : Blk.Follows a0 (@Blk.setNport b p x) := by
  unfold Blk.setNport
  try dsimp only
  apply follows_mk
  with_reducible assumption

theorem keyWrite_follows {a0 : Blk} (b : Blk) (f : Fld) (i : Nat) (slot : Nat) (key : Nat) (h_b : a0.Follows b) : Blk.Follows a0 (@Blk.keyWrite b f i slot key) := by
  unfold Blk.keyWrite
  try dsimp only
  apply follows_each
  · with_reducible assumption
  · intros
    apply wr_follows
    with_reducible assumption

theorem txInstall_follows {a0 : Blk} (b : Blk) (p : Nat) (epoch : Nat) (h_b : a0.Follows b) : Blk.Follows a0 (@Blk.txInstall b p epoch) := by
  unfold Blk.txInstall
  try dsimp only
  apply keyWrite_follows
  with_reducible assumption

theorem rxInstall_follows {a0 : Blk} (b : Blk) (p : Nat) (epoch : Nat) (h_b : a0.Follows b) : Blk.Follows a0 (@Blk.rxInstall b p epoch) := by
  unfold Blk.rxInstall
  try dsimp only
  apply keyWrite_follows
  with_reducible assumption

theorem flitsOut_follows {a0 : Blk} (b : Blk) (p : Nat) (tc : Nat) (n : Nat) (r : NRec) (h_b : a0.Follows b) : Blk.Follows a0 (@Blk.flitsOut b p tc n r) := by
  unfold Blk.flitsOut
  try dsimp only
  split
  · apply follows_send
    apply draw_follows
    with_reducible assumption
  · apply follows_send
    split
    · apply setNport_follows
      with_reducible assumption
    · apply wr_follows
      apply setNport_follows
      with_reducible assumption

theorem freeFlits_follows {a0 : Blk} (b : Blk) (p : Nat) (tc : Nat) (n : Nat) (h_b : a0.Follows b) : Blk.Follows a0 (@Blk.freeFlits b p tc n) := by
  unfold Blk.freeFlits
  try dsimp only
  apply setNport_follows
  with_reducible assumption

theorem recordOut_follows {a0 : Blk} (b : Blk) (p : Nat) (tc : Nat) (r : NRec) (h_b : a0.Follows b) : Blk.Follows a0 (@Blk.recordOut b p tc r) := by
  unfold Blk.recordOut
  try dsimp only
  split
  · apply freeFlits_follows
    apply follows_send
    with_reducible assumption
  · apply follows_send
    with_reducible assumption

theorem pumpTc_follows {a0 : Blk} (p : Nat) (tc : Nat) (fuel : Nat) (x1 : Blk) (h_x1 : a0.Follows x1) : Blk.Follows a0 (@Blk.pumpTc p tc fuel x1) := by
  induction fuel generalizing p tc x1 h_x1 with
  | zero =>
    unfold Blk.pumpTc
    try dsimp only
    with_reducible assumption
  | succ fuel ih =>
    unfold Blk.pumpTc
    try dsimp only
    split
    · with_reducible assumption
    · split
      · with_reducible assumption
      · split
        · apply ih
          apply recordOut_follows
          apply setNport_follows
          apply flitsOut_follows
          with_reducible assumption
        · apply setNport_follows
          apply flitsOut_follows
          with_reducible assumption

theorem pumpAll_follows {a0 : Blk} (b : Blk) (p : Nat) (h_b : a0.Follows b) : Blk.Follows a0 (@Blk.pumpAll b p) := by
  unfold Blk.pumpAll
  try dsimp only
  apply follows_each
  · with_reducible assumption
  · intros
    apply pumpTc_follows
    with_reducible assumption

theorem queueUp_follows {a0 : Blk} (b : Blk) (p : Nat) (tc : Nat) (len : Nat) (m : NMsg) (origin : optParam (Option (Nat × Nat × Nat)) none) (h_b : a0.Follows b) : Blk.Follows a0 (@Blk.queueUp b p tc len m origin) := by
  unfold Blk.queueUp
  try dsimp only
  apply setNport_follows
  with_reducible assumption

theorem rekeyStart_follows {a0 : Blk} (b : Blk) (p : Nat) (h_b : a0.Follows b) : Blk.Follows a0 (@Blk.rekeyStart b p) := by
  unfold Blk.rekeyStart
  try dsimp only
  split
  · apply pumpAll_follows
    apply queueUp_follows
    apply setNport_follows
    with_reducible assumption
  · with_reducible assumption

theorem returnCredits_follows {a0 : Blk} (b : Blk) (p : Nat) (h_b : a0.Follows b) : Blk.Follows a0 (@Blk.returnCredits b p) := by
  unfold Blk.returnCredits
  try dsimp only
  split
  · with_reducible assumption
  · apply pumpAll_follows
    apply queueUp_follows
    apply setNport_follows
    with_reducible assumption

theorem returnFull_follows {a0 : Blk} (b : Blk) (p : Nat) (h_b : a0.Follows b) : Blk.Follows a0 (@Blk.returnFull b p) := by
  unfold Blk.returnFull
  try dsimp only
  split
  · apply returnCredits_follows
    with_reducible assumption
  · with_reducible assumption

theorem pump_follows {a0 : Blk} (b : Blk) (p : Nat) (h_b : a0.Follows b) : Blk.Follows a0 (@Blk.pump b p) := by
  unfold Blk.pump
  try dsimp only
  apply follows_each
  · apply rekeyStart_follows
    apply pumpAll_follows
    with_reducible assumption
  · intros
    apply returnFull_follows
    with_reducible assumption

theorem nearSend_follows {a0 : Blk} (b : Blk) (p : Nat) (tc : Nat) (len : Nat) (m : NMsg) (h_b : a0.Follows b) : Blk.Follows a0 (@Blk.nearSend b p tc len m) := by
  unfold Blk.nearSend
  try dsimp only
  apply pump_follows
  apply queueUp_follows
  with_reducible assumption

theorem control_follows {a0 : Blk} (b : Blk) (p : Nat) (m : NMsg) (h_b : a0.Follows b) : Blk.Follows a0 (@Blk.control b p m) := by
  unfold Blk.control
  try dsimp only
  apply nearSend_follows
  with_reducible assumption

end Sys2Proof.Laws
end

