-- ==== Sys2Proof/Laws/FollowsPower.lean ====
section
/-! SUPPORT. Each operation of Machine/Power.lean stays in `Blk.Follows`: it keeps the memory canonical, lowers no flash counter and takes back nothing sent. -/

namespace Sys2Proof.Laws

open Sys2Proof.Machine

theorem pwcError_follows {a0 : Blk} (b : Blk) (e : Err) (h_b : a0.Follows b) : Blk.Follows a0 (@Blk.pwcError b e) := by
  unfold Blk.pwcError
  try dsimp only
  apply follows_mk
  apply sanitise_follows
  apply raise_follows
  apply capture_follows
  assumption

theorem setBalance_follows {a0 : Blk} (b : Blk) (p : Nat) (v : Int) (h_b : a0.Follows b) : Blk.Follows a0 (@Blk.setBalance b p v) := by
  unfold Blk.setBalance
  try dsimp only
  apply wr_follows
  assumption

theorem pwcShow_follows {a0 : Blk} (b : Blk) (h_b : a0.Follows b) : Blk.Follows a0 (@Blk.pwcShow b) := by
  unfold Blk.pwcShow
  try dsimp only
  apply stateEvents_follows
  split
  · apply event_follows
    apply wr_follows
    apply wr_follows
    apply wr_follows
    apply wr_follows
    apply follows_each
    · apply wr_follows
      apply wr_follows
      with_reducible assumption
    · intros
      apply wr_follows
      with_reducible assumption
  · apply wr_follows
    apply wr_follows
    apply wr_follows
    apply wr_follows
    apply follows_each
    · apply wr_follows
      apply wr_follows
      with_reducible assumption
    · intros
      apply wr_follows
      with_reducible assumption

theorem setPwr_follows {a0 : Blk} (b : Blk) (x : Pwr) (h_b : a0.Follows b) : Blk.Follows a0 (@Blk.setPwr b x) := by
  unfold Blk.setPwr
  try dsimp only
  apply pwcShow_follows
  apply follows_mk
  assumption

theorem alertIn_follows {a0 : Blk} (b : Blk) (h_b : a0.Follows b) : Blk.Follows a0 (@Blk.alertIn b) := by
  unfold Blk.alertIn
  try dsimp only
  apply event_follows
  apply inc_follows
  apply pwcError_follows
  apply setPwr_follows
  apply draw_follows
  with_reducible assumption

theorem showTab_follows {a0 : Blk} (b : Blk) (h_b : a0.Follows b) : Blk.Follows a0 (@Blk.showTab b) := by
  unfold Blk.showTab
  try dsimp only
  apply follows_each
  · assumption
  · intros
    apply wr_follows
    assumption

theorem seedPhase_follows {a0 : Blk} (b : Blk) (k : Nat) (v : Nat) (h_b : a0.Follows b) : Blk.Follows a0 (@Blk.seedPhase b k v) := by
  unfold Blk.seedPhase
  try dsimp only
  apply follows_mk
  assumption

theorem setNbr_follows {a0 : Blk} (b : Blk) (p : Nat) (x : Neighbour) (h_b : a0.Follows b) : Blk.Follows a0 (@Blk.setNbr b p x) := by
  unfold Blk.setNbr
  try dsimp only
  apply follows_mk
  assumption

theorem revertAll_follows {a0 : Blk} (b : Blk) (h_b : a0.Follows b) : Blk.Follows a0 (@Blk.revertAll b) := by
  unfold Blk.revertAll
  try dsimp only
  apply pwcShow_follows
  apply follows_each
  · apply follows_each
    · with_reducible assumption
    · intros
      apply setNbr_follows
      apply setBalance_follows
      with_reducible assumption
  · intros
    apply nearSend_follows
    apply setNbr_follows
    with_reducible assumption

theorem powerLinkLost_follows {a0 : Blk} (b : Blk) (p : Nat) (h_b : a0.Follows b) : Blk.Follows a0 (@Blk.powerLinkLost b p) := by
  unfold Blk.powerLinkLost
  try dsimp only
  apply pwcShow_follows
  apply setNbr_follows
  apply setBalance_follows
  assumption

theorem give_follows {a0 : Blk} (b : Blk) (p : Nat) (g : Nat) (h_b : a0.Follows b) : Blk.Follows a0 (@Blk.give b p g) := by
  unfold Blk.give
  try dsimp only
  split
  · assumption
  · split
    · apply setNbr_follows
      assumption
    · apply setBalance_follows
      assumption

theorem shiftPower_follows {a0 : Blk} (b : Blk) (h_b : a0.Follows b) : Blk.Follows a0 (@Blk.shiftPower b) := by
  unfold Blk.shiftPower
  try dsimp only
  split
  · with_reducible assumption
  · apply pwcShow_follows
    apply follows_each
    · split
      · apply setBalance_follows
        with_reducible assumption
      · with_reducible assumption
    · intros
      apply nearSend_follows
      apply setNbr_follows
      with_reducible assumption

theorem pwcTick_follows {a0 : Blk} (b : Blk) (m : TickMeasure) (h_b : a0.Follows b) : Blk.Follows a0 (@Blk.pwcTick b m) := by
  unfold Blk.pwcTick
  try dsimp only
  apply shiftPower_follows
  apply pwcShow_follows
  split
  · apply follows_mk
    split
    · apply showTab_follows
      apply follows_mk
      apply wr_follows
      apply wr_follows
      apply wr_follows
      assumption
    · apply follows_mk
      apply wr_follows
      apply wr_follows
      apply wr_follows
      assumption
  · split
    · apply showTab_follows
      apply follows_mk
      apply wr_follows
      apply wr_follows
      apply wr_follows
      assumption
    · apply follows_mk
      apply wr_follows
      apply wr_follows
      apply wr_follows
      assumption

theorem pwcReset_follows {a0 : Blk} (b : Blk) (h_b : a0.Follows b) : Blk.Follows a0 (@Blk.pwcReset b) := by
  unfold Blk.pwcReset
  try dsimp only
  apply revertAll_follows
  apply showTab_follows
  apply follows_mk
  assumption

theorem thermStep_follows {a0 : Blk} (b : Blk) (d : Nat) (h_b : a0.Follows b) : Blk.Follows a0 (@Blk.thermStep b d) := by
  unfold Blk.thermStep
  try dsimp only
  apply pwcShow_follows
  split
  · split
    · apply pwcError_follows
      apply event_follows
      apply inc_follows
      apply wr_follows
      assumption
    · apply wr_follows
      assumption
  · split
    · apply pwcError_follows
      apply event_follows
      apply inc_follows
      apply wr_follows
      assumption
    · apply wr_follows
      assumption
  · split
    · apply pwcError_follows
      apply event_follows
      apply inc_follows
      apply wr_follows
      assumption
    · apply wr_follows
      assumption

theorem thermals_follows {a0 : Blk} (b : Blk) (h_b : a0.Follows b) : Blk.Follows a0 (@Blk.thermals b) := by
  unfold Blk.thermals
  try dsimp only
  apply follows_each
  · apply wr_follows
    apply wr_follows
    assumption
  · intros
    split
    · assumption
    · apply thermStep_follows
      apply follows_mk
      assumption

theorem sensorRead_follows {a0 : Blk} (b : Blk) (k : Nat) (t : Int) (full : Bool) (h_b : a0.Follows b) : Blk.Follows a0 (@Blk.sensorRead b k t full) := by
  unfold Blk.sensorRead
  try dsimp only
  apply thermals_follows
  apply follows_mk
  assumption

theorem tripRecord_follows {a0 : Blk} (b : Blk) (k : Nat) (t : Int) (h_b : a0.Follows b) : Blk.Follows a0 (@Blk.tripRecord b k t) := by
  unfold Blk.tripRecord
  try dsimp only
  apply event_follows
  apply event_follows
  apply inc_follows
  apply pwcError_follows
  apply follows_mk
  assumption

theorem leakShow_follows {a0 : Blk} (b : Blk) (h_b : a0.Follows b) : Blk.Follows a0 (@Blk.leakShow b) := by
  unfold Blk.leakShow
  try dsimp only
  split
  · apply stateEvents_follows
    apply event_follows
    apply wr_follows
    with_reducible assumption
  · with_reducible assumption

theorem grant_follows {a0 : Blk} (b : Blk) (r : LvReq) (h_b : a0.Follows b) : Blk.Follows a0 (@Blk.grant b r) := by
  unfold Blk.grant
  try dsimp only
  split
  · apply dmaGranted_follows
    assumption
  · apply rowGranted_follows
    assumption
  · split
    · split
      · apply setStake_follows
        assumption
      · apply follows_mk
        assumption
    · apply follows_mk
      assumption
  · apply follows_mk
    assumption

end Sys2Proof.Laws
end

