-- ==== Sys2Proof/Laws/FollowsSched.lean ====
section
/-! SUPPORT. Each operation of Machine/Sched.lean stays in `Blk.Follows`: it keeps the memory canonical, lowers no flash counter and takes back nothing sent. -/

namespace Sys2Proof.Laws

open Sys2Proof.Machine

theorem overrun_follows {a0 : Blk} (b : Blk) (w : Nat) (h_b : a0.Follows b) : Blk.Follows a0 (@Blk.overrun b w) := by
  unfold Blk.overrun
  try dsimp only
  split
  · apply follows_each
    · apply setWale_follows
      apply event_follows
      apply inc_follows
      apply event_follows
      apply inc_follows
      assumption
    · intros
      apply overrunFault_follows
      assumption
  · apply setWale_follows
    apply event_follows
    apply inc_follows
    apply event_follows
    apply inc_follows
    assumption

theorem tickWale_follows {a0 : Blk} (b : Blk) (w : Nat) (h_b : a0.Follows b) : Blk.Follows a0 (@Blk.tickWale b w) := by
  unfold Blk.tickWale
  try dsimp only
  split
  · assumption
  · split
    · split
      · apply event_follows
        apply inc_follows
        assumption
      · apply inc_follows
        assumption
    · split
      · apply event_follows
        apply overrun_follows
        apply inc_follows
        assumption
      · apply overrun_follows
        apply inc_follows
        assumption

theorem listBad_follows {a0 : Blk} (b : Blk) (w : Nat) (h_b : a0.Follows b) : Blk.Follows a0 (@Blk.listBad b w) := by
  unfold Blk.listBad
  try dsimp only
  apply event_follows
  apply inc_follows
  assumption

theorem takeEntry_follows {a0 : Blk} (w : Nat) (acc : Blk × List Tid) (e : Nat) (h_acc : a0.Follows acc.1) : Blk.Follows a0 (@Blk.takeEntry w acc e).1 := by
  unfold Blk.takeEntry
  try dsimp only
  split
  · apply follows_fst
    apply listBad_follows
    assumption
  · apply follows_fst
    apply setThread_follows
    assumption

theorem takeList_follows {a0 : Blk} (b : Blk) (w : Nat) (pa : Nat) (h_3 : Nat) (es : List Nat) (h_b : a0.Follows b) : Blk.Follows a0 (@Blk.takeList b w pa h_3 es) := by
  unfold Blk.takeList
  try dsimp only
  apply follows_foldl_fst
  · intros
    apply takeEntry_follows
    assumption
  · apply follows_fst
    apply follows_each
    · apply setWale_follows
      apply follows_each
      · apply tryNat_follows
        assumption
      · intros
        apply icacheInval_follows
        assumption
    · intros
      split
      · apply barRelease_follows
        assumption
      · assumption

theorem takeRead_follows {a0 : Blk} (b : Blk) (w : Nat) (pa : Nat) (h_3 : Nat) (a_4 : Except (Nat × Nat) Nat) (h_b : a0.Follows b) : Blk.Follows a0 (@Blk.takeRead b w pa h_3 a_4) := by
  unfold Blk.takeRead
  try dsimp only
  split
  · apply listBad_follows
    assumption
  · split
    · apply takeList_follows
      assumption
    · apply listBad_follows
      assumption

theorem takeHead_follows {a0 : Blk} (b : Blk) (w : Nat) (pa : Nat) (a_3 : Except (Nat × Nat) Nat) (h_b : a0.Follows b) : Blk.Follows a0 (@Blk.takeHead b w pa a_3) := by
  unfold Blk.takeHead
  try dsimp only
  split
  · apply listBad_follows
    assumption
  · split
    · apply listBad_follows
      assumption
    · split
      · apply takeList_follows
        assumption
      · apply takeRead_follows
        assumption

theorem takeAt_follows {a0 : Blk} (b : Blk) (w : Nat) (get : Nat) (h_b : a0.Follows b) : Blk.Follows a0 (@Blk.takeAt b w get) := by
  unfold Blk.takeAt
  try dsimp only
  apply takeHead_follows
  assumption

theorem take_follows {a0 : Blk} (b : Blk) (w : Nat) (h_b : a0.Follows b) : Blk.Follows a0 (@Blk.take b w) := by
  unfold Blk.take
  try dsimp only
  split
  · apply event_follows
    apply inc_follows
    apply setWale_follows
    apply follows_each
    · apply dec_follows
      assumption
    · intros
      apply setThread_follows
      assumption
  · apply addW_follows
    apply takeAt_follows
    apply setWale_follows
    apply follows_each
    · apply dec_follows
      assumption
    · intros
      apply setThread_follows
      assumption

theorem toLocked_follows {a0 : Blk} (b : Blk) (h_b : a0.Follows b) : Blk.Follows a0 (@Blk.toLocked b) := by
  unfold Blk.toLocked
  try dsimp only
  apply event_follows
  apply wr_follows
  assumption

theorem toLost_follows {a0 : Blk} (b : Blk) (h_b : a0.Follows b) : Blk.Follows a0 (@Blk.toLost b) := by
  unfold Blk.toLost
  try dsimp only
  apply event_follows
  apply inc_follows
  apply wr_follows
  assumption

theorem syncMatch_follows {a0 : Blk} (b : Blk) (x : Nat) (h_b : a0.Follows b) : Blk.Follows a0 (@Blk.syncMatch b x) := by
  unfold Blk.syncMatch
  try dsimp only
  split
  · split
    · apply inc_follows
      apply wr_follows
      with_reducible assumption
    · apply wr_follows
      apply follows_mk
      apply wr_follows
      with_reducible assumption
  · split
    · split
      · apply inc_follows
        apply wr_follows
        with_reducible assumption
      · apply wr_follows
        apply follows_mk
        apply wr_follows
        with_reducible assumption
    · apply inc_follows
      apply wr_follows
      with_reducible assumption

theorem syncMatchEdge_follows {a0 : Blk} (b : Blk) (x : Nat) (h_b : a0.Follows b) : Blk.Follows a0 (@Blk.syncMatchEdge b x) := by
  unfold Blk.syncMatchEdge
  try dsimp only
  split
  · apply syncMatch_follows
    with_reducible assumption
  · apply follows_mk
    with_reducible assumption

theorem syncFlush_follows {a0 : Blk} (b : Blk) (h_b : a0.Follows b) : Blk.Follows a0 (@Blk.syncFlush b) := by
  unfold Blk.syncFlush
  try dsimp only
  apply follows_each
  · apply follows_mk
    with_reducible assumption
  · intros
    apply syncMatch_follows
    with_reducible assumption

theorem syncAcquire_follows {a0 : Blk} (b : Blk) (x : Nat) (h_b : a0.Follows b) : Blk.Follows a0 (@Blk.syncAcquire b x) := by
  unfold Blk.syncAcquire
  try dsimp only
  apply toLocked_follows
  apply wr_follows
  apply follows_mk
  with_reducible assumption

theorem syncLength_follows {a0 : Blk} (b : Blk) (h_b : a0.Follows b) : Blk.Follows a0 (@Blk.syncLength b) := by
  unfold Blk.syncLength
  try dsimp only
  split
  · split
    · apply toLost_follows
      apply wr_follows
      apply follows_mk
      with_reducible assumption
    · apply wr_follows
      apply follows_mk
      with_reducible assumption
  · split
    · split
      · split
        · apply toLocked_follows
          apply follows_mk
          apply wr_follows
          apply follows_mk
          with_reducible assumption
        · apply follows_mk
          apply wr_follows
          apply follows_mk
          with_reducible assumption
      · apply follows_mk
        apply wr_follows
        apply follows_mk
        with_reducible assumption
    · split
      · apply toLost_follows
        apply follows_mk
        apply inc_follows
        apply follows_mk
        with_reducible assumption
      · apply follows_mk
        apply inc_follows
        apply follows_mk
        with_reducible assumption

theorem syncEval_follows {a0 : Blk} (b : Blk) (h_b : a0.Follows b) : Blk.Follows a0 (@Blk.syncEval b) := by
  unfold Blk.syncEval
  try dsimp only
  apply syncFlush_follows
  apply syncLength_follows
  with_reducible assumption

theorem syncEnable_follows {a0 : Blk} (b : Blk) (old : Bool) (on : Bool) (h_b : a0.Follows b) : Blk.Follows a0 (@Blk.syncEnable b old on) := by
  unfold Blk.syncEnable
  try dsimp only
  split
  · apply follows_mk
    apply wr_follows
    assumption
  · split
    · assumption
    · apply follows_mk
      apply wr_follows
      apply wr_follows
      assumption

theorem tickTimer_follows {a0 : Blk} (b : Blk) (h_b : a0.Follows b) : Blk.Follows a0 (@Blk.tickTimer b) := by
  unfold Blk.tickTimer
  try dsimp only
  split
  · apply follows_send
    apply follows_mk
    apply wr64_follows
    apply syncFlush_follows
    with_reducible assumption
  · apply follows_mk
    apply wr64_follows
    apply syncFlush_follows
    with_reducible assumption

end Sys2Proof.Laws
end

