-- ==== Sys2Proof/Laws/FollowsCoder.lean ====
section
/-! SUPPORT. Each operation of Machine/Coder.lean stays in `Blk.Follows`: it keeps the memory canonical, lowers no flash counter and takes back nothing sent. -/

namespace Sys2Proof.Laws

open Sys2Proof.Machine

theorem fcodCount_follows {a0 : Blk} (b : Blk) (i : Nat) (rawBytes : Nat) (qs : List Quant) (c : Coded) (h_b : a0.Follows b) : Blk.Follows a0 (@Blk.fcodCount b i rawBytes qs c) := by
  unfold Blk.fcodCount
  try dsimp only
  split
  · apply add_follows
    apply add64_follows
    apply add64_follows
    apply wr_follows
    apply inc_follows
    assumption
  · apply event_follows
    apply add_follows
    apply add_follows
    apply add64_follows
    apply add64_follows
    apply wr_follows
    apply inc_follows
    assumption

theorem ncodCount_follows {a0 : Blk} (b : Blk) (i : Nat) (rawBytes : Nat) (qs : List Quant) (c : Coded) (h_b : a0.Follows b) : Blk.Follows a0 (@Blk.ncodCount b i rawBytes qs c) := by
  unfold Blk.ncodCount
  try dsimp only
  split
  · apply add_follows
    apply add64_follows
    apply add64_follows
    apply wr_follows
    apply inc_follows
    assumption
  · apply event_follows
    apply add_follows
    apply add_follows
    apply add64_follows
    apply add64_follows
    apply wr_follows
    apply inc_follows
    assumption

end Sys2Proof.Laws
end

