-- ==== Sys2Proof/Laws/FollowsQuote.lean ====
section
/-! SUPPORT. Each operation of Machine/Quote.lean stays in `Blk.Follows`: it keeps the memory canonical, lowers no flash counter and takes back nothing sent. -/

namespace Sys2Proof.Laws

open Sys2Proof.Machine

theorem sendCap_follows {a0 : Blk} (b : Blk) (p : Nat) (challenge : Nat) (h_b : a0.Follows b) : Blk.Follows a0 (@Blk.sendCap b p challenge) := by
  unfold Blk.sendCap
  try dsimp only
  apply follows_send
  with_reducible assumption

end Sys2Proof.Laws
end

