-- ==== Sys2Proof/Laws/FollowsNearLink.lean ====
section
/-! SUPPORT. Each operation of Machine/NearLink.lean stays in `Blk.Follows`: it keeps the memory canonical, lowers no flash counter and takes back nothing sent. -/

namespace Sys2Proof.Laws

open Sys2Proof.Machine

theorem linkTo_follows {a0 : Blk} (b : Blk) (p : Nat) (st : Nat) (h_b : a0.Follows b) : Blk.Follows a0 (@Blk.linkTo b p st) := by
  unfold Blk.linkTo
  try dsimp only
  split
  · apply powerLinkLost_follows
    apply event_follows
    apply wr_follows
    apply wr_follows
    apply wr_follows
    assumption
  · apply wr_follows
    assumption

theorem endSession_follows {a0 : Blk} (b : Blk) (p : Nat) (h_b : a0.Follows b) : Blk.Follows a0 (@Blk.endSession b p) := by
  unfold Blk.endSession
  try dsimp only
  apply wr_follows
  apply wr_follows
  apply wr_follows
  apply follows_each
  · apply setNport_follows
    with_reducible assumption
  · intros
    apply keyWrite_follows
    with_reducible assumption

theorem trainStart_follows {a0 : Blk} (b : Blk) (p : Nat) (h_b : a0.Follows b) : Blk.Follows a0 (@Blk.trainStart b p) := by
  unfold Blk.trainStart
  try dsimp only
  apply setNport_follows
  apply linkTo_follows
  with_reducible assumption

theorem linkDown_follows {a0 : Blk} (b : Blk) (p : Nat) (st : Nat) (h_b : a0.Follows b) : Blk.Follows a0 (@Blk.linkDown b p st) := by
  unfold Blk.linkDown
  try dsimp only
  apply setNport_follows
  apply linkTo_follows
  with_reducible assumption

theorem trainWrite_follows {a0 : Blk} (b : Blk) (p : Nat) (old : Bool) (on : Bool) (h_b : a0.Follows b) : Blk.Follows a0 (@Blk.trainWrite b p old on) := by
  unfold Blk.trainWrite
  try dsimp only
  split
  · apply trainStart_follows
    assumption
  · split
    · apply linkDown_follows
      assumption
    · assumption

theorem replayExhausted_follows {a0 : Blk} (b : Blk) (p : Nat) (seq : Nat) (h_b : a0.Follows b) : Blk.Follows a0 (@Blk.replayExhausted b p seq) := by
  unfold Blk.replayExhausted
  try dsimp only
  apply setNport_follows
  apply linkTo_follows
  apply inc_follows
  apply error_follows
  assumption

theorem replayFrom_follows {a0 : Blk} (b : Blk) (p : Nat) (skip : Nat) (h_b : a0.Follows b) : Blk.Follows a0 (@Blk.replayFrom b p skip) := by
  unfold Blk.replayFrom
  try dsimp only
  split
  · assumption
  · split
    · apply replayExhausted_follows
      assumption
    · apply follows_send
      apply inc_follows
      apply setNport_follows
      assumption

theorem rekey_follows {a0 : Blk} (b : Blk) (p : Nat) (h_b : a0.Follows b) : Blk.Follows a0 (@Blk.rekey b p) := by
  unfold Blk.rekey
  try dsimp only
  apply pump_follows
  apply setNport_follows
  with_reducible assumption

theorem retireTx_follows {a0 : Blk} (b : Blk) (p : Nat) (h_b : a0.Follows b) : Blk.Follows a0 (@Blk.retireTx b p) := by
  unfold Blk.retireTx
  try dsimp only
  split
  · apply control_follows
    apply keyWrite_follows
    apply wr_follows
    with_reducible assumption
  · with_reducible assumption

theorem epochChange_follows {a0 : Blk} (b : Blk) (p : Nat) (h_b : a0.Follows b) : Blk.Follows a0 (@Blk.epochChange b p) := by
  unfold Blk.epochChange
  try dsimp only
  apply event_follows
  apply inc_follows
  assumption

theorem hoLanded_follows {a0 : Blk} (b : Blk) (p : Nat) (l : List NFlit) (h_b : a0.Follows b) : Blk.Follows a0 (@Blk.hoLanded b p l) := by
  unfold Blk.hoLanded
  try dsimp only
  apply follows_each
  · with_reducible assumption
  · intros
    split
    · apply follows_mk
      with_reducible assumption
    · with_reducible assumption

theorem ackTo_follows {a0 : Blk} (b : Blk) (p : Nat) (bit : Nat) (seq : Nat) (h_b : a0.Follows b) : Blk.Follows a0 (@Blk.ackTo b p bit seq) := by
  unfold Blk.ackTo
  try dsimp only
  split
  · apply pump_follows
    apply retireTx_follows
    apply hoLanded_follows
    apply setNport_follows
    with_reducible assumption
  · with_reducible assumption

theorem nakNow_follows {a0 : Blk} (b : Blk) (p : Nat) (h_b : a0.Follows b) : Blk.Follows a0 (@Blk.nakNow b p) := by
  unfold Blk.nakNow
  try dsimp only
  apply pumpAll_follows
  apply queueUp_follows
  apply setNport_follows
  with_reducible assumption

theorem relay_follows {a0 : Blk} (b : Blk) (p : Nat) (tc : Nat) (bytes : List Byte) (h_b : a0.Follows b) : Blk.Follows a0 (@Blk.relay b p tc bytes) := by
  unfold Blk.relay
  try dsimp only
  split
  · apply returnFull_follows
    apply freeFlits_follows
    with_reducible assumption
  · split
    · apply error_follows
      apply ueOf_follows
      apply returnFull_follows
      apply freeFlits_follows
      with_reducible assumption
    · apply returnFull_follows
      apply freeFlits_follows
      with_reducible assumption
    · apply pump_follows
      apply queueUp_follows
      with_reducible assumption

theorem recordIn_follows {a0 : Blk} (b : Blk) (p : Nat) (tc : Nat) (payload : List Byte) (h_b : a0.Follows b) : Blk.Follows a0 (@Blk.recordIn b p tc payload) := by
  unfold Blk.recordIn
  try dsimp only
  split
  · apply relay_follows
    apply setNport_follows
    with_reducible assumption
  · apply setNport_follows
    with_reducible assumption

theorem deliverFlit_follows {a0 : Blk} (b : Blk) (p : Nat) (e : Nat) (seq : Nat) (f : FlitIn) (h_b : a0.Follows b) : Blk.Follows a0 (@Blk.deliverFlit b p e seq f) := by
  unfold Blk.deliverFlit
  try dsimp only
  split
  · apply recordIn_follows
    apply setNport_follows
    with_reducible assumption
  · apply setNport_follows
    with_reducible assumption

theorem tagFail_follows {a0 : Blk} (b : Blk) (p : Nat) (e : Nat) (seq : Nat) (h_b : a0.Follows b) : Blk.Follows a0 (@Blk.tagFail b p e seq) := by
  unfold Blk.tagFail
  try dsimp only
  split
  · apply trainStart_follows
    apply event_follows
    apply inc_follows
    apply inc_follows
    with_reducible assumption
  · apply nakNow_follows
    apply setNport_follows
    apply event_follows
    apply inc_follows
    apply inc_follows
    with_reducible assumption

theorem flit_follows {a0 : Blk} (b : Blk) (p : Nat) (f : FlitIn) (h_b : a0.Follows b) : Blk.Follows a0 (@Blk.flit b p f) := by
  unfold Blk.flit
  try dsimp only
  split
  · split
    · split
      · split
        · apply nakNow_follows
          apply inc_follows
          apply add64_follows
          with_reducible assumption
        · apply inc_follows
          apply add64_follows
          with_reducible assumption
      · split
        · apply nakNow_follows
          apply inc_follows
          with_reducible assumption
        · apply inc_follows
          with_reducible assumption
    · split
      · apply nakNow_follows
        apply inc_follows
        split
        · apply add64_follows
          with_reducible assumption
        · with_reducible assumption
      · apply inc_follows
        split
        · apply add64_follows
          with_reducible assumption
        · with_reducible assumption
  · split
    · split
      · split
        · apply add64_follows
          with_reducible assumption
        · split
          · apply inc_follows
            apply add64_follows
            with_reducible assumption
          · split
            · apply tagFail_follows
              apply add64_follows
              with_reducible assumption
            · split
              · apply ackTo_follows
                apply add64_follows
                with_reducible assumption
              · split
                · apply deliverFlit_follows
                  apply ackTo_follows
                  apply add64_follows
                  with_reducible assumption
                · split
                  · apply ackTo_follows
                    apply add64_follows
                    with_reducible assumption
                  · apply nakNow_follows
                    apply ackTo_follows
                    apply add64_follows
                    with_reducible assumption
      · split
        · with_reducible assumption
        · split
          · apply inc_follows
            with_reducible assumption
          · split
            · apply tagFail_follows
              with_reducible assumption
            · split
              · apply ackTo_follows
                with_reducible assumption
              · split
                · apply deliverFlit_follows
                  apply ackTo_follows
                  with_reducible assumption
                · split
                  · apply ackTo_follows
                    with_reducible assumption
                  · apply nakNow_follows
                    apply ackTo_follows
                    with_reducible assumption
    · split
      · split
        · apply add64_follows
          with_reducible assumption
        · with_reducible assumption
      · split
        · split
          · apply inc_follows
            apply add64_follows
            with_reducible assumption
          · split
            · apply tagFail_follows
              apply add64_follows
              with_reducible assumption
            · split
              · apply ackTo_follows
                apply add64_follows
                with_reducible assumption
              · split
                · apply deliverFlit_follows
                  apply ackTo_follows
                  apply add64_follows
                  with_reducible assumption
                · split
                  · apply ackTo_follows
                    apply add64_follows
                    with_reducible assumption
                  · apply nakNow_follows
                    apply ackTo_follows
                    apply add64_follows
                    with_reducible assumption
        · split
          · apply inc_follows
            with_reducible assumption
          · split
            · apply tagFail_follows
              with_reducible assumption
            · split
              · apply ackTo_follows
                with_reducible assumption
              · split
                · apply deliverFlit_follows
                  apply ackTo_follows
                  with_reducible assumption
                · split
                  · apply ackTo_follows
                    with_reducible assumption
                  · apply nakNow_follows
                    apply ackTo_follows
                    with_reducible assumption

theorem lanes4_follows {a0 : Blk} (b : Blk) (p : Nat) (h_b : a0.Follows b) : Blk.Follows a0 (@Blk.lanes4 b p) := by
  unfold Blk.lanes4
  try dsimp only
  split
  · apply trainStart_follows
    with_reducible assumption
  · split
    · apply wr_follows
      apply wr_follows
      apply wr_follows
      with_reducible assumption
    · apply event_follows
      apply wr_follows
      apply wr_follows
      apply wr_follows
      with_reducible assumption

theorem lanes8_follows {a0 : Blk} (b : Blk) (p : Nat) (h_b : a0.Follows b) : Blk.Follows a0 (@Blk.lanes8 b p) := by
  unfold Blk.lanes8
  try dsimp only
  split
  · apply lanes4_follows
    with_reducible assumption
  · split
    · apply event_follows
      apply wr_follows
      apply wr_follows
      apply wr_follows
      with_reducible assumption
    · apply wr_follows
      apply wr_follows
      apply wr_follows
      with_reducible assumption

theorem force4_follows {a0 : Blk} (b : Blk) (p : Nat) (old : Bool) (on : Bool) (h_b : a0.Follows b) : Blk.Follows a0 (@Blk.force4 b p old on) := by
  unfold Blk.force4
  try dsimp only
  split
  · apply lanes4_follows
    apply control_follows
    with_reducible assumption
  · with_reducible assumption

theorem challenge_follows {a0 : Blk} (b : Blk) (p : Nat) (h_b : a0.Follows b) : Blk.Follows a0 (@Blk.challenge b p) := by
  induction p generalizing b h_b with
  | zero =>
    unfold Blk.challenge
    try dsimp only
    apply follows_send
    apply setNport_follows
    apply entUsed_follows
    with_reducible assumption
  | succ p ih =>
    unfold Blk.challenge
    try dsimp only
    apply follows_send
    apply setNport_follows
    apply entUsed_follows
    with_reducible assumption

theorem newSession_follows {a0 : Blk} (b : Blk) (p : Nat) (h_b : a0.Follows b) : Blk.Follows a0 (@Blk.newSession b p) := by
  unfold Blk.newSession
  try dsimp only
  apply inc_follows
  apply wr_follows
  apply wr_follows
  apply wr_follows
  apply wr_follows
  apply wr_follows
  apply rxInstall_follows
  apply txInstall_follows
  apply keyWrite_follows
  apply keyWrite_follows
  apply setNport_follows
  apply entUsed_follows
  with_reducible assumption

theorem slotCredit_follows {a0 : Blk} (b : Blk) (p : Nat) (n : Nat) (h_b : a0.Follows b) : Blk.Follows a0 (@Blk.slotCredit b p n) := by
  unfold Blk.slotCredit
  try dsimp only
  split
  · with_reducible assumption
  · apply control_follows
    with_reducible assumption

theorem linkReady_follows {a0 : Blk} (b : Blk) (p : Nat) (h_b : a0.Follows b) : Blk.Follows a0 (@Blk.linkReady b p) := by
  unfold Blk.linkReady
  try dsimp only
  apply pump_follows
  apply slotCredit_follows
  apply event_follows
  apply lanes8_follows
  apply wr_follows
  apply wr_follows
  apply wr_follows
  apply follows_mk
  apply setNport_follows
  apply follows_each
  · with_reducible assumption
  · intros
    apply wr_follows
    apply wr_follows
    with_reducible assumption

theorem trainStep_follows {a0 : Blk} (b : Blk) (p : Nat) (r : TrainResult) (h_b : a0.Follows b) : Blk.Follows a0 (@Blk.trainStep b p r) := by
  unfold Blk.trainStep
  try dsimp only
  split
  · apply setNport_follows
    apply setNport_follows
    with_reducible assumption
  · split
    · apply setNport_follows
      apply setNport_follows
      with_reducible assumption
    · apply challenge_follows
      apply setNport_follows
      with_reducible assumption
  · split
    · with_reducible assumption
    · apply sendCap_follows
      apply setNport_follows
      apply setNport_follows
      split
      · apply wr_follows
        apply draw_follows
        apply wr_follows
        apply wr_follows
        with_reducible assumption
      · apply wr_follows
        apply wr_follows
        apply wr_follows
        with_reducible assumption
  · split
    · with_reducible assumption
    · split
      · apply setNport_follows
        with_reducible assumption
      · apply follows_send
        apply inc_follows
        apply setNport_follows
        with_reducible assumption
  · split
    · apply wr_follows
      apply setNport_follows
      with_reducible assumption
    · with_reducible assumption
  · apply setNport_follows
    apply newSession_follows
    with_reducible assumption
  · apply linkReady_follows
    with_reducible assumption
  · with_reducible assumption

theorem echoIn_follows {a0 : Blk} (b : Blk) (p : Nat) (h_b : a0.Follows b) : Blk.Follows a0 (@Blk.echoIn b p) := by
  unfold Blk.echoIn
  try dsimp only
  split
  · apply follows_send
    apply draw_follows
    with_reducible assumption
  · with_reducible assumption

theorem loadSwitch_follows {a0 : Blk} (b : Blk) (p : Nat) (h_b : a0.Follows b) : Blk.Follows a0 (@Blk.loadSwitch b p) := by
  unfold Blk.loadSwitch
  try dsimp only
  apply wr_follows
  assumption

theorem loadRetry_follows {a0 : Blk} (b : Blk) (p : Nat) (h_b : a0.Follows b) : Blk.Follows a0 (@Blk.loadRetry b p) := by
  unfold Blk.loadRetry
  try dsimp only
  split
  · split
    · apply trainStart_follows
      apply loadSwitch_follows
      apply wr_follows
      assumption
    · apply linkTo_follows
      apply loadSwitch_follows
      apply wr_follows
      assumption
  · apply loadSwitch_follows
    apply wr_follows
    assumption

theorem loadRetryWrite_follows {a0 : Blk} (b : Blk) (p : Nat) (h_b : a0.Follows b) : Blk.Follows a0 (@Blk.loadRetryWrite b p) := by
  unfold Blk.loadRetryWrite
  try dsimp only
  apply follows_when
  · assumption
  · intros
    apply loadRetry_follows
    apply setNport_follows
    assumption

end Sys2Proof.Laws
end

