-- ==== Sys2Proof/Laws/FollowsBank.lean ====
section
/-! SUPPORT. Each operation of Machine/Bank.lean stays in `Blk.Follows`: it keeps the memory canonical, lowers no flash counter and takes back nothing sent. -/

namespace Sys2Proof.Laws

open Sys2Proof.Machine

theorem setBank_follows {a0 : Blk} (b : Blk) (n : Nat) (x : Bank) (h_b : a0.Follows b) : Blk.Follows a0 (@Blk.setBank b n x) := by
  unfold Blk.setBank
  try dsimp only
  apply follows_mk
  assumption

theorem writeLines_follows {a0 : Blk} (b : Blk) (dom : Nat) (pa : Nat) (l : List Byte) (h_b : a0.Follows b) : Blk.Follows a0 (@Blk.writeLines b dom pa l) := by
  unfold Blk.writeLines
  try dsimp only
  apply writePa_follows
  assumption

theorem writeRec_follows {a0 : Blk} (b : Blk) (d : ApplyDesc) (c : Nat) (r : CommitRec) (h_b : a0.Follows b) : Blk.Follows a0 (@Blk.writeRec b d c r) := by
  unfold Blk.writeRec
  try dsimp only
  apply writeLines_follows
  assumption

theorem writeWcopy_follows {a0 : Blk} (b : Blk) (d : ApplyDesc) (c : Nat) (step : Nat) (master : List Nat) (h_b : a0.Follows b) : Blk.Follows a0 (@Blk.writeWcopy b d c step master) := by
  unfold Blk.writeWcopy
  try dsimp only
  split
  · assumption
  · split
    · apply writeLines_follows
      assumption
    · apply writeLines_follows
      apply writeLines_follows
      assumption

theorem exportSession_follows {a0 : Blk} (b : Blk) (h_b : a0.Follows b) : Blk.Follows a0 (@Blk.exportSession b) := by
  unfold Blk.exportSession
  try dsimp only
  apply follows_send
  apply follows_mk
  apply entUsed_follows
  with_reducible assumption

theorem exportReady_follows {a0 : Blk} (b : Blk) (h_b : a0.Follows b) : Blk.Follows a0 (@Blk.exportReady b) := by
  unfold Blk.exportReady
  try dsimp only
  split
  · apply exportSession_follows
    with_reducible assumption
  · with_reducible assumption

theorem codeLossless_follows {a0 : Blk} (f : Nat) (fuel : Nat) (idx : Nat) (a_3 : Blk) (a_4 : List Byte) (h_a_3 : a0.Follows a_3) : Blk.Follows a0 (@Blk.codeLossless f fuel idx a_3 a_4).1 := by
  induction fuel generalizing f idx a_3 a_4 h_a_3 with
  | zero =>
  unfold Blk.codeLossless
  try dsimp only
  assumption
  | succ q1 ih =>
  unfold Blk.codeLossless
  try dsimp only
  split
  · apply follows_fst
    assumption
  · apply follows_fst
    apply ih
    apply fcodCount_follows
    assumption

theorem expRec_follows {a0 : Blk} (b : Blk) (n : Nat) (d : ApplyDesc) (c : Nat) (flags : Nat) (step : Nat) (opt : Nat) (count : Nat) (crcOld : Nat) (crcCur : Nat) (diff : List Nat) (h_b : a0.Follows b) : Blk.Follows a0 (@Blk.expRec b n d c flags step opt count crcOld crcCur diff).1 := by
  unfold Blk.expRec
  try dsimp only
  apply codeLossless_follows
  assumption

theorem expStore_follows {a0 : Blk} (b : Blk) (n : Nat) (base : Nat) (size : Nat) (put : Nat) (l : List Byte) (h_b : a0.Follows b) : Blk.Follows a0 (@Blk.expStore b n base size put l) := by
  unfold Blk.expStore
  try dsimp only
  apply writeLines_follows
  apply writeLines_follows
  with_reducible assumption

theorem xpClear_follows {a0 : Blk} (b : Blk) (x1 : Option (List Nat × Nat)) (h_b : a0.Follows b) : Blk.Follows a0 (@Blk.xpClear b x1) := by
  unfold Blk.xpClear
  try dsimp only
  split
  · with_reducible assumption
  · split
    · split
      · apply writeRec_follows
        with_reducible assumption
      · with_reducible assumption
    · with_reducible assumption

theorem expAppend_follows {a0 : Blk} (b : Blk) (n : Nat) (r : Staged) (h_b : a0.Follows b) : Blk.Follows a0 (@Blk.expAppend b n r) := by
  unfold Blk.expAppend
  try dsimp only
  apply xpClear_follows
  apply add64_follows
  apply follows_mk
  apply setBank_follows
  apply expStore_follows
  apply exportReady_follows
  with_reducible assumption

theorem expPost_follows {a0 : Blk} (b : Blk) (n : Nat) (r : Staged) (h_b : a0.Follows b) : Blk.Follows a0 (@Blk.expPost b n r) := by
  unfold Blk.expPost
  try dsimp only
  split
  · apply expAppend_follows
    with_reducible assumption
  · split
    · apply event_follows
      apply inc_follows
      apply wr_follows
      apply setBank_follows
      with_reducible assumption
    · apply setBank_follows
      with_reducible assumption

theorem bankAbort_follows {a0 : Blk} (b : Blk) (n : Nat) (d : ApplyDesc) (f : Fail) (h_b : a0.Follows b) : Blk.Follows a0 (@Blk.bankAbort b n d f) := by
  unfold Blk.bankAbort
  try dsimp only
  split
  · apply setBank_follows
    apply sendFault_follows
    apply error_follows
    apply inc_follows
    apply ueOf_follows
    with_reducible assumption
  · apply event_follows
    apply wr_follows
    apply setBank_follows
    apply sendFault_follows
    apply error_follows
    apply inc_follows
    apply ueOf_follows
    with_reducible assumption

theorem bankEnd_follows {a0 : Blk} (b : Blk) (n : Nat) (last : Nat) (h_b : a0.Follows b) : Blk.Follows a0 (@Blk.bankEnd b n last) := by
  unfold Blk.bankEnd
  try dsimp only
  apply event_follows
  apply addW_follows
  apply wr_follows
  apply wr_follows
  apply lvDrop_follows
  apply setBank_follows
  assumption

theorem shardTouch_follows {a0 : Blk} (b : Blk) (shard : Nat) (h_b : a0.Follows b) : Blk.Follows a0 (@Blk.shardTouch b shard) := by
  unfold Blk.shardTouch
  try dsimp only
  split
  · apply ueOf_follows
    with_reducible assumption
  · with_reducible assumption

theorem partDone_follows {a0 : Blk} (b : Blk) (n : Nat) (l : List Nat) (crcs : List Nat) (h_b : a0.Follows b) : Blk.Follows a0 (@Blk.partDone b n l crcs) := by
  unfold Blk.partDone
  try dsimp only
  split
  · split
    · apply follows_mk
      apply shardTouch_follows
      with_reducible assumption
    · apply follows_mk
      apply shardTouch_follows
      with_reducible assumption
  · split
    · apply follows_mk
      with_reducible assumption
    · apply follows_mk
      with_reducible assumption

theorem bankWork_follows {a0 : Blk} (b : Blk) (n : Nat) (d : ApplyDesc) (x : Bank) (here : Nat × Nat) (a_5 : Except Fail ChunkWork) (h_b : a0.Follows b) : Blk.Follows a0 (@Blk.bankWork b n d x here a_5) := by
  unfold Blk.bankWork
  try dsimp only
  split
  · apply bankAbort_follows
    apply setBank_follows
    assumption
  · apply setBank_follows
    assumption

theorem bankBegin_follows {a0 : Blk} (b : Blk) (n : Nat) (d : ApplyDesc) (x : Bank) (r : CommitRec) (h_b : a0.Follows b) : Blk.Follows a0 (@Blk.bankBegin b n d x r) := by
  unfold Blk.bankBegin
  try dsimp only
  apply bankWork_follows
  split
  · apply inc_follows
    apply wr_follows
    apply lvDrop_follows
    assumption
  · apply wr_follows
    apply lvDrop_follows
    assumption

theorem bankRebuilt_follows {a0 : Blk} (b : Blk) (n : Nat) (l : List Nat) (x : Bank) (r : CommitRec) (x1 : Except Fail (List Nat)) (h_b : a0.Follows b) : Blk.Follows a0 (@Blk.bankRebuilt b n l x r x1).1 := by
  unfold Blk.bankRebuilt
  try dsimp only
  split
  · dsimp only
    apply bankAbort_follows
    with_reducible assumption
  · dsimp only
    apply expPost_follows
    apply expRec_follows
    with_reducible assumption

theorem bankHead_follows {a0 : Blk} (b : Blk) (n : Nat) (l : List Nat) (x : Bank) (x1 : Except Fail CommitRec) (h_b : a0.Follows b) : Blk.Follows a0 (@Blk.bankHead b n l x x1).1 := by
  unfold Blk.bankHead
  try dsimp only
  split
  · dsimp only
    apply bankAbort_follows
    with_reducible assumption
  · split
    · apply bankRebuilt_follows
      with_reducible assumption
    · split
      · dsimp only
        apply setBank_follows
        with_reducible assumption
      · split
        · dsimp only
          apply wr_follows
          with_reducible assumption
        · split
          · dsimp only
            apply wr_follows
            apply lvAsk_follows
            with_reducible assumption
          · dsimp only
            apply bankBegin_follows
            with_reducible assumption

theorem bankNext_follows {a0 : Blk} (b : Blk) (n : Nat) (l : List Nat) (x : Bank) (h_b : a0.Follows b) : Blk.Follows a0 (@Blk.bankNext b n l x).1 := by
  unfold Blk.bankNext
  try dsimp only
  split
  · dsimp only
    apply bankEnd_follows
    apply partDone_follows
    apply wr_follows
    apply setBank_follows
    with_reducible assumption
  · split
    · dsimp only
      apply wr_follows
      apply wr_follows
      apply setBank_follows
      with_reducible assumption
    · apply bankHead_follows
      apply wr_follows
      apply setBank_follows
      with_reducible assumption

theorem bankStep_follows {a0 : Blk} (b : Blk) (n : Nat) (h_b : a0.Follows b) : Blk.Follows a0 (@Blk.bankStep b n).1 := by
  unfold Blk.bankStep
  try dsimp only
  split
  · split
    · dsimp only
      apply expAppend_follows
      apply setBank_follows
      with_reducible assumption
    · dsimp only
      apply wr_follows
      with_reducible assumption
  · dsimp only
    apply wr_follows
    with_reducible assumption
  · split
    · dsimp only
      apply wr_follows
      with_reducible assumption
    · split
      · dsimp only
        apply wr_follows
        with_reducible assumption
      · split
        · split
          · dsimp only
            apply wr_follows
            with_reducible assumption
          · apply bankNext_follows
            with_reducible assumption
        · split
          · dsimp only
            apply wr_follows
            with_reducible assumption
          · apply bankNext_follows
            with_reducible assumption

theorem bankGo_follows {a0 : Blk} (n : Nat) (fuel : Nat) (a_2 : Blk) (h_a_2 : a0.Follows a_2) : Blk.Follows a0 (@Blk.bankGo n fuel a_2) := by
  induction fuel generalizing n a_2 h_a_2 with
  | zero =>
  unfold Blk.bankGo
  try dsimp only
  assumption
  | succ q1 ih =>
  unfold Blk.bankGo
  try dsimp only
  split
  · apply ih
    apply bankStep_follows
    assumption
  · apply bankStep_follows
    assumption

theorem bankRun_follows {a0 : Blk} (b : Blk) (n : Nat) (h_b : a0.Follows b) : Blk.Follows a0 (@Blk.bankRun b n) := by
  unfold Blk.bankRun
  try dsimp only
  split
  · apply bankGo_follows
    assumption
  · apply bankGo_follows
    assumption

theorem bankCommit_follows {a0 : Blk} (b : Blk) (n : Nat) (l : List Nat) (w : ChunkWork) (h_b : a0.Follows b) : Blk.Follows a0 (@Blk.bankCommit b n l w) := by
  unfold Blk.bankCommit
  try dsimp only
  apply bankRun_follows
  split
  · apply expPost_follows
    apply expRec_follows
    apply setBank_follows
    split
    · apply add_follows
      apply add_follows
      apply add64_follows
      apply writeRec_follows
      apply writeWcopy_follows
      split
      · split
        · apply writeLines_follows
          split
          · apply writeLines_follows
            assumption
          · assumption
        · split
          · apply writeLines_follows
            assumption
          · assumption
      · apply writeLines_follows
        split
        · apply writeLines_follows
          split
          · apply writeLines_follows
            assumption
          · assumption
        · split
          · apply writeLines_follows
            assumption
          · assumption
    · apply event_follows
      apply add_follows
      apply add_follows
      apply add64_follows
      apply writeRec_follows
      apply writeWcopy_follows
      split
      · split
        · apply writeLines_follows
          split
          · apply writeLines_follows
            assumption
          · assumption
        · split
          · apply writeLines_follows
            assumption
          · assumption
      · apply writeLines_follows
        split
        · apply writeLines_follows
          split
          · apply writeLines_follows
            assumption
          · assumption
        · split
          · apply writeLines_follows
            assumption
          · assumption
  · apply setBank_follows
    split
    · apply add_follows
      apply add_follows
      apply add64_follows
      apply writeRec_follows
      apply writeWcopy_follows
      split
      · split
        · apply writeLines_follows
          split
          · apply writeLines_follows
            assumption
          · assumption
        · split
          · apply writeLines_follows
            assumption
          · assumption
      · apply writeLines_follows
        split
        · apply writeLines_follows
          split
          · apply writeLines_follows
            assumption
          · assumption
        · split
          · apply writeLines_follows
            assumption
          · assumption
    · apply event_follows
      apply add_follows
      apply add_follows
      apply add64_follows
      apply writeRec_follows
      apply writeWcopy_follows
      split
      · split
        · apply writeLines_follows
          split
          · apply writeLines_follows
            assumption
          · assumption
        · split
          · apply writeLines_follows
            assumption
          · assumption
      · apply writeLines_follows
        split
        · apply writeLines_follows
          split
          · apply writeLines_follows
            assumption
          · assumption
        · split
          · apply writeLines_follows
            assumption
          · assumption

theorem bankRefuse_follows {a0 : Blk} (b : Blk) (n : Nat) (cls : Nat) (h_b : a0.Follows b) : Blk.Follows a0 (@Blk.bankRefuse b n cls) := by
  unfold Blk.bankRefuse
  try dsimp only
  apply event_follows
  apply addW_follows
  apply error_follows
  apply wr_follows
  assumption

theorem bankRecopy_follows {a0 : Blk} (b : Blk) (n : Nat) (d : ApplyDesc) (c : Nat) (step : Nat) (a_5 : Except Fail (List Nat)) (h_b : a0.Follows b) : Blk.Follows a0 (@Blk.bankRecopy b n d c step a_5) := by
  unfold Blk.bankRecopy
  try dsimp only
  split
  · apply bankEnd_follows
    assumption
  · apply bankEnd_follows
    apply writeWcopy_follows
    assumption

theorem bankReslot_follows {a0 : Blk} (b : Blk) (n : Nat) (d : ApplyDesc) (c : Nat) (a_4 : Except Fail CommitRec) (h_b : a0.Follows b) : Blk.Follows a0 (@Blk.bankReslot b n d c a_4) := by
  unfold Blk.bankReslot
  try dsimp only
  split
  · apply bankEnd_follows
    assumption
  · apply bankRecopy_follows
    assumption

theorem bankAbandon_follows {a0 : Blk} (b : Blk) (n : Nat) (l : List Nat) (h_b : a0.Follows b) : Blk.Follows a0 (@Blk.bankAbandon b n l) := by
  unfold Blk.bankAbandon
  try dsimp only
  apply bankReslot_follows
  assumption

theorem bankCmd_follows {a0 : Blk} (b : Blk) (n : Nat) (action : Nat) (h_b : a0.Follows b) : Blk.Follows a0 (@Blk.bankCmd b n action) := by
  unfold Blk.bankCmd
  try dsimp only
  split
  · apply follows_when
    · assumption
    · intros
      apply bankRun_follows
      apply setBank_follows
      assumption
  · apply follows_when
    · assumption
    · intros
      apply bankAbandon_follows
      assumption
  · apply follows_when
    · assumption
    · intros
      apply bankEnd_follows
      assumption
  · assumption

theorem expSent_follows {a0 : Blk} (b : Blk) (n : Nat) (r : List Byte) (rest : List (List Byte)) (h_b : a0.Follows b) : Blk.Follows a0 (@Blk.expSent b n r rest) := by
  unfold Blk.expSent
  try dsimp only
  apply bankRun_follows
  apply setBank_follows
  with_reducible assumption

end Sys2Proof.Laws
end

