-- ==== Sys2Proof/Laws/FollowsReplica.lean ====
section
/-! SUPPORT. Each operation of Machine/Replica.lean stays in `Blk.Follows`: it keeps the memory canonical, lowers no flash counter and takes back nothing sent. -/

namespace Sys2Proof.Laws

open Sys2Proof.Machine

theorem wakeBanks_follows {a0 : Blk} (b : Blk) (h_b : a0.Follows b) : Blk.Follows a0 (@Blk.wakeBanks b) := by
  unfold Blk.wakeBanks
  try dsimp only
  apply follows_each
  · assumption
  · intros
    split
    · apply bankRun_follows
      assumption
    · assumption

theorem lossRaise_follows {a0 : Blk} (b : Blk) (spike : Bool) (x : Nat) (h_b : a0.Follows b) : Blk.Follows a0 (@Blk.lossRaise b spike x) := by
  unfold Blk.lossRaise
  try dsimp only
  split
  · split
    · apply event_follows
      apply inc_follows
      assumption
    · split
      · apply event_follows
        apply wr_follows
        apply follows_mk
        apply wr_follows
        apply wr_follows
        apply wr_follows
        apply wr_follows
        apply event_follows
        apply inc_follows
        assumption
      · apply follows_mk
        apply wr_follows
        apply wr_follows
        apply wr_follows
        apply wr_follows
        apply event_follows
        apply inc_follows
        assumption
  · split
    · apply event_follows
      apply inc_follows
      assumption
    · split
      · apply event_follows
        apply wr_follows
        apply follows_mk
        apply wr_follows
        apply wr_follows
        apply wr_follows
        apply wr_follows
        apply event_follows
        apply inc_follows
        assumption
      · apply follows_mk
        apply wr_follows
        apply wr_follows
        apply wr_follows
        apply wr_follows
        apply event_follows
        apply inc_follows
        assumption

theorem lossFold_follows {a0 : Blk} (b : Blk) (x : Nat) (h_b : a0.Follows b) : Blk.Follows a0 (@Blk.lossFold b x) := by
  unfold Blk.lossFold
  try dsimp only
  apply wr_follows
  apply wr_follows
  apply wr_follows
  assumption

theorem lossValue_follows {a0 : Blk} (b : Blk) (x : Nat) (h_b : a0.Follows b) : Blk.Follows a0 (@Blk.lossValue b x) := by
  unfold Blk.lossValue
  try dsimp only
  split
  · apply inc_follows
    assumption
  · split
    · apply lossRaise_follows
      apply wr_follows
      apply inc_follows
      assumption
    · split
      · apply wr_follows
        apply wr_follows
        apply wr_follows
        apply wr_follows
        apply inc_follows
        assumption
      · split
        · split
          · apply lossRaise_follows
            apply wr_follows
            apply inc_follows
            assumption
          · apply lossFold_follows
            apply lossRaise_follows
            apply wr_follows
            apply inc_follows
            assumption
        · split
          · apply wr_follows
            apply inc_follows
            assumption
          · apply lossFold_follows
            apply wr_follows
            apply inc_follows
            assumption

theorem lossRelease_follows {a0 : Blk} (b : Blk) (h_b : a0.Follows b) : Blk.Follows a0 (@Blk.lossRelease b) := by
  unfold Blk.lossRelease
  try dsimp only
  apply wakeBanks_follows
  apply follows_mk
  apply wr_follows
  assumption

theorem lossReset_follows {a0 : Blk} (b : Blk) (h_b : a0.Follows b) : Blk.Follows a0 (@Blk.lossReset b) := by
  unfold Blk.lossReset
  try dsimp only
  apply wr_follows
  apply wr_follows
  apply wr_follows
  assumption

theorem sendTo_follows {a0 : Blk} (b : Blk) (tc : Nat) (dst : Nat) (len : Nat) (m : NMsg) (h_b : a0.Follows b) : Blk.Follows a0 (@Blk.sendTo b tc dst len m) := by
  unfold Blk.sendTo
  try dsimp only
  split
  · apply error_follows
    apply ueOf_follows
    with_reducible assumption
  · with_reducible assumption
  · apply nearSend_follows
    with_reducible assumption

theorem setShard_follows {a0 : Blk} (b : Blk) (k : Nat) (x : ShardSt) (h_b : a0.Follows b) : Blk.Follows a0 (@Blk.setShard b k x) := by
  unfold Blk.setShard
  try dsimp only
  apply follows_mk
  assumption

theorem repairFetch_follows {a0 : Blk} (b : Blk) (shard : Nat) (step : Nat) (rank : Nat) (digest : Nat) (h_b : a0.Follows b) : Blk.Follows a0 (@Blk.repairFetch b shard step rank digest) := by
  unfold Blk.repairFetch
  try dsimp only
  apply follows_each
  · apply follows_mk
    assumption
  · intros
    apply sendTo_follows
    assumption

theorem decideCmp_follows {a0 : Blk} (b : Blk) (c : DigCmp) (own : Nat) (h_b : a0.Follows b) : Blk.Follows a0 (@Blk.decideCmp b c own) := by
  unfold Blk.decideCmp
  try dsimp only
  apply wakeBanks_follows
  split
  · apply event_follows
    apply inc_follows
    apply setShard_follows
    apply follows_mk
    assumption
  · apply inc_follows
    apply setShard_follows
    apply follows_mk
    assumption
  · split
    · apply setShard_follows
      apply event_follows
      apply error_follows
      apply inc_follows
      apply follows_mk
      assumption
    · apply repairFetch_follows
      apply setShard_follows
      apply event_follows
      apply error_follows
      apply inc_follows
      apply follows_mk
      assumption

theorem tryDecide_follows {a0 : Blk} (b : Blk) (shard : Nat) (step : Nat) (h_b : a0.Follows b) : Blk.Follows a0 (@Blk.tryDecide b shard step) := by
  unfold Blk.tryDecide
  try dsimp only
  split
  · split
    · split
      · apply decideCmp_follows
        assumption
      · assumption
    · assumption
  · assumption

theorem setCmp_follows {a0 : Blk} (b : Blk) (c : DigCmp) (h_b : a0.Follows b) : Blk.Follows a0 (@Blk.setCmp b c) := by
  unfold Blk.setCmp
  try dsimp only
  apply follows_mk
  assumption

theorem digestReady_follows {a0 : Blk} (b : Blk) (shard : Nat) (h_b : a0.Follows b) : Blk.Follows a0 (@Blk.digestReady b shard) := by
  unfold Blk.digestReady
  try dsimp only
  split
  · apply shardTouch_follows
    with_reducible assumption
  · split
    · split
      · apply setShard_follows
        apply shardTouch_follows
        with_reducible assumption
      · apply setShard_follows
        apply shardTouch_follows
        with_reducible assumption
    · split
      · apply shardTouch_follows
        with_reducible assumption
      · apply tryDecide_follows
        apply follows_each
        · apply follows_mk
          apply setCmp_follows
          apply setShard_follows
          apply shardTouch_follows
          with_reducible assumption
        · intros
          split
          · with_reducible assumption
          · apply sendTo_follows
            with_reducible assumption

theorem digestReceive_follows {a0 : Blk} (b : Blk) (src : Nat) (shard : Nat) (step : Nat) (d : Nat) (h_b : a0.Follows b) : Blk.Follows a0 (@Blk.digestReceive b src shard step d) := by
  unfold Blk.digestReceive
  try dsimp only
  split
  · apply shardTouch_follows
    with_reducible assumption
  · split
    · apply shardTouch_follows
      with_reducible assumption
    · split
      · split
        · apply shardTouch_follows
          with_reducible assumption
        · apply tryDecide_follows
          apply setCmp_follows
          apply shardTouch_follows
          with_reducible assumption
      · split
        · apply shardTouch_follows
          with_reducible assumption
        · apply follows_mk
          apply shardTouch_follows
          with_reducible assumption

theorem tickDigest_follows {a0 : Blk} (b : Blk) (h_b : a0.Follows b) : Blk.Follows a0 (@Blk.tickDigest b) := by
  unfold Blk.tickDigest
  try dsimp only
  apply follows_mk
  assumption

theorem serveBegin_follows {a0 : Blk} (b : Blk) (src : Nat) (shard : Nat) (part : Nat) (chunk : Nat) (step : Nat) (h_b : a0.Follows b) : Blk.Follows a0 (@Blk.serveBegin b src shard part chunk step) := by
  unfold Blk.serveBegin
  try dsimp only
  apply follows_mk
  assumption

theorem repairStore_follows {a0 : Blk} (b : Blk) (d : ApplyDesc) (c : RepairChunk) (r : CommitRec) (h_b : a0.Follows b) : Blk.Follows a0 (@Blk.repairStore b d c r) := by
  unfold Blk.repairStore
  try dsimp only
  apply writeWcopy_follows
  apply writeRec_follows
  split
  · apply writeLines_follows
    split
    · apply writeLines_follows
      apply writeLines_follows
      assumption
    · apply writeLines_follows
      assumption
  · split
    · apply writeLines_follows
      apply writeLines_follows
      assumption
    · apply writeLines_follows
      assumption

theorem fetched_follows {a0 : Blk} (b : Blk) (c : RepairChunk) (h_b : a0.Follows b) : Blk.Follows a0 (@Blk.fetched b c) := by
  unfold Blk.fetched
  try dsimp only
  split
  · apply follows_mk
    assumption
  · apply wakeBanks_follows
    apply event_follows
    apply inc_follows
    apply setShard_follows
    apply follows_mk
    assumption

theorem repairWith_follows {a0 : Blk} (b : Blk) (q : DigPart) (c : RepairChunk) (x1 : Except Fail CommitRec) (h_b : a0.Follows b) : Blk.Follows a0 (@Blk.repairWith b q c x1) := by
  unfold Blk.repairWith
  try dsimp only
  split
  · apply error_follows
    apply ueOf_follows
    with_reducible assumption
  · apply fetched_follows
    split
    · apply expPost_follows
      apply expRec_follows
      apply repairStore_follows
      with_reducible assumption
    · apply repairStore_follows
      with_reducible assumption

end Sys2Proof.Laws
end

