-- ==== Sys2Proof/Laws/FollowsReduce.lean ====
section
/-! SUPPORT. Each operation of Machine/Reduce.lean stays in `Blk.Follows`: it keeps the memory canonical, lowers no flash counter and takes back nothing sent. -/

namespace Sys2Proof.Laws

open Sys2Proof.Machine

theorem setBorder_follows {a0 : Blk} (b : Blk) (x : Border) (h_b : a0.Follows b) : Blk.Follows a0 (@Blk.setBorder b x) := by
  unfold Blk.setBorder
  try dsimp only
  apply follows_mk
  assumption

theorem borderLoad_follows {a0 : Blk} (b : Blk) (pa : Nat) (n : Nat) (h_b : a0.Follows b) : Blk.Follows a0 (@Blk.borderLoad b pa n).1 := by
  unfold Blk.borderLoad
  try dsimp only
  split
  · with_reducible assumption
  · dsimp only
    apply ueOf_follows
    with_reducible assumption

theorem groupUe_follows {a0 : Blk} (b : Blk) (g : Nat) (h_b : a0.Follows b) : Blk.Follows a0 (@Blk.groupUe b g) := by
  unfold Blk.groupUe
  try dsimp only
  apply ueIn_follows
  with_reducible assumption

theorem efEntry_follows {a0 : Blk} (b : Blk) (g : Nat) (h_b : a0.Follows b) : Blk.Follows a0 (@Blk.efEntry b g).1 := by
  unfold Blk.efEntry
  try dsimp only
  split
  · dsimp only
    refine follows_of_fst (by assumption) ?_
    apply loadVa_follows
    with_reducible assumption
  · dsimp only
    refine follows_of_fst (by assumption) ?_
    apply loadVa_follows
    with_reducible assumption

theorem groupCoder_follows {a0 : Blk} (b : Blk) (k : Nat) (g : Machine.Group) (hops : List Hop) (mem : List (Nat × Nat)) (h_b : a0.Follows b) : Blk.Follows a0 (@Blk.groupCoder b k g hops mem).1 := by
  unfold Blk.groupCoder
  try dsimp only
  split
  · with_reducible assumption
  · split
    · split
      · dsimp only
        refine follows_of_fst (by assumption) ?_
        apply efEntry_follows
        with_reducible assumption
      · dsimp only
        refine follows_of_fst (by assumption) ?_
        apply efEntry_follows
        with_reducible assumption
    · with_reducible assumption

theorem groupUse_follows {a0 : Blk} (b : Blk) (k : Nat) (h_b : a0.Follows b) : Blk.Follows a0 (@Blk.groupUse b k).1 := by
  unfold Blk.groupUse
  try dsimp only
  split
  · dsimp only
    refine follows_of_fst (by assumption) ?_
    apply borderLoad_follows
    with_reducible assumption
  · split
    · dsimp only
      refine follows_of_fst (by assumption) ?_
      apply borderLoad_follows
      with_reducible assumption
    · split
      · dsimp only
        apply ueOf_follows
        refine follows_of_fst (by assumption) ?_
        apply borderLoad_follows
        with_reducible assumption
      · split
        · dsimp only
          refine follows_of_fst (by assumption) ?_
          apply borderLoad_follows
          refine follows_of_fst (by assumption) ?_
          apply borderLoad_follows
          with_reducible assumption
        · apply groupCoder_follows
          refine follows_of_fst (by assumption) ?_
          apply borderLoad_follows
          refine follows_of_fst (by assumption) ?_
          apply borderLoad_follows
          with_reducible assumption

theorem seeStep_follows {a0 : Blk} (b : Blk) (s : Nat) (h_b : a0.Follows b) : Blk.Follows a0 (@Blk.seeStep b s).1 := by
  unfold Blk.seeStep
  try dsimp only
  split
  · apply follows_fst
    assumption
  · split
    · apply follows_fst
      apply follows_mk
      assumption
    · split
      · split
        · apply follows_fst
          assumption
        · apply follows_fst
          apply setBorder_follows
          apply follows_mk
          assumption
      · apply follows_fst
        assumption

theorem setStep_follows {a0 : Blk} (b : Blk) (x : StepRec) (h_b : a0.Follows b) : Blk.Follows a0 (@Blk.setStep b x) := by
  unfold Blk.setStep
  try dsimp only
  apply follows_mk
  assumption

theorem showStep_follows {a0 : Blk} (b : Blk) (h_b : a0.Follows b) : Blk.Follows a0 (@Blk.showStep b) := by
  unfold Blk.showStep
  try dsimp only
  split
  · apply wr_follows
    apply wr_follows
    assumption
  · assumption

theorem attemptGate_follows {a0 : Blk} (b : Blk) (s : Nat) (a_2 : Nat) (h_b : a0.Follows b) : Blk.Follows a0 (@Blk.attemptGate b s a_2).1 := by
  unfold Blk.attemptGate
  try dsimp only
  split
  · apply follows_fst
    refine follows_of_fst (by assumption) ?_
    apply seeStep_follows
    assumption
  · apply follows_fst
    refine follows_of_fst (by assumption) ?_
    apply seeStep_follows
    assumption

theorem showOpen_follows {a0 : Blk} (b : Blk) (h_b : a0.Follows b) : Blk.Follows a0 (@Blk.showOpen b) := by
  unfold Blk.showOpen
  try dsimp only
  apply follows_each
  · assumption
  · intros
    split
    · assumption
    · split
      · apply event_follows
        apply wr_follows
        apply wr_follows
        assumption
      · apply wr_follows
        apply wr_follows
        assumption

theorem setBucket_follows {a0 : Blk} (b : Blk) (x : Bucket) (h_b : a0.Follows b) : Blk.Follows a0 (@Blk.setBucket b x) := by
  unfold Blk.setBucket
  try dsimp only
  apply setBorder_follows
  assumption

theorem addBucket_follows {a0 : Blk} (b : Blk) (x : Bucket) (h_b : a0.Follows b) : Blk.Follows a0 (@Blk.addBucket b x) := by
  unfold Blk.addBucket
  try dsimp only
  apply setBorder_follows
  assumption

theorem grantCtx_follows {a0 : Blk} (b : Blk) (p : Nat) (k : BKey) (h_b : a0.Follows b) : Blk.Follows a0 (@Blk.grantCtx b p k) := by
  unfold Blk.grantCtx
  try dsimp only
  split
  · assumption
  · apply control_follows
    apply showOpen_follows
    apply setBucket_follows
    assumption

theorem openDrain_follows {a0 : Blk} (b : Blk) (h_b : a0.Follows b) : Blk.Follows a0 (@Blk.openDrain b) := by
  unfold Blk.openDrain
  try dsimp only
  apply follows_foldl
  · intros
    split
    · apply grantCtx_follows
      apply setBorder_follows
      assumption
    · assumption
  · assumption

theorem toPort_follows {a0 : Blk} (b : Blk) (x : Bucket) (p : Nat) (len : Nat) (m : NMsg) (h_b : a0.Follows b) : Blk.Follows a0 (@Blk.toPort b x p len m).1 := by
  unfold Blk.toPort
  try dsimp only
  split
  · apply follows_fst
    apply nearSend_follows
    assumption
  · split
    · apply follows_fst
      assumption
    · apply follows_fst
      apply control_follows
      assumption

theorem toPorts_follows {a0 : Blk} (x : Bucket) (len : Nat) (m : NMsg) (a_3 : List Nat) (a_4 : Blk) (h_a_4 : a0.Follows a_4) : Blk.Follows a0 (@Blk.toPorts x len m a_3 a_4).1 := by
  induction a_3 generalizing x len m a_4 h_a_4 with
  | nil =>
  unfold Blk.toPorts
  try dsimp only
  assumption
  | cons q1 q2 ih =>
  unfold Blk.toPorts
  try dsimp only
  apply ih
  apply toPort_follows
  assumption

theorem emit_follows {a0 : Blk} (b : Blk) (x : Bucket) (e : Nat) (h_3 : Hop) (r : Nat) (v : List Nat) (h_b : a0.Follows b) : Blk.Follows a0 (@Blk.emit b x e h_3 r v).1 := by
  unfold Blk.emit
  try dsimp only
  split
  · apply follows_fst
    assumption
  · apply toPorts_follows
    assumption

theorem runHop_follows {a0 : Blk} (e : Nat) (h_1 : Hop) (a_2 : List Nat) (a_3 : Blk) (a_4 : Bucket) (h_a_3 : a0.Follows a_3) : Blk.Follows a0 (@Blk.runHop e h_1 a_2 a_3 a_4).1 := by
  induction a_2 generalizing e h_1 a_3 a_4 h_a_3 with
  | nil =>
  unfold Blk.runHop
  try dsimp only
  assumption
  | cons q1 q2 ih =>
  unfold Blk.runHop
  try dsimp only
  split
  · apply ih
    apply emit_follows
    assumption
  · apply ih
    assumption

theorem codeTask_follows {a0 : Blk} (b : Blk) (dec : Bool) (p : Nat) (t : CodeTask) (h_b : a0.Follows b) : Blk.Follows a0 (@Blk.codeTask b dec p t) := by
  unfold Blk.codeTask
  try dsimp only
  apply lvAsk_follows
  apply setBorder_follows
  assumption

theorem runCoded_follows {a0 : Blk} (b : Blk) (x : Bucket) (e : Nat) (h_3 : Hop) (h_b : a0.Follows b) : Blk.Follows a0 (@Blk.runCoded b x e h_3).1 := by
  unfold Blk.runCoded
  try dsimp only
  split
  · apply follows_fst
    assumption
  · split
    · apply follows_fst
      assumption
    · split
      · apply follows_fst
        apply follows_foldl_fst
        · intros
          apply follows_fst
          split
          · assumption
          · apply toPorts_follows
            assumption
        · apply follows_fst
          assumption
      · apply follows_fst
        apply follows_foldl
        · intros
          apply codeTask_follows
          assumption
        · assumption

theorem runHops_follows {a0 : Blk} (fuel : Nat) (a_1 : Blk) (a_2 : Bucket) (h_a_1 : a0.Follows a_1) : Blk.Follows a0 (@Blk.runHops fuel a_1 a_2).1 := by
  induction fuel generalizing a_1 a_2 h_a_1 with
  | zero =>
  unfold Blk.runHops
  try dsimp only
  assumption
  | succ q1 ih =>
  unfold Blk.runHops
  try dsimp only
  apply ih
  apply follows_foldl_fst
  · intros
    split
    · apply runCoded_follows
      assumption
    · apply runHop_follows
      assumption
  · apply follows_fst
    assumption

theorem borderFault_follows {a0 : Blk} (b : Blk) (x : Bucket) (desc : List Nat) (k : Nat) (f : Fail) (h_b : a0.Follows b) : Blk.Follows a0 (@Blk.borderFault b x desc k f).1 := by
  unfold Blk.borderFault
  try dsimp only
  apply dmaFault_follows
  with_reducible assumption

theorem readDies_follows {a0 : Blk} (n : Nat) (fuel : Nat) (x1 : Blk) (x2 : Bucket) (h_x1 : a0.Follows x1) : Blk.Follows a0 (@Blk.readDies n fuel x1 x2).1 := by
  induction fuel generalizing n x1 x2 h_x1 with
  | zero =>
    unfold Blk.readDies
    with_reducible assumption
  | succ fuel ih =>
    unfold Blk.readDies
    dsimp only
    split
    · with_reducible assumption
    · rename_i va _
      have h := loadVa_follows x1 modXl clsO (some x1.borderCtx) (va + x2.read.length % n) (min 4096 (n - x2.read.length % n)) h_x1
      split
      · rename_i heq
        rw [heq] at h
        apply borderFault_follows
        exact h
      · rename_i heq
        rw [heq] at h
        apply ih
        exact h

theorem loadLocal_follows {a0 : Blk} (b : Blk) (x : Bucket) (h_b : a0.Follows b) : Blk.Follows a0 (@Blk.loadLocal b x).1 := by
  unfold Blk.loadLocal
  try dsimp only
  split
  · with_reducible assumption
  · split
    · split
      · with_reducible assumption
      · with_reducible assumption
    · split
      · apply readDies_follows
        with_reducible assumption
      · dsimp only
        apply readDies_follows
        with_reducible assumption

theorem writeChunks_follows {a0 : Blk} (va : Nat) (l : List Byte) (fuel : Nat) (at' : Nat) (x1 : Blk) (h_x1 : a0.Follows x1) : Blk.Follows a0 (@Blk.writeChunks va l fuel at' x1).1 := by
  induction fuel generalizing va l at' x1 h_x1 with
  | zero =>
    unfold Blk.writeChunks
    try dsimp only
    with_reducible assumption
  | succ fuel ih =>
    unfold Blk.writeChunks
    try dsimp only
    split
    · with_reducible assumption
    · split
      · dsimp only
        refine follows_of_fst (by assumption) ?_
        apply storeVa_follows
        with_reducible assumption
      · apply ih
        refine follows_of_fst (by assumption) ?_
        apply storeVa_follows
        with_reducible assumption

theorem writeRes_follows {a0 : Blk} (x : Bucket) (x1 : List (Nat × List Nat)) (x2 : Blk) (h_x2 : a0.Follows x2) : Blk.Follows a0 (@Blk.writeRes x x1 x2).1 := by
  induction x1 generalizing x x2 h_x2 with
  | nil =>
    unfold Blk.writeRes
    with_reducible assumption
  | cons y x1 ih =>
    unfold Blk.writeRes
    split
    · apply ih
      with_reducible assumption
    · dsimp only
      have h := writeChunks_follows (x.result + x.offset y.1 * x.grp.size) (y.2.flatMap (natLe x.grp.size))
        ((y.2.flatMap (natLe x.grp.size)).length / 4096 + 1) x.wrote x2 h_x2
      split
      · rename_i heq
        rw [heq] at h
        apply borderFault_follows
        exact h
      · rename_i heq
        rw [heq] at h
        apply ih
        exact h

theorem flushRes_follows {a0 : Blk} (b : Blk) (x : Bucket) (h_b : a0.Follows b) : Blk.Follows a0 (@Blk.flushRes b x).1 := by
  unfold Blk.flushRes
  try dsimp only
  split
  · apply follows_fst
    assumption
  · apply writeRes_follows
    assumption

theorem swRun_follows {a0 : Blk} (b : Blk) (x : Bucket) (h_b : a0.Follows b) : Blk.Follows a0 (@Blk.swRun b x).1 := by
  unfold Blk.swRun
  try dsimp only
  split
  · apply follows_fst
    assumption
  · split
    · apply follows_fst
      apply nearSend_follows
      apply setBorder_follows
      assumption
    · split
      · apply follows_fst
        assumption
      · apply follows_fst
        apply nearSend_follows
        assumption
    · apply follows_fst
      assumption

theorem stepClosed_follows {a0 : Blk} (b : Blk) (x : Bucket) (v : Nat) (h_b : a0.Follows b) : Blk.Follows a0 (@Blk.stepClosed b x v).1 := by
  unfold Blk.stepClosed
  try dsimp only
  split
  · split
    · apply follows_fst
      assumption
    · apply follows_fst
      apply wakeBanks_follows
      apply event_follows
      apply follows_each
      · split
        · apply setStep_follows
          assumption
        · assumption
      · intros
        apply wr_follows
        apply wr_follows
        assumption
  · split
    · apply follows_fst
      assumption
    · apply follows_fst
      apply wakeBanks_follows
      apply event_follows
      apply follows_each
      · split
        · apply setStep_follows
          assumption
        · assumption
      · intros
        apply wr_follows
        apply wr_follows
        assumption

theorem runBucket_follows {a0 : Blk} (b : Blk) (k : BKey) (h_b : a0.Follows b) : Blk.Follows a0 (@Blk.runBucket b k) := by
  unfold Blk.runBucket
  try dsimp only
  split
  · assumption
  · apply openDrain_follows
    apply showOpen_follows
    split
    · split
      · split
        · apply setBorder_follows
          apply setBucket_follows
          apply follows_fst
          apply setBucket_follows
          apply flushRes_follows
          apply swRun_follows
          apply loadLocal_follows
          assumption
        · apply setBucket_follows
          apply follows_fst
          apply setBucket_follows
          apply flushRes_follows
          apply swRun_follows
          apply loadLocal_follows
          assumption
      · split
        · split
          · apply setBorder_follows
            apply setBucket_follows
            apply stepClosed_follows
            apply setBucket_follows
            apply flushRes_follows
            apply swRun_follows
            apply loadLocal_follows
            assumption
          · apply setBucket_follows
            apply stepClosed_follows
            apply setBucket_follows
            apply flushRes_follows
            apply swRun_follows
            apply loadLocal_follows
            assumption
        · split
          · apply setBorder_follows
            apply setBucket_follows
            apply follows_fst
            apply setBorder_follows
            apply setBucket_follows
            apply flushRes_follows
            apply swRun_follows
            apply loadLocal_follows
            assumption
          · apply setBucket_follows
            apply follows_fst
            apply setBorder_follows
            apply setBucket_follows
            apply flushRes_follows
            apply swRun_follows
            apply loadLocal_follows
            assumption
    · split
      · split
        · apply setBorder_follows
          apply setBucket_follows
          apply follows_fst
          apply setBucket_follows
          apply flushRes_follows
          apply runHops_follows
          apply loadLocal_follows
          assumption
        · apply setBucket_follows
          apply follows_fst
          apply setBucket_follows
          apply flushRes_follows
          apply runHops_follows
          apply loadLocal_follows
          assumption
      · split
        · split
          · apply setBorder_follows
            apply setBucket_follows
            apply stepClosed_follows
            apply setBucket_follows
            apply flushRes_follows
            apply runHops_follows
            apply loadLocal_follows
            assumption
          · apply setBucket_follows
            apply stepClosed_follows
            apply setBucket_follows
            apply flushRes_follows
            apply runHops_follows
            apply loadLocal_follows
            assumption
        · split
          · apply setBorder_follows
            apply setBucket_follows
            apply follows_fst
            apply setBorder_follows
            apply setBucket_follows
            apply flushRes_follows
            apply runHops_follows
            apply loadLocal_follows
            assumption
          · apply setBucket_follows
            apply follows_fst
            apply setBorder_follows
            apply setBucket_follows
            apply flushRes_follows
            apply runHops_follows
            apply loadLocal_follows
            assumption

theorem runBuckets_follows {a0 : Blk} (b : Blk) (p : Bucket → Bool) (h_b : a0.Follows b) : Blk.Follows a0 (@Blk.runBuckets b p) := by
  unfold Blk.runBuckets
  try dsimp only
  apply follows_each
  · assumption
  · intros
    apply runBucket_follows
    assumption

theorem contribute_follows {a0 : Blk} (b : Blk) (s : Nat) (x1 : Nat) (st : StepRec) (h_b : a0.Follows b) : Blk.Follows a0 (@Blk.contribute b s x1 st) := by
  unfold Blk.contribute
  try dsimp only
  split
  · apply error_follows
    refine follows_of_fst (by assumption) ?_
    apply groupUse_follows
    with_reducible assumption
  · split
    · apply error_follows
      refine follows_of_fst (by assumption) ?_
      apply groupUse_follows
      with_reducible assumption
    · apply runBucket_follows
      apply showOpen_follows
      apply setBucket_follows
      split
      · apply setStep_follows
        refine follows_of_fst (by assumption) ?_
        apply groupUse_follows
        with_reducible assumption
      · apply addBucket_follows
        apply setStep_follows
        refine follows_of_fst (by assumption) ?_
        apply groupUse_follows
        with_reducible assumption

theorem tryClose_follows {a0 : Blk} (b : Blk) (s : Nat) (x1 : Nat) (h_b : a0.Follows b) : Blk.Follows a0 (@Blk.tryClose b s x1) := by
  unfold Blk.tryClose
  try dsimp only
  split
  · with_reducible assumption
  · split
    · with_reducible assumption
    · split
      · with_reducible assumption
      · split
        · apply groupUe_follows
          with_reducible assumption
        · apply contribute_follows
          with_reducible assumption

theorem advance_follows {a0 : Blk} (b : Blk) (k : BKey) (h_b : a0.Follows b) : Blk.Follows a0 (@Blk.advance b k) := by
  unfold Blk.advance
  try dsimp only
  apply tryClose_follows
  apply runBucket_follows
  assumption

theorem versWrite_follows {a0 : Blk} (b : Blk) (s : Nat) (x1 : Nat) (pa : Nat) (l : List Byte) (h_b : a0.Follows b) : Blk.Follows a0 (@Blk.versWrite b s x1 pa l) := by
  unfold Blk.versWrite
  try dsimp only
  split
  · refine follows_of_fst (by assumption) ?_
    apply storePa_follows
    with_reducible assumption
  · apply error_follows
    refine follows_of_fst (by assumption) ?_
    apply storePa_follows
    with_reducible assumption

theorem dropVers_follows {a0 : Blk} (b : Blk) (s : Nat) (x1 : Nat) (h_b : a0.Follows b) : Blk.Follows a0 (@Blk.dropVers b s x1) := by
  unfold Blk.dropVers
  try dsimp only
  apply setBorder_follows
  apply follows_each
  · with_reducible assumption
  · intros
    apply versWrite_follows
    with_reducible assumption

theorem dropSlots_follows {a0 : Blk} (b : Blk) (s : Nat) (x1 : Nat) (h_b : a0.Follows b) : Blk.Follows a0 (@Blk.dropSlots b s x1) := by
  unfold Blk.dropSlots
  try dsimp only
  apply setBorder_follows
  apply follows_each
  · with_reducible assumption
  · intros
    split
    · split
      · with_reducible assumption
      · apply wr_follows
        with_reducible assumption
    · apply dec_follows
      with_reducible assumption

theorem dropAttempt_follows {a0 : Blk} (b : Blk) (s : Nat) (a_2 : Nat) (h_b : a0.Follows b) : Blk.Follows a0 (@Blk.dropAttempt b s a_2) := by
  unfold Blk.dropAttempt
  try dsimp only
  apply showOpen_follows
  apply dropSlots_follows
  apply dropVers_follows
  apply follows_each
  · apply setBorder_follows
    assumption
  · intros
    apply unhold_follows
    apply unsusp_follows
    apply setStream_follows
    assumption

theorem sendAbort_follows {a0 : Blk} (b : Blk) (s : Nat) (a_2 : Nat) (from_3 : Option Nat) (c : AbortCause) (h_b : a0.Follows b) : Blk.Follows a0 (@Blk.sendAbort b s a_2 from_3 c) := by
  unfold Blk.sendAbort
  try dsimp only
  split
  · apply follows_each
    · assumption
    · intros
      split
      · apply control_follows
        assumption
      · assumption
  · apply follows_each
    · apply follows_each
      · assumption
      · intros
        split
        · apply control_follows
          assumption
        · assumption
    · intros
      split
      · assumption
      · apply nearSend_follows
        assumption

theorem abortStep_follows {a0 : Blk} (b : Blk) (s : Nat) (a_2 : Nat) (p : Nat) (from_4 : Option Nat) (c : AbortCause) (h_b : a0.Follows b) : Blk.Follows a0 (@Blk.abortStep b s a_2 p from_4 c) := by
  unfold Blk.abortStep
  try dsimp only
  split
  · refine follows_of_fst (by assumption) ?_
    apply seeStep_follows
    assumption
  · split
    · apply inc_follows
      refine follows_of_fst (by assumption) ?_
      apply seeStep_follows
      assumption
    · split
      · refine follows_of_fst (by assumption) ?_
        apply seeStep_follows
        assumption
      · apply showStep_follows
        split
        · apply event_follows
          apply setStep_follows
          apply event_follows
          apply error_follows
          apply inc_follows
          apply sendAbort_follows
          apply dropAttempt_follows
          refine follows_of_fst (by assumption) ?_
          apply seeStep_follows
          assumption
        · apply setStep_follows
          apply event_follows
          apply error_follows
          apply inc_follows
          apply sendAbort_follows
          apply dropAttempt_follows
          refine follows_of_fst (by assumption) ?_
          apply seeStep_follows
          assumption

theorem ownAbort_follows {a0 : Blk} (b : Blk) (s : Nat) (a_2 : Nat) (p : Nat) (c : AbortCause) (h_b : a0.Follows b) : Blk.Follows a0 (@Blk.ownAbort b s a_2 p c) := by
  unfold Blk.ownAbort
  try dsimp only
  split
  · split
    · assumption
    · apply abortStep_follows
      assumption
  · apply abortStep_follows
    assumption

theorem postRefuse_follows {a0 : Blk} (b : Blk) (cls : Nat) (p : Option Post) (h_b : a0.Follows b) : Blk.Follows a0 (@Blk.postRefuse b cls p) := by
  unfold Blk.postRefuse
  try dsimp only
  apply addW_follows
  apply error_follows
  assumption

theorem postBucket_follows {a0 : Blk} (b : Blk) (q : Post) (st : StepRec) (g : Group) (hops : List Hop) (lens : List Nat) (h_b : a0.Follows b) : Blk.Follows a0 (@Blk.postBucket b q st g hops lens) := by
  unfold Blk.postBucket
  try dsimp only
  split
  · split
    · apply postRefuse_follows
      assumption
    · split
      · split
        · assumption
        · apply advance_follows
          apply addW_follows
          apply showOpen_follows
          apply setBucket_follows
          split
          · assumption
          · apply addBucket_follows
            assumption
      · split
        · assumption
        · apply advance_follows
          apply addW_follows
          apply showOpen_follows
          apply setBucket_follows
          split
          · assumption
          · apply addBucket_follows
            assumption
  · split
    · apply postRefuse_follows
      assumption
    · split
      · split
        · assumption
        · apply advance_follows
          apply addW_follows
          apply showOpen_follows
          apply setBucket_follows
          split
          · assumption
          · apply addBucket_follows
            assumption
      · split
        · assumption
        · apply advance_follows
          apply addW_follows
          apply showOpen_follows
          apply setBucket_follows
          split
          · assumption
          · apply addBucket_follows
            assumption

theorem takePost_follows {a0 : Blk} (b : Blk) (h_b : a0.Follows b) : Blk.Follows a0 (@Blk.takePost b) := by
  unfold Blk.takePost
  try dsimp only
  split
  · apply postRefuse_follows
    apply ueOf_follows
    with_reducible assumption
  · split
    · apply postRefuse_follows
      with_reducible assumption
    · split
      · apply postRefuse_follows
        refine follows_of_fst (by assumption) ?_
        apply seeStep_follows
        with_reducible assumption
      · split
        · apply postRefuse_follows
          apply showStep_follows
          apply wr_follows
          refine follows_of_fst (by assumption) ?_
          apply seeStep_follows
          with_reducible assumption
        · split
          · apply postRefuse_follows
            refine follows_of_fst (by assumption) ?_
            apply groupUse_follows
            apply showStep_follows
            apply wr_follows
            refine follows_of_fst (by assumption) ?_
            apply seeStep_follows
            with_reducible assumption
          · split
            · apply postRefuse_follows
              refine follows_of_fst (by assumption) ?_
              apply groupUse_follows
              apply showStep_follows
              apply wr_follows
              refine follows_of_fst (by assumption) ?_
              apply seeStep_follows
              with_reducible assumption
            · apply postBucket_follows
              refine follows_of_fst (by assumption) ?_
              apply groupUse_follows
              apply showStep_follows
              apply wr_follows
              refine follows_of_fst (by assumption) ?_
              apply seeStep_follows
              with_reducible assumption

theorem borderResume_follows {a0 : Blk} (b : Blk) (c : Nat) (k : BKey) (h_b : a0.Follows b) : Blk.Follows a0 (@Blk.borderResume b c k) := by
  unfold Blk.borderResume
  try dsimp only
  split
  · apply advance_follows
    apply setBucket_follows
    apply setStream_follows
    assumption
  · apply setStream_follows
    assumption

theorem xltFaultCmd_follows {a0 : Blk} (b : Blk) (action : Nat) (kind : Nat) (unit : Nat) (h_b : a0.Follows b) : Blk.Follows a0 (@Blk.xltFaultCmd b action kind unit) := by
  unfold Blk.xltFaultCmd
  try dsimp only
  split
  · split
    · split
      · apply borderResume_follows
        apply unsusp_follows
        with_reducible assumption
      · apply setStream_follows
        apply unsusp_follows
        with_reducible assumption
    · apply faultCmd_follows
      with_reducible assumption
  · apply faultCmd_follows
    with_reducible assumption

theorem residuals_follows {a0 : Blk} (b : Blk) (x : Bucket) (h_2 : Hop) (t : CodeTask) (h_b : a0.Follows b) : Blk.Follows a0 (@Blk.residuals b x h_2 t).1 := by
  unfold Blk.residuals
  try dsimp only
  split
  · apply follows_fst
    assumption
  · split
    · apply follows_fst
      refine follows_of_fst (by assumption) ?_
      apply efEntry_follows
      assumption
    · apply follows_fst
      refine follows_of_fst (by assumption) ?_
      apply efEntry_follows
      assumption

theorem encoded_follows {a0 : Blk} (b : Blk) (x : Bucket) (h_2 : Hop) (t : CodeTask) (c : Coded) (h_b : a0.Follows b) : Blk.Follows a0 (@Blk.encoded b x h_2 t c).1 := by
  unfold Blk.encoded
  try dsimp only
  split
  · split
    · apply follows_fst
      assumption
    · apply follows_fst
      apply follows_fst
      assumption
  · split
    · apply toPorts_follows
      assumption
    · apply follows_fst
      apply toPorts_follows
      assumption

theorem encodeTask_follows {a0 : Blk} (b : Blk) (p : Nat) (t : CodeTask) (h_b : a0.Follows b) : Blk.Follows a0 (@Blk.encodeTask b p t) := by
  unfold Blk.encodeTask
  try dsimp only
  split
  · apply setBorder_follows
    with_reducible assumption
  · split
    · with_reducible assumption
    · split
      · apply setBorder_follows
        with_reducible assumption
      · split
        · apply setBucket_follows
          apply borderFault_follows
          apply residuals_follows
          with_reducible assumption
        · split
          · apply setBucket_follows
            apply borderFault_follows
            refine follows_of_fst (by assumption) ?_
            split
            · dsimp only
              apply residuals_follows
              with_reducible assumption
            · split
              · dsimp only
                refine follows_of_fst (by assumption) ?_
                apply loadVa_follows
                apply residuals_follows
                with_reducible assumption
              · dsimp only
                refine follows_of_fst (by assumption) ?_
                apply loadVa_follows
                apply residuals_follows
                with_reducible assumption
          · split
            · apply setBucket_follows
              apply borderFault_follows
              refine follows_of_fst (by assumption) ?_
              split
              · dsimp only
                refine follows_of_fst (by assumption) ?_
                split
                · dsimp only
                  apply residuals_follows
                  with_reducible assumption
                · split
                  · dsimp only
                    refine follows_of_fst (by assumption) ?_
                    apply loadVa_follows
                    apply residuals_follows
                    with_reducible assumption
                  · dsimp only
                    refine follows_of_fst (by assumption) ?_
                    apply loadVa_follows
                    apply residuals_follows
                    with_reducible assumption
              · apply storeVa_follows
                refine follows_of_fst (by assumption) ?_
                split
                · dsimp only
                  apply residuals_follows
                  with_reducible assumption
                · split
                  · dsimp only
                    refine follows_of_fst (by assumption) ?_
                    apply loadVa_follows
                    apply residuals_follows
                    with_reducible assumption
                  · dsimp only
                    refine follows_of_fst (by assumption) ?_
                    apply loadVa_follows
                    apply residuals_follows
                    with_reducible assumption
            · apply advance_follows
              apply setBucket_follows
              apply encoded_follows
              apply ncodCount_follows
              apply setBorder_follows
              refine follows_of_fst (by assumption) ?_
              split
              · dsimp only
                refine follows_of_fst (by assumption) ?_
                split
                · dsimp only
                  apply residuals_follows
                  with_reducible assumption
                · split
                  · dsimp only
                    refine follows_of_fst (by assumption) ?_
                    apply loadVa_follows
                    apply residuals_follows
                    with_reducible assumption
                  · dsimp only
                    refine follows_of_fst (by assumption) ?_
                    apply loadVa_follows
                    apply residuals_follows
                    with_reducible assumption
              · apply storeVa_follows
                refine follows_of_fst (by assumption) ?_
                split
                · dsimp only
                  apply residuals_follows
                  with_reducible assumption
                · split
                  · dsimp only
                    refine follows_of_fst (by assumption) ?_
                    apply loadVa_follows
                    apply residuals_follows
                    with_reducible assumption
                  · dsimp only
                    refine follows_of_fst (by assumption) ?_
                    apply loadVa_follows
                    apply residuals_follows
                    with_reducible assumption

theorem damaged_follows {a0 : Blk} (b : Blk) (p : Nat) (t : CodeTask) (e : Nat × Nat) (h_b : a0.Follows b) : Blk.Follows a0 (@Blk.damaged b p t e) := by
  unfold Blk.damaged
  try dsimp only
  split
  · apply nearSend_follows
    apply inc_follows
    apply setBorder_follows
    apply event_follows
    apply inc_follows
    apply error_follows
    assumption
  · apply event_follows
    apply inc_follows
    apply event_follows
    apply inc_follows
    apply error_follows
    assumption

theorem decodeTask_follows {a0 : Blk} (b : Blk) (p : Nat) (t : CodeTask) (h_b : a0.Follows b) : Blk.Follows a0 (@Blk.decodeTask b p t) := by
  unfold Blk.decodeTask
  try dsimp only
  split
  · apply setBorder_follows
    with_reducible assumption
  · split
    · apply setBorder_follows
      with_reducible assumption
    · split
      · apply damaged_follows
        apply setBorder_follows
        with_reducible assumption
      · split
        · apply damaged_follows
          apply setBorder_follows
          with_reducible assumption
        · split
          · split
            · apply setBucket_follows
              apply inc_follows
              apply setBorder_follows
              with_reducible assumption
            · apply advance_follows
              apply setBucket_follows
              apply inc_follows
              apply setBorder_follows
              with_reducible assumption
          · split
            · apply setBucket_follows
              apply inc_follows
              apply setBorder_follows
              with_reducible assumption
            · apply advance_follows
              apply setBucket_follows
              apply inc_follows
              apply setBorder_follows
              with_reducible assumption

theorem resendCoded_follows {a0 : Blk} (b : Blk) (p : Nat) (k : BKey) (first : Nat) (block : Nat) (h_b : a0.Follows b) : Blk.Follows a0 (@Blk.resendCoded b p k first block) := by
  unfold Blk.resendCoded
  try dsimp only
  split
  · assumption
  · split
    · apply nearSend_follows
      assumption
    · assumption

theorem swResult_follows {a0 : Blk} (b : Blk) (p : Nat) (r : SwRec) (h_b : a0.Follows b) : Blk.Follows a0 (@Blk.swResult b p r) := by
  unfold Blk.swResult
  try dsimp only
  split
  · split
    · refine follows_of_fst (by assumption) ?_
      apply attemptGate_follows
      assumption
    · split
      · refine follows_of_fst (by assumption) ?_
        apply attemptGate_follows
        assumption
      · split
        · apply inc_follows
          refine follows_of_fst (by assumption) ?_
          apply attemptGate_follows
          assumption
        · apply runBuckets_follows
          apply advance_follows
          apply setBucket_follows
          refine follows_of_fst (by assumption) ?_
          apply attemptGate_follows
          assumption
  · apply inc_follows
    refine follows_of_fst (by assumption) ?_
    apply attemptGate_follows
    assumption

end Sys2Proof.Laws
end

