-- ==== Sys2Proof/Laws/FollowsBorder.lean ====
section
/-! SUPPORT. Each operation of Machine/Border.lean stays in `Blk.Follows`: it keeps the memory canonical, lowers no flash counter and takes back nothing sent. -/

namespace Sys2Proof.Laws

open Sys2Proof.Machine

theorem hoMark_follows {a0 : Blk} (b : Blk) (p : Nat) (h_2 : Handover) (sent : Bool) (h_b : a0.Follows b) : Blk.Follows a0 (@Blk.hoMark b p h_2 sent) := by
  unfold Blk.hoMark
  try dsimp only
  split
  · assumption
  · apply setBorder_follows
    assumption

theorem showSlots_follows {a0 : Blk} (b : Blk) (p : Nat) (h_b : a0.Follows b) : Blk.Follows a0 (@Blk.showSlots b p) := by
  unfold Blk.showSlots
  try dsimp only
  apply wr_follows
  assumption

theorem hoErr_follows {a0 : Blk} (b : Blk) (p : Nat) (h_b : a0.Follows b) : Blk.Follows a0 (@Blk.hoErr b p) := by
  unfold Blk.hoErr
  try dsimp only
  apply event_follows
  apply inc_follows
  assumption

theorem hoForward_follows {a0 : Blk} (b : Blk) (p : Nat) (h : Handover) (h_b : a0.Follows b) : Blk.Follows a0 (@Blk.hoForward b p h) := by
  unfold Blk.hoForward
  try dsimp only
  split
  · apply follows_send
    apply hoMark_follows
    split
    · apply slotCredit_follows
      with_reducible assumption
    · with_reducible assumption
  · split
    · with_reducible assumption
    · apply follows_send
      apply hoMark_follows
      apply showSlots_follows
      apply setBorder_follows
      with_reducible assumption

theorem hoLeft_follows {a0 : Blk} (b : Blk) (p : Nat) (group : Nat) (left : Option Nat) (h : Handover) (h_b : a0.Follows b) : Blk.Follows a0 (@Blk.hoLeft b p group left h) := by
  unfold Blk.hoLeft
  try dsimp only
  apply setBorder_follows
  with_reducible assumption

theorem hoSendNow_follows {a0 : Blk} (b : Blk) (p : Nat) (group : Nat) (left : Option Nat) (h : Handover) (h_b : a0.Follows b) : Blk.Follows a0 (@Blk.hoSendNow b p group left h) := by
  unfold Blk.hoSendNow
  try dsimp only
  apply nearSend_follows
  apply hoLeft_follows
  apply hoMark_follows
  split
  · apply setBorder_follows
    apply wr_follows
    with_reducible assumption
  · with_reducible assumption

theorem hoSend_follows {a0 : Blk} (b : Blk) (p : Nat) (group : Nat) (h_3 : Handover) (h_b : a0.Follows b) : Blk.Follows a0 (@Blk.hoSend b p group h_3) := by
  unfold Blk.hoSend
  try dsimp only
  split
  · apply hoSendNow_follows
    assumption
  · apply setBorder_follows
    assumption

theorem hoDrain_follows {a0 : Blk} (p : Nat) (fuel : Nat) (a_2 : Blk) (h_a_2 : a0.Follows a_2) : Blk.Follows a0 (@Blk.hoDrain p fuel a_2) := by
  induction fuel generalizing p a_2 h_a_2 with
  | zero =>
  unfold Blk.hoDrain
  try dsimp only
  assumption
  | succ q1 ih =>
  unfold Blk.hoDrain
  try dsimp only
  split
  · assumption
  · split
    · apply ih
      apply hoSendNow_follows
      apply setBorder_follows
      assumption
    · assumption

theorem slotEnd_follows {a0 : Blk} (b : Blk) (x : Slot) (h_b : a0.Follows b) : Blk.Follows a0 (@Blk.slotEnd b x) := by
  unfold Blk.slotEnd
  try dsimp only
  apply setBorder_follows
  with_reducible assumption

theorem hoBackward_follows {a0 : Blk} (b : Blk) (p : Nat) (h_2 : Handover) (h_b : a0.Follows b) : Blk.Follows a0 (@Blk.hoBackward b p h_2) := by
  unfold Blk.hoBackward
  try dsimp only
  split
  · apply hoErr_follows
    assumption
  · apply follows_send
    split
    · apply setBorder_follows
      assumption
    · assumption

theorem slotsBack_follows {a0 : Blk} (b : Blk) (p : Nat) (n : Nat) (h_b : a0.Follows b) : Blk.Follows a0 (@Blk.slotsBack b p n) := by
  unfold Blk.slotsBack
  try dsimp only
  split
  · apply wr_follows
    with_reducible assumption
  · split
    · apply setNport_follows
      apply wr_follows
      with_reducible assumption
    · apply setBorder_follows
      apply wr_follows
      with_reducible assumption

theorem hoReturn_follows {a0 : Blk} (b : Blk) (p : Nat) (group : Nat) (h : Handover) (h_b : a0.Follows b) : Blk.Follows a0 (@Blk.hoReturn b p group h) := by
  unfold Blk.hoReturn
  try dsimp only
  split
  · apply nearSend_follows
    apply hoLeft_follows
    with_reducible assumption
  · split
    · apply nearSend_follows
      apply hoLeft_follows
      with_reducible assumption
    · split
      · apply slotCredit_follows
        apply showSlots_follows
        apply setBorder_follows
        apply nearSend_follows
        apply hoLeft_follows
        with_reducible assumption
      · apply showSlots_follows
        apply setBorder_follows
        apply nearSend_follows
        apply hoLeft_follows
        with_reducible assumption

theorem slotsGrant_follows {a0 : Blk} (b : Blk) (p : Nat) (new : Nat) (h_b : a0.Follows b) : Blk.Follows a0 (@Blk.slotsGrant b p new) := by
  unfold Blk.slotsGrant
  try dsimp only
  split
  · assumption
  · apply slotCredit_follows
    apply wr_follows
    assumption

theorem gatherStale_follows {a0 : Blk} (b : Blk) (p : Nat) (e : GatherExp) (want : Nat) (got : Nat) (h_b : a0.Follows b) : Blk.Follows a0 (@Blk.gatherStale b p e want got) := by
  unfold Blk.gatherStale
  try dsimp only
  apply ownAbort_follows
  apply event_follows
  apply error_follows
  apply inc_follows
  assumption

theorem gatherPiece_follows {a0 : Blk} (b : Blk) (p : Nat) (group : Nat) (layer : Nat) (rank : Nat) (version : Nat) (data : List Byte) (h_b : a0.Follows b) : Blk.Follows a0 (@Blk.gatherPiece b p group layer rank version data) := by
  induction p generalizing b group layer rank version data h_b with
  | zero =>
    unfold Blk.gatherPiece
    try dsimp only
    split
    · with_reducible assumption
    · split
      · apply error_follows
        apply groupUe_follows
        apply setBorder_follows
        with_reducible assumption
      · split
        · split
          · apply follows_send
            apply ueIn_follows
            apply setBorder_follows
            with_reducible assumption
          · apply gatherStale_follows
            apply ueIn_follows
            apply setBorder_follows
            with_reducible assumption
        · split
          · apply follows_send
            apply setBorder_follows
            apply versWrite_follows
            apply setBorder_follows
            with_reducible assumption
          · apply gatherStale_follows
            apply setBorder_follows
            with_reducible assumption
  | succ p ih =>
    unfold Blk.gatherPiece
    try dsimp only
    split
    · with_reducible assumption
    · split
      · apply error_follows
        apply groupUe_follows
        apply setBorder_follows
        with_reducible assumption
      · split
        · split
          · apply follows_send
            apply ueIn_follows
            apply setBorder_follows
            with_reducible assumption
          · apply gatherStale_follows
            apply ueIn_follows
            apply setBorder_follows
            with_reducible assumption
        · split
          · apply follows_send
            apply setBorder_follows
            apply versWrite_follows
            apply setBorder_follows
            with_reducible assumption
          · apply gatherStale_follows
            apply setBorder_follows
            with_reducible assumption

theorem setXch_follows {a0 : Blk} (b : Blk) (x : Exchange) (h_b : a0.Follows b) : Blk.Follows a0 (@Blk.setXch b x) := by
  unfold Blk.setXch
  try dsimp only
  apply setBorder_follows
  assumption

theorem xchCheck_follows {a0 : Blk} (b : Blk) (x : Exchange) (h_b : a0.Follows b) : Blk.Follows a0 (@Blk.xchCheck b x) := by
  unfold Blk.xchCheck
  try dsimp only
  split
  · apply setXch_follows
    assumption
  · split
    · apply setXch_follows
      assumption
    · apply follows_send
      apply setBorder_follows
      assumption

theorem countIn_follows {a0 : Blk} (b : Blk) (p : Nat) (group : Nat) (step : Nat) (attempt : Nat) (xid : Nat) (rank : Nat) (n : Nat) (size : Nat) (h_b : a0.Follows b) : Blk.Follows a0 (@Blk.countIn b p group step attempt xid rank n size) := by
  unfold Blk.countIn
  try dsimp only
  split
  · apply error_follows
    apply groupUe_follows
    with_reducible assumption
  · split
    · with_reducible assumption
    · split
      · with_reducible assumption
      · apply xchCheck_follows
        with_reducible assumption

theorem tokensIn_follows {a0 : Blk} (b : Blk) (p : Nat) (group : Nat) (step : Nat) (attempt : Nat) (xid : Nat) (rank : Nat) (data : List Byte) (h_b : a0.Follows b) : Blk.Follows a0 (@Blk.tokensIn b p group step attempt xid rank data) := by
  unfold Blk.tokensIn
  try dsimp only
  split
  · apply error_follows
    apply groupUe_follows
    with_reducible assumption
  · split
    · with_reducible assumption
    · apply xchCheck_follows
      with_reducible assumption

theorem countSend_follows {a0 : Blk} (b : Blk) (group : Nat) (step : Nat) (attempt : Nat) (xid : Nat) (rank : Nat) (n : Nat) (size : Nat) (h_b : a0.Follows b) : Blk.Follows a0 (@Blk.countSend b group step attempt xid rank n size) := by
  unfold Blk.countSend
  try dsimp only
  split
  · apply error_follows
    apply groupUe_follows
    with_reducible assumption
  · split
    · apply error_follows
      with_reducible assumption
    · split
      · apply error_follows
        refine follows_of_fst (by assumption) ?_
        apply borderLoad_follows
        with_reducible assumption
      · split
        · apply error_follows
          refine follows_of_fst (by assumption) ?_
          apply borderLoad_follows
          with_reducible assumption
        · split
          · apply error_follows
            refine follows_of_fst (by assumption) ?_
            apply borderLoad_follows
            refine follows_of_fst (by assumption) ?_
            apply borderLoad_follows
            with_reducible assumption
          · apply sendTo_follows
            apply setBorder_follows
            refine follows_of_fst (by assumption) ?_
            apply borderLoad_follows
            refine follows_of_fst (by assumption) ?_
            apply borderLoad_follows
            with_reducible assumption

theorem tokensSend_follows {a0 : Blk} (b : Blk) (group : Nat) (step : Nat) (attempt : Nat) (xid : Nat) (rank : Nat) (data : List Byte) (h_b : a0.Follows b) : Blk.Follows a0 (@Blk.tokensSend b group step attempt xid rank data) := by
  unfold Blk.tokensSend
  try dsimp only
  split
  · split
    · apply error_follows
      with_reducible assumption
    · split
      · apply error_follows
        refine follows_of_fst (by assumption) ?_
        apply borderLoad_follows
        with_reducible assumption
      · apply sendTo_follows
        apply setBorder_follows
        refine follows_of_fst (by assumption) ?_
        apply borderLoad_follows
        with_reducible assumption
  · apply error_follows
    with_reducible assumption

theorem openIn_follows {a0 : Blk} (b : Blk) (p : Nat) (k : BKey) (h_b : a0.Follows b) : Blk.Follows a0 (@Blk.openIn b p k) := by
  unfold Blk.openIn
  try dsimp only
  split
  · with_reducible assumption
  · split
    · split
      · with_reducible assumption
      · split
        · apply control_follows
          with_reducible assumption
        · split
          · apply grantCtx_follows
            with_reducible assumption
          · apply setBorder_follows
            with_reducible assumption
    · split
      · split
        · dsimp only
          apply error_follows
          refine follows_of_fst (by assumption) ?_
          apply groupUse_follows
          with_reducible assumption
        · split
          · apply control_follows
            dsimp only
            apply error_follows
            refine follows_of_fst (by assumption) ?_
            apply groupUse_follows
            with_reducible assumption
          · split
            · apply grantCtx_follows
              dsimp only
              apply error_follows
              refine follows_of_fst (by assumption) ?_
              apply groupUse_follows
              with_reducible assumption
            · apply setBorder_follows
              dsimp only
              apply error_follows
              refine follows_of_fst (by assumption) ?_
              apply groupUse_follows
              with_reducible assumption
      · split
        · split
          · split
            · dsimp only
              apply addBucket_follows
              refine follows_of_fst (by assumption) ?_
              apply groupUse_follows
              with_reducible assumption
            · split
              · apply control_follows
                dsimp only
                apply addBucket_follows
                refine follows_of_fst (by assumption) ?_
                apply groupUse_follows
                with_reducible assumption
              · split
                · apply grantCtx_follows
                  dsimp only
                  apply addBucket_follows
                  refine follows_of_fst (by assumption) ?_
                  apply groupUse_follows
                  with_reducible assumption
                · apply setBorder_follows
                  dsimp only
                  apply addBucket_follows
                  refine follows_of_fst (by assumption) ?_
                  apply groupUse_follows
                  with_reducible assumption
          · split
            · dsimp only
              apply addBucket_follows
              refine follows_of_fst (by assumption) ?_
              apply groupUse_follows
              with_reducible assumption
            · split
              · apply control_follows
                dsimp only
                apply addBucket_follows
                refine follows_of_fst (by assumption) ?_
                apply groupUse_follows
                with_reducible assumption
              · split
                · apply grantCtx_follows
                  dsimp only
                  apply addBucket_follows
                  refine follows_of_fst (by assumption) ?_
                  apply groupUse_follows
                  with_reducible assumption
                · apply setBorder_follows
                  dsimp only
                  apply addBucket_follows
                  refine follows_of_fst (by assumption) ?_
                  apply groupUse_follows
                  with_reducible assumption
        · split
          · dsimp only
            apply error_follows
            refine follows_of_fst (by assumption) ?_
            apply groupUse_follows
            with_reducible assumption
          · split
            · apply control_follows
              dsimp only
              apply error_follows
              refine follows_of_fst (by assumption) ?_
              apply groupUse_follows
              with_reducible assumption
            · split
              · apply grantCtx_follows
                dsimp only
                apply error_follows
                refine follows_of_fst (by assumption) ?_
                apply groupUse_follows
                with_reducible assumption
              · apply setBorder_follows
                dsimp only
                apply error_follows
                refine follows_of_fst (by assumption) ?_
                apply groupUse_follows
                with_reducible assumption

theorem grantIn_follows {a0 : Blk} (b : Blk) (p : Nat) (k : BKey) (h_b : a0.Follows b) : Blk.Follows a0 (@Blk.grantIn b p k) := by
  unfold Blk.grantIn
  try dsimp only
  split
  · assumption
  · apply follows_each
    · apply setBucket_follows
      assumption
    · intros
      apply nearSend_follows
      assumption

theorem rxCore_follows {a0 : Blk} (b : Blk) (p : Nat) (m : NMsg) (h_b : a0.Follows b) : Blk.Follows a0 (@Blk.rxCore b p m) := by
  unfold Blk.rxCore
  try dsimp only
  split
  · apply openIn_follows
    with_reducible assumption
  · apply grantIn_follows
    with_reducible assumption
  · split
    · with_reducible assumption
    · split
      · apply advance_follows
        apply setBucket_follows
        with_reducible assumption
      · with_reducible assumption
  · split
    · apply codeTask_follows
      with_reducible assumption
    · with_reducible assumption
  · apply resendCoded_follows
    with_reducible assumption
  · split
    · apply hoBackward_follows
      with_reducible assumption
    · apply hoForward_follows
      with_reducible assumption
  · apply countIn_follows
    with_reducible assumption
  · apply tokensIn_follows
    with_reducible assumption
  · with_reducible assumption

theorem rxIn_follows {a0 : Blk} (b : Blk) (p : Nat) (m : NMsg) (h_b : a0.Follows b) : Blk.Follows a0 (@Blk.rxIn b p m) := by
  unfold Blk.rxIn
  try dsimp only
  split
  · apply rxCore_follows
    assumption
  · split
    · apply rxCore_follows
      refine follows_of_fst (by assumption) ?_
      apply attemptGate_follows
      assumption
    · apply inc_follows
      refine follows_of_fst (by assumption) ?_
      apply attemptGate_follows
      assumption
    · apply setBorder_follows
      refine follows_of_fst (by assumption) ?_
      apply attemptGate_follows
      assumption

theorem settle_follows {a0 : Blk} (fuel : Nat) (a_1 : Blk) (h_a_1 : a0.Follows a_1) : Blk.Follows a0 (@Blk.settle fuel a_1) := by
  induction fuel generalizing a_1 h_a_1 with
  | zero =>
  unfold Blk.settle
  try dsimp only
  assumption
  | succ q1 ih =>
  unfold Blk.settle
  try dsimp only
  split
  · assumption
  · apply ih
    apply rxIn_follows
    apply setBorder_follows
    assumption

theorem settled_follows {a0 : Blk} (b : Blk) (h_b : a0.Follows b) : Blk.Follows a0 (@Blk.settled b) := by
  unfold Blk.settled
  try dsimp only
  apply settle_follows
  assumption

theorem rx_follows {a0 : Blk} (b : Blk) (p : Nat) (tc : Nat) (m : NMsg) (h_b : a0.Follows b) : Blk.Follows a0 (@Blk.rx b p tc m) := by
  unfold Blk.rx
  try dsimp only
  apply follows_when
  · assumption
  · intros
    apply settled_follows
    apply rxIn_follows
    assumption

theorem abortGo_follows {a0 : Blk} (b : Blk) (p : Nat) (h_b : a0.Follows b) : Blk.Follows a0 (@Blk.abortGo b p) := by
  unfold Blk.abortGo
  try dsimp only
  split
  · apply settled_follows
    apply ownAbort_follows
    assumption
  · assumption

theorem tickBorder_follows {a0 : Blk} (b : Blk) (h_b : a0.Follows b) : Blk.Follows a0 (@Blk.tickBorder b) := by
  unfold Blk.tickBorder
  try dsimp only
  apply setBorder_follows
  assumption

end Sys2Proof.Laws
end

