-- ==== Sys2Proof/Laws/FollowsFarWire.lean ====
section
/-! SUPPORT. Each operation of Machine/FarWire.lean stays in `Blk.Follows`: it keeps the memory canonical, lowers no flash counter and takes back nothing sent. -/

namespace Sys2Proof.Laws

open Sys2Proof.Machine

theorem setFar_follows {a0 : Blk} (b : Blk) (x : Far) (h_b : a0.Follows b) : Blk.Follows a0 (@Blk.setFar b x) := by
  unfold Blk.setFar
  try dsimp only
  apply follows_mk
  with_reducible assumption

theorem setFpeer_follows {a0 : Blk} (b : Blk) (s : Nat) (x : FarPeer) (h_b : a0.Follows b) : Blk.Follows a0 (@Blk.setFpeer b s x) := by
  unfold Blk.setFpeer
  try dsimp only
  apply setFar_follows
  with_reducible assumption

theorem farInstall_follows {a0 : Blk} (b : Blk) (s : Nat) (epoch : Nat) (h_b : a0.Follows b) : Blk.Follows a0 (@Blk.farInstall b s epoch) := by
  unfold Blk.farInstall
  try dsimp only
  apply keyWrite_follows
  with_reducible assumption

end Sys2Proof.Laws
end

