-- ==== Sys2Proof/Laws/FollowsFar.lean ====
section
/-! SUPPORT. Each operation of Machine/Far.lean stays in `Blk.Follows`: it keeps the memory canonical, lowers no flash counter and takes back nothing sent. -/

namespace Sys2Proof.Laws

open Sys2Proof.Machine

theorem fkeyEvent_follows {a0 : Blk} (b : Blk) (n : Nat) (h_b : a0.Follows b) : Blk.Follows a0 (@Blk.fkeyEvent b n) := by
  unfold Blk.fkeyEvent
  try dsimp only
  apply event_follows
  apply event_follows
  assumption

theorem peerEntry_follows {a0 : Blk} (b : Blk) (s : Nat) (h_b : a0.Follows b) : Blk.Follows a0 (@Blk.peerEntry b s).1 := by
  unfold Blk.peerEntry
  try dsimp only
  split
  · dsimp only
    refine follows_of_fst (by assumption) ?_
    apply loadVa_follows
    with_reducible assumption
  · dsimp only
    refine follows_of_fst (by assumption) ?_
    apply loadVa_follows
    with_reducible assumption

theorem peerStep_follows {a0 : Blk} (acc : Blk × List Nat) (s : Nat) (h_acc : a0.Follows acc.1) : Blk.Follows a0 (@Blk.peerStep acc s).1 := by
  unfold Blk.peerStep
  try dsimp only
  split
  · assumption
  · split
    · split
      · apply follows_fst
        apply peerEntry_follows
        assumption
      · apply follows_fst
        apply peerEntry_follows
        assumption
    · apply follows_fst
      apply peerEntry_follows
      assumption

theorem validPeers_follows {a0 : Blk} (b : Blk) (h_b : a0.Follows b) : Blk.Follows a0 (@Blk.validPeers b).1 := by
  exact follows_foldl_fst _ (fun p x h => peerStep_follows p x h) _ _ h_b

theorem farEmit_follows {a0 : Blk} (b : Blk) (s : Nat) (r : Nat) (m : FarMsg) (h_b : a0.Follows b) : Blk.Follows a0 (@Blk.farEmit b s r m) := by
  unfold Blk.farEmit
  try dsimp only
  split
  · apply follows_send
    apply add64_follows
    apply setFpeer_follows
    with_reducible assumption
  · apply setFpeer_follows
    with_reducible assumption

theorem farRekey_follows {a0 : Blk} (b : Blk) (s : Nat) (h_b : a0.Follows b) : Blk.Follows a0 (@Blk.farRekey b s) := by
  unfold Blk.farRekey
  try dsimp only
  split
  · apply farEmit_follows
    apply farInstall_follows
    apply fkeyEvent_follows
    apply inc_follows
    apply wr_follows
    apply setFpeer_follows
    with_reducible assumption
  · apply farInstall_follows
    apply fkeyEvent_follows
    apply inc_follows
    apply wr_follows
    apply setFpeer_follows
    with_reducible assumption

theorem farSend_follows {a0 : Blk} (b : Blk) (s : Nat) (r : Nat) (m : FarMsg) (h_b : a0.Follows b) : Blk.Follows a0 (@Blk.farSend b s r m) := by
  unfold Blk.farSend
  try dsimp only
  apply farEmit_follows
  split
  · apply farRekey_follows
    with_reducible assumption
  · with_reducible assumption

theorem segment_follows {a0 : Blk} (b : Blk) (m : SendMsg) (off : Nat) (len : Nat) (h_b : a0.Follows b) : Blk.Follows a0 (@Blk.segment b m off len).1 := by
  unfold Blk.segment
  try dsimp only
  apply loadVa_follows
  with_reducible assumption

theorem sendData_follows {a0 : Blk} (b : Blk) (s : Nat) (r : Nat) (mid : Nat) (off : Nat) (len : Nat) (h_b : a0.Follows b) : Blk.Follows a0 (@Blk.sendData b s r mid off len) := by
  unfold Blk.sendData
  try dsimp only
  split
  · with_reducible assumption
  · split
    · apply error_follows
      refine follows_of_fst (by assumption) ?_
      apply segment_follows
      with_reducible assumption
    · apply farEmit_follows
      apply setFpeer_follows
      split
      · apply farRekey_follows
        refine follows_of_fst (by assumption) ?_
        apply segment_follows
        with_reducible assumption
      · refine follows_of_fst (by assumption) ?_
        apply segment_follows
        with_reducible assumption

theorem farPump_follows {a0 : Blk} (s : Nat) (fuel : Nat) (a_2 : Blk) (h_a_2 : a0.Follows a_2) : Blk.Follows a0 (@Blk.farPump s fuel a_2) := by
  induction fuel generalizing s a_2 h_a_2 with
  | zero =>
  unfold Blk.farPump
  try dsimp only
  assumption
  | succ q1 ih =>
  unfold Blk.farPump
  try dsimp only
  split
  · split
    · split
      · assumption
      · split
        · apply ih
          apply setFpeer_follows
          assumption
        · apply ih
          apply sendData_follows
          apply setFpeer_follows
          assumption
    · split
      · assumption
      · split
        · apply ih
          apply setFpeer_follows
          assumption
        · apply ih
          apply sendData_follows
          apply setFpeer_follows
          assumption
  · assumption

theorem pumpPeer_follows {a0 : Blk} (b : Blk) (s : Nat) (h_b : a0.Follows b) : Blk.Follows a0 (@Blk.pumpPeer b s) := by
  unfold Blk.pumpPeer
  try dsimp only
  apply farPump_follows
  assumption

theorem resend_follows {a0 : Blk} (b : Blk) (s : Nat) (e : FarSent) (h_b : a0.Follows b) : Blk.Follows a0 (@Blk.resend b s e) := by
  unfold Blk.resend
  try dsimp only
  split
  · assumption
  · apply inc_follows
    apply sendData_follows
    apply setFpeer_follows
    assumption

theorem moveData_follows {a0 : Blk} (b : Blk) (s : Nat) (r : Nat) (failover : Bool) (again : FarSent → Bool) (h_b : a0.Follows b) : Blk.Follows a0 (@Blk.moveData b s r failover again) := by
  unfold Blk.moveData
  try dsimp only
  apply pumpPeer_follows
  apply follows_each
  · split
    · apply inc_follows
      apply setFpeer_follows
      assumption
    · apply setFpeer_follows
      assumption
  · intros
    apply resend_follows
    assumption

theorem showSessions_follows {a0 : Blk} (b : Blk) (h_b : a0.Follows b) : Blk.Follows a0 (@Blk.showSessions b) := by
  unfold Blk.showSessions
  try dsimp only
  apply wr_follows
  assumption

theorem farSessionUp_follows {a0 : Blk} (b : Blk) (s : Nat) (entry : List Byte) (own : List Byte) (h_b : a0.Follows b) : Blk.Follows a0 (@Blk.farSessionUp b s entry own) := by
  unfold Blk.farSessionUp
  try dsimp only
  apply moveData_follows
  apply showSessions_follows
  apply farInstall_follows
  apply setFpeer_follows
  apply wr_follows
  apply wr_follows
  apply wr_follows
  apply entUsed_follows
  apply draw_follows
  with_reducible assumption

theorem sessionEnd_follows {a0 : Blk} (b : Blk) (s : Nat) (h_b : a0.Follows b) : Blk.Follows a0 (@Blk.sessionEnd b s) := by
  unfold Blk.sessionEnd
  try dsimp only
  apply showSessions_follows
  apply keyWrite_follows
  apply setFpeer_follows
  apply wr_follows
  apply wr_follows
  with_reducible assumption

theorem sessionsEnd_follows {a0 : Blk} (b : Blk) (h_b : a0.Follows b) : Blk.Follows a0 (@Blk.sessionsEnd b) := by
  unfold Blk.sessionsEnd
  try dsimp only
  apply follows_each
  · assumption
  · intros
    apply sessionEnd_follows
    assumption

theorem sessionAnswer_follows {a0 : Blk} (b : Blk) (x1 : FarAnswer) (h_b : a0.Follows b) : Blk.Follows a0 (@Blk.sessionAnswer b x1) := by
  unfold Blk.sessionAnswer
  try dsimp only
  split
  · with_reducible assumption
  · split
    · refine follows_of_fst (by assumption) ?_
      apply peerEntry_follows
      with_reducible assumption
    · split
      · refine follows_of_fst (by assumption) ?_
        apply peerEntry_follows
        refine follows_of_fst (by assumption) ?_
        apply peerEntry_follows
        with_reducible assumption
      · split
        · apply farSessionUp_follows
          refine follows_of_fst (by assumption) ?_
          apply peerEntry_follows
          refine follows_of_fst (by assumption) ?_
          apply peerEntry_follows
          with_reducible assumption
        · apply error_follows
          refine follows_of_fst (by assumption) ?_
          apply peerEntry_follows
          refine follows_of_fst (by assumption) ?_
          apply peerEntry_follows
          with_reducible assumption

theorem fxpStart_follows {a0 : Blk} (b : Blk) (h_b : a0.Follows b) : Blk.Follows a0 (@Blk.fxpStart b) := by
  unfold Blk.fxpStart
  try dsimp only
  apply follows_each
  · apply validPeers_follows
    assumption
  · intros
    split
    · assumption
    · apply setFpeer_follows
      apply wr_follows
      assumption

theorem fxpEn_follows {a0 : Blk} (b : Blk) (on : Bool) (h_b : a0.Follows b) : Blk.Follows a0 (@Blk.fxpEn b on) := by
  unfold Blk.fxpEn
  try dsimp only
  split
  · apply fxpStart_follows
    assumption
  · apply sessionsEnd_follows
    assumption

theorem cqWrite_follows {a0 : Blk} (b : Blk) (c : FarCpl) (h_b : a0.Follows b) : Blk.Follows a0 (@Blk.cqWrite b c).1 := by
  unfold Blk.cqWrite
  try dsimp only
  split
  · with_reducible assumption
  · split
    · dsimp only
      split
      · apply event_follows
        apply addW_follows
        refine follows_of_fst (by assumption) ?_
        apply storeVa_follows
        with_reducible assumption
      · apply addW_follows
        refine follows_of_fst (by assumption) ?_
        apply storeVa_follows
        with_reducible assumption
    · dsimp only
      apply error_follows
      refine follows_of_fst (by assumption) ?_
      apply storeVa_follows
      with_reducible assumption

theorem cqPost_follows {a0 : Blk} (b : Blk) (c : FarCpl) (h_b : a0.Follows b) : Blk.Follows a0 (@Blk.cqPost b c) := by
  unfold Blk.cqPost
  try dsimp only
  split
  · apply setFar_follows
    apply setFar_follows
    assumption
  · split
    · refine follows_of_fst (by assumption) ?_
      apply cqWrite_follows
      apply setFar_follows
      assumption
    · apply setFar_follows
      refine follows_of_fst (by assumption) ?_
      apply cqWrite_follows
      apply setFar_follows
      assumption

theorem farCqDrain_follows {a0 : Blk} (fuel : Nat) (a_1 : Blk) (h_a_1 : a0.Follows a_1) : Blk.Follows a0 (@Blk.farCqDrain fuel a_1) := by
  induction fuel generalizing a_1 h_a_1 with
  | zero =>
  unfold Blk.farCqDrain
  try dsimp only
  assumption
  | succ q1 ih =>
  unfold Blk.farCqDrain
  try dsimp only
  split
  · assumption
  · split
    · apply ih
      apply setFar_follows
      refine follows_of_fst (by assumption) ?_
      apply cqWrite_follows
      assumption
    · refine follows_of_fst (by assumption) ?_
      apply cqWrite_follows
      assumption

theorem showStores_follows {a0 : Blk} (b : Blk) (h_b : a0.Follows b) : Blk.Follows a0 (@Blk.showStores b) := by
  unfold Blk.showStores
  try dsimp only
  apply wr_follows
  apply wr_follows
  assumption

theorem storePlace_follows {a0 : Blk} (b : Blk) (base : Nat) (cap : Nat) (n : Nat) (used : List (Nat × Nat)) (h_b : a0.Follows b) : Blk.Follows a0 (@Blk.storePlace b base cap n used).1 := by
  unfold Blk.storePlace
  try dsimp only
  split
  · apply follows_fst
    apply draw_follows
    assumption
  · apply follows_fst
    apply draw_follows
    assumption

theorem sendPlace_follows {a0 : Blk} (b : Blk) (n : Nat) (h_b : a0.Follows b) : Blk.Follows a0 (@Blk.sendPlace b n).1 := by
  unfold Blk.sendPlace
  try dsimp only
  apply storePlace_follows
  assumption

theorem recvPlace_follows {a0 : Blk} (b : Blk) (n : Nat) (h_b : a0.Follows b) : Blk.Follows a0 (@Blk.recvPlace b n).1 := by
  unfold Blk.recvPlace
  try dsimp only
  apply storePlace_follows
  assumption

theorem postMsg_follows {a0 : Blk} (b : Blk) (mid : Nat) (bytes : List Byte) (mask : Nat) (notify : Bool) (h_b : a0.Follows b) : Blk.Follows a0 (@Blk.postMsg b mid bytes mask notify).1 := by
  unfold Blk.postMsg
  try dsimp only
  split
  · dsimp only
    refine follows_of_fst (by assumption) ?_
    apply sendPlace_follows
    with_reducible assumption
  · split
    · dsimp only
      refine follows_of_fst (by assumption) ?_
      apply storeVa_follows
      refine follows_of_fst (by assumption) ?_
      apply sendPlace_follows
      with_reducible assumption
    · dsimp only
      apply follows_each
      · apply showStores_follows
        apply setFar_follows
        refine follows_of_fst (by assumption) ?_
        apply storeVa_follows
        refine follows_of_fst (by assumption) ?_
        apply sendPlace_follows
        with_reducible assumption
      · intros
        apply pumpPeer_follows
        apply setFpeer_follows
        with_reducible assumption

theorem sendDone_follows {a0 : Blk} (b : Blk) (s : Nat) (mid : Nat) (h_b : a0.Follows b) : Blk.Follows a0 (@Blk.sendDone b s mid) := by
  unfold Blk.sendDone
  try dsimp only
  split
  · assumption
  · split
    · assumption
    · split
      · apply cqPost_follows
        apply showStores_follows
        apply setFar_follows
        assumption
      · apply showStores_follows
        apply setFar_follows
        assumption

theorem keeperWrite_follows {a0 : Blk} (b : Blk) (h_b : a0.Follows b) : Blk.Follows a0 (@Blk.keeperWrite b) := by
  unfold Blk.keeperWrite
  try dsimp only
  apply setFar_follows
  assumption

theorem setRecv_follows {a0 : Blk} (b : Blk) (m : RecvMsg) (h_b : a0.Follows b) : Blk.Follows a0 (@Blk.setRecv b m) := by
  unfold Blk.setRecv
  try dsimp only
  apply setFar_follows
  assumption

theorem release_follows {a0 : Blk} (b : Blk) (m : RecvMsg) (h_b : a0.Follows b) : Blk.Follows a0 (@Blk.release b m) := by
  unfold Blk.release
  try dsimp only
  apply showStores_follows
  apply setFar_follows
  assumption

theorem dropStale_follows {a0 : Blk} (b : Blk) (r : Nat) (h_b : a0.Follows b) : Blk.Follows a0 (@Blk.dropStale b r) := by
  unfold Blk.dropStale
  try dsimp only
  apply follows_each
  · assumption
  · intros
    apply cqPost_follows
    apply inc_follows
    apply release_follows
    assumption

theorem roundLate_follows {a0 : Blk} (b : Blk) (s : Nat) (r : Nat) (h_b : a0.Follows b) : Blk.Follows a0 (@Blk.roundLate b s r) := by
  unfold Blk.roundLate
  try dsimp only
  apply event_follows
  apply error_follows
  apply inc_follows
  assumption

theorem closeRound_follows {a0 : Blk} (b : Blk) (r : Nat) (shard : Nat) (h_b : a0.Follows b) : Blk.Follows a0 (@Blk.closeRound b r shard) := by
  unfold Blk.closeRound
  try dsimp only
  apply setFar_follows
  apply dropStale_follows
  apply follows_each
  · apply follows_each
    · apply validPeers_follows
      assumption
    · intros
      apply roundLate_follows
      assumption
  · intros
    apply release_follows
    assumption

theorem closeCheck_follows {a0 : Blk} (b : Blk) (h_b : a0.Follows b) : Blk.Follows a0 (@Blk.closeCheck b) := by
  unfold Blk.closeCheck
  try dsimp only
  split
  · split
    · assumption
    · split
      · apply closeRound_follows
        apply validPeers_follows
        assumption
      · apply validPeers_follows
        assumption
  · assumption

theorem anchorDigest_follows {a0 : Blk} (b : Blk) (r : Nat) (shard : Nat) (h_b : a0.Follows b) : Blk.Follows a0 (@Blk.anchorDigest b r shard).1 := by
  unfold Blk.anchorDigest
  try dsimp only
  split
  · split
    · apply follows_fst
      assumption
    · apply follows_fst
      apply draw_follows
      assumption
  · apply follows_fst
    apply draw_follows
    assumption

theorem journal_follows {a0 : Blk} (b : Blk) (r : Nat) (va : Nat) (h_b : a0.Follows b) : Blk.Follows a0 (@Blk.journal b r va) := by
  unfold Blk.journal
  try dsimp only
  split
  · refine follows_of_fst (by assumption) ?_
    apply storeVa_follows
    with_reducible assumption
  · apply error_follows
    refine follows_of_fst (by assumption) ?_
    apply storeVa_follows
    with_reducible assumption

theorem acceptManifest_follows {a0 : Blk} (b : Blk) (m : RecvMsg) (l : List Byte) (h_b : a0.Follows b) : Blk.Follows a0 (@Blk.acceptManifest b m l) := by
  unfold Blk.acceptManifest
  try dsimp only
  apply dropStale_follows
  apply follows_each
  · split
    · split
      · apply anchorDigest_follows
        apply event_follows
        apply setFar_follows
        apply setFar_follows
        apply event_follows
        apply cqPost_follows
        apply setRecv_follows
        apply journal_follows
        apply inc_follows
        apply wr_follows
        assumption
      · apply error_follows
        apply anchorDigest_follows
        apply event_follows
        apply setFar_follows
        apply setFar_follows
        apply event_follows
        apply cqPost_follows
        apply setRecv_follows
        apply journal_follows
        apply inc_follows
        apply wr_follows
        assumption
    · split
      · apply anchorDigest_follows
        apply setFar_follows
        apply event_follows
        apply cqPost_follows
        apply setRecv_follows
        apply journal_follows
        apply inc_follows
        apply wr_follows
        assumption
      · apply error_follows
        apply anchorDigest_follows
        apply setFar_follows
        apply event_follows
        apply cqPost_follows
        apply setRecv_follows
        apply journal_follows
        apply inc_follows
        apply wr_follows
        assumption
  · intros
    apply release_follows
    assumption

theorem takeManifest_follows {a0 : Blk} (b : Blk) (mid : Nat) (signer : Option Nat) (h_b : a0.Follows b) : Blk.Follows a0 (@Blk.takeManifest b mid signer) := by
  unfold Blk.takeManifest
  try dsimp only
  split
  · with_reducible assumption
  · split
    · apply error_follows
      refine follows_of_fst (by assumption) ?_
      apply loadVa_follows
      with_reducible assumption
    · split
      · apply setFar_follows
        refine follows_of_fst (by assumption) ?_
        apply loadVa_follows
        with_reducible assumption
      · split
        · apply error_follows
          apply release_follows
          refine follows_of_fst (by assumption) ?_
          apply loadVa_follows
          with_reducible assumption
        · split
          · apply inc_follows
            apply release_follows
            refine follows_of_fst (by assumption) ?_
            apply loadVa_follows
            with_reducible assumption
          · split
            · apply acceptManifest_follows
              refine follows_of_fst (by assumption) ?_
              apply loadVa_follows
              with_reducible assumption
            · apply setFar_follows
              refine follows_of_fst (by assumption) ?_
              apply loadVa_follows
              with_reducible assumption

theorem takeWaiting_follows {a0 : Blk} (fuel : Nat) (a_1 : Blk) (h_a_1 : a0.Follows a_1) : Blk.Follows a0 (@Blk.takeWaiting fuel a_1) := by
  induction fuel generalizing a_1 h_a_1 with
  | zero =>
  unfold Blk.takeWaiting
  try dsimp only
  assumption
  | succ q1 ih =>
  unfold Blk.takeWaiting
  try dsimp only
  split
  · assumption
  · apply ih
    apply takeManifest_follows
    apply setFar_follows
    assumption

theorem manifestIn_follows {a0 : Blk} (b : Blk) (mid : Nat) (signer : Option Nat) (h_b : a0.Follows b) : Blk.Follows a0 (@Blk.manifestIn b mid signer) := by
  unfold Blk.manifestIn
  try dsimp only
  split
  · apply takeManifest_follows
    assumption
  · apply closeCheck_follows
    apply takeWaiting_follows
    apply takeManifest_follows
    assumption

theorem farFail_follows {a0 : Blk} (b : Blk) (f : Fail) (h_b : a0.Follows b) : Blk.Follows a0 (@Blk.farFail b f) := by
  unfold Blk.farFail
  try dsimp only
  apply error_follows
  assumption

theorem manKept_follows {a0 : Blk} (mid : Nat) (va : Nat) (len : Nat) (r : Blk × Option Fail) (h_r : a0.Follows r.1) : Blk.Follows a0 (@Blk.manKept mid va len r) := by
  unfold Blk.manKept
  try dsimp only
  split
  · apply farFail_follows
    assumption
  · apply manifestIn_follows
    apply showStores_follows
    apply setFar_follows
    assumption

theorem manPosted_follows {a0 : Blk} (mid : Nat) (va : Nat) (bytes : List Byte) (r : Blk × Except Fail Bool) (h_r : a0.Follows r.1) : Blk.Follows a0 (@Blk.manPosted mid va bytes r) := by
  unfold Blk.manPosted
  try dsimp only
  split
  · apply manKept_follows
    apply storeVa_follows
    with_reducible assumption
  · apply event_follows
    apply inc_follows
    with_reducible assumption
  · apply farFail_follows
    with_reducible assumption

theorem manPlaced_follows {a0 : Blk} (mid : Nat) (dests : Nat) (bytes : List Byte) (r : Blk × Option Nat) (h_r : a0.Follows r.1) : Blk.Follows a0 (@Blk.manPlaced mid dests bytes r) := by
  unfold Blk.manPlaced
  try dsimp only
  split
  · apply event_follows
    with_reducible assumption
  · apply manPosted_follows
    apply postMsg_follows
    with_reducible assumption

theorem manSend_follows {a0 : Blk} (x : ManOut) (o : Blk × Nat) (h_o : a0.Follows o.1) : Blk.Follows a0 (@Blk.manSend x o) := by
  unfold Blk.manSend
  try dsimp only
  apply manPlaced_follows
  apply recvPlace_follows
  apply validPeers_follows
  with_reducible assumption

theorem fxpJoin_follows {a0 : Blk} (b : Blk) (h_b : a0.Follows b) : Blk.Follows a0 (@Blk.fxpJoin b) := by
  unfold Blk.fxpJoin
  try dsimp only
  apply setFar_follows
  apply wr_follows
  assumption

theorem fxpRound_follows {a0 : Blk} (b : Blk) (v : Nat) (h_b : a0.Follows b) : Blk.Follows a0 (@Blk.fxpRound b v) := by
  unfold Blk.fxpRound
  try dsimp only
  apply closeCheck_follows
  apply takeWaiting_follows
  apply wr_follows
  apply wr_follows
  assumption

theorem fxpFree_follows {a0 : Blk} (b : Blk) (seq : Nat) (h_b : a0.Follows b) : Blk.Follows a0 (@Blk.fxpFree b seq) := by
  unfold Blk.fxpFree
  try dsimp only
  split
  · assumption
  · split
    · split
      · apply setRecv_follows
        assumption
      · apply release_follows
        assumption
    · split
      · apply setRecv_follows
        assumption
      · apply release_follows
        assumption

theorem cqGet_follows {a0 : Blk} (b : Blk) (h_b : a0.Follows b) : Blk.Follows a0 (@Blk.cqGet b) := by
  unfold Blk.cqGet
  try dsimp only
  apply farCqDrain_follows
  assumption

theorem sqRefuse_follows {a0 : Blk} (b : Blk) (cls : Nat) (mid : Nat) (len : Nat) (h_b : a0.Follows b) : Blk.Follows a0 (@Blk.sqRefuse b cls mid len) := by
  unfold Blk.sqRefuse
  try dsimp only
  apply cqPost_follows
  apply addW_follows
  apply setFar_follows
  assumption

theorem sqTake_follows {a0 : Blk} (b : Blk) (l : List Byte) (h_b : a0.Follows b) : Blk.Follows a0 (@Blk.sqTake b l) := by
  unfold Blk.sqTake
  try dsimp only
  split
  · apply sqRefuse_follows
    apply validPeers_follows
    with_reducible assumption
  · split
    · apply sqRefuse_follows
      refine follows_of_fst (by assumption) ?_
      apply loadVa_follows
      apply validPeers_follows
      with_reducible assumption
    · split
      · apply sqRefuse_follows
        refine follows_of_fst (by assumption) ?_
        apply postMsg_follows
        refine follows_of_fst (by assumption) ?_
        apply loadVa_follows
        apply validPeers_follows
        with_reducible assumption
      · split
        · refine follows_of_fst (by assumption) ?_
          apply postMsg_follows
          refine follows_of_fst (by assumption) ?_
          apply loadVa_follows
          apply validPeers_follows
          with_reducible assumption
        · apply event_follows
          apply inc_follows
          apply setFar_follows
          refine follows_of_fst (by assumption) ?_
          apply postMsg_follows
          refine follows_of_fst (by assumption) ?_
          apply loadVa_follows
          apply validPeers_follows
          with_reducible assumption
      · split
        · apply sendDone_follows
          split
          · apply closeCheck_follows
            apply setFar_follows
            apply addW_follows
            apply setFar_follows
            refine follows_of_fst (by assumption) ?_
            apply postMsg_follows
            refine follows_of_fst (by assumption) ?_
            apply loadVa_follows
            apply validPeers_follows
            with_reducible assumption
          · apply addW_follows
            apply setFar_follows
            refine follows_of_fst (by assumption) ?_
            apply postMsg_follows
            refine follows_of_fst (by assumption) ?_
            apply loadVa_follows
            apply validPeers_follows
            with_reducible assumption
        · split
          · apply closeCheck_follows
            apply setFar_follows
            apply addW_follows
            apply setFar_follows
            refine follows_of_fst (by assumption) ?_
            apply postMsg_follows
            refine follows_of_fst (by assumption) ?_
            apply loadVa_follows
            apply validPeers_follows
            with_reducible assumption
          · apply addW_follows
            apply setFar_follows
            refine follows_of_fst (by assumption) ?_
            apply postMsg_follows
            refine follows_of_fst (by assumption) ?_
            apply loadVa_follows
            apply validPeers_follows
            with_reducible assumption

theorem farAccept_follows {a0 : Blk} (b : Blk) (h_1 : FarHdr) (h_b : a0.Follows b) : Blk.Follows a0 (@Blk.farAccept b h_1).1 := by
  unfold Blk.farAccept
  try dsimp only
  split
  · apply follows_fst
    assumption
  · split
    · apply follows_fst
      apply inc_follows
      apply add64_follows
      assumption
    · split
      · apply follows_fst
        apply inc_follows
        apply add64_follows
        assumption
      · split
        · apply follows_fst
          apply fkeyEvent_follows
          apply inc_follows
          apply add64_follows
          assumption
        · split
          · apply follows_fst
            apply inc_follows
            apply add64_follows
            assumption
          · split
            · apply follows_fst
              apply fkeyEvent_follows
              apply inc_follows
              apply wr_follows
              apply setFpeer_follows
              apply add64_follows
              assumption
            · apply follows_fst
              apply add64_follows
              assumption

theorem farNote_follows {a0 : Blk} (b : Blk) (h_1 : FarHdr) (h_b : a0.Follows b) : Blk.Follows a0 (@Blk.farNote b h_1) := by
  unfold Blk.farNote
  try dsimp only
  apply setFpeer_follows
  assumption

theorem farIn_follows {a0 : Blk} (b : Blk) (h_1 : FarHdr) (f : Blk → Blk) (h_b : a0.Follows b) (h_f : ∀ y0, a0.Follows y0 → Blk.Follows a0 (f y0)) : Blk.Follows a0 (@Blk.farIn b h_1 f) := by
  unfold Blk.farIn
  try dsimp only
  split
  · apply_assumption
    apply farNote_follows
    refine follows_of_fst (by assumption) ?_
    apply farAccept_follows
    assumption
  · refine follows_of_fst (by assumption) ?_
    apply farAccept_follows
    assumption

theorem sendAck_follows {a0 : Blk} (b : Blk) (s : Nat) (h_b : a0.Follows b) : Blk.Follows a0 (@Blk.sendAck b s) := by
  unfold Blk.sendAck
  try dsimp only
  split
  · assumption
  · apply farSend_follows
    apply setFpeer_follows
    assumption

theorem messageDone_follows {a0 : Blk} (b : Blk) (s : Nat) (m : RecvMsg) (h_b : a0.Follows b) : Blk.Follows a0 (@Blk.messageDone b s m) := by
  unfold Blk.messageDone
  try dsimp only
  split
  · assumption
  · apply closeCheck_follows
    apply cqPost_follows
    apply setRecv_follows
    assumption

theorem placeSegment_follows {a0 : Blk} (b : Blk) (h : FarHdr) (m : RecvMsg) (off : Nat) (data : List Byte) (h_b : a0.Follows b) : Blk.Follows a0 (@Blk.placeSegment b h m off data) := by
  unfold Blk.placeSegment
  try dsimp only
  split
  · apply inc_follows
    apply farNote_follows
    with_reducible assumption
  · split
    · apply error_follows
      refine follows_of_fst (by assumption) ?_
      apply storeVa_follows
      with_reducible assumption
    · split
      · apply messageDone_follows
        apply setRecv_follows
        apply farNote_follows
        refine follows_of_fst (by assumption) ?_
        apply storeVa_follows
        with_reducible assumption
      · apply setRecv_follows
        apply farNote_follows
        refine follows_of_fst (by assumption) ?_
        apply storeVa_follows
        with_reducible assumption

theorem dataDue_follows {a0 : Blk} (b : Blk) (peer : Nat) (h_b : a0.Follows b) : Blk.Follows a0 (@Blk.dataDue b peer) := by
  unfold Blk.dataDue
  try dsimp only
  split
  · apply sendAck_follows
    apply setFpeer_follows
    assumption
  · apply setFpeer_follows
    assumption

theorem dataNew_follows {a0 : Blk} (h_0 : FarHdr) (mid : Nat) (off : Nat) (total : Nat) (data : List Byte) (r : Blk × Option Nat) (h_r : a0.Follows r.1) : Blk.Follows a0 (@Blk.dataNew h_0 mid off total data r) := by
  unfold Blk.dataNew
  try dsimp only
  split
  · apply event_follows
    assumption
  · apply dataDue_follows
    apply placeSegment_follows
    apply showStores_follows
    apply setFar_follows
    assumption

theorem dataTaken_follows {a0 : Blk} (b : Blk) (h_1 : FarHdr) (mid : Nat) (off : Nat) (total : Nat) (data : List Byte) (h_b : a0.Follows b) : Blk.Follows a0 (@Blk.dataTaken b h_1 mid off total data) := by
  unfold Blk.dataTaken
  try dsimp only
  split
  · apply inc_follows
    apply farNote_follows
    assumption
  · split
    · apply dataDue_follows
      apply inc_follows
      apply farNote_follows
      assumption
    · split
      · split
        · apply inc_follows
          apply farNote_follows
          assumption
        · apply dataDue_follows
          apply placeSegment_follows
          assumption
      · apply dataNew_follows
        apply recvPlace_follows
        assumption

theorem dataIn_follows {a0 : Blk} (b : Blk) (h_1 : FarHdr) (mid : Nat) (off : Nat) (total : Nat) (data : List Byte) (h_b : a0.Follows b) : Blk.Follows a0 (@Blk.dataIn b h_1 mid off total data) := by
  unfold Blk.dataIn
  try dsimp only
  split
  · apply dataTaken_follows
    apply farAccept_follows
    assumption
  · apply farAccept_follows
    assumption

theorem routeBack_follows {a0 : Blk} (b : Blk) (s : Nat) (r : Nat) (h_b : a0.Follows b) : Blk.Follows a0 (@Blk.routeBack b s r) := by
  unfold Blk.routeBack
  try dsimp only
  split
  · assumption
  · split
    · apply moveData_follows
      apply event_follows
      apply setFpeer_follows
      assumption
    · apply event_follows
      apply setFpeer_follows
      assumption

theorem routeLost_follows {a0 : Blk} (b : Blk) (s : Nat) (r : Nat) (h_b : a0.Follows b) : Blk.Follows a0 (@Blk.routeLost b s r) := by
  unfold Blk.routeLost
  try dsimp only
  split
  · apply moveData_follows
    apply setFpeer_follows
    assumption
  · apply setFpeer_follows
    assumption

end Sys2Proof.Laws
end

