-- ==== Sys2Proof/Laws/FollowsFarCoder.lean ====
section
/-! SUPPORT. Each operation of Machine/FarCoder.lean stays in `Blk.Follows`: it keeps the memory canonical, lowers no flash counter and takes back nothing sent. -/

namespace Sys2Proof.Laws

open Sys2Proof.Machine

theorem setFjob_follows {a0 : Blk} (b : Blk) (f : Nat) (j : Option FJob) (h_b : a0.Follows b) : Blk.Follows a0 (@Blk.setFjob b f j) := by
  unfold Blk.setFjob
  try dsimp only
  apply setFar_follows
  assumption

theorem takeJob_follows {a0 : Blk} (b : Blk) (f : Nat) (dec : Bool) (h_b : a0.Follows b) : Blk.Follows a0 (@Blk.takeJob b f dec) := by
  unfold Blk.takeJob
  try dsimp only
  split
  · with_reducible assumption
  · split
    · apply setFjob_follows
      refine follows_of_fst (by assumption) ?_
      apply loadVa_follows
      with_reducible assumption
    · split
      · refine follows_of_fst (by assumption) ?_
        apply loadVa_follows
        with_reducible assumption
      · split
        · apply setFjob_follows
          refine follows_of_fst (by assumption) ?_
          apply loadVa_follows
          with_reducible assumption
        · apply lvAsk_follows
          apply setFjob_follows
          refine follows_of_fst (by assumption) ?_
          apply loadVa_follows
          with_reducible assumption

theorem jobNext_follows {a0 : Blk} (b : Blk) (f : Nat) (j : FJob) (pos : Nat) (h_b : a0.Follows b) : Blk.Follows a0 (@Blk.jobNext b f j pos) := by
  unfold Blk.jobNext
  try dsimp only
  split
  · apply lvAsk_follows
    apply setFjob_follows
    assumption
  · apply setFjob_follows
    assumption

theorem jobEncode_follows {a0 : Blk} (b : Blk) (f : Nat) (j : FJob) (h_b : a0.Follows b) : Blk.Follows a0 (@Blk.jobEncode b f j) := by
  unfold Blk.jobEncode
  try dsimp only
  split
  · apply setFjob_follows
    refine follows_of_fst (by assumption) ?_
    apply loadVa_follows
    with_reducible assumption
  · split
    · apply setFjob_follows
      refine follows_of_fst (by assumption) ?_
      split
      · split
        · dsimp only
          refine follows_of_fst (by assumption) ?_
          apply loadVa_follows
          refine follows_of_fst (by assumption) ?_
          apply loadVa_follows
          with_reducible assumption
        · dsimp only
          refine follows_of_fst (by assumption) ?_
          apply loadVa_follows
          refine follows_of_fst (by assumption) ?_
          apply loadVa_follows
          with_reducible assumption
      · dsimp only
        refine follows_of_fst (by assumption) ?_
        apply loadVa_follows
        with_reducible assumption
    · split
      · apply setFjob_follows
        refine follows_of_fst (by assumption) ?_
        split
        · split
          · dsimp only
            refine follows_of_fst (by assumption) ?_
            apply loadVa_follows
            refine follows_of_fst (by assumption) ?_
            apply loadVa_follows
            with_reducible assumption
          · dsimp only
            refine follows_of_fst (by assumption) ?_
            apply loadVa_follows
            refine follows_of_fst (by assumption) ?_
            apply loadVa_follows
            with_reducible assumption
        · dsimp only
          refine follows_of_fst (by assumption) ?_
          apply loadVa_follows
          with_reducible assumption
      · split
        · apply setFjob_follows
          refine follows_of_fst (by assumption) ?_
          apply storeVa_follows
          refine follows_of_fst (by assumption) ?_
          split
          · split
            · dsimp only
              refine follows_of_fst (by assumption) ?_
              apply loadVa_follows
              refine follows_of_fst (by assumption) ?_
              apply loadVa_follows
              with_reducible assumption
            · dsimp only
              refine follows_of_fst (by assumption) ?_
              apply loadVa_follows
              refine follows_of_fst (by assumption) ?_
              apply loadVa_follows
              with_reducible assumption
          · dsimp only
            refine follows_of_fst (by assumption) ?_
            apply loadVa_follows
            with_reducible assumption
        · split
          · apply setFjob_follows
            refine follows_of_fst (by assumption) ?_
            split
            · apply storeVa_follows
              refine follows_of_fst (by assumption) ?_
              apply storeVa_follows
              refine follows_of_fst (by assumption) ?_
              split
              · split
                · dsimp only
                  refine follows_of_fst (by assumption) ?_
                  apply loadVa_follows
                  refine follows_of_fst (by assumption) ?_
                  apply loadVa_follows
                  with_reducible assumption
                · dsimp only
                  refine follows_of_fst (by assumption) ?_
                  apply loadVa_follows
                  refine follows_of_fst (by assumption) ?_
                  apply loadVa_follows
                  with_reducible assumption
              · split
                · dsimp only
                  refine follows_of_fst (by assumption) ?_
                  apply loadVa_follows
                  refine follows_of_fst (by assumption) ?_
                  apply loadVa_follows
                  with_reducible assumption
                · dsimp only
                  refine follows_of_fst (by assumption) ?_
                  apply loadVa_follows
                  refine follows_of_fst (by assumption) ?_
                  apply loadVa_follows
                  with_reducible assumption
            · dsimp only
              refine follows_of_fst (by assumption) ?_
              apply storeVa_follows
              refine follows_of_fst (by assumption) ?_
              split
              · split
                · dsimp only
                  refine follows_of_fst (by assumption) ?_
                  apply loadVa_follows
                  refine follows_of_fst (by assumption) ?_
                  apply loadVa_follows
                  with_reducible assumption
                · dsimp only
                  refine follows_of_fst (by assumption) ?_
                  apply loadVa_follows
                  refine follows_of_fst (by assumption) ?_
                  apply loadVa_follows
                  with_reducible assumption
              · dsimp only
                refine follows_of_fst (by assumption) ?_
                apply loadVa_follows
                with_reducible assumption
          · apply jobNext_follows
            apply fcodCount_follows
            refine follows_of_fst (by assumption) ?_
            split
            · apply storeVa_follows
              refine follows_of_fst (by assumption) ?_
              apply storeVa_follows
              refine follows_of_fst (by assumption) ?_
              split
              · split
                · dsimp only
                  refine follows_of_fst (by assumption) ?_
                  apply loadVa_follows
                  refine follows_of_fst (by assumption) ?_
                  apply loadVa_follows
                  with_reducible assumption
                · dsimp only
                  refine follows_of_fst (by assumption) ?_
                  apply loadVa_follows
                  refine follows_of_fst (by assumption) ?_
                  apply loadVa_follows
                  with_reducible assumption
              · split
                · dsimp only
                  refine follows_of_fst (by assumption) ?_
                  apply loadVa_follows
                  refine follows_of_fst (by assumption) ?_
                  apply loadVa_follows
                  with_reducible assumption
                · dsimp only
                  refine follows_of_fst (by assumption) ?_
                  apply loadVa_follows
                  refine follows_of_fst (by assumption) ?_
                  apply loadVa_follows
                  with_reducible assumption
            · dsimp only
              refine follows_of_fst (by assumption) ?_
              apply storeVa_follows
              refine follows_of_fst (by assumption) ?_
              split
              · split
                · dsimp only
                  refine follows_of_fst (by assumption) ?_
                  apply loadVa_follows
                  refine follows_of_fst (by assumption) ?_
                  apply loadVa_follows
                  with_reducible assumption
                · dsimp only
                  refine follows_of_fst (by assumption) ?_
                  apply loadVa_follows
                  refine follows_of_fst (by assumption) ?_
                  apply loadVa_follows
                  with_reducible assumption
              · dsimp only
                refine follows_of_fst (by assumption) ?_
                apply loadVa_follows
                with_reducible assumption

theorem noteDecoded_follows {a0 : Blk} (b : Blk) (va : Nat) (len : Nat) (h_b : a0.Follows b) : Blk.Follows a0 (@Blk.noteDecoded b va len) := by
  unfold Blk.noteDecoded
  try dsimp only
  split
  · apply closeCheck_follows
    apply setRecv_follows
    assumption
  · assumption

theorem jobDamaged_follows {a0 : Blk} (b : Blk) (f : Nat) (j : FJob) (e : Nat × Nat) (h_b : a0.Follows b) : Blk.Follows a0 (@Blk.jobDamaged b f j e) := by
  unfold Blk.jobDamaged
  try dsimp only
  apply setFjob_follows
  apply event_follows
  apply inc_follows
  apply error_follows
  assumption

theorem jobDecode_follows {a0 : Blk} (b : Blk) (f : Nat) (j : FJob) (h_b : a0.Follows b) : Blk.Follows a0 (@Blk.jobDecode b f j) := by
  unfold Blk.jobDecode
  try dsimp only
  split
  · apply setFjob_follows
    refine follows_of_fst (by assumption) ?_
    apply loadVa_follows
    with_reducible assumption
  · split
    · apply jobDamaged_follows
      refine follows_of_fst (by assumption) ?_
      apply loadVa_follows
      with_reducible assumption
    · split
      · apply setFjob_follows
        refine follows_of_fst (by assumption) ?_
        apply loadVa_follows
        refine follows_of_fst (by assumption) ?_
        apply loadVa_follows
        with_reducible assumption
      · split
        · apply jobDamaged_follows
          refine follows_of_fst (by assumption) ?_
          apply loadVa_follows
          refine follows_of_fst (by assumption) ?_
          apply loadVa_follows
          with_reducible assumption
        · split
          · apply jobDamaged_follows
            refine follows_of_fst (by assumption) ?_
            apply loadVa_follows
            refine follows_of_fst (by assumption) ?_
            apply loadVa_follows
            with_reducible assumption
          · split
            · apply setFjob_follows
              refine follows_of_fst (by assumption) ?_
              apply storeVa_follows
              refine follows_of_fst (by assumption) ?_
              apply loadVa_follows
              refine follows_of_fst (by assumption) ?_
              apply loadVa_follows
              with_reducible assumption
            · apply jobNext_follows
              apply noteDecoded_follows
              apply inc_follows
              refine follows_of_fst (by assumption) ?_
              apply storeVa_follows
              refine follows_of_fst (by assumption) ?_
              apply loadVa_follows
              refine follows_of_fst (by assumption) ?_
              apply loadVa_follows
              with_reducible assumption

theorem farBlock_follows {a0 : Blk} (b : Blk) (f : Nat) (dec : Bool) (h_b : a0.Follows b) : Blk.Follows a0 (@Blk.farBlock b f dec) := by
  unfold Blk.farBlock
  try dsimp only
  split
  · split
    · assumption
    · split
      · apply jobDecode_follows
        apply lvDrop_follows
        assumption
      · apply jobEncode_follows
        apply lvDrop_follows
        assumption
  · assumption

theorem nearBlock_follows {a0 : Blk} (b : Blk) (p : Nat) (dec : Bool) (h_b : a0.Follows b) : Blk.Follows a0 (@Blk.nearBlock b p dec) := by
  unfold Blk.nearBlock
  try dsimp only
  split
  · assumption
  · split
    · assumption
    · split
      · split
        · apply decodeTask_follows
          apply lvDrop_follows
          assumption
        · apply lvAsk_follows
          apply decodeTask_follows
          apply lvDrop_follows
          assumption
      · split
        · apply encodeTask_follows
          apply lvDrop_follows
          assumption
        · apply lvAsk_follows
          apply encodeTask_follows
          apply lvDrop_follows
          assumption

theorem jobEnd_follows {a0 : Blk} (b : Blk) (f : Nat) (j : FJob) (c : Nat) (d : Nat) (h_b : a0.Follows b) : Blk.Follows a0 (@Blk.jobEnd b f j c d) := by
  unfold Blk.jobEnd
  try dsimp only
  split
  · apply event_follows
    apply addW_follows
    apply setFjob_follows
    split
    · split
      · apply storeVa_follows
        with_reducible assumption
      · apply error_follows
        apply storeVa_follows
        with_reducible assumption
    · apply error_follows
      split
      · apply storeVa_follows
        with_reducible assumption
      · apply error_follows
        apply storeVa_follows
        with_reducible assumption
  · apply event_follows
    apply event_follows
    apply addW_follows
    apply setFjob_follows
    split
    · split
      · apply storeVa_follows
        with_reducible assumption
      · apply error_follows
        apply storeVa_follows
        with_reducible assumption
    · apply error_follows
      split
      · apply storeVa_follows
        with_reducible assumption
      · apply error_follows
        apply storeVa_follows
        with_reducible assumption

theorem jobDeny_follows {a0 : Blk} (b : Blk) (f : Nat) (h_b : a0.Follows b) : Blk.Follows a0 (@Blk.jobDeny b f) := by
  unfold Blk.jobDeny
  try dsimp only
  split
  · apply jobEnd_follows
    with_reducible assumption
  · with_reducible assumption

theorem fcodReset_follows {a0 : Blk} (b : Blk) (f : Nat) (h_b : a0.Follows b) : Blk.Follows a0 (@Blk.fcodReset b f) := by
  unfold Blk.fcodReset
  try dsimp only
  apply setFjob_follows
  apply lvDrop_follows
  apply lvDrop_follows
  assumption

end Sys2Proof.Laws
end

