-- ==== Sys2Proof/Laws/FollowsBulk.lean ====
section
/-! SUPPORT. Each operation of Machine/Bulk.lean stays in `Blk.Follows`: it keeps the memory canonical, lowers no flash counter and takes back nothing sent. -/

namespace Sys2Proof.Laws

open Sys2Proof.Machine

theorem rakCredit_follows {a0 : Blk} (b : Blk) (chan : Nat) (h_b : a0.Follows b) : Blk.Follows a0 (@Blk.rakCredit b chan) := by
  unfold Blk.rakCredit
  try dsimp only
  split
  · apply rakLink_follows
    with_reducible assumption
  · with_reducible assumption

theorem bulkSend_follows {a0 : Blk} (b : Blk) (m : RakMsg) (h_b : a0.Follows b) : Blk.Follows a0 (@Blk.bulkSend b m) := by
  unfold Blk.bulkSend
  try dsimp only
  apply rakSend_follows
  apply follows_mk
  with_reducible assumption

theorem bulkDrain_follows {a0 : Blk} (b : Blk) (fuel : Nat) (h_b : a0.Follows b) : Blk.Follows a0 (@Blk.bulkDrain b fuel) := by
  induction fuel generalizing b h_b with
  | zero =>
    unfold Blk.bulkDrain
    try dsimp only
    with_reducible assumption
  | succ fuel ih =>
    unfold Blk.bulkDrain
    try dsimp only
    split
    · with_reducible assumption
    · split
      · apply ih
        apply bulkSend_follows
        apply follows_mk
        with_reducible assumption
      · with_reducible assumption

theorem bulkPut_follows {a0 : Blk} (b : Blk) (m : RakMsg) (h_b : a0.Follows b) : Blk.Follows a0 (@Blk.bulkPut b m) := by
  unfold Blk.bulkPut
  try dsimp only
  split
  · apply bulkSend_follows
    with_reducible assumption
  · apply follows_mk
    with_reducible assumption

theorem setBulk_follows {a0 : Blk} (b : Blk) (k : Nat) (x : Option Bulk) (h_b : a0.Follows b) : Blk.Follows a0 (@Blk.setBulk b k x) := by
  unfold Blk.setBulk
  try dsimp only
  apply wr_follows
  apply follows_mk
  with_reducible assumption

theorem bulkEnd_follows {a0 : Blk} (b : Blk) (k : Nat) (cls : Nat) (moved : Nat) (h_b : a0.Follows b) : Blk.Follows a0 (@Blk.bulkEnd b k cls moved) := by
  induction k generalizing b cls moved h_b with
  | zero =>
    unfold Blk.bulkEnd
    try dsimp only
    apply bulkPut_follows
    apply setBulk_follows
    with_reducible assumption
  | succ k ih =>
    unfold Blk.bulkEnd
    try dsimp only
    apply bulkPut_follows
    apply setBulk_follows
    with_reducible assumption

theorem readFrame_follows {a0 : Blk} (b : Blk) (k : Nat) (h_b : a0.Follows b) : Blk.Follows a0 (@Blk.readFrame b k) := by
  unfold Blk.readFrame
  try dsimp only
  split
  · split
    · with_reducible assumption
    · split
      · apply bulkSend_follows
        apply setBulk_follows
        refine follows_of_fst (by assumption) ?_
        apply loadVa_follows
        with_reducible assumption
      · apply bulkEnd_follows
        refine follows_of_fst (by assumption) ?_
        apply loadVa_follows
        with_reducible assumption
  · with_reducible assumption

theorem expFrame_follows {a0 : Blk} (b : Blk) (n : Nat) (h_b : a0.Follows b) : Blk.Follows a0 (@Blk.expFrame b n) := by
  unfold Blk.expFrame
  try dsimp only
  split
  · split
    · with_reducible assumption
    · split
      · apply expSent_follows
        apply follows_mk
        apply bulkSend_follows
        with_reducible assumption
      · apply follows_mk
        apply bulkSend_follows
        with_reducible assumption
  · with_reducible assumption

theorem bulkPump_follows {a0 : Blk} (b : Blk) (h_b : a0.Follows b) : Blk.Follows a0 (@Blk.bulkPump b) := by
  unfold Blk.bulkPump
  try dsimp only
  apply follows_each
  · apply bulkDrain_follows
    with_reducible assumption
  · intros
    split
    · apply follows_each
      · apply follows_each
        · with_reducible assumption
        · intros
          apply readFrame_follows
          with_reducible assumption
      · intros
        apply expFrame_follows
        with_reducible assumption
    · with_reducible assumption

theorem bulkReg_follows {a0 : Blk} (b : Blk) (write : Bool) (va : Nat) (h_b : a0.Follows b) : Blk.Follows a0 (@Blk.bulkReg b write va).1 := by
  unfold Blk.bulkReg
  try dsimp only
  split
  · dsimp only
    apply ueOf_follows
    refine follows_of_fst (by assumption) ?_
    apply xlate1_follows
    with_reducible assumption
  · dsimp only
    refine follows_of_fst (by assumption) ?_
    apply xlate1_follows
    with_reducible assumption

theorem bulkOpen_follows {a0 : Blk} (b : Blk) (write : Bool) (k : Nat) (va : Nat) (len : Nat) (h_b : a0.Follows b) : Blk.Follows a0 (@Blk.bulkOpen b write k va len) := by
  unfold Blk.bulkOpen
  try dsimp only
  split
  · apply rakCredit_follows
    apply bulkPut_follows
    apply bulkReg_follows
    with_reducible assumption
  · apply bulkPump_follows
    apply rakCredit_follows
    apply setBulk_follows
    apply bulkReg_follows
    with_reducible assumption

theorem bulkIn_follows {a0 : Blk} (b : Blk) (k : Nat) (off : Nat) (data : List Byte) (h_b : a0.Follows b) : Blk.Follows a0 (@Blk.bulkIn b k off data) := by
  unfold Blk.bulkIn
  try dsimp only
  split
  · split
    · with_reducible assumption
    · split
      · apply setBulk_follows
        refine follows_of_fst (by assumption) ?_
        apply storeVa_follows
        with_reducible assumption
      · apply bulkEnd_follows
        refine follows_of_fst (by assumption) ?_
        apply storeVa_follows
        with_reducible assumption
  · with_reducible assumption

theorem bulkTake_follows {a0 : Blk} (b : Blk) (x1 : BulkIn) (h_b : a0.Follows b) : Blk.Follows a0 (@Blk.bulkTake b x1) := by
  unfold Blk.bulkTake
  try dsimp only
  split
  · apply bulkOpen_follows
    with_reducible assumption
  · apply rakCredit_follows
    apply bulkIn_follows
    with_reducible assumption

theorem bulkFrame_follows {a0 : Blk} (b : Blk) (m : BulkIn) (h_b : a0.Follows b) : Blk.Follows a0 (@Blk.bulkFrame b m) := by
  unfold Blk.bulkFrame
  try dsimp only
  split
  · apply follows_mk
    with_reducible assumption
  · apply bulkTake_follows
    with_reducible assumption

theorem bulkRelease_follows {a0 : Blk} (b : Blk) (h_b : a0.Follows b) : Blk.Follows a0 (@Blk.bulkRelease b) := by
  unfold Blk.bulkRelease
  try dsimp only
  apply follows_each
  · apply follows_mk
    with_reducible assumption
  · intros
    apply bulkTake_follows
    with_reducible assumption

end Sys2Proof.Laws
end

