-- ==== Sys2Proof/Laws/FollowsPages.lean ====
section
/-! SUPPORT. Each operation of Machine/Pages.lean stays in `Blk.Follows`: it keeps the memory canonical, lowers no flash counter and takes back nothing sent. -/

namespace Sys2Proof.Laws

open Sys2Proof.Machine

theorem dropRegs_follows {a0 : Blk} (b : Blk) (p : Page) (i : Nat) (keep : Nat → Nat → Bool) (h_b : a0.Follows b) : Blk.Follows a0 (@Blk.dropRegs b p i keep) := by
  unfold Blk.dropRegs
  try dsimp only
  apply follows_mk
  assumption

theorem denyOps_follows {a0 : Blk} (b : Blk) (l : List QOp) (h_b : a0.Follows b) : Blk.Follows a0 (@Blk.denyOps b l) := by
  unfold Blk.denyOps
  try dsimp only
  apply follows_each
  · assumption
  · intros
    apply post_follows
    assumption

theorem deadOps_follows {a0 : Blk} (b : Blk) (w : Nat) (ss : List Nat) (h_b : a0.Follows b) : Blk.Follows a0 (@Blk.deadOps b w ss) := by
  unfold Blk.deadOps
  try dsimp only
  apply follows_mk
  apply setWale_follows
  assumption

theorem forget_follows {a0 : Blk} (b : Blk) (kind : Nat) (unit : Nat) (h_b : a0.Follows b) : Blk.Follows a0 (@Blk.forget b kind unit) := by
  unfold Blk.forget
  try dsimp only
  apply unhold_follows
  apply unsusp_follows
  assumption

theorem stakeReset_follows {a0 : Blk} (b : Blk) (s : Nat) (keep : optParam Bool false) (h_b : a0.Follows b) : Blk.Follows a0 (@Blk.stakeReset b s keep) := by
  unfold Blk.stakeReset
  try dsimp only
  apply setStake_follows
  apply matReset_follows
  apply forget_follows
  apply forget_follows
  apply follows_each
  · apply deadOps_follows
    with_reducible assumption
  · intros
    apply setThread_follows
    with_reducible assumption

theorem rowReset_follows {a0 : Blk} (b : Blk) (w : Nat) (h_b : a0.Follows b) : Blk.Follows a0 (@Blk.rowReset b w) := by
  unfold Blk.rowReset
  try dsimp only
  apply denyOps_follows
  apply lvDrop_follows
  apply forget_follows
  apply rowShow_follows
  apply setWale_follows
  assumption

theorem sumReset_follows {a0 : Blk} (b : Blk) (w : Nat) (h_b : a0.Follows b) : Blk.Follows a0 (@Blk.sumReset b w) := by
  unfold Blk.sumReset
  try dsimp only
  apply denyOps_follows
  apply setWale_follows
  assumption

theorem wxltReset_follows {a0 : Blk} (b : Blk) (w : Nat) (h_b : a0.Follows b) : Blk.Follows a0 (@Blk.wxltReset b w) := by
  unfold Blk.wxltReset
  try dsimp only
  apply denyOps_follows
  apply follows_mk
  apply setXl_follows
  apply follows_each
  · apply setWale_follows
    with_reducible assumption
  · intros
    split
    · apply lvDrop_follows
      apply forget_follows
      apply setStream_follows
      with_reducible assumption
    · with_reducible assumption

theorem schedReset_follows {a0 : Blk} (b : Blk) (w : Nat) (h_b : a0.Follows b) : Blk.Follows a0 (@Blk.schedReset b w) := by
  unfold Blk.schedReset
  try dsimp only
  apply wr_follows
  apply wr_follows
  apply wr_follows
  apply wr_follows
  apply wr_follows
  apply wr_follows
  apply setWale_follows
  apply follows_each
  · with_reducible assumption
  · intros
    apply setThread_follows
    with_reducible assumption

theorem waleDrop_follows {a0 : Blk} (b : Blk) (w : Nat) (keep : optParam Bool false) (h_b : a0.Follows b) : Blk.Follows a0 (@Blk.waleDrop b w keep) := by
  unfold Blk.waleDrop
  try dsimp only
  apply schedReset_follows
  apply follows_each
  · apply wxltReset_follows
    apply sumReset_follows
    apply rowReset_follows
    apply deadOps_follows
    with_reducible assumption
  · intros
    apply stakeReset_follows
    with_reducible assumption

theorem waleZero_follows {a0 : Blk} (b : Blk) (w : Nat) (h_b : a0.Follows b) : Blk.Follows a0 (@Blk.waleZero b w) := by
  unfold Blk.waleZero
  try dsimp only
  apply follows_each
  · apply zeroRange_follows
    assumption
  · intros
    apply zeroRange_follows
    assumption

theorem rakEnd_follows {a0 : Blk} (b : Blk) (h_b : a0.Follows b) : Blk.Follows a0 (@Blk.rakEnd b) := by
  unfold Blk.rakEnd
  try dsimp only
  split
  · apply event_follows
    apply wr_follows
    apply wr_follows
    apply follows_mk
    assumption
  · apply wr_follows
    apply wr_follows
    apply follows_mk
    assumption

theorem lidVoid_follows {a0 : Blk} (b : Blk) (h_b : a0.Follows b) : Blk.Follows a0 (@Blk.lidVoid b) := by
  unfold Blk.lidVoid
  try dsimp only
  apply follows_mk
  apply wr_follows
  apply wr_follows
  assumption

theorem quiesce_follows {a0 : Blk} (b : Blk) (p : Page) (i : Nat) (h_b : a0.Follows b) : Blk.Follows a0 (@Blk.quiesce b p i) := by
  unfold Blk.quiesce
  try dsimp only
  split
  · apply setSt_follows
    apply wr_follows
    assumption
  · apply wr_follows
    assumption

theorem farClose_follows {a0 : Blk} (b : Blk) (h_b : a0.Follows b) : Blk.Follows a0 (@Blk.farClose b) := by
  unfold Blk.farClose
  try dsimp only
  apply sessionsEnd_follows
  apply follows_each
  · assumption
  · intros
    apply wr_follows
    assumption

theorem toSafe_follows {a0 : Blk} (b : Blk) (h_b : a0.Follows b) : Blk.Follows a0 (@Blk.toSafe b) := by
  unfold Blk.toSafe
  try dsimp only
  split
  · with_reducible assumption
  · apply stateEvents_follows
    apply follows_each
    · apply farClose_follows
      apply wr_follows
      apply follows_mk
      apply wr_follows
      apply wr_follows
      apply lidVoid_follows
      apply rakEnd_follows
      with_reducible assumption
    · intros
      apply quiesce_follows
      with_reducible assumption

theorem mapWrite_follows {a0 : Blk} (b : Blk) (valid : Bool) (tested : Nat) (h_b : a0.Follows b) : Blk.Follows a0 (@Blk.mapWrite b valid tested) := by
  have key : ∀ (f : Flash) (c : Bool) (m : RepairMap), (f.withMap c m).epoch = f.epoch ∧ (f.withMap c m).boots = f.boots
      ∧ (f.withMap c m).rollback = f.rollback := by
    intro f c m; cases c <;> exact ⟨rfl, rfl, rfl⟩
  unfold Blk.mapWrite
  exact follows_flash h_b rfl rfl (key _ _ _).1.ge (key _ _ _).2.1.ge (key _ _ _).2.2

theorem bringUp_follows {a0 : Blk} (b : Blk) (isolate : Bool) (p : Page) (i : Nat) (h_b : a0.Follows b) : Blk.Follows a0 (@Blk.bringUp b isolate p i) := by
  unfold Blk.bringUp
  try dsimp only
  apply setSt_follows
  split
  · apply wr_follows
    apply wr_follows
    apply wr_follows
    apply wr_follows
    with_reducible assumption
  · apply wr_follows
    apply wr_follows
    apply wr_follows
    with_reducible assumption

theorem spareIn_follows {a0 : Blk} (b : Blk) (k : Nat) (h_b : a0.Follows b) : Blk.Follows a0 (@Blk.spareIn b k) := by
  unfold Blk.spareIn
  try dsimp only
  split
  · apply follows_each
    · apply follows_mk
      apply wr_follows
      assumption
    · intros
      apply bringUp_follows
      assumption
  · apply wr_follows
    assumption

theorem retireWale_follows {a0 : Blk} (b : Blk) (w : Nat) (h_b : a0.Follows b) : Blk.Follows a0 (@Blk.retireWale b w) := by
  unfold Blk.retireWale
  try dsimp only
  split
  · assumption
  · split
    · split
      · apply toSafe_follows
        apply mapWrite_follows
        apply event_follows
        apply event_follows
        apply setSt_follows
        apply wr_follows
        apply waleDrop_follows
        assumption
      · apply mapWrite_follows
        apply event_follows
        apply event_follows
        apply setSt_follows
        apply wr_follows
        apply waleDrop_follows
        assumption
    · split
      · apply toSafe_follows
        apply mapWrite_follows
        apply spareIn_follows
        apply event_follows
        apply event_follows
        apply setSt_follows
        apply wr_follows
        apply waleDrop_follows
        assumption
      · apply mapWrite_follows
        apply spareIn_follows
        apply event_follows
        apply event_follows
        apply setSt_follows
        apply wr_follows
        apply waleDrop_follows
        assumption

theorem testDrop_follows {a0 : Blk} (b : Blk) (p : Page) (i : Nat) (h_b : a0.Follows b) : Blk.Follows a0 (@Blk.testDrop b p i) := by
  unfold Blk.testDrop
  try dsimp only
  split
  · apply wr_follows
    apply follows_mk
    with_reducible assumption
  · apply follows_mk
    with_reducible assumption

theorem failBlock_follows {a0 : Blk} (b : Blk) (p : Page) (i : Nat) (h_b : a0.Follows b) : Blk.Follows a0 (@Blk.failBlock b p i) := by
  unfold Blk.failBlock
  try dsimp only
  split
  · apply retireWale_follows
    apply setSt_follows
    assumption
  · apply retireWale_follows
    apply setSt_follows
    assumption
  · apply retireWale_follows
    apply setSt_follows
    assumption
  · apply retireWale_follows
    apply setSt_follows
    assumption
  · apply retireWale_follows
    apply setSt_follows
    assumption
  · apply retireWale_follows
    apply setSt_follows
    assumption
  · apply linkDown_follows
    apply setSt_follows
    assumption
  · apply wr_follows
    apply wr_follows
    apply setSt_follows
    assumption
  · apply toSafe_follows
    apply follows_mk
    apply setSt_follows
    assumption
  · apply toSafe_follows
    apply setSt_follows
    assumption
  · apply toSafe_follows
    apply setSt_follows
    assumption
  · apply toSafe_follows
    apply setSt_follows
    assumption
  · apply toSafe_follows
    apply setSt_follows
    assumption
  · apply toSafe_follows
    apply setSt_follows
    assumption
  · apply toSafe_follows
    apply setSt_follows
    assumption
  · apply toSafe_follows
    apply setSt_follows
    assumption
  · apply toSafe_follows
    apply setSt_follows
    assumption
  · apply setSt_follows
    assumption

theorem initShow_follows {a0 : Blk} (b : Blk) (p : Page) (i : Nat) (h_b : a0.Follows b) : Blk.Follows a0 (@Blk.initShow b p i) := by
  unfold Blk.initShow
  try dsimp only
  split
  · apply wr_follows
    apply wr_follows
    with_reducible assumption
  · apply wr_follows
    apply wr_follows
    with_reducible assumption
  · apply wr_follows
    apply wr_follows
    apply wr_follows
    with_reducible assumption
  · apply wr_follows
    with_reducible assumption
  · split
    · apply fxpStart_follows
      with_reducible assumption
    · with_reducible assumption
  · apply wr_follows
    apply waleZero_follows
    with_reducible assumption
  · apply wr_follows
    with_reducible assumption
  · with_reducible assumption

theorem resume_follows {a0 : Blk} (b : Blk) (p : Page) (i : Nat) (h_b : a0.Follows b) : Blk.Follows a0 (@Blk.resume b p i) := by
  unfold Blk.resume
  try dsimp only
  split
  · split
    · apply trainStart_follows
      with_reducible assumption
    · with_reducible assumption
  · apply openDrain_follows
    with_reducible assumption
  · apply bulkRelease_follows
    with_reducible assumption
  · with_reducible assumption

theorem leaveReset_follows {a0 : Blk} (b : Blk) (p : Page) (i : Nat) (h_b : a0.Follows b) : Blk.Follows a0 (@Blk.leaveReset b p i) := by
  unfold Blk.leaveReset
  try dsimp only
  split
  · with_reducible assumption
  · split
    · apply setSt_follows
      apply initShow_follows
      with_reducible assumption
    · split
      · apply setSt_follows
        apply wr_follows
        apply initShow_follows
        with_reducible assumption
      · split
        · apply setSt_follows
          apply initShow_follows
          with_reducible assumption
        · apply resume_follows
          apply setSt_follows
          apply initShow_follows
          with_reducible assumption

theorem initDone_follows {a0 : Blk} (b : Blk) (p : Page) (i : Nat) (h_b : a0.Follows b) : Blk.Follows a0 (@Blk.initDone b p i) := by
  unfold Blk.initDone
  try dsimp only
  split
  · assumption
  · split
    · split
      · apply event_follows
        apply follows_mk
        apply follows_each
        · assumption
        · intros
          apply leaveReset_follows
          assumption
      · apply follows_each
        · assumption
        · intros
          apply leaveReset_follows
          assumption
    · apply leaveReset_follows
      assumption

theorem isolated_follows {a0 : Blk} (b : Blk) (p : Page) (i : Nat) (forced : Bool) (h_b : a0.Follows b) : Blk.Follows a0 (@Blk.isolated b p i forced) := by
  unfold Blk.isolated
  try dsimp only
  apply setSt_follows
  apply wr_follows
  split
  · apply waleDrop_follows
    assumption
  · assumption

theorem drainedTo_follows {a0 : Blk} (b : Blk) (p : Page) (i : Nat) (h_b : a0.Follows b) : Blk.Follows a0 (@Blk.drainedTo b p i) := by
  unfold Blk.drainedTo
  try dsimp only
  split
  · assumption
  · split
    · apply isolated_follows
      assumption
    · split
      · apply setSt_follows
        assumption
      · split
        · apply setSt_follows
          assumption
        · apply setSt_follows
          assumption

theorem ctrlStep_follows {a0 : Blk} (b : Blk) (p : Page) (i : Nat) (h_b : a0.Follows b) : Blk.Follows a0 (@Blk.ctrlStep b p i) := by
  unfold Blk.ctrlStep
  try dsimp only
  split
  · split
    · apply setSt_follows
      assumption
    · assumption
  · split
    · apply setSt_follows
      assumption
    · split
      · apply resume_follows
        apply setSt_follows
        assumption
      · assumption
  · split
    · apply setSt_follows
      assumption
    · assumption
  · split
    · apply resume_follows
      apply setSt_follows
      assumption
    · assumption
  · split
    · assumption
    · split
      · apply follows_each
        · assumption
        · intros
          split
          · assumption
          · apply setSt_follows
            assumption
      · apply setSt_follows
        assumption
  · assumption

end Sys2Proof.Laws
end

