-- ==== Sys2Proof/Laws/FollowsResets.lean ====
section
/-! SUPPORT. Each operation of Machine/Resets.lean stays in `Blk.Follows`: it keeps the memory canonical, lowers no flash counter and takes back nothing sent. -/

namespace Sys2Proof.Laws

open Sys2Proof.Machine

theorem bootShow_follows {a0 : Blk} (b : Blk) (h_b : a0.Follows b) : Blk.Follows a0 (@Blk.bootShow b) := by
  unfold Blk.bootShow
  try dsimp only
  apply stateEvents_follows
  apply wr_follows
  apply wr_follows
  with_reducible assumption

theorem nredDrop_follows {a0 : Blk} (b : Blk) (p : Nat) (h_b : a0.Follows b) : Blk.Follows a0 (@Blk.nredDrop b p) := by
  unfold Blk.nredDrop
  try dsimp only
  apply setBorder_follows
  assumption

theorem denyRings_follows {a0 : Blk} (b : Blk) (p : Page) (i : Nat) (h_b : a0.Follows b) : Blk.Follows a0 (@Blk.denyRings b p i) := by
  unfold Blk.denyRings
  try dsimp only
  split
  · split
    · apply bankRefuse_follows
      with_reducible assumption
    · with_reducible assumption
  · apply jobDeny_follows
    with_reducible assumption
  · with_reducible assumption

theorem dropBlock_follows {a0 : Blk} (b : Blk) (p : Page) (i : Nat) (h_b : a0.Follows b) : Blk.Follows a0 (@Blk.dropBlock b p i) := by
  unfold Blk.dropBlock
  try dsimp only
  split
  · apply waleDrop_follows
    with_reducible assumption
  · apply stakeReset_follows
    with_reducible assumption
  · apply schedReset_follows
    with_reducible assumption
  · apply rowReset_follows
    with_reducible assumption
  · apply sumReset_follows
    with_reducible assumption
  · apply wxltReset_follows
    with_reducible assumption
  · apply follows_mk
    apply xlDrop_follows
    with_reducible assumption
  · apply setBank_follows
    apply lvDrop_follows
    with_reducible assumption
  · apply follows_mk
    with_reducible assumption
  · apply follows_mk
    with_reducible assumption
  · apply follows_mk
    with_reducible assumption
  · apply follows_each
    · with_reducible assumption
    · intros
      apply lvDrop_follows
      apply forget_follows
      apply dmaDone_follows
      with_reducible assumption
  · apply setNport_follows
    apply linkDown_follows
    with_reducible assumption
  · split
    · apply endSession_follows
      with_reducible assumption
    · apply trainStart_follows
      apply endSession_follows
      with_reducible assumption
  · apply nredDrop_follows
    with_reducible assumption
  · apply setBorder_follows
    apply lvDrop_follows
    apply lvDrop_follows
    with_reducible assumption
  · apply fcodReset_follows
    with_reducible assumption
  · apply sessionsEnd_follows
    apply wr_follows
    with_reducible assumption
  · apply follows_each
    · apply sessionsEnd_follows
      with_reducible assumption
    · intros
      apply wr_follows
      with_reducible assumption
  · apply rakEnd_follows
    apply follows_each
    · with_reducible assumption
    · intros
      split
      · apply rakSend_follows
        with_reducible assumption
      · with_reducible assumption
  · apply follows_mk
    with_reducible assumption
  · apply follows_mk
    with_reducible assumption
  · apply follows_mk
    with_reducible assumption
  · with_reducible assumption

theorem afterReset_follows {a0 : Blk} (b : Blk) (p : Page) (i : Nat) (h_b : a0.Follows b) : Blk.Follows a0 (@Blk.afterReset b p i) := by
  unfold Blk.afterReset
  try dsimp only
  split
  · apply wr_follows
    with_reducible assumption
  · apply pwcShow_follows
    apply pwcReset_follows
    with_reducible assumption
  · apply syncEnable_follows
    with_reducible assumption
  · apply bootShow_follows
    with_reducible assumption
  · apply toSafe_follows
    apply lidVoid_follows
    with_reducible assumption
  · apply setEvtQueue_follows
    apply setHoopD_follows
    with_reducible assumption
  · apply wakeBanks_follows
    with_reducible assumption
  · apply wakeBanks_follows
    with_reducible assumption
  · apply showStores_follows
    with_reducible assumption
  · apply showSessions_follows
    with_reducible assumption
  · with_reducible assumption

theorem resetPage_follows {a0 : Blk} (b : Blk) (p : Page) (i : Nat) (h_b : a0.Follows b) : Blk.Follows a0 (@Blk.resetPage b p i) := by
  unfold Blk.resetPage
  have h := dropRegs_follows (b.dropBlock p i) p i (fun off lo => blockKeep p off lo || lidKeep p off lo) (dropBlock_follows b p i h_b)
  generalize (b.dropBlock p i).dropRegs p i (fun off lo => blockKeep p off lo || lidKeep p off lo) = b1 at h
  apply setSt_follows
  apply afterReset_follows
  exact follows_io h rfl rfl rfl (Nat.le_refl _) (Nat.le_refl _)

theorem blockReset_follows {a0 : Blk} (b : Blk) (p : Page) (i : Nat) (h_b : a0.Follows b) : Blk.Follows a0 (@Blk.blockReset b p i) := by
  unfold Blk.blockReset
  try dsimp only
  split
  · apply follows_each
    · apply waleDrop_follows
      apply testDrop_follows
      with_reducible assumption
    · intros
      apply resetPage_follows
      with_reducible assumption
  · apply resetPage_follows
    apply testDrop_follows
    with_reducible assumption

theorem warmState_follows {a0 : Blk} (b : Blk) (iso : List Nat) (h_b : a0.Follows b) : Blk.Follows a0 (@Blk.warmState b iso) := by
  exact follows_trans h_b ⟨warm_wf, Nat.le_refl _, Nat.le_refl _, fun _ => Nat.le_refl _, List.prefix_refl _, Nat.le_refl _, Nat.le_refl _⟩

theorem warmReset_follows {a0 : Blk} (b : Blk) (cause : Nat) (h_b : a0.Follows b) : Blk.Follows a0 (@Blk.warmReset b cause) := by
  unfold Blk.warmReset
  try dsimp only
  split
  · assumption
  · split
    · apply event_follows
      apply bootShow_follows
      apply wr_follows
      split
      · apply wr_follows
        apply wr_follows
        apply wr_follows
        apply inc_follows
        apply follows_each
        · apply warmState_follows
          assumption
        · intros
          split
          · apply wr_follows
            assumption
          · apply wr_follows
            assumption
      · apply wr_follows
        apply wr_follows
        apply inc_follows
        apply follows_each
        · apply warmState_follows
          assumption
        · intros
          split
          · apply wr_follows
            assumption
          · apply wr_follows
            assumption
    · apply bootShow_follows
      apply wr_follows
      split
      · apply wr_follows
        apply wr_follows
        apply wr_follows
        apply inc_follows
        apply follows_each
        · apply warmState_follows
          assumption
        · intros
          split
          · apply wr_follows
            assumption
          · apply wr_follows
            assumption
      · apply wr_follows
        apply wr_follows
        apply inc_follows
        apply follows_each
        · apply warmState_follows
          assumption
        · intros
          split
          · apply wr_follows
            assumption
          · apply wr_follows
            assumption

theorem coldState_follows {a0 : Blk} (b : Blk) (h_b : a0.Follows b) : Blk.Follows a0 (@Blk.coldState b) := by
  exact follows_trans h_b ⟨fun _ => rfl, Nat.le_refl _, Nat.le_refl _, fun _ => Nat.le_refl _, List.prefix_refl _, Nat.le_refl _, Nat.le_refl _⟩

theorem coldReset_follows {a0 : Blk} (b : Blk) (cause : Nat) (h_b : a0.Follows b) : Blk.Follows a0 (@Blk.coldReset b cause) := by
  unfold Blk.coldReset
  try dsimp only
  apply leakShow_follows
  apply wr_follows
  apply coldState_follows
  with_reducible assumption

theorem note_follows {a0 : Blk} (b : Blk) (p : Page) (info : Nat) (h_b : a0.Follows b) : Blk.Follows a0 (@Blk.note b p info) := by
  unfold Blk.note
  try dsimp only
  apply logDrain_follows
  apply logBuffer_follows
  assumption

theorem zeroMark_follows {a0 : Blk} (b : Blk) (target : Nat) (requester : Nat) (media : Bool) (h_b : a0.Follows b) : Blk.Follows a0 (@Blk.zeroMark b target requester media) := by
  exact follows_flash h_b rfl rfl (Nat.le_refl _) (Nat.le_refl _) rfl

theorem zeroStart_follows {a0 : Blk} (b : Blk) (target : Nat) (requester : Nat) (h_b : a0.Follows b) : Blk.Follows a0 (@Blk.zeroStart b target requester) := by
  unfold Blk.zeroStart
  try dsimp only
  split
  · apply note_follows
    apply follows_send
    apply follows_mk
    with_reducible assumption
  · apply follows_each
    · apply wr_follows
      apply wr_follows
      apply zeroMark_follows
      with_reducible assumption
    · intros
      apply quiesce_follows
      with_reducible assumption

theorem zeroWipe_follows {a0 : Blk} (b : Blk) (media : Bool) (iso : List Nat) (h_b : a0.Follows b) : Blk.Follows a0 (@Blk.zeroWipe b media iso) := by
  exact follows_trans h_b ⟨zeroised_wf media, Nat.le_refl _, Nat.le_refl _, fun _ => Nat.le_refl _, List.prefix_refl _, Nat.le_refl _, Nat.le_refl _⟩

theorem zeroErase_follows {a0 : Blk} (b : Blk) (media : Bool) (h_b : a0.Follows b) : Blk.Follows a0 (@Blk.zeroErase b media) := by
  unfold Blk.zeroErase
  try dsimp only
  apply follows_each
  · apply follows_each
    · apply follows_each
      · apply syncEnable_follows
        split
        · apply wr_follows
          apply zeroWipe_follows
          apply wr_follows
          apply farClose_follows
          apply follows_each
          · apply rakEnd_follows
            with_reducible assumption
          · intros
            apply linkDown_follows
            with_reducible assumption
        · apply zeroWipe_follows
          apply wr_follows
          apply farClose_follows
          apply follows_each
          · apply rakEnd_follows
            with_reducible assumption
          · intros
            apply linkDown_follows
            with_reducible assumption
      · intros
        apply wr_follows
        with_reducible assumption
    · intros
      apply follows_foldl
      · intros
        apply wr_follows
        with_reducible assumption
      · apply wr_follows
        with_reducible assumption
  · intros
    apply setSt_follows
    with_reducible assumption

theorem zeroQuiesced_follows {a0 : Blk} (b : Blk) (h_b : a0.Follows b) : Blk.Follows a0 (@Blk.zeroQuiesced b) := by
  unfold Blk.zeroQuiesced
  try dsimp only
  split
  · assumption
  · apply follows_when
    · assumption
    · intros
      apply wr_follows
      apply zeroErase_follows
      assumption

theorem zeroRecord_follows {a0 : Blk} (b : Blk) (z : Zeroing) (h_b : a0.Follows b) : Blk.Follows a0 (@Blk.zeroRecord b z) := by
  exact follows_flash h_b rfl rfl (Nat.le_succ _) (Nat.le_refl _) rfl

theorem zeroDone_follows {a0 : Blk} (b : Blk) (h_b : a0.Follows b) : Blk.Follows a0 (@Blk.zeroDone b) := by
  unfold Blk.zeroDone
  try dsimp only
  split
  · with_reducible assumption
  · apply follows_when
    · with_reducible assumption
    · intros
      apply bootShow_follows
      apply lidVoid_follows
      apply wr_follows
      apply wr_follows
      apply wr_follows
      apply zeroRecord_follows
      with_reducible assumption

end Sys2Proof.Laws
end

