-- ==== Sys2Proof/Laws/FollowsLid.lean ====
section
/-! SUPPORT. Each operation of Machine/Lid.lean stays in `Blk.Follows`: it keeps the memory canonical, lowers no flash counter and takes back nothing sent. -/

namespace Sys2Proof.Laws

open Sys2Proof.Machine

theorem attest_follows {a0 : Blk} (b : Blk) (m : RakMsg) (h_b : a0.Follows b) : Blk.Follows a0 (@Blk.attest b m) := by
  unfold Blk.attest
  try dsimp only
  split
  · apply rakLink_follows
    apply rakSend_follows
    assumption
  · apply rakSend_follows
    assumption

theorem mgmtAnswer_follows {a0 : Blk} (b : Blk) (code : Nat) (data : List Nat) (h_b : a0.Follows b) : Blk.Follows a0 (@Blk.mgmtAnswer b code data) := by
  unfold Blk.mgmtAnswer
  try dsimp only
  apply follows_send
  split
  · apply inc_follows
    assumption
  · apply inc_follows
    apply inc_follows
    assumption

theorem deriveKeys_follows {a0 : Blk} (b : Blk) (h_b : a0.Follows b) : Blk.Follows a0 (@Blk.deriveKeys b) := by
  unfold Blk.deriveKeys
  try dsimp only
  apply follows_mk
  with_reducible assumption

theorem tokenRefused_follows {a0 : Blk} (b : Blk) (h_b : a0.Follows b) : Blk.Follows a0 (@Blk.tokenRefused b) := by
  unfold Blk.tokenRefused
  try dsimp only
  apply attest_follows
  apply authFail_follows
  assumption

theorem nonceUsed_follows {a0 : Blk} (b : Blk) (h_b : a0.Follows b) : Blk.Follows a0 (@Blk.nonceUsed b) := by
  unfold Blk.nonceUsed
  try dsimp only
  apply follows_mk
  assumption

theorem claimRecord_follows {a0 : Blk} (b : Blk) (keyHash : Nat) (h_b : a0.Follows b) : Blk.Follows a0 (@Blk.claimRecord b keyHash) := by
  exact follows_flash h_b rfl rfl (Nat.le_succ _) (Nat.le_refl _) rfl

theorem forceClear_follows {a0 : Blk} (b : Blk) (h_b : a0.Follows b) : Blk.Follows a0 (@Blk.forceClear b) := by
  unfold Blk.forceClear
  try dsimp only
  split
  · apply zeroStart_follows
    assumption
  · apply authFail_follows
    assumption

theorem svcMeet_follows {a0 : Blk} (b : Blk) (h_b : a0.Follows b) : Blk.Follows a0 (@Blk.svcMeet b) := by
  unfold Blk.svcMeet
  try dsimp only
  split
  · split
    · split
      · apply zeroStart_follows
        apply lidVoid_follows
        assumption
      · apply follows_mk
        assumption
    · assumption
  · assumption

theorem claimArm_follows {a0 : Blk} (b : Blk) (h_b : a0.Follows b) : Blk.Follows a0 (@Blk.claimArm b) := by
  unfold Blk.claimArm
  try dsimp only
  apply wr_follows
  apply wr_follows
  assumption

theorem tryImage_follows {a0 : Blk} (b : Blk) (k : Nat) (n : Nat) (h_b : a0.Follows b) : Blk.Follows a0 (@Blk.tryImage b k n) := by
  unfold Blk.tryImage
  try dsimp only
  apply follows_mk
  assumption

theorem commitImage_follows {a0 : Blk} (b : Blk) (k : Nat) (h_b : a0.Follows b) : Blk.Follows a0 (@Blk.commitImage b k) := by
  unfold Blk.commitImage
  split
  · exact h_b
  · exact follows_trans h_b ⟨id, Nat.le_refl _, Nat.le_refl _, fun j => modify_max_le _ _ _ j, List.prefix_refl _, Nat.le_refl _, Nat.le_refl _⟩

theorem migrateEnd_follows {a0 : Blk} (b : Blk) (h_b : a0.Follows b) : Blk.Follows a0 (@Blk.migrateEnd b) := by
  unfold Blk.migrateEnd
  try dsimp only
  apply wr_follows
  apply follows_mk
  apply follows_each
  · apply follows_foldl
    · intros
      apply orBits_follows
      assumption
    · split
      · split
        · apply wr_follows
          apply follows_each
          · assumption
          · intros
            apply wr_follows
            assumption
        · apply follows_each
          · assumption
          · intros
            apply wr_follows
            assumption
      · apply follows_each
        · assumption
        · intros
          apply wr_follows
          assumption
  · intros
    apply event_follows
    assumption

theorem telWindow_follows {a0 : Blk} (b : Blk) (w : WindowSample) (h_b : a0.Follows b) : Blk.Follows a0 (@Blk.telWindow b w) := by
  unfold Blk.telWindow
  try dsimp only
  apply follows_each
  · apply follows_each
    · apply wr_follows
      apply wr_follows
      apply wr_follows
      apply add64_follows
      apply wr_follows
      apply addW_follows
      assumption
    · intros
      apply wr_follows
      assumption
  · intros
    apply wr_follows
    assumption

end Sys2Proof.Laws
end

