-- ==== Sys2Proof/Laws/FollowsBoot.lean ====
section
/-! SUPPORT. Each operation of Machine/Boot.lean stays in `Blk.Follows`: it keeps the memory canonical, lowers no flash counter and takes back nothing sent. -/

namespace Sys2Proof.Laws

open Sys2Proof.Machine

theorem loadRoles_follows {a0 : Blk} (b : Blk) (h_b : a0.Follows b) : Blk.Follows a0 (@Blk.loadRoles b) := by
  unfold Blk.loadRoles
  try dsimp only
  split
  · assumption
  · apply follows_each
    · assumption
    · intros
      apply wr_follows
      assumption

theorem bootCount_follows {a0 : Blk} (b : Blk) (h_b : a0.Follows b) : Blk.Follows a0 (@Blk.bootCount b) := by
  exact follows_flash h_b rfl rfl (Nat.le_refl _) (Nat.le_succ _) rfl

/-- Absent records take no counter with them. -/
theorem without_counters (f : Flash) (l : List FlashRec) :
    (l.foldl Flash.without f).epoch = f.epoch ∧ (l.foldl Flash.without f).boots = f.boots ∧ (l.foldl Flash.without f).rollback = f.rollback := by
  induction l generalizing f with
  | nil => exact ⟨rfl, rfl, rfl⟩
  | cons r l ih =>
    obtain ⟨h1, h2, h3⟩ := ih (f.without r)
    exact ⟨h1.trans (by cases r <;> rfl), h2.trans (by cases r <;> rfl), h3.trans (by cases r <;> rfl)⟩

theorem dropBad_follows {a0 : Blk} (b : Blk) (h_b : a0.Follows b) : Blk.Follows a0 (@Blk.dropBad b) := by
  obtain ⟨h1, h2, h3⟩ := without_counters b.flash b.flash.badTags
  exact follows_flash h_b rfl rfl (Nat.le_of_eq h1.symm) (Nat.le_of_eq h2.symm) h3

theorem stage2_follows {a0 : Blk} (b : Blk) (h_b : a0.Follows b) : Blk.Follows a0 (@Blk.stage2 b) := by
  unfold Blk.stage2
  try dsimp only
  split
  · apply wr_follows
    apply follows_mk
    apply loadRoles_follows
    apply wr_follows
    apply deriveKeys_follows
    apply bootCount_follows
    apply dropBad_follows
    with_reducible assumption
  · split
    · apply zeroStart_follows
      apply loadRoles_follows
      apply wr_follows
      apply deriveKeys_follows
      apply bootCount_follows
      apply dropBad_follows
      with_reducible assumption
    · apply loadRoles_follows
      apply wr_follows
      apply deriveKeys_follows
      apply bootCount_follows
      apply dropBad_follows
      with_reducible assumption

theorem baseUp_follows {a0 : Blk} (b : Blk) (p : Page) (i : Nat) (h_b : a0.Follows b) : Blk.Follows a0 (@Blk.baseUp b p i) := by
  unfold Blk.baseUp
  try dsimp only
  split
  · apply leaveReset_follows
    apply bringUp_follows
    assumption
  · assumption

theorem portFailed_follows {a0 : Blk} (b : Blk) (far : Bool) (k : Nat) (h_b : a0.Follows b) : Blk.Follows a0 (@Blk.portFailed b far k) := by
  unfold Blk.portFailed
  try dsimp only
  apply follows_foldl
  · intros
    apply setSt_follows
    assumption
  · assumption

theorem stepSet_follows {a0 : Blk} (b : Blk) (x : BootStep) (st : Nat) (h_b : a0.Follows b) : Blk.Follows a0 (@Blk.stepSet b x st) := by
  unfold Blk.stepSet
  try dsimp only
  apply follows_mk
  assumption

theorem startStep_follows {a0 : Blk} (b : Blk) (x : BootStep) (h_b : a0.Follows b) : Blk.Follows a0 (@Blk.startStep b x) := by
  unfold Blk.startStep
  try dsimp only
  split
  · apply trainStart_follows
    apply follows_each
    · apply stepSet_follows
      assumption
    · intros
      apply bringUp_follows
      assumption
  · apply follows_each
    · apply stepSet_follows
      assumption
    · intros
      apply bringUp_follows
      assumption

theorem testStart_follows {a0 : Blk} (b : Blk) (kind : Nat) (inst : Nat) (h_b : a0.Follows b) : Blk.Follows a0 (@Blk.testStart b kind inst) := by
  unfold Blk.testStart
  try dsimp only
  split
  · apply setSt_follows
    apply follows_mk
    assumption
  · apply follows_mk
    assumption

theorem dramLost_follows {a0 : Blk} (b : Blk) (h_b : a0.Follows b) : Blk.Follows a0 (@Blk.dramLost b) := by
  exact follows_trans h_b ⟨fun h => dramLost_wf h, Nat.le_refl _, Nat.le_refl _, fun _ => Nat.le_refl _, List.prefix_refl _, Nat.le_refl _, Nat.le_refl _⟩

theorem shutIsolate_follows {a0 : Blk} (b : Blk) (p : Page) (i : Nat) (h_b : a0.Follows b) : Blk.Follows a0 (@Blk.shutIsolate b p i) := by
  unfold Blk.shutIsolate
  try dsimp only
  split
  · apply isolated_follows
    apply setSt_follows
    apply wr_follows
    apply wr_follows
    with_reducible assumption
  · split
    · apply isolated_follows
      apply setSt_follows
      apply wr_follows
      apply wr_follows
      with_reducible assumption
    · apply wr_follows
      apply wr_follows
      with_reducible assumption

theorem shutTry_follows {a0 : Blk} (b : Blk) (x : ShutBlk) (h_b : a0.Follows b) : Blk.Follows a0 (@Blk.shutTry b x) := by
  unfold Blk.shutTry
  try dsimp only
  split
  · apply testStart_follows
    split
    · apply shutIsolate_follows
      apply follows_mk
      split
      · apply dramLost_follows
        with_reducible assumption
      · with_reducible assumption
    · apply follows_mk
      split
      · apply dramLost_follows
        with_reducible assumption
      · with_reducible assumption
  · with_reducible assumption

theorem shutOff_follows {a0 : Blk} (b : Blk) (p : Page) (i : Nat) (h_b : a0.Follows b) : Blk.Follows a0 (@Blk.shutOff b p i) := by
  unfold Blk.shutOff
  try dsimp only
  apply setSt_follows
  split
  · apply setSt_follows
    apply wr_follows
    apply wr_follows
    with_reducible assumption
  · split
    · apply wr_follows
      apply wr_follows
      with_reducible assumption
    · apply setSt_follows
      apply wr_follows
      apply wr_follows
      with_reducible assumption

theorem shutEnd_follows {a0 : Blk} (b : Blk) (h_b : a0.Follows b) : Blk.Follows a0 (@Blk.shutEnd b) := by
  unfold Blk.shutEnd
  try dsimp only
  apply stateEvents_follows
  apply event_follows
  apply wr_follows
  apply wr_follows
  apply follows_mk
  apply follows_each
  · apply mapWrite_follows
    with_reducible assumption
  · intros
    apply shutOff_follows
    with_reducible assumption

theorem stepTry_follows {a0 : Blk} (b : Blk) (x : BootStep) (h_b : a0.Follows b) : Blk.Follows a0 (@Blk.stepTry b x) := by
  unfold Blk.stepTry
  try dsimp only
  split
  · apply startStep_follows
    assumption
  · assumption

theorem bootDecide_follows {a0 : Blk} (b : Blk) (h_b : a0.Follows b) : Blk.Follows a0 (@Blk.bootDecide b) := by
  unfold Blk.bootDecide
  try dsimp only
  split
  · with_reducible assumption
  · split
    · split
      · apply shutEnd_follows
        apply follows_each
        · apply follows_mk
          apply follows_each
          · with_reducible assumption
          · intros
            apply shutTry_follows
            with_reducible assumption
        · intros
          split
          · split
            · apply wr_follows
              apply testStart_follows
              with_reducible assumption
            · with_reducible assumption
          · with_reducible assumption
      · apply bootShow_follows
        apply follows_each
        · apply follows_mk
          apply follows_each
          · with_reducible assumption
          · intros
            apply shutTry_follows
            with_reducible assumption
        · intros
          split
          · split
            · apply wr_follows
              apply testStart_follows
              with_reducible assumption
            · with_reducible assumption
          · with_reducible assumption
    · split
      · apply shutEnd_follows
        apply follows_each
        · apply follows_mk
          apply follows_each
          · apply follows_each
            · with_reducible assumption
            · intros
              apply stepTry_follows
              with_reducible assumption
          · intros
            apply shutTry_follows
            with_reducible assumption
        · intros
          split
          · split
            · apply wr_follows
              apply testStart_follows
              with_reducible assumption
            · with_reducible assumption
          · with_reducible assumption
      · apply bootShow_follows
        apply follows_each
        · apply follows_mk
          apply follows_each
          · apply follows_each
            · with_reducible assumption
            · intros
              apply stepTry_follows
              with_reducible assumption
          · intros
            apply shutTry_follows
            with_reducible assumption
        · intros
          split
          · split
            · apply wr_follows
              apply testStart_follows
              with_reducible assumption
            · with_reducible assumption
          · with_reducible assumption

theorem sequence_follows {a0 : Blk} (b : Blk) (h_b : a0.Follows b) : Blk.Follows a0 (@Blk.sequence b) := by
  unfold Blk.sequence
  try dsimp only
  apply bootDecide_follows
  apply bootShow_follows
  apply follows_mk
  apply follows_each
  · apply follows_each
    · apply follows_each
      · apply follows_mk
        assumption
      · intros
        apply baseUp_follows
        assumption
    · intros
      apply portFailed_follows
      assumption
  · intros
    apply portFailed_follows
    assumption

theorem stage2End_follows {a0 : Blk} (b : Blk) (h_b : a0.Follows b) : Blk.Follows a0 (@Blk.stage2End b) := by
  unfold Blk.stage2End
  try dsimp only
  split
  · apply toSafe_follows
    apply follows_mk
    assumption
  · split
    · split
      · apply mapWrite_follows
        apply tryImage_follows
        apply follows_mk
        assumption
      · apply event_follows
        apply wr_follows
        apply tryImage_follows
        apply follows_mk
        assumption
    · split
      · apply mapWrite_follows
        apply follows_mk
        assumption
      · apply event_follows
        apply wr_follows
        apply follows_mk
        assumption

theorem stage3End_follows {a0 : Blk} (b : Blk) (h_b : a0.Follows b) : Blk.Follows a0 (@Blk.stage3End b) := by
  unfold Blk.stage3End
  try dsimp only
  split
  · apply follows_each
    · apply follows_mk
      assumption
    · intros
      apply tryImage_follows
      assumption
  · apply follows_mk
    assumption

theorem stepFailed_follows {a0 : Blk} (b : Blk) (x : BootStep) (h_b : a0.Follows b) : Blk.Follows a0 (@Blk.stepFailed b x) := by
  unfold Blk.stepFailed
  try dsimp only
  split
  · apply failBlock_follows
    assumption
  · apply failBlock_follows
    assumption
  · apply failBlock_follows
    assumption
  · apply failBlock_follows
    assumption
  · apply failBlock_follows
    assumption
  · apply retireWale_follows
    assumption
  · apply follows_mk
    split
    · apply portFailed_follows
      assumption
    · apply portFailed_follows
      assumption
  · assumption

theorem shutdown_follows {a0 : Blk} (b : Blk) (h_b : a0.Follows b) : Blk.Follows a0 (@Blk.shutdown b) := by
  unfold Blk.shutdown
  try dsimp only
  split
  · assumption
  · apply bootShow_follows
    apply follows_mk
    apply follows_each
    · assumption
    · intros
      apply quiesce_follows
      assumption

theorem shutDone_follows {a0 : Blk} (b : Blk) (kind : Nat) (inst : Nat) (ok : Bool) (h_b : a0.Follows b) : Blk.Follows a0 (@Blk.shutDone b kind inst ok) := by
  unfold Blk.shutDone
  try dsimp only
  split
  · assumption
  · split
    · apply shutEnd_follows
      apply follows_mk
      assumption
    · apply bootDecide_follows
      apply bootShow_follows
      apply follows_mk
      assumption

theorem bistShow_follows {a0 : Blk} (b : Blk) (kind : Nat) (inst : Nat) (st : Nat) (h_b : a0.Follows b) : Blk.Follows a0 (@Blk.bistShow b kind inst st) := by
  unfold Blk.bistShow
  try dsimp only
  split
  · apply wr_follows
    assumption
  · assumption

theorem bistCmd_follows {a0 : Blk} (b : Blk) (action : Nat) (kind : Nat) (inst : Nat) (h_b : a0.Follows b) : Blk.Follows a0 (@Blk.bistCmd b action kind inst) := by
  unfold Blk.bistCmd
  try dsimp only
  split
  · assumption
  · split
    · split
      · apply wr_follows
        apply wr_follows
        apply wr_follows
        apply wr_follows
        assumption
      · split
        · apply follows_mk
          apply wr_follows
          apply wr_follows
          apply wr_follows
          assumption
        · apply wr_follows
          apply testStart_follows
          apply wr_follows
          apply wr_follows
          apply wr_follows
          assumption
    · split
      · apply retireWale_follows
        apply wr_follows
        apply wr_follows
        apply wr_follows
        assumption
      · apply wr_follows
        apply wr_follows
        apply wr_follows
        apply wr_follows
        assumption

theorem testResult_follows {a0 : Blk} (b : Blk) (kind : Nat) (inst : Nat) (passed : Bool) (h_b : a0.Follows b) : Blk.Follows a0 (@Blk.testResult b kind inst passed) := by
  unfold Blk.testResult
  try dsimp only
  split
  · split
    · apply waleZero_follows
      apply event_follows
      split
      · apply inc_follows
        apply wr_follows
        split
        · with_reducible assumption
        · apply setSt_follows
          with_reducible assumption
      · apply wr_follows
        split
        · with_reducible assumption
        · apply setSt_follows
          with_reducible assumption
    · apply retireWale_follows
      apply event_follows
      split
      · apply inc_follows
        apply wr_follows
        split
        · apply toSafe_follows
          with_reducible assumption
        · with_reducible assumption
      · apply wr_follows
        split
        · apply toSafe_follows
          with_reducible assumption
        · with_reducible assumption
  · split
    · split
      · with_reducible assumption
      · apply toSafe_follows
        with_reducible assumption
    · split
      · apply setSt_follows
        with_reducible assumption
      · apply failBlock_follows
        with_reducible assumption

theorem portRetrain_follows {a0 : Blk} (b : Blk) (kind : Nat) (k : Nat) (h_b : a0.Follows b) : Blk.Follows a0 (@Blk.portRetrain b kind k) := by
  unfold Blk.portRetrain
  try dsimp only
  split
  · split
    · apply trainStart_follows
      assumption
    · assumption
  · split
    · apply event_follows
      apply wr_follows
      apply wr_follows
      assumption
    · apply wr_follows
      apply wr_follows
      assumption

theorem portCycle_follows {a0 : Blk} (b : Blk) (kind : Nat) (k : Nat) (h_b : a0.Follows b) : Blk.Follows a0 (@Blk.portCycle b kind k) := by
  unfold Blk.portCycle
  try dsimp only
  split
  · apply setSt_follows
    apply setSt_follows
    apply setSt_follows
    with_reducible assumption
  · with_reducible assumption

end Sys2Proof.Laws
end

