-- ==== Sys2Proof/Laws/FollowsRegs.lean ====
section
/-! SUPPORT. Each operation of Machine/Regs.lean stays in `Blk.Follows`: it keeps the memory canonical, lowers no flash counter and takes back nothing sent. -/

namespace Sys2Proof.Laws

open Sys2Proof.Machine

theorem noteDenied_follows {a0 : Blk} (b : Blk) (cls : Nat) (off : Nat) (h_b : a0.Follows b) : Blk.Follows a0 (@Blk.noteDenied b cls off) := by
  unfold Blk.noteDenied
  try dsimp only
  apply log_follows
  apply wr_follows
  apply wr_follows
  apply inc_follows
  assumption

theorem setLatch_follows {a0 : Blk} (b : Blk) (k : Nat) (v : Option Nat) (h_b : a0.Follows b) : Blk.Follows a0 (@Blk.setLatch b k v) := by
  exact follows_io h_b rfl rfl rfl (Nat.le_refl _) (Nat.le_refl _)

theorem setStage_follows {a0 : Blk} (b : Blk) (k : Nat) (v : Option Nat) (h_b : a0.Follows b) : Blk.Follows a0 (@Blk.setStage b k v) := by
  exact follows_io h_b rfl rfl rfl (Nat.le_refl _) (Nat.le_refl _)

theorem pageRead_follows {a0 : Blk} (b : Blk) (ini : Ini) (cls : Nat) (p : Page) (i : Nat) (off : Nat) (h_b : a0.Follows b) : Blk.Follows a0 (@Blk.pageRead b ini cls p i off).1 := by
  unfold Blk.pageRead
  try dsimp only
  split
  · dsimp only
    apply setLatch_follows
    apply wr_follows
    apply postPop_follows
    with_reducible assumption
  · split
    · dsimp only
      apply setLatch_follows
      with_reducible assumption
    · split
      · dsimp only
        apply setLatch_follows
        with_reducible assumption
      · with_reducible assumption

theorem regRead_follows {a0 : Blk} (b : Blk) (ini : Ini) (off : Nat) (h_b : a0.Follows b) : Blk.Follows a0 (@Blk.regRead b ini off).1 := by
  unfold Blk.regRead
  try dsimp only
  split
  · apply follows_fst
    assumption
  · split
    · apply follows_fst
      assumption
    · split
      · apply follows_fst
        assumption
      · split
        · apply follows_fst
          apply noteDenied_follows
          assumption
        · split
          · apply follows_fst
            assumption
          · apply follows_fst
            apply pageRead_follows
            assumption

theorem fieldWrite_follows {a0 : Blk} (b : Blk) (cls : Nat) (p : Page) (i : Nat) (f : Fld) (v : Nat) (h_b : a0.Follows b) : Blk.Follows a0 (@Blk.fieldWrite b cls p i f v) := by
  unfold Blk.fieldWrite
  try dsimp only
  split
  · split
    · apply wr_follows
      with_reducible assumption
    · with_reducible assumption
  · split
    · apply wr_follows
      with_reducible assumption
    · with_reducible assumption
  · apply clrBits_follows
    with_reducible assumption
  · split
    · with_reducible assumption
    · split
      · apply orBits_follows
        with_reducible assumption
      · apply orBits_follows
        with_reducible assumption
  · with_reducible assumption
  · with_reducible assumption

theorem wordWrite_follows {a0 : Blk} (b : Blk) (cls : Nat) (p : Page) (i : Nat) (off : Nat) (v : Nat) (h_b : a0.Follows b) : Blk.Follows a0 (@Blk.wordWrite b cls p i off v) := by
  unfold Blk.wordWrite
  try dsimp only
  split
  · assumption
  · split
    · apply event_follows
      assumption
    · split
      · apply setThread_follows
        assumption
      · apply follows_foldl
        · intros
          apply fieldWrite_follows
          assumption
        · assumption

theorem headerAfter_follows {a0 : Blk} (b : Blk) (p : Page) (i : Nat) (off : Nat) (v : Nat) (h_b : a0.Follows b) : Blk.Follows a0 (@Blk.headerAfter b p i off v) := by
  unfold Blk.headerAfter
  try dsimp only
  split
  · split
    · apply blockReset_follows
      assumption
    · apply ctrlStep_follows
      assumption
  · split
    · apply follows_foldl
      · intros
        apply wr_follows
        assumption
      · assumption
    · assumption
  · assumption

theorem lidAfter_follows {a0 : Blk} (b : Blk) (off : Nat) (v : Nat) (h_b : a0.Follows b) : Blk.Follows a0 (@Blk.lidAfter b off v) := by
  unfold Blk.lidAfter
  try dsimp only
  split
  · split
    · apply claimArm_follows
      assumption
    · assumption
  · split
    · apply forceClear_follows
      assumption
    · assumption
  · apply clrBits_follows
    assumption
  · apply logDrain_follows
    apply follows_mk
    assumption
  · split
    · apply wr_follows
      assumption
    · assumption
  · apply logDrain_follows
    assumption
  · assumption

theorem beatAfter_follows {a0 : Blk} (b0 : Blk) (b : Blk) (off : Nat) (h_b0 : a0.Follows b0) (h_b : a0.Follows b) : Blk.Follows a0 (@Blk.beatAfter b0 b off) := by
  unfold Blk.beatAfter
  try dsimp only
  split
  · apply syncEnable_follows
    assumption
  · assumption

theorem bootAfter_follows {a0 : Blk} (b : Blk) (off : Nat) (v : Nat) (h_b : a0.Follows b) : Blk.Follows a0 (@Blk.bootAfter b off v) := by
  unfold Blk.bootAfter
  try dsimp only
  split
  · split
    · apply warmReset_follows
      assumption
    · assumption
  · split
    · apply shutdown_follows
      assumption
    · assumption
  · apply bistCmd_follows
    assumption
  · assumption

theorem coreMoved_follows {a0 : Blk} (b0 : Blk) (b : Blk) (c : Nat) (h_b0 : a0.Follows b0) (h_b : a0.Follows b) : Blk.Follows a0 (@Blk.coreMoved b0 b c) := by
  unfold Blk.coreMoved
  try dsimp only
  split
  · assumption
  · apply follows_mk
    apply follows_each
    · split
      · apply clrBits_follows
        assumption
      · assumption
    · intros
      apply clrBits_follows
      assumption

theorem migrateGo_follows {a0 : Blk} (b : Blk) (h_b : a0.Follows b) : Blk.Follows a0 (@Blk.migrateGo b) := by
  unfold Blk.migrateGo
  try dsimp only
  split
  · assumption
  · apply wr_follows
    apply tryImage_follows
    apply follows_each
    · apply follows_mk
      assumption
    · intros
      apply wr_follows
      assumption

theorem claimCores_follows {a0 : Blk} (b : Blk) (g : Nat) (v : Nat) (h_b : a0.Follows b) : Blk.Follows a0 (@Blk.claimCores b g v) := by
  unfold Blk.claimCores
  try dsimp only
  apply follows_each
  · assumption
  · intros
    apply clrBits_follows
    apply wr_follows
    assumption

theorem hoopgAfter_follows {a0 : Blk} (b0 : Blk) (b : Blk) (g : Nat) (off : Nat) (v : Nat) (h_b0 : a0.Follows b0) (h_b : a0.Follows b) : Blk.Follows a0 (@Blk.hoopgAfter b0 b g off v) := by
  unfold Blk.hoopgAfter
  try dsimp only
  split
  · apply claimCores_follows
    assumption
  · apply passRefused_follows
    apply doorbellGo_follows
    assumption
  · apply cqDrain_follows
    assumption
  · split
    · apply fqDrain_follows
      apply setFqBroken_follows
      assumption
    · assumption
  · split
    · apply fqDrain_follows
      assumption
    · assumption
  · apply evtDrain_follows
    assumption
  · assumption

theorem xltAfter_follows {a0 : Blk} (b : Blk) (off : Nat) (v : Nat) (h_b : a0.Follows b) : Blk.Follows a0 (@Blk.xltAfter b off v) := by
  unfold Blk.xltAfter
  try dsimp only
  split
  · apply inval_follows
    with_reducible assumption
  · apply fqDrain_follows
    apply setFqBroken_follows
    with_reducible assumption
  · apply fqDrain_follows
    with_reducible assumption
  · apply xltFaultCmd_follows
    with_reducible assumption
  · with_reducible assumption

theorem bankAfter_follows {a0 : Blk} (b0 : Blk) (b : Blk) (n : Nat) (off : Nat) (v : Nat) (h_b0 : a0.Follows b0) (h_b : a0.Follows b) : Blk.Follows a0 (@Blk.bankAfter b0 b n off v) := by
  unfold Blk.bankAfter
  try dsimp only
  split
  · split
    · split
      · apply bankRun_follows
        apply wr_follows
        assumption
      · apply wr_follows
        assumption
    · split
      · apply bankRun_follows
        assumption
      · assumption
  · apply bankCmd_follows
    assumption
  · assumption

theorem lossAfter_follows {a0 : Blk} (b0 : Blk) (b : Blk) (off : Nat) (v : Nat) (h_b0 : a0.Follows b0) (h_b : a0.Follows b) : Blk.Follows a0 (@Blk.lossAfter b0 b off v) := by
  unfold Blk.lossAfter
  try dsimp only
  split
  · split
    · split
      · apply wakeBanks_follows
        apply lossReset_follows
        assumption
      · apply lossReset_follows
        assumption
    · split
      · apply wakeBanks_follows
        assumption
      · assumption
  · split
    · apply lossRelease_follows
      assumption
    · assumption
  · assumption

theorem nlnkAfter_follows {a0 : Blk} (b0 : Blk) (b : Blk) (p : Nat) (off : Nat) (v : Nat) (h_b0 : a0.Follows b0) (h_b : a0.Follows b) : Blk.Follows a0 (@Blk.nlnkAfter b0 b p off v) := by
  unfold Blk.nlnkAfter
  try dsimp only
  split
  · apply force4_follows
    split
    · apply trainWrite_follows
      assumption
    · assumption
  · split
    · split
      · apply loadRetryWrite_follows
        apply loadSwitch_follows
        assumption
      · apply loadSwitch_follows
        assumption
    · assumption

theorem nredAfter_follows {a0 : Blk} (b : Blk) (p : Nat) (off : Nat) (v : Nat) (h_b : a0.Follows b) : Blk.Follows a0 (@Blk.nredAfter b p off v) := by
  unfold Blk.nredAfter
  try dsimp only
  split
  · split
    · apply abortGo_follows
      assumption
    · assumption
  · apply slotsGrant_follows
    assumption
  · assumption

theorem fxpAfter_follows {a0 : Blk} (b0 : Blk) (b : Blk) (off : Nat) (v : Nat) (h_b0 : a0.Follows b0) (h_b : a0.Follows b) : Blk.Follows a0 (@Blk.fxpAfter b0 b off v) := by
  unfold Blk.fxpAfter
  try dsimp only
  split
  · split
    · apply fxpJoin_follows
      split
      · split
        · assumption
        · apply fxpEn_follows
          assumption
      · assumption
    · split
      · split
        · assumption
        · apply fxpEn_follows
          assumption
      · assumption
  · apply keeperWrite_follows
    assumption
  · split
    · apply fxpRound_follows
      assumption
    · assumption
  · apply cqGet_follows
    assumption
  · apply showStores_follows
    assumption
  · apply showStores_follows
    assumption
  · apply showStores_follows
    assumption
  · apply fxpFree_follows
    assumption
  · assumption

theorem stakeAfter_follows {a0 : Blk} (b : Blk) (s : Nat) (off : Nat) (v : Nat) (h_b : a0.Follows b) : Blk.Follows a0 (@Blk.stakeAfter b s off v) := by
  unfold Blk.stakeAfter
  try dsimp only
  split
  · apply stakeCmd_follows
    assumption
  · split
    · apply icacheInval_follows
      assumption
    · assumption
  · assumption

theorem telAfter_follows {a0 : Blk} (b : Blk) (off : Nat) (h_b : a0.Follows b) : Blk.Follows a0 (@Blk.telAfter b off) := by
  unfold Blk.telAfter
  try dsimp only
  split
  · apply revertAll_follows
    assumption
  · assumption

theorem waleAfter_follows {a0 : Blk} (b : Blk) (w : Nat) (off : Nat) (v : Nat) (h_b : a0.Follows b) : Blk.Follows a0 (@Blk.waleAfter b w off v) := by
  unfold Blk.waleAfter
  try dsimp only
  split
  · split
    · apply bistCmd_follows
      split
      · apply bistCmd_follows
        assumption
      · assumption
    · split
      · apply bistCmd_follows
        assumption
      · assumption
  · assumption

theorem after_follows {a0 : Blk} (b0 : Blk) (b : Blk) (cls : Nat) (p : Page) (i : Nat) (off : Nat) (v : Nat) (h_b0 : a0.Follows b0) (h_b : a0.Follows b) : Blk.Follows a0 (@Blk.after b0 b cls p i off v) := by
  unfold Blk.after
  try dsimp only
  split
  · apply headerAfter_follows
    assumption
  · split
    · apply lidAfter_follows
      assumption
    · split
      · apply seedPhase_follows
        assumption
      · apply pwcShow_follows
        assumption
    · apply beatAfter_follows
      · assumption
      · assumption
    · apply bootAfter_follows
      assumption
    · apply telAfter_follows
      assumption
    · apply lossAfter_follows
      · assumption
      · assumption
    · split
      · split
        · apply migrateGo_follows
          assumption
        · assumption
      · apply follows_each
        · assumption
        · intros
          apply coreMoved_follows
          · assumption
          · assumption
    · apply hoopgAfter_follows
      · assumption
      · assumption
    · apply bankAfter_follows
      · assumption
      · assumption
    · apply nlnkAfter_follows
      · assumption
      · assumption
    · apply nredAfter_follows
      assumption
    · apply xltAfter_follows
      assumption
    · apply fxpAfter_follows
      · assumption
      · assumption
    · split
      · apply setFar_follows
        assumption
      · assumption
    · apply waleAfter_follows
      assumption
    · split
      · apply wr_follows
        assumption
      · assumption
    · split
      · apply sideClear_follows
        assumption
      · assumption
    · apply stakeAfter_follows
      assumption
    · assumption

theorem pairWrite_follows {a0 : Blk} (b : Blk) (ini : Ini) (cls : Nat) (p : Page) (i : Nat) (off : Nat) (v : Nat) (h_b : a0.Follows b) : Blk.Follows a0 (@Blk.pairWrite b ini cls p i off v) := by
  unfold Blk.pairWrite
  try dsimp only
  split
  · apply setThread_follows
    apply setStage_follows
    assumption
  · apply after_follows
    · assumption
    · apply wordWrite_follows
      apply wordWrite_follows
      apply setStage_follows
      assumption

theorem pageWrite_follows {a0 : Blk} (b : Blk) (ini : Ini) (cls : Nat) (p : Page) (i : Nat) (off : Nat) (v : Nat) (h_b : a0.Follows b) : Blk.Follows a0 (@Blk.pageWrite b ini cls p i off v) := by
  unfold Blk.pageWrite
  try dsimp only
  split
  · apply setStage_follows
    apply addW_follows
    assumption
  · split
    · apply pairWrite_follows
      apply addW_follows
      assumption
    · apply after_follows
      · apply addW_follows
        assumption
      · apply wordWrite_follows
        apply addW_follows
        assumption

theorem regWrite_follows {a0 : Blk} (b : Blk) (ini : Ini) (off : Nat) (v : Nat) (h_b : a0.Follows b) : Blk.Follows a0 (@Blk.regWrite b ini off v).1 := by
  unfold Blk.regWrite
  try dsimp only
  split
  · with_reducible assumption
  · split
    · with_reducible assumption
    · split
      · with_reducible assumption
      · split
        · dsimp only
          apply noteDenied_follows
          with_reducible assumption
        · split
          · dsimp only
            apply addW_follows
            with_reducible assumption
          · split
            · with_reducible assumption
            · dsimp only
              apply pageWrite_follows
              with_reducible assumption

theorem respond_follows {a0 : Blk} (b : Blk) (ini : Ini) (data : Nat) (cls : Nat) (h_b : a0.Follows b) : Blk.Follows a0 (@Blk.respond b ini data cls) := by
  unfold Blk.respond
  try dsimp only
  split
  · split
    · apply follows_send
      assumption
    · apply follows_send
      apply follows_send
      assumption
  · apply follows_send
    assumption

theorem write_follows {a0 : Blk} (b : Blk) (ini : Ini) (off : Nat) (v : Nat) (h_b : a0.Follows b) : Blk.Follows a0 (@Blk.write b ini off v) := by
  unfold Blk.write
  try dsimp only
  apply respond_follows
  apply regWrite_follows
  assumption

theorem read_follows {a0 : Blk} (b : Blk) (ini : Ini) (off : Nat) (h_b : a0.Follows b) : Blk.Follows a0 (@Blk.read b ini off) := by
  unfold Blk.read
  try dsimp only
  apply respond_follows
  apply regRead_follows
  assumption

theorem writeField_follows {a0 : Blk} (b : Blk) (ini : Ini) (p : Page) (i : Nat) (f : Fld) (v : Nat) (h_b : a0.Follows b) : Blk.Follows a0 (@Blk.writeField b ini p i f v) := by
  unfold Blk.writeField
  try dsimp only
  apply write_follows
  assumption

end Sys2Proof.Laws
end

