-- ==== Sys2Proof/Laws/FollowsRakline.lean ====
section
/-! SUPPORT. Each operation of Machine/Rakline.lean stays in `Blk.Follows`: it keeps the memory canonical, lowers no flash counter and takes back nothing sent. -/

namespace Sys2Proof.Laws

open Sys2Proof.Machine

theorem rakDown_follows {a0 : Blk} (b : Blk) (h_b : a0.Follows b) : Blk.Follows a0 (@Blk.rakDown b) := by
  unfold Blk.rakDown
  try dsimp only
  apply event_follows
  apply wr_follows
  apply rakEnd_follows
  assumption

theorem rakAck_follows {a0 : Blk} (b : Blk) (h_b : a0.Follows b) : Blk.Follows a0 (@Blk.rakAck b) := by
  unfold Blk.rakAck
  try dsimp only
  apply rakLink_follows
  apply follows_mk
  assumption

theorem rakResend_follows {a0 : Blk} (b : Blk) (h_b : a0.Follows b) : Blk.Follows a0 (@Blk.rakResend b) := by
  unfold Blk.rakResend
  try dsimp only
  split
  · assumption
  · split
    · apply rakDown_follows
      assumption
    · apply follows_each
      · apply follows_mk
        apply add64_follows
        apply inc_follows
        assumption
      · intros
        apply follows_send
        assumption

theorem evtFrames_follows {a0 : Blk} (b : Blk) (fuel : Nat) (h_b : a0.Follows b) : Blk.Follows a0 (@Blk.evtFrames b fuel) := by
  induction fuel generalizing b h_b with
  | zero =>
  unfold Blk.evtFrames
  try dsimp only
  assumption
  | succ q1 ih =>
  unfold Blk.evtFrames
  try dsimp only
  split
  · assumption
  · split
    · assumption
    · apply ih
      apply rakSend_follows
      apply follows_mk
      assumption

theorem conFrames_follows {a0 : Blk} (b : Blk) (fuel : Nat) (h_b : a0.Follows b) : Blk.Follows a0 (@Blk.conFrames b fuel) := by
  induction fuel generalizing b h_b with
  | zero =>
  unfold Blk.conFrames
  try dsimp only
  assumption
  | succ q1 ih =>
  unfold Blk.conFrames
  try dsimp only
  split
  · assumption
  · split
    · assumption
    · apply ih
      apply rakSend_follows
      apply follows_mk
      assumption

theorem linkIn_follows {a0 : Blk} (b : Blk) (a_1 : RakLinkMsg) (h_b : a0.Follows b) : Blk.Follows a0 (@Blk.linkIn b a_1) := by
  unfold Blk.linkIn
  try dsimp only
  split
  · assumption
  · apply bulkPump_follows
    apply follows_mk
    assumption
  · apply bulkPump_follows
    apply follows_mk
    assumption
  · apply evtFrames_follows
    apply follows_mk
    assumption
  · apply conFrames_follows
    apply follows_mk
    assumption
  · assumption

theorem rakTake_follows {a0 : Blk} (b : Blk) (h : List Byte) (m : RakLinkMsg) (h_b : a0.Follows b) : Blk.Follows a0 (@Blk.rakTake b h m) := by
  unfold Blk.rakTake
  try dsimp only
  split
  · with_reducible assumption
  · split
    · apply linkIn_follows
      split
      · apply rakAck_follows
        apply follows_mk
        with_reducible assumption
      · apply follows_mk
        with_reducible assumption
    · split
      · apply rakAck_follows
        apply follows_mk
        with_reducible assumption
      · apply follows_mk
        with_reducible assumption

theorem mgmtLid_follows {a0 : Blk} (b : Blk) (o : Out) (h_b : a0.Follows b) : Blk.Follows a0 (@Blk.mgmtLid b o) := by
  unfold Blk.mgmtLid
  try dsimp only
  split
  · apply follows_send
    apply inc_follows
    assumption
  · apply mgmtAnswer_follows
    assumption

theorem rakBegin_follows {a0 : Blk} (b : Blk) (key : Nat) (h_b : a0.Follows b) : Blk.Follows a0 (@Blk.rakBegin b key) := by
  unfold Blk.rakBegin
  try dsimp only
  apply event_follows
  apply inc_follows
  apply wr_follows
  apply follows_mk
  with_reducible assumption

theorem regResp_follows {a0 : Blk} (b : Blk) (op : Nat) (status : Nat) (tag : Nat) (index : Nat) (data : List Nat) (h_b : a0.Follows b) : Blk.Follows a0 (@Blk.regResp b op status tag index data) := by
  unfold Blk.regResp
  try dsimp only
  apply rakCredit_follows
  apply rakSend_follows
  assumption

theorem readRun_follows {a0 : Blk} (n : Nat) (i : Nat) (off : Nat) (a_3 : Blk) (h_a_3 : a0.Follows a_3) : Blk.Follows a0 (@Blk.readRun n i off a_3).1 := by
  induction n generalizing i off a_3 h_a_3 with
  | zero =>
  unfold Blk.readRun
  try dsimp only
  assumption
  | succ q1 ih =>
  unfold Blk.readRun
  try dsimp only
  split
  · apply follows_fst
    apply regRead_follows
    assumption
  · apply follows_fst
    apply ih
    apply regRead_follows
    assumption

theorem writeRun_follows {a0 : Blk} (l : List Nat) (i : Nat) (off : Nat) (a_3 : Blk) (h_a_3 : a0.Follows a_3) : Blk.Follows a0 (@Blk.writeRun l i off a_3).1 := by
  induction l generalizing i off a_3 h_a_3 with
  | nil =>
  unfold Blk.writeRun
  try dsimp only
  assumption
  | cons q1 q2 ih =>
  unfold Blk.writeRun
  try dsimp only
  split
  · apply follows_fst
    apply regWrite_follows
    assumption
  · apply ih
    apply regWrite_follows
    assumption

end Sys2Proof.Laws
end

