-- ==== Sys2Proof/Laws/FollowsMgmt.lean ====
section
/-! SUPPORT. Each operation of Machine/Mgmt.lean stays in `Blk.Follows`: it keeps the memory canonical, lowers no flash counter and takes back nothing sent. -/

namespace Sys2Proof.Laws

open Sys2Proof.Machine

theorem mgmtWrite_follows {a0 : Blk} (b : Blk) (p : Page) (off : Nat) (v : Nat) (h_b : a0.Follows b) : Blk.Follows a0 (@Blk.mgmtWrite b p off v).1 := by
  unfold Blk.mgmtWrite
  try dsimp only
  split
  · apply follows_fst
    assumption
  · apply follows_fst
    apply regWrite_follows
    assumption

theorem readAnswer_follows {a0 : Blk} (r : Blk × Except Nat Nat) (h_r : a0.Follows r.1) : Blk.Follows a0 (@Blk.readAnswer r) := by
  unfold Blk.readAnswer
  try dsimp only
  split
  · apply mgmtAnswer_follows
    assumption
  · apply mgmtAnswer_follows
    assumption

theorem stage_follows {a0 : Blk} (b : Blk) (h_b : a0.Follows b) : Blk.Follows a0 (@Blk.stage b) := by
  unfold Blk.stage
  try dsimp only
  apply follows_mk
  assumption

theorem request_follows {a0 : Blk} (b : Blk) (f : Blk → Blk) (h_b : a0.Follows b) (h_f : ∀ y0, a0.Follows y0 → Blk.Follows a0 (f y0)) : Blk.Follows a0 (@Blk.request b f) := by
  unfold Blk.request
  try dsimp only
  apply follows_when
  · assumption
  · intros
    apply_assumption
    assumption

theorem mgmtBad_follows {a0 : Blk} (b : Blk) (h_b : a0.Follows b) : Blk.Follows a0 (@Blk.mgmtBad b) := by
  unfold Blk.mgmtBad
  try dsimp only
  apply mgmtAnswer_follows
  assumption

theorem mgmtRead_follows {a0 : Blk} (b : Blk) (f : Fld) (h_b : a0.Follows b) : Blk.Follows a0 (@Blk.mgmtRead b f).1 := by
  unfold Blk.mgmtRead
  try dsimp only
  split
  · apply follows_fst
    assumption
  · split
    · apply follows_fst
      apply regRead_follows
      assumption
    · apply follows_fst
      apply regRead_follows
      assumption

theorem writeAnswer_follows {a0 : Blk} (r : Blk × Nat) (h_r : a0.Follows r.1) : Blk.Follows a0 (@Blk.writeAnswer r) := by
  unfold Blk.writeAnswer
  try dsimp only
  apply mgmtAnswer_follows
  assumption

theorem mgmtOrder_follows {a0 : Blk} (b : Blk) (h_b : a0.Follows b) : Blk.Follows a0 (@Blk.mgmtOrder b) := by
  unfold Blk.mgmtOrder
  try dsimp only
  apply mgmtAnswer_follows
  apply draw_follows
  assumption

end Sys2Proof.Laws
end

