-- ==== Sys2Proof/Laws/FollowsRegRows.lean ====
section
/-! SUPPORT. Each operation of Machine/RegRows.lean stays in `Blk.Follows`: it keeps the memory canonical, lowers no flash counter and takes back nothing sent. -/

namespace Sys2Proof.Laws

open Sys2Proof.Machine

theorem stakeWrite_follows {a0 : Blk} (b : Blk) (ini : Ini) (t : Tid) (c : Nat) (h_b : a0.Follows b) : Blk.Follows a0 (@Blk.stakeWrite b ini t c) := by
  unfold Blk.stakeWrite
  try dsimp only
  apply write_follows
  assumption

theorem faultWrite_follows {a0 : Blk} (b : Blk) (ini : Ini) (action : Nat) (kind : Nat) (unit : Nat) (h_b : a0.Follows b) : Blk.Follows a0 (@Blk.faultWrite b ini action kind unit) := by
  unfold Blk.faultWrite
  try dsimp only
  apply write_follows
  assumption

theorem bankWrite_follows {a0 : Blk} (b : Blk) (ini : Ini) (n : Nat) (c : Nat) (h_b : a0.Follows b) : Blk.Follows a0 (@Blk.bankWrite b ini n c) := by
  unfold Blk.bankWrite
  try dsimp only
  apply writeField_follows
  assumption

theorem bistWrite_follows {a0 : Blk} (b : Blk) (ini : Ini) (action : Nat) (kind : Nat) (inst : Nat) (h_b : a0.Follows b) : Blk.Follows a0 (@Blk.bistWrite b ini action kind inst) := by
  unfold Blk.bistWrite
  try dsimp only
  apply write_follows
  assumption

theorem cacheSet_follows {a0 : Blk} (b : Blk) (line : Nat) (l : Option CLine) (h_b : a0.Follows b) : Blk.Follows a0 (@Blk.cacheSet b line l) := by
  unfold Blk.cacheSet
  try dsimp only
  apply follows_mk
  with_reducible assumption

theorem lineBack_follows {a0 : Blk} (b : Blk) (line : Nat) (l : CLine) (h_b : a0.Follows b) : Blk.Follows a0 (@Blk.lineBack b line l) := by
  unfold Blk.lineBack
  try dsimp only
  split
  · apply storePa_follows
    with_reducible assumption
  · with_reducible assumption

theorem linePut_follows {a0 : Blk} (b : Blk) (cls : Nat) (pa : Nat) (l : List Byte) (h_b : a0.Follows b) : Blk.Follows a0 (@Blk.linePut b cls pa l).1 := by
  unfold Blk.linePut
  try dsimp only
  split
  · dsimp only
    apply cacheSet_follows
    with_reducible assumption
  · apply writePa_follows
    with_reducible assumption

theorem coreStore_follows {a0 : Blk} (b : Blk) (cls : Nat) (pa : Nat) (l : List Byte) (h_b : a0.Follows b) : Blk.Follows a0 (@Blk.coreStore b cls pa l).1 := by
  unfold Blk.coreStore
  try dsimp only
  split
  · dsimp only
    refine follows_of_fst (by assumption) ?_
    apply linePut_follows
    with_reducible assumption
  · split
    · dsimp only
      refine follows_of_fst (by assumption) ?_
      apply linePut_follows
      with_reducible assumption
    · apply linePut_follows
      refine follows_of_fst (by assumption) ?_
      apply linePut_follows
      with_reducible assumption

theorem coreUe_follows {a0 : Blk} (b : Blk) (cls : Nat) (f : Fail) (h_b : a0.Follows b) : Blk.Follows a0 (@Blk.coreUe b cls f) := by
  unfold Blk.coreUe
  try dsimp only
  split
  · apply memUe_follows
    apply draw_follows
    with_reducible assumption
  · with_reducible assumption

theorem coreMem_follows {a0 : Blk} (b : Blk) (core : Nat) (cls : Nat) (pa : Nat) (write : Bool) (n : Nat) (data : Nat) (h_b : a0.Follows b) : Blk.Follows a0 (@Blk.coreMem b core cls pa write n data) := by
  unfold Blk.coreMem
  try dsimp only
  split
  · split
    · apply respond_follows
      refine follows_of_fst (by assumption) ?_
      apply coreStore_follows
      with_reducible assumption
    · apply respond_follows
      apply coreUe_follows
      refine follows_of_fst (by assumption) ?_
      apply coreStore_follows
      with_reducible assumption
  · split
    · apply respond_follows
      with_reducible assumption
    · apply respond_follows
      apply coreUe_follows
      with_reducible assumption

theorem coreAccess_follows {a0 : Blk} (b : Blk) (core : Nat) (pa : Nat) (write : Bool) (n : Nat) (data : Nat) (h_b : a0.Follows b) : Blk.Follows a0 (@Blk.coreAccess b core pa write n data) := by
  unfold Blk.coreAccess
  try dsimp only
  split
  · apply follows_send
    with_reducible assumption
  · split
    · split
      · apply respond_follows
        with_reducible assumption
      · split
        · apply write_follows
          with_reducible assumption
        · apply read_follows
          with_reducible assumption
    · split
      · apply respond_follows
        with_reducible assumption
      · apply coreMem_follows
        with_reducible assumption

theorem cacheFill_follows {a0 : Blk} (b : Blk) (core : Nat) (pa : Nat) (h_b : a0.Follows b) : Blk.Follows a0 (@Blk.cacheFill b core pa) := by
  unfold Blk.cacheFill
  try dsimp only
  split
  · with_reducible assumption
  · split
    · apply cacheSet_follows
      with_reducible assumption
    · apply coreUe_follows
      with_reducible assumption

theorem cacheEvict_follows {a0 : Blk} (b : Blk) (line : Nat) (h_b : a0.Follows b) : Blk.Follows a0 (@Blk.cacheEvict b line) := by
  unfold Blk.cacheEvict
  try dsimp only
  split
  · with_reducible assumption
  · apply cacheSet_follows
    apply lineBack_follows
    with_reducible assumption

theorem cacheOp_follows {a0 : Blk} (b : Blk) (core : Nat) (pa : Nat) (clean : Bool) (inval : Bool) (h_b : a0.Follows b) : Blk.Follows a0 (@Blk.cacheOp b core pa clean inval) := by
  unfold Blk.cacheOp
  try dsimp only
  split
  · apply follows_send
    with_reducible assumption
  · split
    · with_reducible assumption
    · apply cacheSet_follows
      split
      · apply lineBack_follows
        with_reducible assumption
      · with_reducible assumption

end Sys2Proof.Laws
end

