-- ==== Sys2Proof/Laws/FollowsObserve.lean ====
section
/-! SUPPORT. What the observations of Machine/Observe.lean keep: each operation stays in `Blk.Follows`. -/

namespace Sys2Proof.Laws

open Sys2Proof.Machine

theorem pauseAgain_follows {a0 : Blk} (b : Blk) (t : Tid) (h_b : a0.Follows b) : Blk.Follows a0 (@Blk.pauseAgain b t) := by
  unfold Blk.pauseAgain
  try dsimp only
  split
  · apply setThread_follows
    with_reducible assumption
  · with_reducible assumption

/-- The instruction that a paused thread runs keeps what every command keeps (`EveryStepFollows`). -/
theorem debugStep_follows {a0 : Blk} (hx : ∀ (c : Instr) (s s' : State), exec c s = .next s' → s.blk.Follows s'.blk)
    (b : Blk) (t : Tid) (c : Instr) (h_b : a0.Follows b) : Blk.Follows a0 (@Blk.debugStep b t c) := by
  unfold Blk.debugStep
  dsimp only
  split
  · split
    · rename_i s' he
      apply pauseAgain_follows
      refine follows_trans ?_ (hx _ _ _ he)
      exact setThread_follows b t _ h_b
    · exact h_b
  · exact h_b

theorem meshUe_follows {a0 : Blk} (b : Blk) (d : Nat) (src : Nat) (dst : Nat) (ini : Option Ini) (h_b : a0.Follows b) : Blk.Follows a0 (@Blk.meshUe b d src dst ini) := by
  unfold Blk.meshUe
  try dsimp only
  split
  · apply respond_follows
    apply event_follows
    apply error_follows
    apply inc_follows
    with_reducible assumption
  · apply event_follows
    apply error_follows
    apply inc_follows
    with_reducible assumption

theorem d2dFlits_follows {a0 : Blk} (b : Blk) (k : Nat) (bytes : Nat) (retries : Nat) (crcErrs : Nat) (h_b : a0.Follows b) : Blk.Follows a0 (@Blk.d2dFlits b k bytes retries crcErrs) := by
  unfold Blk.d2dFlits
  try dsimp only
  apply add64_follows
  apply add_follows
  apply add_follows
  with_reducible assumption

theorem d2dLink_follows {a0 : Blk} (b : Blk) (k : Nat) (st : Nat) (h_b : a0.Follows b) : Blk.Follows a0 (@Blk.d2dLink b k st) := by
  unfold Blk.d2dLink
  try dsimp only
  split
  · with_reducible assumption
  · apply wr_follows
    with_reducible assumption

theorem ownerRecord_follows {a0 : Blk} (b : Blk) (p : Policy) (sigOk : Bool) (h_b : a0.Follows b) : Blk.Follows a0 (@Blk.ownerRecord b p sigOk) := by
  unfold Blk.ownerRecord
  split
  · exact h_b
  · split
    · exact follows_flash h_b rfl rfl (Nat.le_refl _) (Nat.le_refl _) rfl
    · exact authFail_follows b h_b

theorem ownerRead_follows {a0 : Blk} (b : Blk) (h_b : a0.Follows b) : Blk.Follows a0 (@Blk.ownerRead b) := by
  unfold Blk.ownerRead
  try dsimp only
  split
  · with_reducible assumption
  · apply follows_send
    with_reducible assumption

theorem observe_follows {a0 : Blk} (hx : ∀ (c : Instr) (s s' : State), exec c s = .next s' → s.blk.Follows s'.blk)
    (b : Blk) (o : Obs) (h_b : a0.Follows b) : Blk.Follows a0 (@Blk.observe b o) := by
  cases o <;> simp only [Blk.observe]
  case flashTag => exact follows_flash h_b rfl rfl (Nat.le_refl _) (Nat.le_refl _) rfl
  case debugStep t c => exact follows_when h_b _ _ (fun b h => debugStep_follows hx b t c h)
  case hoopRoot => exact follows_when h_b _ _ (fun b h => follows_mk h)
  case lineCe => exact lineCe_follows _ _ h_b
  case ownerRecord => exact ownerRecord_follows _ _ _ h_b
  case ownerRead => exact ownerRead_follows _ h_b
  case cacheEvict => exact cacheEvict_follows _ _ h_b
  all_goals
    refine follows_when h_b _ _ (fun b h => ?_)
    first
    | with_reducible exact d2dFlits_follows _ _ _ _ _ h
    | with_reducible exact d2dLink_follows _ _ _ h
    | with_reducible exact add_follows _ _ _ _ h
    | with_reducible exact meshUe_follows _ _ _ _ _ h
    | with_reducible exact event_follows _ _ _ _ h
    | with_reducible exact exportSession_follows _ h
    | with_reducible exact stakeCmd_follows _ _ _ h
    | with_reducible exact follows_send h _
    | with_reducible exact walkBegin_follows _ _ _ _ _ h
    | with_reducible exact cacheFill_follows _ _ _ h
    | with_reducible exact cacheOp_follows _ _ _ _ _ h
    | with_reducible exact wr_follows _ _ _ _ h
    | with_reducible exact add64_follows _ _ _ _ _ h
    | with_reducible exact lvTogether_follows _ _ _ h
    | with_reducible exact echoIn_follows _ _ h

end Sys2Proof.Laws
end

