-- ==== Sys2Proof/Laws/KeepsBank.lean ====
section
/-! SUPPORT. Each command of Machine/Bank.lean stays in `Blk.Follows`. -/

namespace Sys2Proof.Laws

open Sys2Proof.Machine

theorem execApplyDescriptorTake_follows (n : Nat) {s s' : State} (h : execApplyDescriptorTake n s = .next s') : s.blk.Follows s'.blk := by
  have h0 := follows_refl s.blk
  unfold execApplyDescriptorTake at h
  refine cmd_follows h ?_
  try dsimp only
  apply follows_when
  · with_reducible assumption
  · intros
    split
    · apply bankRefuse_follows
      apply ueOf_follows
      with_reducible assumption
    · split
      · apply bankRefuse_follows
        with_reducible assumption
      · apply bankRun_follows
        apply setBank_follows
        with_reducible assumption

theorem execApplyChunkStart_follows (n : Nat) {s s' : State} (h : execApplyChunkStart n s = .next s') : s.blk.Follows s'.blk := by
  have h0 := follows_refl s.blk
  unfold execApplyChunkStart at h
  refine cmd_follows h ?_
  try dsimp only
  apply follows_when
  · with_reducible assumption
  · intros
    apply bankRun_follows
    assumption

theorem execApplyChunkCommit_follows (n : Nat) {s s' : State} (h : execApplyChunkCommit n s = .next s') : s.blk.Follows s'.blk := by
  have h0 := follows_refl s.blk
  unfold execApplyChunkCommit at h
  refine cmd_follows h ?_
  try dsimp only
  split
  · apply follows_when
    · with_reducible assumption
    · intros
      apply bankCommit_follows
      with_reducible assumption
  · with_reducible assumption

theorem execApplyChunkAbort_follows (n a : Nat) {s s' : State} (h : execApplyChunkAbort n a s = .next s') : s.blk.Follows s'.blk := by
  have h0 := follows_refl s.blk
  unfold execApplyChunkAbort at h
  refine cmd_follows h ?_
  try dsimp only
  split
  · split
    · split
      · apply bankAbort_follows
        apply markUe_follows
        with_reducible assumption
      · with_reducible assumption
    · split
      · apply bankAbort_follows
        apply markUe_follows
        with_reducible assumption
      · with_reducible assumption
  · with_reducible assumption

theorem execApplyRetry_follows (n : Nat) {s s' : State} (h : execApplyRetry n s = .next s') : s.blk.Follows s'.blk := by
  have h0 := follows_refl s.blk
  unfold execApplyRetry at h
  refine cmd_follows h ?_
  try dsimp only
  apply follows_when
  · with_reducible assumption
  · intros
    apply bankRun_follows
    apply setBank_follows
    assumption

end Sys2Proof.Laws
end

