-- ==== Sys2Proof/Laws/KeepsBoot.lean ====
section
/-! SUPPORT. Each command of Machine/Boot.lean stays in `Blk.Follows`. -/

namespace Sys2Proof.Laws

open Sys2Proof.Machine

theorem execPowerOn_follows  {s s' : State} (h : execPowerOn  s = .next s') : s.blk.Follows s'.blk := by
  have h0 := follows_refl s.blk
  unfold execPowerOn at h
  refine cmd_follows h ?_
  try dsimp only
  apply coldReset_follows
  with_reducible assumption

theorem execRstN_follows  {s s' : State} (h : execRstN  s = .next s') : s.blk.Follows s'.blk := by
  have h0 := follows_refl s.blk
  unfold execRstN at h
  refine cmd_follows h ?_
  try dsimp only
  apply coldReset_follows
  with_reducible assumption

theorem execBrownOut_follows  {s s' : State} (h : execBrownOut  s = .next s') : s.blk.Follows s'.blk := by
  have h0 := follows_refl s.blk
  unfold execBrownOut at h
  refine cmd_follows h ?_
  try dsimp only
  apply coldReset_follows
  with_reducible assumption

theorem execOverVoltage_follows  {s s' : State} (h : execOverVoltage  s = .next s') : s.blk.Follows s'.blk := by
  have h0 := follows_refl s.blk
  unfold execOverVoltage at h
  refine cmd_follows h ?_
  try dsimp only
  apply coldReset_follows
  with_reducible assumption

theorem execRefclkLoss_follows  {s s' : State} (h : execRefclkLoss  s = .next s') : s.blk.Follows s'.blk := by
  have h0 := follows_refl s.blk
  unfold execRefclkLoss at h
  refine cmd_follows h ?_
  try dsimp only
  apply follows_mk
  apply coldReset_follows
  with_reducible assumption

theorem execRefclkReturn_follows  {s s' : State} (h : execRefclkReturn  s = .next s') : s.blk.Follows s'.blk := by
  have h0 := follows_refl s.blk
  unfold execRefclkReturn at h
  refine cmd_follows h ?_
  try dsimp only
  apply follows_when
  · with_reducible assumption
  · intros
    apply follows_mk
    assumption

theorem execPowerGood_follows (attempts : List Bool) (countersOk : Bool) {s s' : State} (h : execPowerGood attempts countersOk s = .next s') : s.blk.Follows s'.blk := by
  have h0 := follows_refl s.blk
  unfold execPowerGood at h
  refine cmd_follows h ?_
  try dsimp only
  apply follows_when
  · with_reducible assumption
  · intros
    split
    · split
      · apply stage2_follows
        apply alertIn_follows
        apply follows_mk
        with_reducible assumption
      · apply toSafe_follows
        apply alertIn_follows
        apply follows_mk
        with_reducible assumption
    · split
      · apply stage2_follows
        apply follows_mk
        with_reducible assumption
      · apply toSafe_follows
        apply follows_mk
        with_reducible assumption

theorem execBootDecision_follows  {s s' : State} (h : execBootDecision  s = .next s') : s.blk.Follows s'.blk := by
  have h0 := follows_refl s.blk
  unfold execBootDecision at h
  refine cmd_follows h ?_
  try dsimp only
  apply bootDecide_follows
  with_reducible assumption

theorem execBaseStageEnd_follows  {s s' : State} (h : execBaseStageEnd  s = .next s') : s.blk.Follows s'.blk := by
  have h0 := follows_refl s.blk
  unfold execBaseStageEnd at h
  refine cmd_follows h ?_
  try dsimp only
  apply follows_when
  · with_reducible assumption
  · intros
    split
    · apply stage2End_follows
      assumption
    · apply stage3End_follows
      assumption
    · apply sequence_follows
      assumption
    · assumption

theorem execBaseStageTimeout_follows  {s s' : State} (h : execBaseStageTimeout  s = .next s') : s.blk.Follows s'.blk := by
  have h0 := follows_refl s.blk
  unfold execBaseStageTimeout at h
  refine cmd_follows h ?_
  try dsimp only
  apply follows_when
  · with_reducible assumption
  · intros
    apply toSafe_follows
    assumption

theorem execBootStepEnd_follows (row unit : Nat) (ok : Bool) (us : Nat) {s s' : State} (h : execBootStepEnd row unit ok us s = .next s') : s.blk.Follows s'.blk := by
  have h0 := follows_refl s.blk
  unfold execBootStepEnd at h
  refine cmd_follows h ?_
  try dsimp only
  split
  · with_reducible assumption
  · apply bootDecide_follows
    apply bootShow_follows
    split
    · split
      · split
        · apply event_follows
          apply wr_follows
          apply follows_mk
          apply follows_each
          · apply stepSet_follows
            with_reducible assumption
          · intros
            apply leaveReset_follows
            assumption
        · apply follows_mk
          apply follows_each
          · apply stepSet_follows
            with_reducible assumption
          · intros
            apply leaveReset_follows
            assumption
      · split
        · apply event_follows
          apply wr_follows
          apply follows_mk
          apply stepFailed_follows
          apply stepSet_follows
          with_reducible assumption
        · apply follows_mk
          apply stepFailed_follows
          apply stepSet_follows
          with_reducible assumption
    · split
      · split
        · apply event_follows
          apply wr_follows
          apply follows_each
          · apply stepSet_follows
            with_reducible assumption
          · intros
            apply leaveReset_follows
            assumption
        · apply follows_each
          · apply stepSet_follows
            with_reducible assumption
          · intros
            apply leaveReset_follows
            assumption
      · split
        · apply event_follows
          apply wr_follows
          apply stepFailed_follows
          apply stepSet_follows
          with_reducible assumption
        · apply stepFailed_follows
          apply stepSet_follows
          with_reducible assumption

theorem execWarmN_follows  {s s' : State} (h : execWarmN  s = .next s') : s.blk.Follows s'.blk := by
  have h0 := follows_refl s.blk
  unfold execWarmN at h
  refine cmd_follows h ?_
  try dsimp only
  apply warmReset_follows
  with_reducible assumption

theorem execWarmStart_follows  {s s' : State} (h : execWarmStart  s = .next s') : s.blk.Follows s'.blk := by
  have h0 := follows_refl s.blk
  unfold execWarmStart at h
  refine cmd_follows h ?_
  try dsimp only
  apply follows_when
  · with_reducible assumption
  · intros
    apply bootShow_follows
    split
    · apply follows_mk
      assumption
    · apply follows_mk
      assumption

theorem execSensorReading_follows (k : Nat) (t : Int) (full : Bool) {s s' : State} (h : execSensorReading k t full s = .next s') : s.blk.Follows s'.blk := by
  have h0 := follows_refl s.blk
  unfold execSensorReading at h
  refine cmd_follows h ?_
  try dsimp only
  split
  · apply warmReset_follows
    apply note_follows
    apply tripRecord_follows
    apply sensorRead_follows
    with_reducible assumption
  · apply sensorRead_follows
    with_reducible assumption

theorem execTripRelease_follows  {s s' : State} (h : execTripRelease  s = .next s') : s.blk.Follows s'.blk := by
  have h0 := follows_refl s.blk
  unfold execTripRelease at h
  refine cmd_follows h ?_
  try dsimp only
  apply follows_when
  · with_reducible assumption
  · intros
    apply follows_mk
    assumption

theorem execBistComplete_follows (kind inst : Nat) (passed inRange : Bool) {s s' : State} (h : execBistComplete kind inst passed inRange s = .next s') : s.blk.Follows s'.blk := by
  have h0 := follows_refl s.blk
  unfold execBistComplete at h
  refine cmd_follows h ?_
  try dsimp only
  split
  · with_reducible assumption
  · split
    · apply follows_mk
      with_reducible assumption
    · split
      · apply shutDone_follows
        apply event_follows
        apply bistShow_follows
        split
        · apply setSt_follows
          apply follows_mk
          with_reducible assumption
        · apply follows_mk
          with_reducible assumption
      · apply shutDone_follows
        apply event_follows
        apply bistShow_follows
        apply testResult_follows
        apply follows_mk
        with_reducible assumption

theorem execPortFwActivate_follows (kind : Nat) (ok : Bool) {s s' : State} (h : execPortFwActivate kind ok s = .next s') : s.blk.Follows s'.blk := by
  have h0 := follows_refl s.blk
  unfold execPortFwActivate at h
  refine cmd_follows h ?_
  try dsimp only
  split
  · apply follows_when
    · with_reducible assumption
    · intros
      split
      · apply follows_when
        · with_reducible assumption
        · intros
          apply portRetrain_follows
          apply portCycle_follows
          apply tryImage_follows
          with_reducible assumption
      · with_reducible assumption
  · apply follows_when
    · with_reducible assumption
    · intros
      apply event_follows
      apply follows_each
      · apply tryImage_follows
        with_reducible assumption
      · intros
        apply portRetrain_follows
        with_reducible assumption

theorem execBlockInitDone_follows (pg : Page) (i : Nat) {s s' : State} (h : execBlockInitDone pg i s = .next s') : s.blk.Follows s'.blk := by
  have h0 := follows_refl s.blk
  unfold execBlockInitDone at h
  refine cmd_follows h ?_
  try dsimp only
  apply follows_when
  · with_reducible assumption
  · intros
    apply initDone_follows
    assumption

theorem execBlockInitTimeout_follows (pg : Page) (i : Nat) {s s' : State} (h : execBlockInitTimeout pg i s = .next s') : s.blk.Follows s'.blk := by
  have h0 := follows_refl s.blk
  unfold execBlockInitTimeout at h
  refine cmd_follows h ?_
  try dsimp only
  apply follows_when
  · with_reducible assumption
  · intros
    apply failBlock_follows
    assumption

theorem execBlockDrained_follows (pg : Page) (i : Nat) {s s' : State} (h : execBlockDrained pg i s = .next s') : s.blk.Follows s'.blk := by
  have h0 := follows_refl s.blk
  unfold execBlockDrained at h
  refine cmd_follows h ?_
  try dsimp only
  apply follows_when
  · with_reducible assumption
  · intros
    apply drainedTo_follows
    assumption

theorem execQuiesceTimeout_follows (pg : Page) (i : Nat) {s s' : State} (h : execQuiesceTimeout pg i s = .next s') : s.blk.Follows s'.blk := by
  have h0 := follows_refl s.blk
  unfold execQuiesceTimeout at h
  refine cmd_follows h ?_
  try dsimp only
  apply follows_when
  · with_reducible assumption
  · intros
    split
    · apply isolated_follows
      apply dropBlock_follows
      apply denyRings_follows
      apply wr_follows
      with_reducible assumption
    · apply raise_follows
      with_reducible assumption

theorem execBlockSelfCheckFail_follows (pg : Page) (i : Nat) {s s' : State} (h : execBlockSelfCheckFail pg i s = .next s') : s.blk.Follows s'.blk := by
  have h0 := follows_refl s.blk
  unfold execBlockSelfCheckFail at h
  refine cmd_follows h ?_
  try dsimp only
  apply follows_when
  · with_reducible assumption
  · intros
    apply failBlock_follows
    assumption

theorem execCdcTimeout_follows (p : Page) (i : Nat) (stopped : Nat) (live : Nat) {s s' : State} (h : execCdcTimeout p i stopped live s = .next s') : s.blk.Follows s'.blk := by
  have h0 := follows_refl s.blk
  unfold execCdcTimeout at h
  refine cmd_follows h ?_
  try dsimp only
  apply follows_when
  · with_reducible assumption
  · intros
    apply failBlock_follows
    apply error_follows
    assumption

theorem execD2dLaneRepair_follows (d q : Nat) {s s' : State} (h : execD2dLaneRepair d q s = .next s') : s.blk.Follows s'.blk := by
  have h0 := follows_refl s.blk
  unfold execD2dLaneRepair at h
  refine cmd_follows h ?_
  try dsimp only
  apply follows_when
  · with_reducible assumption
  · intros
    apply event_follows
    apply inc_follows
    assumption

theorem execD2dLinkFail_follows (d q : Nat) {s s' : State} (h : execD2dLinkFail d q s = .next s') : s.blk.Follows s'.blk := by
  have h0 := follows_refl s.blk
  unfold execD2dLinkFail at h
  refine cmd_follows h ?_
  try dsimp only
  apply follows_foldl
  · intros
    apply failBlock_follows
    apply event_follows
    apply wr_follows
    assumption
  · with_reducible assumption

theorem execDiePllUnlock_follows (d pll : Nat) {s s' : State} (h : execDiePllUnlock d pll s = .next s') : s.blk.Follows s'.blk := by
  have h0 := follows_refl s.blk
  unfold execDiePllUnlock at h
  refine cmd_follows h ?_
  try dsimp only
  apply failBlock_follows
  apply event_follows
  apply wr_follows
  with_reducible assumption

theorem execBeatTick_follows (m : TickMeasure) {s s' : State} (h : execBeatTick m s = .next s') : s.blk.Follows s'.blk := by
  have h0 := follows_refl s.blk
  unfold execBeatTick at h
  refine cmd_follows h ?_
  try dsimp only
  apply follows_when
  · with_reducible assumption
  · intros
    apply follows_each
    · apply tickDigest_follows
      apply tickBorder_follows
      apply pwcTick_follows
      apply tickTimer_follows
      assumption
    · intros
      apply tickWale_follows
      assumption

end Sys2Proof.Laws
end

