-- ==== Sys2Proof/Laws/KeepsBorder.lean ====
section
/-! SUPPORT. Each command of Machine/Border.lean stays in `Blk.Follows`. -/

namespace Sys2Proof.Laws

open Sys2Proof.Machine

theorem execOpenMsg_follows (p : Nat) (k : BKey) {s s' : State} (h : execOpenMsg p k s = .next s') : s.blk.Follows s'.blk := by
  have h0 := follows_refl s.blk
  unfold execOpenMsg at h
  refine cmd_follows h ?_
  try dsimp only
  apply rx_follows
  with_reducible assumption

theorem execGrant_follows (p : Nat) (k : BKey) {s s' : State} (h : execGrant p k s = .next s') : s.blk.Follows s'.blk := by
  have h0 := follows_refl s.blk
  unfold execGrant at h
  refine cmd_follows h ?_
  try dsimp only
  apply rx_follows
  with_reducible assumption

theorem execBucketData_follows (p : Nat) (m : BucketIn) {s s' : State} (h : execBucketData p m s = .next s') : s.blk.Follows s'.blk := by
  have h0 := follows_refl s.blk
  unfold execBucketData at h
  refine cmd_follows h ?_
  try dsimp only
  apply rx_follows
  with_reducible assumption

theorem execCodedBlockRerequest_follows (p : Nat) (k : BKey) (first block : Nat) {s s' : State} (h : execCodedBlockRerequest p k first block s = .next s') : s.blk.Follows s'.blk := by
  have h0 := follows_refl s.blk
  unfold execCodedBlockRerequest at h
  refine cmd_follows h ?_
  try dsimp only
  apply rx_follows
  with_reducible assumption

theorem execAbortMsg_follows (p step attempt cls origin group bucket : Nat) {s s' : State} (h : execAbortMsg p step attempt cls origin group bucket s = .next s') : s.blk.Follows s'.blk := by
  have h0 := follows_refl s.blk
  unfold execAbortMsg at h
  refine cmd_follows h ?_
  try dsimp only
  apply follows_when
  · with_reducible assumption
  · intros
    apply settled_follows
    apply abortStep_follows
    assumption

theorem execHandoverForward_follows (p : Nat) (h : Handover) (sent : Bool) (group : Nat) {s s' : State} (h : execHandoverForward p h sent group s = .next s') : s.blk.Follows s'.blk := by
  have h0 := follows_refl s.blk
  unfold execHandoverForward at h
  refine cmd_follows h ?_
  try dsimp only
  split
  · apply hoSend_follows
    with_reducible assumption
  · apply rx_follows
    with_reducible assumption

theorem execHandoverBackward_follows (p : Nat) (h : Handover) (sent : Bool) (group : Nat) {s s' : State} (h : execHandoverBackward p h sent group s = .next s') : s.blk.Follows s'.blk := by
  have h0 := follows_refl s.blk
  unfold execHandoverBackward at h
  refine cmd_follows h ?_
  try dsimp only
  split
  · apply hoReturn_follows
    with_reducible assumption
  · apply rx_follows
    with_reducible assumption

theorem execCreditReturn_follows (p : Nat) (l : List (Nat × Nat)) (slots : Nat) {s s' : State} (h : execCreditReturn p l slots s = .next s') : s.blk.Follows s'.blk := by
  have h0 := follows_refl s.blk
  unfold execCreditReturn at h
  refine cmd_follows h ?_
  try dsimp only
  apply follows_when
  · with_reducible assumption
  · intros
    apply hoDrain_follows
    apply pump_follows
    apply slotsBack_follows
    apply follows_each
    · with_reducible assumption
    · intros
      apply wr_follows
      with_reducible assumption

theorem execGatherReq_follows (q : GatherQ) (sent back : Bool) (step : Nat) {s s' : State} (h : execGatherReq q sent back step s = .next s') : s.blk.Follows s'.blk := by
  have h0 := follows_refl s.blk
  unfold execGatherReq at h
  refine cmd_follows h ?_
  try dsimp only
  split
  · apply follows_when
    · with_reducible assumption
    · intros
      apply setBorder_follows
      with_reducible assumption
  · split
    · apply error_follows
      apply groupUe_follows
      with_reducible assumption
    · split
      · apply error_follows
        with_reducible assumption
      · split
        · apply error_follows
          refine follows_of_fst (by assumption) ?_
          apply borderLoad_follows
          with_reducible assumption
        · apply sendTo_follows
          apply setBorder_follows
          refine follows_of_fst (by assumption) ?_
          apply borderLoad_follows
          with_reducible assumption

theorem execGatherServe_follows (data : List Byte) {s s' : State} (h : execGatherServe data s = .next s') : s.blk.Follows s'.blk := by
  have h0 := follows_refl s.blk
  unfold execGatherServe at h
  refine cmd_follows h ?_
  try dsimp only
  split
  · with_reducible assumption
  · apply sendTo_follows
    apply setBorder_follows
    with_reducible assumption

theorem execGatherPiece_follows (p group layer rank version : Nat) (data : List Byte) {s s' : State} (h : execGatherPiece p group layer rank version data s = .next s') : s.blk.Follows s'.blk := by
  have h0 := follows_refl s.blk
  unfold execGatherPiece at h
  refine cmd_follows h ?_
  try dsimp only
  apply follows_when
  · with_reducible assumption
  · intros
    apply settled_follows
    apply gatherPiece_follows
    assumption

theorem execCountRecord_follows (p : Nat) (x : ExpertHdr) (n size : Nat) (sent : Bool) {s s' : State} (h : execCountRecord p x n size sent s = .next s') : s.blk.Follows s'.blk := by
  have h0 := follows_refl s.blk
  unfold execCountRecord at h
  refine cmd_follows h ?_
  try dsimp only
  split
  · apply countSend_follows
    with_reducible assumption
  · apply rx_follows
    with_reducible assumption

theorem execExpertTokens_follows (p : Nat) (x : ExpertHdr) (data : List Byte) (sent : Bool) {s s' : State} (h : execExpertTokens p x data sent s = .next s') : s.blk.Follows s'.blk := by
  have h0 := follows_refl s.blk
  unfold execExpertTokens at h
  refine cmd_follows h ?_
  try dsimp only
  split
  · apply tokensSend_follows
    with_reducible assumption
  · apply rx_follows
    with_reducible assumption

theorem execBucketDeadlineExpire_follows (k : BKey) {s s' : State} (h : execBucketDeadlineExpire k s = .next s') : s.blk.Follows s'.blk := by
  have h0 := follows_refl s.blk
  unfold execBucketDeadlineExpire at h
  refine cmd_follows h ?_
  try dsimp only
  split
  · apply follows_when
    · with_reducible assumption
    · intros
      apply settled_follows
      apply ownAbort_follows
      assumption
  · with_reducible assumption

theorem execGroupDeadlineExpire_follows (group step attempt : Nat) {s s' : State} (h : execGroupDeadlineExpire group step attempt s = .next s') : s.blk.Follows s'.blk := by
  have h0 := follows_refl s.blk
  unfold execGroupDeadlineExpire at h
  refine cmd_follows h ?_
  try dsimp only
  apply follows_when
  · with_reducible assumption
  · intros
    apply settled_follows
    apply ownAbort_follows
    assumption

end Sys2Proof.Laws
end

