-- ==== Sys2Proof/Laws/KeepsChain.lean ====
section
/-! SUPPORT. Each command of Machine/Chain.lean stays in `Blk.Follows`. -/

namespace Sys2Proof.Laws

open Sys2Proof.Machine

theorem execChainOpStart_follows (k : Nat) {s s' : State} (h : execChainOpStart k s = .next s') : s.blk.Follows s'.blk := by
  have h0 := follows_refl s.blk
  unfold execChainOpStart at h
  refine cmd_follows h ?_
  try dsimp only
  apply chStart_follows
  with_reducible assumption

theorem execChainOpEnd_follows (k : Nat) {s s' : State} (h : execChainOpEnd k s = .next s') : s.blk.Follows s'.blk := by
  have h0 := follows_refl s.blk
  unfold execChainOpEnd at h
  refine cmd_follows h ?_
  try dsimp only
  split
  · apply chFinish_follows
    with_reducible assumption
  · with_reducible assumption

theorem execChainSuspend_follows (k addr : Nat) {s s' : State} (h : execChainSuspend k addr s = .next s') : s.blk.Follows s'.blk := by
  have h0 := follows_refl s.blk
  unfold execChainSuspend at h
  refine cmd_follows h ?_
  try dsimp only
  split
  · with_reducible assumption
  · split
    · with_reducible assumption
    · apply chFinish_follows
      apply markUe_follows
      with_reducible assumption

end Sys2Proof.Laws
end

