-- ==== Sys2Proof/Laws/KeepsDma.lean ====
section
/-! SUPPORT. Each command of Machine/Dma.lean stays in `Blk.Follows`. -/

namespace Sys2Proof.Laws

open Sys2Proof.Machine

theorem execDmaStreamStart_follows (c : Nat) {s s' : State} (h : execDmaStreamStart c s = .next s') : s.blk.Follows s'.blk := by
  have h0 := follows_refl s.blk
  unfold execDmaStreamStart at h
  refine cmd_follows h ?_
  try dsimp only
  split
  · with_reducible assumption
  · split
    · apply dmaStart_follows
      with_reducible assumption
    · apply hoopStart_follows
      with_reducible assumption

theorem execDmaStreamEnd_follows (c : Nat) {s s' : State} (h : execDmaStreamEnd c s = .next s') : s.blk.Follows s'.blk := by
  have h0 := follows_refl s.blk
  unfold execDmaStreamEnd at h
  refine cmd_follows h ?_
  try dsimp only
  split
  · apply dmaFinish_follows
    with_reducible assumption
  · with_reducible assumption

theorem execDmaStreamFault_follows (c : Nat) (ue : Option Nat) {s s' : State} (h : execDmaStreamFault c ue s = .next s') : s.blk.Follows s'.blk := by
  have h0 := follows_refl s.blk
  unfold execDmaStreamFault at h
  refine cmd_follows h ?_
  try dsimp only
  split
  · with_reducible assumption
  · split
    · split
      · apply dmaFinish_follows
        split
        · apply markUe_follows
          with_reducible assumption
        · with_reducible assumption
      · with_reducible assumption
    · with_reducible assumption

theorem execTranslationWalkEnd_follows (u va : Nat) (write v : Bool) {s s' : State} (h : execTranslationWalkEnd u va write v s = .next s') : s.blk.Follows s'.blk := by
  have h0 := follows_refl s.blk
  unfold execTranslationWalkEnd at h
  refine cmd_follows h ?_
  try dsimp only
  split
  · refine follows_of_fst (by assumption) ?_
    split
    · apply walkEnd_follows
      with_reducible assumption
    · apply xlate1_follows
      with_reducible assumption
  · apply walkFailed_follows
    refine follows_of_fst (by assumption) ?_
    split
    · apply walkEnd_follows
      with_reducible assumption
    · apply xlate1_follows
      with_reducible assumption

theorem execInvalComplete_follows  {s s' : State} (h : execInvalComplete  s = .next s') : s.blk.Follows s'.blk := by
  have h0 := follows_refl s.blk
  unfold execInvalComplete at h
  refine cmd_follows h ?_
  try dsimp only
  apply follows_when
  · with_reducible assumption
  · intros
    apply event_follows
    apply wr_follows
    assumption

theorem execScrubLine_follows (pa : Nat) (ce last : Bool) {s s' : State} (h : execScrubLine pa ce last s = .next s') : s.blk.Follows s'.blk := by
  have h0 := follows_refl s.blk
  unfold execScrubLine at h
  refine cmd_follows h ?_
  try dsimp only
  apply scrub_follows
  with_reducible assumption

end Sys2Proof.Laws
end

