-- ==== Sys2Proof/Laws/KeepsFar.lean ====
section
/-! SUPPORT. Each command of Machine/Far.lean stays in `Blk.Follows`. -/

namespace Sys2Proof.Laws

open Sys2Proof.Machine

theorem execManifest_follows (mid : Nat) (signer : Option Nat) {s s' : State} (h : execManifest mid signer s = .next s') : s.blk.Follows s'.blk := by
  have h0 := follows_refl s.blk
  unfold execManifest at h
  refine cmd_follows h ?_
  try dsimp only
  split
  · apply follows_when
    · with_reducible assumption
    · intros
      apply manifestIn_follows
      assumption
  · with_reducible assumption

theorem execManifestCloseTimeout_follows  {s s' : State} (h : execManifestCloseTimeout  s = .next s') : s.blk.Follows s'.blk := by
  have h0 := follows_refl s.blk
  unfold execManifestCloseTimeout at h
  refine cmd_follows h ?_
  try dsimp only
  split
  · split
    · with_reducible assumption
    · split
      · apply closeRound_follows
        with_reducible assumption
      · apply roundLate_follows
        with_reducible assumption
  · with_reducible assumption

theorem execManifestSigned_follows  {s s' : State} (h : execManifestSigned  s = .next s') : s.blk.Follows s'.blk := by
  have h0 := follows_refl s.blk
  unfold execManifestSigned at h
  refine cmd_follows h ?_
  try dsimp only
  split
  · with_reducible assumption
  · apply manSend_follows
    apply anchorDigest_follows
    with_reducible assumption

theorem execFetchWaitExpire_follows (mid : Nat) {s s' : State} (h : execFetchWaitExpire mid s = .next s') : s.blk.Follows s'.blk := by
  have h0 := follows_refl s.blk
  unfold execFetchWaitExpire at h
  refine cmd_follows h ?_
  try dsimp only
  apply follows_when
  · with_reducible assumption
  · intros
    split
    · refine follows_of_fst (by assumption) ?_
      apply postMsg_follows
      assumption
    · apply inc_follows
      refine follows_of_fst (by assumption) ?_
      apply postMsg_follows
      assumption
    · apply farFail_follows
      refine follows_of_fst (by assumption) ?_
      apply postMsg_follows
      assumption

theorem execSendDescriptorTake_follows {s s' : State} (h : execSendDescriptorTake s = .next s') : s.blk.Follows s'.blk := by
  have h0 := follows_refl s.blk
  unfold execSendDescriptorTake at h
  refine cmd_follows h ?_
  try dsimp only
  apply follows_when
  · with_reducible assumption
  · intros
    split
    · apply sqRefuse_follows
      refine follows_of_fst (by assumption) ?_
      apply loadVa_follows
      with_reducible assumption
    · apply sqTake_follows
      refine follows_of_fst (by assumption) ?_
      apply loadVa_follows
      with_reducible assumption

theorem execDataRec_follows (h : FarHdr) (plain : List Byte) {s s' : State} (h : execDataRec h plain s = .next s') : s.blk.Follows s'.blk := by
  have h0 := follows_refl s.blk
  unfold execDataRec at h
  refine cmd_follows h ?_
  try dsimp only
  apply dataIn_follows
  with_reducible assumption

theorem execAck_follows (h : FarHdr) (below : Nat) (ranges : List (Nat × Nat)) (window : Nat) {s s' : State} (h : execAck h below ranges window s = .next s') : s.blk.Follows s'.blk := by
  have h0 := follows_refl s.blk
  unfold execAck at h
  refine cmd_follows h ?_
  try dsimp only
  apply farIn_follows
  · with_reducible assumption
  · intros
    apply pumpPeer_follows
    apply follows_each
    · apply setFpeer_follows
      assumption
    · intros
      apply sendDone_follows
      assumption

theorem execAckTimer_follows (peer : Nat) {s s' : State} (h : execAckTimer peer s = .next s') : s.blk.Follows s'.blk := by
  have h0 := follows_refl s.blk
  unfold execAckTimer at h
  refine cmd_follows h ?_
  try dsimp only
  apply follows_when
  · with_reducible assumption
  · intros
    apply sendAck_follows
    assumption

theorem execResendTimeout_follows (peer rec : Nat) {s s' : State} (h : execResendTimeout peer rec s = .next s') : s.blk.Follows s'.blk := by
  have h0 := follows_refl s.blk
  unfold execResendTimeout at h
  refine cmd_follows h ?_
  try dsimp only
  split
  · apply follows_when
    · with_reducible assumption
    · intros
      apply resend_follows
      assumption
  · with_reducible assumption

theorem execHeartbeatTimer_follows (now : Nat) (answers : List FarAnswer) {s s' : State} (h : execHeartbeatTimer now answers s = .next s') : s.blk.Follows s'.blk := by
  have h0 := follows_refl s.blk
  unfold execHeartbeatTimer at h
  refine cmd_follows h ?_
  try dsimp only
  apply follows_each
  · split
    · apply follows_each
      · with_reducible assumption
      · intros
        apply sessionAnswer_follows
        assumption
    · with_reducible assumption
  · intros
    apply follows_each
    · assumption
    · intros
      split
      · apply farSend_follows
        apply setFpeer_follows
        assumption
      · assumption

theorem execHeartbeat_follows (h : FarHdr) (seq time turn : Nat) {s s' : State} (h : execHeartbeat h seq time turn s = .next s') : s.blk.Follows s'.blk := by
  have h0 := follows_refl s.blk
  unfold execHeartbeat at h
  refine cmd_follows h ?_
  try dsimp only
  apply farIn_follows
  · with_reducible assumption
  · intros
    split
    · apply routeBack_follows
      apply setFpeer_follows
      apply farSend_follows
      assumption
    · apply farSend_follows
      assumption

theorem execEcho_follows (h : FarHdr) (sample : Nat) {s s' : State} (h : execEcho h sample s = .next s') : s.blk.Follows s'.blk := by
  have h0 := follows_refl s.blk
  unfold execEcho at h
  refine cmd_follows h ?_
  try dsimp only
  apply farIn_follows
  · with_reducible assumption
  · intros
    split
    · apply routeBack_follows
      apply setFpeer_follows
      assumption
    · split
      · apply setFpeer_follows
        assumption
      · assumption

theorem execRouteLostTimeout_follows (peer route : Nat) {s s' : State} (h : execRouteLostTimeout peer route s = .next s') : s.blk.Follows s'.blk := by
  have h0 := follows_refl s.blk
  unfold execRouteLostTimeout at h
  refine cmd_follows h ?_
  try dsimp only
  split
  · apply routeLost_follows
    split
    · apply farSend_follows
      apply event_follows
      apply error_follows
      apply inc_follows
      with_reducible assumption
    · apply event_follows
      apply error_follows
      apply inc_follows
      with_reducible assumption
  · split
    · apply setFpeer_follows
      with_reducible assumption
    · with_reducible assumption

theorem execRouteDown_follows (h : FarHdr) (route : Nat) {s s' : State} (h : execRouteDown h route s = .next s') : s.blk.Follows s'.blk := by
  have h0 := follows_refl s.blk
  unfold execRouteDown at h
  refine cmd_follows h ?_
  try dsimp only
  apply farIn_follows
  · with_reducible assumption
  · intros
    split
    · apply routeLost_follows
      assumption
    · assumption

theorem execFarRekeyDue_follows (peer age : Nat) {s s' : State} (h : execFarRekeyDue peer age s = .next s') : s.blk.Follows s'.blk := by
  have h0 := follows_refl s.blk
  unfold execFarRekeyDue at h
  refine cmd_follows h ?_
  try dsimp only
  apply follows_when
  · with_reducible assumption
  · intros
    apply farRekey_follows
    with_reducible assumption

theorem execFarPrevKeyExpire_follows (peer : Nat) {s s' : State} (h : execFarPrevKeyExpire peer s = .next s') : s.blk.Follows s'.blk := by
  have h0 := follows_refl s.blk
  unfold execFarPrevKeyExpire at h
  refine cmd_follows h ?_
  try dsimp only
  apply wr_follows
  with_reducible assumption

theorem execKeyRec_follows (h : FarHdr) (e : Nat) {s s' : State} (h : execKeyRec h e s = .next s') : s.blk.Follows s'.blk := by
  have h0 := follows_refl s.blk
  unfold execKeyRec at h
  refine cmd_follows h ?_
  try dsimp only
  apply farIn_follows
  · with_reducible assumption
  · intros
    assumption

theorem execNeighborDiscovery_follows (f : Nat) (m : NdMsg) {s s' : State} (h : execNeighborDiscovery f m s = .next s') : s.blk.Follows s'.blk := by
  have h0 := follows_refl s.blk
  unfold execNeighborDiscovery at h
  refine cmd_follows h ?_
  try dsimp only
  apply follows_when
  · with_reducible assumption
  · intros
    split
    · apply inc_follows
      refine follows_of_fst (by assumption) ?_
      apply peerEntry_follows
      apply add64_follows
      assumption
    · split
      · split
        · apply follows_send
          apply add64_follows
          refine follows_of_fst (by assumption) ?_
          apply peerEntry_follows
          apply add64_follows
          assumption
        · apply inc_follows
          refine follows_of_fst (by assumption) ?_
          apply peerEntry_follows
          apply add64_follows
          assumption
      · split
        · apply setFar_follows
          refine follows_of_fst (by assumption) ?_
          apply peerEntry_follows
          apply add64_follows
          assumption
        · apply inc_follows
          refine follows_of_fst (by assumption) ?_
          apply peerEntry_follows
          apply add64_follows
          assumption

theorem execFarFrameDrop_follows (f : Nat) (why : FarDrop) {s s' : State} (h : execFarFrameDrop f why s = .next s') : s.blk.Follows s'.blk := by
  have h0 := follows_refl s.blk
  unfold execFarFrameDrop at h
  refine cmd_follows h ?_
  try dsimp only
  split
  · apply inc_follows
    apply add64_follows
    with_reducible assumption
  · apply inc_follows
    apply inc_follows
    apply add64_follows
    with_reducible assumption
  · apply inc_follows
    apply add64_follows
    with_reducible assumption
  · apply inc_follows
    with_reducible assumption
  · apply add64_follows
    with_reducible assumption

theorem execFmacLinkDown_follows (f lanes : Nat) {s s' : State} (h : execFmacLinkDown f lanes s = .next s') : s.blk.Follows s'.blk := by
  have h0 := follows_refl s.blk
  unfold execFmacLinkDown at h
  refine cmd_follows h ?_
  try dsimp only
  split
  · apply event_follows
    apply wr_follows
    apply wr_follows
    with_reducible assumption
  · apply wr_follows
    with_reducible assumption

theorem execFmacLinkUp_follows (f : Nat) {s s' : State} (h : execFmacLinkUp f s = .next s') : s.blk.Follows s'.blk := by
  have h0 := follows_refl s.blk
  unfold execFmacLinkUp at h
  refine cmd_follows h ?_
  try dsimp only
  apply follows_when
  · with_reducible assumption
  · intros
    apply event_follows
    apply wr_follows
    apply wr_follows
    assumption

end Sys2Proof.Laws
end

