-- ==== Sys2Proof/Laws/KeepsFarCoder.lean ====
section
/-! SUPPORT. Each command of Machine/FarCoder.lean stays in `Blk.Follows`. -/

namespace Sys2Proof.Laws

open Sys2Proof.Machine

theorem execFcodEncode_follows (f : Nat) {s s' : State} (h : execFcodEncode f s = .next s') : s.blk.Follows s'.blk := by
  have h0 := follows_refl s.blk
  unfold execFcodEncode at h
  refine cmd_follows h ?_
  try dsimp only
  apply takeJob_follows
  with_reducible assumption

theorem execFcodDecode_follows (f : Nat) {s s' : State} (h : execFcodDecode f s = .next s') : s.blk.Follows s'.blk := by
  have h0 := follows_refl s.blk
  unfold execFcodDecode at h
  refine cmd_follows h ?_
  try dsimp only
  apply takeJob_follows
  with_reducible assumption

theorem execCodecBlockEncode_follows (c : Nat) {s s' : State} (h : execCodecBlockEncode c s = .next s') : s.blk.Follows s'.blk := by
  have h0 := follows_refl s.blk
  unfold execCodecBlockEncode at h
  refine cmd_follows h ?_
  try dsimp only
  split
  · apply nearBlock_follows
    with_reducible assumption
  · apply farBlock_follows
    with_reducible assumption

theorem execCodecBlockDecode_follows (c : Nat) {s s' : State} (h : execCodecBlockDecode c s = .next s') : s.blk.Follows s'.blk := by
  have h0 := follows_refl s.blk
  unfold execCodecBlockDecode at h
  refine cmd_follows h ?_
  try dsimp only
  split
  · apply nearBlock_follows
    with_reducible assumption
  · apply farBlock_follows
    with_reducible assumption

theorem execFcodJobEnd_follows (f : Nat) {s s' : State} (h : execFcodJobEnd f s = .next s') : s.blk.Follows s'.blk := by
  have h0 := follows_refl s.blk
  unfold execFcodJobEnd at h
  refine cmd_follows h ?_
  try dsimp only
  split
  · split
    · apply jobEnd_follows
      with_reducible assumption
    · with_reducible assumption
  · with_reducible assumption

end Sys2Proof.Laws
end

