-- ==== Sys2Proof/Laws/KeepsIssue.lean ====
section
/-! SUPPORT. Each command of Machine/Issue.lean stays in `Blk.Follows`. -/

namespace Sys2Proof.Laws

open Sys2Proof.Machine

theorem execIssMat_follows (t : Tid) {s s' : State} (h : execIssMat t s = .next s') : s.blk.Follows s'.blk := by
  have h0 := follows_refl s.blk
  unfold execIssMat at h
  refine cmd_follows h ?_
  try dsimp only
  apply issue_follows
  with_reducible assumption

theorem execIssVec_follows (t : Tid) {s s' : State} (h : execIssVec t s = .next s') : s.blk.Follows s'.blk := by
  have h0 := follows_refl s.blk
  unfold execIssVec at h
  refine cmd_follows h ?_
  try dsimp only
  apply issue_follows
  with_reducible assumption

theorem execIssRow_follows (t : Tid) {s s' : State} (h : execIssRow t s = .next s') : s.blk.Follows s'.blk := by
  have h0 := follows_refl s.blk
  unfold execIssRow at h
  refine cmd_follows h ?_
  try dsimp only
  apply issue_follows
  with_reducible assumption

theorem execIssDma_follows (t : Tid) {s s' : State} (h : execIssDma t s = .next s') : s.blk.Follows s'.blk := by
  have h0 := follows_refl s.blk
  unfold execIssDma at h
  refine cmd_follows h ?_
  try dsimp only
  apply issue_follows
  with_reducible assumption

theorem execIssSum_follows (t : Tid) {s s' : State} (h : execIssSum t s = .next s') : s.blk.Follows s'.blk := by
  have h0 := follows_refl s.blk
  unfold execIssSum at h
  refine cmd_follows h ?_
  try dsimp only
  apply issue_follows
  with_reducible assumption

end Sys2Proof.Laws
end

