-- ==== Sys2Proof/Laws/KeepsLid.lean ====
section
/-! SUPPORT. Each command of Machine/Lid.lean stays in `Blk.Follows`. -/

namespace Sys2Proof.Laws

open Sys2Proof.Machine

theorem execOwnerClaim_follows (tok : Token) {s s' : State} (h : execOwnerClaim tok s = .next s') : s.blk.Follows s'.blk := by
  have h0 := follows_refl s.blk
  unfold execOwnerClaim at h
  refine cmd_follows h ?_
  try dsimp only
  apply follows_when
  · with_reducible assumption
  · intros
    split
    · apply attest_follows
      apply stateEvents_follows
      apply nonceUsed_follows
      apply lidVoid_follows
      apply wr_follows
      apply claimRecord_follows
      with_reducible assumption
    · apply tokenRefused_follows
      with_reducible assumption

theorem execOwnerRelease_follows (tok : Token) {s s' : State} (h : execOwnerRelease tok s = .next s') : s.blk.Follows s'.blk := by
  have h0 := follows_refl s.blk
  unfold execOwnerRelease at h
  refine cmd_follows h ?_
  try dsimp only
  apply follows_when
  · with_reducible assumption
  · intros
    split
    · apply attest_follows
      apply nonceUsed_follows
      apply zeroStart_follows
      assumption
    · apply tokenRefused_follows
      assumption

theorem execDebugOpen_follows (tok : Token) {s s' : State} (h : execDebugOpen tok s = .next s') : s.blk.Follows s'.blk := by
  have h0 := follows_refl s.blk
  unfold execDebugOpen at h
  refine cmd_follows h ?_
  try dsimp only
  apply follows_when
  · with_reducible assumption
  · intros
    split
    · apply attest_follows
      apply nonceUsed_follows
      apply orBits_follows
      assumption
    · apply tokenRefused_follows
      assumption

theorem execFirmwareApproval_follows (tok : Token) {s s' : State} (h : execFirmwareApproval tok s = .next s') : s.blk.Follows s'.blk := by
  have h0 := follows_refl s.blk
  unfold execFirmwareApproval at h
  refine cmd_follows h ?_
  try dsimp only
  apply follows_when
  · with_reducible assumption
  · intros
    split
    · apply attest_follows
      apply follows_mk
      assumption
    · apply tokenRefused_follows
      assumption

theorem execServiceToken_follows (viaMgmt : Bool) (tok : SvcToken) {s s' : State} (h : execServiceToken viaMgmt tok s = .next s') : s.blk.Follows s'.blk := by
  have h0 := follows_refl s.blk
  unfold execServiceToken at h
  refine cmd_follows h ?_
  try dsimp only
  apply follows_when
  · with_reducible assumption
  · intros
    split
    · apply svcMeet_follows
      split
      · apply mgmtAnswer_follows
        apply follows_mk
        assumption
      · apply attest_follows
        apply follows_mk
        assumption
    · split
      · apply mgmtAnswer_follows
        apply authFail_follows
        assumption
      · apply attest_follows
        apply authFail_follows
        assumption

theorem execServiceConsent_follows  {s s' : State} (h : execServiceConsent  s = .next s') : s.blk.Follows s'.blk := by
  have h0 := follows_refl s.blk
  unfold execServiceConsent at h
  refine cmd_follows h ?_
  try dsimp only
  apply follows_when
  · with_reducible assumption
  · intros
    split
    · apply svcMeet_follows
      apply mgmtAnswer_follows
      apply follows_mk
      assumption
    · apply mgmtAnswer_follows
      apply authFail_follows
      assumption

theorem execServiceHoldLapse_follows (consent : Bool) {s s' : State} (h : execServiceHoldLapse consent s = .next s') : s.blk.Follows s'.blk := by
  have h0 := follows_refl s.blk
  unfold execServiceHoldLapse at h
  refine cmd_follows h ?_
  try dsimp only
  apply follows_mk
  with_reducible assumption

theorem execServiceExit_follows  {s s' : State} (h : execServiceExit  s = .next s') : s.blk.Follows s'.blk := by
  have h0 := follows_refl s.blk
  unfold execServiceExit at h
  refine cmd_follows h ?_
  try dsimp only
  split
  · apply zeroStart_follows
    with_reducible assumption
  · apply authFail_follows
    with_reducible assumption

theorem execZeroiseQuiesceEnd_follows  {s s' : State} (h : execZeroiseQuiesceEnd  s = .next s') : s.blk.Follows s'.blk := by
  have h0 := follows_refl s.blk
  unfold execZeroiseQuiesceEnd at h
  refine cmd_follows h ?_
  try dsimp only
  apply zeroQuiesced_follows
  with_reducible assumption

theorem execZeroiseMediaDone_follows  {s s' : State} (h : execZeroiseMediaDone  s = .next s') : s.blk.Follows s'.blk := by
  have h0 := follows_refl s.blk
  unfold execZeroiseMediaDone at h
  refine cmd_follows h ?_
  try dsimp only
  apply zeroDone_follows
  with_reducible assumption

theorem execClaimWindowExpire_follows  {s s' : State} (h : execClaimWindowExpire  s = .next s') : s.blk.Follows s'.blk := by
  have h0 := follows_refl s.blk
  unfold execClaimWindowExpire at h
  refine cmd_follows h ?_
  try dsimp only
  apply follows_when
  · with_reducible assumption
  · intros
    apply wr_follows
    apply wr_follows
    assumption

theorem execClaimLeftTick_follows  {s s' : State} (h : execClaimLeftTick  s = .next s') : s.blk.Follows s'.blk := by
  have h0 := follows_refl s.blk
  unfold execClaimLeftTick at h
  refine cmd_follows h ?_
  try dsimp only
  apply follows_when
  · with_reducible assumption
  · intros
    apply dec_follows
    assumption

theorem execDomainKeyInstalled_follows (d : Nat) {s s' : State} (h : execDomainKeyInstalled d s = .next s') : s.blk.Follows s'.blk := by
  have h0 := follows_refl s.blk
  unfold execDomainKeyInstalled at h
  refine cmd_follows h ?_
  try dsimp only
  apply follows_when
  · with_reducible assumption
  · intros
    apply clrBits_follows
    apply follows_mk
    assumption

theorem execImageReadyPoint_follows (kind : Nat) {s s' : State} (h : execImageReadyPoint kind s = .next s') : s.blk.Follows s'.blk := by
  have h0 := follows_refl s.blk
  unfold execImageReadyPoint at h
  refine cmd_follows h ?_
  try dsimp only
  apply follows_when
  · with_reducible assumption
  · intros
    apply commitImage_follows
    split
    · apply migrateEnd_follows
      assumption
    · assumption

theorem execSanitisedWindowEnd_follows (sample : WindowSample) {s s' : State} (h : execSanitisedWindowEnd sample s = .next s') : s.blk.Follows s'.blk := by
  have h0 := follows_refl s.blk
  unfold execSanitisedWindowEnd at h
  refine cmd_follows h ?_
  try dsimp only
  apply follows_when
  · with_reducible assumption
  · intros
    apply stateEvents_follows
    split
    · apply follows_mk
      apply telWindow_follows
      apply follows_send
      assumption
    · apply follows_each
      · apply follows_mk
        apply telWindow_follows
        apply follows_send
        assumption
      · intros
        apply platformEvent_follows
        assumption

end Sys2Proof.Laws
end

