-- ==== Sys2Proof/Laws/KeepsMatrix.lean ====
section
/-! SUPPORT. Each command of Machine/Matrix.lean stays in `Blk.Follows`. -/

namespace Sys2Proof.Laws

open Sys2Proof.Machine

theorem execMatrixOpStart_follows (k : Nat) {s s' : State} (h : execMatrixOpStart k s = .next s') : s.blk.Follows s'.blk := by
  have h0 := follows_refl s.blk
  unfold execMatrixOpStart at h
  refine cmd_follows h ?_
  try dsimp only
  apply matStart_follows
  with_reducible assumption

theorem execMatrixOpEnd_follows (k : Nat) {s s' : State} (h : execMatrixOpEnd k s = .next s') : s.blk.Follows s'.blk := by
  have h0 := follows_refl s.blk
  unfold execMatrixOpEnd at h
  refine cmd_follows h ?_
  try dsimp only
  split
  · apply matFinish_follows
    with_reducible assumption
  · with_reducible assumption

theorem execMatrixSuspend_follows (k addr : Nat) {s s' : State} (h : execMatrixSuspend k addr s = .next s') : s.blk.Follows s'.blk := by
  have h0 := follows_refl s.blk
  unfold execMatrixSuspend at h
  refine cmd_follows h ?_
  try dsimp only
  split
  · with_reducible assumption
  · split
    · split
      · apply matFinish_follows
        apply markUe_follows
        with_reducible assumption
      · with_reducible assumption
    · with_reducible assumption

end Sys2Proof.Laws
end

