-- ==== Sys2Proof/Laws/KeepsMgmt.lean ====
section
/-! SUPPORT. Each command of Machine/Mgmt.lean stays in `Blk.Follows`. -/

namespace Sys2Proof.Laws

open Sys2Proof.Machine

theorem execI3cEntdaa_follows (addr : Nat) {s s' : State} (h : execI3cEntdaa addr s = .next s') : s.blk.Follows s'.blk := by
  have h0 := follows_refl s.blk
  unfold execI3cEntdaa at h
  refine cmd_follows h ?_
  try dsimp only
  apply request_follows
  · with_reducible assumption
  · intros
    apply follows_send
    apply event_follows
    apply wr_follows
    apply wr_follows
    with_reducible assumption

theorem execSetEndpointId_follows (eid : Nat) {s s' : State} (h : execSetEndpointId eid s = .next s') : s.blk.Follows s'.blk := by
  have h0 := follows_refl s.blk
  unfold execSetEndpointId at h
  refine cmd_follows h ?_
  try dsimp only
  apply request_follows
  · with_reducible assumption
  · intros
    apply mgmtAnswer_follows
    apply wr_follows
    assumption

theorem execGetEndpointId_follows  {s s' : State} (h : execGetEndpointId  s = .next s') : s.blk.Follows s'.blk := by
  have h0 := follows_refl s.blk
  unfold execGetEndpointId at h
  refine cmd_follows h ?_
  try dsimp only
  apply request_follows
  · with_reducible assumption
  · intros
    apply mgmtAnswer_follows
    assumption

theorem execGetEndpointUuid_follows  {s s' : State} (h : execGetEndpointUuid  s = .next s') : s.blk.Follows s'.blk := by
  have h0 := follows_refl s.blk
  unfold execGetEndpointUuid at h
  refine cmd_follows h ?_
  try dsimp only
  apply request_follows
  · with_reducible assumption
  · intros
    apply mgmtAnswer_follows
    assumption

theorem execGetMctpVersionSupport_follows (type : Nat) {s s' : State} (h : execGetMctpVersionSupport type s = .next s') : s.blk.Follows s'.blk := by
  have h0 := follows_refl s.blk
  unfold execGetMctpVersionSupport at h
  refine cmd_follows h ?_
  try dsimp only
  apply request_follows
  · with_reducible assumption
  · intros
    apply mgmtAnswer_follows
    assumption

theorem execGetMessageTypeSupport_follows  {s s' : State} (h : execGetMessageTypeSupport  s = .next s') : s.blk.Follows s'.blk := by
  have h0 := follows_refl s.blk
  unfold execGetMessageTypeSupport at h
  refine cmd_follows h ?_
  try dsimp only
  apply request_follows
  · with_reducible assumption
  · intros
    apply mgmtAnswer_follows
    assumption

theorem execGetVendorDefinedMessageSupport_follows (k : Nat) {s s' : State} (h : execGetVendorDefinedMessageSupport k s = .next s') : s.blk.Follows s'.blk := by
  have h0 := follows_refl s.blk
  unfold execGetVendorDefinedMessageSupport at h
  refine cmd_follows h ?_
  try dsimp only
  apply request_follows
  · with_reducible assumption
  · intros
    split
    · apply mgmtAnswer_follows
      assumption
    · apply mgmtBad_follows
      assumption

theorem execGetTid_follows  {s s' : State} (h : execGetTid  s = .next s') : s.blk.Follows s'.blk := by
  have h0 := follows_refl s.blk
  unfold execGetTid at h
  refine cmd_follows h ?_
  try dsimp only
  apply request_follows
  · with_reducible assumption
  · intros
    apply mgmtAnswer_follows
    assumption

theorem execSetTid_follows (tid : Nat) {s s' : State} (h : execSetTid tid s = .next s') : s.blk.Follows s'.blk := by
  have h0 := follows_refl s.blk
  unfold execSetTid at h
  refine cmd_follows h ?_
  try dsimp only
  apply request_follows
  · with_reducible assumption
  · intros
    apply mgmtAnswer_follows
    apply follows_mk
    assumption

theorem execGetPldmVersion_follows (type : Nat) {s s' : State} (h : execGetPldmVersion type s = .next s') : s.blk.Follows s'.blk := by
  have h0 := follows_refl s.blk
  unfold execGetPldmVersion at h
  refine cmd_follows h ?_
  try dsimp only
  apply request_follows
  · with_reducible assumption
  · intros
    split
    · apply mgmtAnswer_follows
      assumption
    · apply mgmtBad_follows
      assumption

theorem execGetPldmTypes_follows  {s s' : State} (h : execGetPldmTypes  s = .next s') : s.blk.Follows s'.blk := by
  have h0 := follows_refl s.blk
  unfold execGetPldmTypes at h
  refine cmd_follows h ?_
  try dsimp only
  apply request_follows
  · with_reducible assumption
  · intros
    apply mgmtAnswer_follows
    assumption

theorem execGetPldmCommands_follows (type : Nat) {s s' : State} (h : execGetPldmCommands type s = .next s') : s.blk.Follows s'.blk := by
  have h0 := follows_refl s.blk
  unfold execGetPldmCommands at h
  refine cmd_follows h ?_
  try dsimp only
  apply request_follows
  · with_reducible assumption
  · intros
    split
    · apply mgmtAnswer_follows
      assumption
    · apply mgmtBad_follows
      assumption

theorem execGetPdrRepositoryInfo_follows  {s s' : State} (h : execGetPdrRepositoryInfo  s = .next s') : s.blk.Follows s'.blk := by
  have h0 := follows_refl s.blk
  unfold execGetPdrRepositoryInfo at h
  refine cmd_follows h ?_
  try dsimp only
  apply request_follows
  · with_reducible assumption
  · intros
    apply mgmtAnswer_follows
    assumption

theorem execGetPdr_follows (id : Nat) {s s' : State} (h : execGetPdr id s = .next s') : s.blk.Follows s'.blk := by
  have h0 := follows_refl s.blk
  unfold execGetPdr at h
  refine cmd_follows h ?_
  try dsimp only
  apply request_follows
  · with_reducible assumption
  · intros
    split
    · apply mgmtAnswer_follows
      assumption
    · apply mgmtBad_follows
      assumption

theorem execGetSensorReading_follows (id : Nat) {s s' : State} (h : execGetSensorReading id s = .next s') : s.blk.Follows s'.blk := by
  have h0 := follows_refl s.blk
  unfold execGetSensorReading at h
  refine cmd_follows h ?_
  try dsimp only
  apply request_follows
  · with_reducible assumption
  · intros
    split
    · apply mgmtAnswer_follows
      assumption
    · split
      · apply readAnswer_follows
        apply mgmtRead_follows
        assumption
      · apply mgmtBad_follows
        assumption

theorem execGetStateSensorReadings_follows (id : Nat) {s s' : State} (h : execGetStateSensorReadings id s = .next s') : s.blk.Follows s'.blk := by
  have h0 := follows_refl s.blk
  unfold execGetStateSensorReadings at h
  refine cmd_follows h ?_
  try dsimp only
  apply request_follows
  · with_reducible assumption
  · intros
    split
    · split
      · apply mgmtAnswer_follows
        refine follows_of_fst (by assumption) ?_
        apply mgmtRead_follows
        assumption
      · apply mgmtAnswer_follows
        refine follows_of_fst (by assumption) ?_
        apply mgmtRead_follows
        assumption
    · apply mgmtBad_follows
      assumption

theorem execSetNumericEffecterValue_follows (id v : Nat) {s s' : State} (h : execSetNumericEffecterValue id v s = .next s') : s.blk.Follows s'.blk := by
  have h0 := follows_refl s.blk
  unfold execSetNumericEffecterValue at h
  refine cmd_follows h ?_
  try dsimp only
  apply request_follows
  · with_reducible assumption
  · intros
    split
    · split
      · apply writeAnswer_follows
        apply mgmtWrite_follows
        assumption
      · apply mgmtBad_follows
        assumption
    · split
      · apply writeAnswer_follows
        apply mgmtWrite_follows
        assumption
      · apply mgmtBad_follows
        assumption
    · split
      · apply writeAnswer_follows
        apply mgmtWrite_follows
        assumption
      · apply mgmtBad_follows
        assumption
    · split
      · apply writeAnswer_follows
        apply mgmtWrite_follows
        assumption
      · apply mgmtBad_follows
        assumption
    · apply mgmtBad_follows
      assumption

theorem execGetNumericEffecterValue_follows (id : Nat) {s s' : State} (h : execGetNumericEffecterValue id s = .next s') : s.blk.Follows s'.blk := by
  have h0 := follows_refl s.blk
  unfold execGetNumericEffecterValue at h
  refine cmd_follows h ?_
  try dsimp only
  apply request_follows
  · with_reducible assumption
  · intros
    split
    · apply readAnswer_follows
      apply mgmtRead_follows
      assumption
    · split
      · split
        · apply mgmtAnswer_follows
          refine follows_of_fst (by assumption) ?_
          apply mgmtRead_follows
          refine follows_of_fst (by assumption) ?_
          apply mgmtRead_follows
          assumption
        · apply mgmtAnswer_follows
          refine follows_of_fst (by assumption) ?_
          apply mgmtRead_follows
          refine follows_of_fst (by assumption) ?_
          apply mgmtRead_follows
          assumption
      · apply mgmtAnswer_follows
        refine follows_of_fst (by assumption) ?_
        apply mgmtRead_follows
        assumption
    · apply readAnswer_follows
      apply mgmtRead_follows
      assumption
    · apply readAnswer_follows
      apply mgmtRead_follows
      assumption
    · apply mgmtBad_follows
      assumption

theorem execSetStateEffecterStates_follows (id v : Nat) {s s' : State} (h : execSetStateEffecterStates id v s = .next s') : s.blk.Follows s'.blk := by
  have h0 := follows_refl s.blk
  unfold execSetStateEffecterStates at h
  refine cmd_follows h ?_
  try dsimp only
  apply request_follows
  · with_reducible assumption
  · intros
    split
    · apply writeAnswer_follows
      apply mgmtWrite_follows
      assumption
    · apply writeAnswer_follows
      apply mgmtWrite_follows
      assumption
    · apply writeAnswer_follows
      apply mgmtWrite_follows
      assumption
    · apply writeAnswer_follows
      apply mgmtWrite_follows
      assumption
    · apply mgmtBad_follows
      assumption

theorem execGetStateEffecterStates_follows (id : Nat) {s s' : State} (h : execGetStateEffecterStates id s = .next s') : s.blk.Follows s'.blk := by
  have h0 := follows_refl s.blk
  unfold execGetStateEffecterStates at h
  refine cmd_follows h ?_
  try dsimp only
  apply request_follows
  · with_reducible assumption
  · intros
    split
    · apply readAnswer_follows
      apply mgmtRead_follows
      assumption
    · apply readAnswer_follows
      apply mgmtRead_follows
      assumption
    · apply mgmtBad_follows
      assumption

theorem execSetEventReceiver_follows (eid : Nat) {s s' : State} (h : execSetEventReceiver eid s = .next s') : s.blk.Follows s'.blk := by
  have h0 := follows_refl s.blk
  unfold execSetEventReceiver at h
  refine cmd_follows h ?_
  try dsimp only
  apply request_follows
  · with_reducible assumption
  · intros
    apply stateEvents_follows
    apply mgmtAnswer_follows
    apply event_follows
    apply wr_follows
    assumption

theorem execPlatformEventAck_follows (sensor : Nat) {s s' : State} (h : execPlatformEventAck sensor s = .next s') : s.blk.Follows s'.blk := by
  have h0 := follows_refl s.blk
  unfold execPlatformEventAck at h
  refine cmd_follows h ?_
  try dsimp only
  apply follows_when
  · with_reducible assumption
  · intros
    split
    · apply stateEvents_follows
      apply wr_follows
      apply follows_mk
      assumption
    · assumption

theorem execQueryDeviceIdentifiers_follows  {s s' : State} (h : execQueryDeviceIdentifiers  s = .next s') : s.blk.Follows s'.blk := by
  have h0 := follows_refl s.blk
  unfold execQueryDeviceIdentifiers at h
  refine cmd_follows h ?_
  try dsimp only
  apply request_follows
  · with_reducible assumption
  · intros
    apply mgmtAnswer_follows
    assumption

theorem execGetFirmwareParameters_follows  {s s' : State} (h : execGetFirmwareParameters  s = .next s') : s.blk.Follows s'.blk := by
  have h0 := follows_refl s.blk
  unfold execGetFirmwareParameters at h
  refine cmd_follows h ?_
  try dsimp only
  apply request_follows
  · with_reducible assumption
  · intros
    apply mgmtAnswer_follows
    assumption

theorem execRequestUpdate_follows  {s s' : State} (h : execRequestUpdate  s = .next s') : s.blk.Follows s'.blk := by
  have h0 := follows_refl s.blk
  unfold execRequestUpdate at h
  refine cmd_follows h ?_
  try dsimp only
  apply request_follows
  · with_reducible assumption
  · intros
    split
    · apply mgmtAnswer_follows
      apply follows_mk
      assumption
    · apply mgmtOrder_follows
      assumption

theorem execPassComponentTable_follows (kinds : List Nat) {s s' : State} (h : execPassComponentTable kinds s = .next s') : s.blk.Follows s'.blk := by
  have h0 := follows_refl s.blk
  unfold execPassComponentTable at h
  refine cmd_follows h ?_
  try dsimp only
  apply request_follows
  · with_reducible assumption
  · intros
    split
    · apply mgmtOrder_follows
      assumption
    · split
      · apply mgmtBad_follows
        assumption
      · apply mgmtAnswer_follows
        apply follows_mk
        assumption

theorem execUpdateComponent_follows (kind : Nat) {s s' : State} (h : execUpdateComponent kind s = .next s') : s.blk.Follows s'.blk := by
  have h0 := follows_refl s.blk
  unfold execUpdateComponent at h
  refine cmd_follows h ?_
  try dsimp only
  apply request_follows
  · with_reducible assumption
  · intros
    split
    · apply mgmtOrder_follows
      assumption
    · split
      · apply mgmtBad_follows
        assumption
      · apply follows_send
        apply mgmtAnswer_follows
        apply follows_mk
        assumption

theorem execVerifyComplete_follows (im : ImageIn) {s s' : State} (h : execVerifyComplete im s = .next s') : s.blk.Follows s'.blk := by
  have h0 := follows_refl s.blk
  unfold execVerifyComplete at h
  refine cmd_follows h ?_
  try dsimp only
  apply follows_when
  · with_reducible assumption
  · intros
    split
    · with_reducible assumption
    · split
      · apply follows_send
        apply follows_send
        apply follows_send
        apply follows_mk
        with_reducible assumption
      · apply follows_send
        apply follows_send
        apply follows_mk
        with_reducible assumption

theorem execActivateFirmware_follows  {s s' : State} (h : execActivateFirmware  s = .next s') : s.blk.Follows s'.blk := by
  have h0 := follows_refl s.blk
  unfold execActivateFirmware at h
  refine cmd_follows h ?_
  try dsimp only
  apply request_follows
  · with_reducible assumption
  · intros
    split
    · apply mgmtOrder_follows
      assumption
    · apply mgmtAnswer_follows
      apply stage_follows
      assumption

theorem execGetStatus_follows  {s s' : State} (h : execGetStatus  s = .next s') : s.blk.Follows s'.blk := by
  have h0 := follows_refl s.blk
  unfold execGetStatus at h
  refine cmd_follows h ?_
  try dsimp only
  apply request_follows
  · with_reducible assumption
  · intros
    apply mgmtAnswer_follows
    assumption

theorem execCancelUpdateComponent_follows  {s s' : State} (h : execCancelUpdateComponent  s = .next s') : s.blk.Follows s'.blk := by
  have h0 := follows_refl s.blk
  unfold execCancelUpdateComponent at h
  refine cmd_follows h ?_
  try dsimp only
  apply request_follows
  · with_reducible assumption
  · intros
    split
    · apply mgmtAnswer_follows
      apply follows_mk
      assumption
    · apply mgmtOrder_follows
      assumption

theorem execCancelUpdate_follows  {s s' : State} (h : execCancelUpdate  s = .next s') : s.blk.Follows s'.blk := by
  have h0 := follows_refl s.blk
  unfold execCancelUpdate at h
  refine cmd_follows h ?_
  try dsimp only
  apply request_follows
  · with_reducible assumption
  · intros
    split
    · apply mgmtAnswer_follows
      apply follows_mk
      assumption
    · apply mgmtOrder_follows
      assumption

end Sys2Proof.Laws
end

