-- ==== Sys2Proof/Laws/KeepsNearLink.lean ====
section
/-! SUPPORT. Each command of Machine/NearLink.lean stays in `Blk.Follows`. -/

namespace Sys2Proof.Laws

open Sys2Proof.Machine

theorem execNak_follows (p bit seq : Nat) {s s' : State} (h : execNak p bit seq s = .next s') : s.blk.Follows s'.blk := by
  have h0 := follows_refl s.blk
  unfold execNak at h
  refine cmd_follows h ?_
  try dsimp only
  split
  · apply follows_when
    · with_reducible assumption
    · intros
      apply replayFrom_follows
      assumption
  · with_reducible assumption

theorem execReplayTimeout_follows (p : Nat) {s s' : State} (h : execReplayTimeout p s = .next s') : s.blk.Follows s'.blk := by
  have h0 := follows_refl s.blk
  unfold execReplayTimeout at h
  refine cmd_follows h ?_
  try dsimp only
  apply follows_when
  · with_reducible assumption
  · intros
    apply replayFrom_follows
    assumption

theorem execNearRekeyDue_follows (p : Nat) {s s' : State} (h : execNearRekeyDue p s = .next s') : s.blk.Follows s'.blk := by
  have h0 := follows_refl s.blk
  unfold execNearRekeyDue at h
  refine cmd_follows h ?_
  try dsimp only
  apply follows_when
  · with_reducible assumption
  · intros
    apply rekey_follows
    assumption

theorem execKeyNext_follows (p e : Nat) {s s' : State} (h : execKeyNext p e s = .next s') : s.blk.Follows s'.blk := by
  have h0 := follows_refl s.blk
  unfold execKeyNext at h
  refine cmd_follows h ?_
  try dsimp only
  apply follows_when
  · with_reducible assumption
  · intros
    apply setNport_follows
    assumption

theorem execNearKeyInstalled_follows (p : Nat) {s s' : State} (h : execNearKeyInstalled p s = .next s') : s.blk.Follows s'.blk := by
  have h0 := follows_refl s.blk
  unfold execNearKeyInstalled at h
  refine cmd_follows h ?_
  try dsimp only
  split
  · apply control_follows
    apply epochChange_follows
    apply wr_follows
    apply wr_follows
    apply rxInstall_follows
    apply setNport_follows
    with_reducible assumption
  · with_reducible assumption

theorem execKeyReady_follows (p e : Nat) {s s' : State} (h : execKeyReady p e s = .next s') : s.blk.Follows s'.blk := by
  have h0 := follows_refl s.blk
  unfold execKeyReady at h
  refine cmd_follows h ?_
  try dsimp only
  apply follows_when
  · with_reducible assumption
  · intros
    apply pump_follows
    apply retireTx_follows
    apply epochChange_follows
    apply wr_follows
    apply wr_follows
    apply txInstall_follows
    apply setNport_follows
    with_reducible assumption

theorem execKeyRetire_follows (p e : Nat) {s s' : State} (h : execKeyRetire p e s = .next s') : s.blk.Follows s'.blk := by
  have h0 := follows_refl s.blk
  unfold execKeyRetire at h
  refine cmd_follows h ?_
  try dsimp only
  apply follows_when
  · with_reducible assumption
  · intros
    apply keyWrite_follows
    apply wr_follows
    with_reducible assumption

theorem execFlitReceive_follows (p : Nat) (f : FlitIn) {s s' : State} (h : execFlitReceive p f s = .next s') : s.blk.Follows s'.blk := by
  have h0 := follows_refl s.blk
  unfold execFlitReceive at h
  refine cmd_follows h ?_
  try dsimp only
  apply follows_when
  · with_reducible assumption
  · intros
    apply flit_follows
    assumption

theorem execCreditReturnTimer_follows (p : Nat) {s s' : State} (h : execCreditReturnTimer p s = .next s') : s.blk.Follows s'.blk := by
  have h0 := follows_refl s.blk
  unfold execCreditReturnTimer at h
  refine cmd_follows h ?_
  try dsimp only
  apply follows_when
  · with_reducible assumption
  · intros
    apply returnCredits_follows
    assumption

theorem execLaneFail_follows (p n : Nat) {s s' : State} (h : execLaneFail p n s = .next s') : s.blk.Follows s'.blk := by
  have h0 := follows_refl s.blk
  unfold execLaneFail at h
  refine cmd_follows h ?_
  try dsimp only
  apply follows_when
  · with_reducible assumption
  · intros
    apply lanes4_follows
    apply control_follows
    apply inc_follows
    apply setNport_follows
    with_reducible assumption

theorem execWidth_follows (p w bad : Nat) {s s' : State} (h : execWidth p w bad s = .next s') : s.blk.Follows s'.blk := by
  have h0 := follows_refl s.blk
  unfold execWidth at h
  refine cmd_follows h ?_
  try dsimp only
  apply follows_when
  · with_reducible assumption
  · intros
    split
    · apply lanes8_follows
      apply setNport_follows
      with_reducible assumption
    · apply lanes4_follows
      apply setNport_follows
      with_reducible assumption

theorem execLaneRetrainAttempt_follows (p good : Nat) {s s' : State} (h : execLaneRetrainAttempt p good s = .next s') : s.blk.Follows s'.blk := by
  have h0 := follows_refl s.blk
  unfold execLaneRetrainAttempt at h
  refine cmd_follows h ?_
  try dsimp only
  apply follows_when
  · with_reducible assumption
  · intros
    apply setNport_follows
    assumption

theorem execLaneRestore_follows (p : Nat) {s s' : State} (h : execLaneRestore p s = .next s') : s.blk.Follows s'.blk := by
  have h0 := follows_refl s.blk
  unfold execLaneRestore at h
  refine cmd_follows h ?_
  try dsimp only
  apply follows_when
  · with_reducible assumption
  · intros
    apply lanes8_follows
    apply control_follows
    with_reducible assumption

theorem execTrainingStepDone_follows (p : Nat) (r : TrainResult) {s s' : State} (h : execTrainingStepDone p r s = .next s') : s.blk.Follows s'.blk := by
  have h0 := follows_refl s.blk
  unfold execTrainingStepDone at h
  refine cmd_follows h ?_
  try dsimp only
  apply trainStep_follows
  with_reducible assumption

theorem execTrainingStepTimeout_follows (p : Nat) {s s' : State} (h : execTrainingStepTimeout p s = .next s') : s.blk.Follows s'.blk := by
  have h0 := follows_refl s.blk
  unfold execTrainingStepTimeout at h
  refine cmd_follows h ?_
  try dsimp only
  apply follows_when
  · with_reducible assumption
  · intros
    apply setNport_follows
    assumption

theorem execTrainingRetry_follows (p : Nat) {s s' : State} (h : execTrainingRetry p s = .next s') : s.blk.Follows s'.blk := by
  have h0 := follows_refl s.blk
  unfold execTrainingRetry at h
  refine cmd_follows h ?_
  try dsimp only
  apply follows_when
  · with_reducible assumption
  · intros
    apply setNport_follows
    apply wr_follows
    assumption

theorem execCapabilityRecord_follows (p : Nat) (r : CapRecord) {s s' : State} (h : execCapabilityRecord p r s = .next s') : s.blk.Follows s'.blk := by
  have h0 := follows_refl s.blk
  unfold execCapabilityRecord at h
  refine cmd_follows h ?_
  try dsimp only
  apply follows_when
  · with_reducible assumption
  · intros
    split
    · apply setNport_follows
      apply wr_follows
      apply error_follows
      apply inc_follows
      with_reducible assumption
    · apply wr_follows
      apply wr64_follows
      apply setNport_follows
      split
      · with_reducible assumption
      · apply endSession_follows
        with_reducible assumption

theorem execRate_follows (p k : Nat) {s s' : State} (h : execRate p k s = .next s') : s.blk.Follows s'.blk := by
  have h0 := follows_refl s.blk
  unfold execRate at h
  refine cmd_follows h ?_
  try dsimp only
  apply follows_when
  · with_reducible assumption
  · intros
    apply wr_follows
    assumption

theorem execBackpressurePeriod_follows (p : Nat) (withheld low : Bool) {s s' : State} (h : execBackpressurePeriod p withheld low s = .next s') : s.blk.Follows s'.blk := by
  have h0 := follows_refl s.blk
  unfold execBackpressurePeriod at h
  refine cmd_follows h ?_
  try dsimp only
  apply follows_when
  · with_reducible assumption
  · intros
    split
    · split
      · assumption
      · apply control_follows
        apply wr_follows
        assumption
    · split
      · split
        · assumption
        · apply control_follows
          apply wr_follows
          assumption
      · split
        · assumption
        · apply control_follows
          apply wr_follows
          assumption

theorem execCblPresentN_follows (p : Nat) (present : Bool) {s s' : State} (h : execCblPresentN p present s = .next s') : s.blk.Follows s'.blk := by
  have h0 := follows_refl s.blk
  unfold execCblPresentN at h
  refine cmd_follows h ?_
  try dsimp only
  apply loadSwitch_follows
  apply setNport_follows
  with_reducible assumption

theorem execCableOvercurrent_follows (p ma : Nat) {s s' : State} (h : execCableOvercurrent p ma s = .next s') : s.blk.Follows s'.blk := by
  have h0 := follows_refl s.blk
  unfold execCableOvercurrent at h
  refine cmd_follows h ?_
  try dsimp only
  apply follows_when
  · with_reducible assumption
  · intros
    apply event_follows
    apply linkDown_follows
    apply setNport_follows
    apply loadSwitch_follows
    apply wr_follows
    apply wr_follows
    assumption

theorem execLoadSwitchReclose_follows (p : Nat) {s s' : State} (h : execLoadSwitchReclose p s = .next s') : s.blk.Follows s'.blk := by
  have h0 := follows_refl s.blk
  unfold execLoadSwitchReclose at h
  refine cmd_follows h ?_
  try dsimp only
  apply follows_when
  · with_reducible assumption
  · intros
    apply loadRetry_follows
    assumption

end Sys2Proof.Laws
end

