-- ==== Sys2Proof/Laws/KeepsPower.lean ====
section
/-! SUPPORT. Each command of Machine/Power.lean stays in `Blk.Follows`. -/

namespace Sys2Proof.Laws

open Sys2Proof.Machine

theorem execSupplyWarn_follows {s s' : State} (h : execSupplyWarn s = .next s') : s.blk.Follows s'.blk := by
  have h0 := follows_refl s.blk
  unfold execSupplyWarn at h
  refine cmd_follows h ?_
  try dsimp only
  split
  · apply setPwr_follows
    with_reducible assumption
  · apply event_follows
    apply inc_follows
    apply pwcError_follows
    apply setPwr_follows
    apply draw_follows
    with_reducible assumption

theorem execSupplyRecover_follows  {s s' : State} (h : execSupplyRecover  s = .next s') : s.blk.Follows s'.blk := by
  have h0 := follows_refl s.blk
  unfold execSupplyRecover at h
  refine cmd_follows h ?_
  try dsimp only
  apply follows_when
  · with_reducible assumption
  · intros
    apply setPwr_follows
    assumption

theorem execWarningRelease_follows  {s s' : State} (h : execWarningRelease  s = .next s') : s.blk.Follows s'.blk := by
  have h0 := follows_refl s.blk
  unfold execWarningRelease at h
  refine cmd_follows h ?_
  try dsimp only
  apply follows_when
  · with_reducible assumption
  · intros
    apply setPwr_follows
    assumption

theorem execBubbleRamp_follows  {s s' : State} (h : execBubbleRamp  s = .next s') : s.blk.Follows s'.blk := by
  have h0 := follows_refl s.blk
  unfold execBubbleRamp at h
  refine cmd_follows h ?_
  try dsimp only
  apply setPwr_follows
  with_reducible assumption

theorem execPwrAlert_follows {s s' : State} (h : execPwrAlert s = .next s') : s.blk.Follows s'.blk := by
  have h0 := follows_refl s.blk
  unfold execPwrAlert at h
  refine cmd_follows h ?_
  try dsimp only
  apply follows_when
  · with_reducible assumption
  · intros
    split
    · apply follows_mk
      with_reducible assumption
    · apply alertIn_follows
      apply follows_mk
      with_reducible assumption

theorem execAlertRelease_follows {s s' : State} (h : execAlertRelease s = .next s') : s.blk.Follows s'.blk := by
  have h0 := follows_refl s.blk
  unfold execAlertRelease at h
  refine cmd_follows h ?_
  try dsimp only
  split
  · apply setPwr_follows
    apply follows_mk
    with_reducible assumption
  · apply follows_mk
    with_reducible assumption

theorem execFastLoop_follows (mw : Nat) {s s' : State} (h : execFastLoop mw s = .next s') : s.blk.Follows s'.blk := by
  have h0 := follows_refl s.blk
  unfold execFastLoop at h
  refine cmd_follows h ?_
  try dsimp only
  apply follows_when
  · with_reducible assumption
  · intros
    apply setPwr_follows
    apply add_follows
    assumption

theorem execEstimateCompare_follows (e m : Nat) {s s' : State} (h : execEstimateCompare e m s = .next s') : s.blk.Follows s'.blk := by
  have h0 := follows_refl s.blk
  unfold execEstimateCompare at h
  refine cmd_follows h ?_
  try dsimp only
  split
  · split
    · split
      · apply setPwr_follows
        apply wr_follows
        with_reducible assumption
      · apply setPwr_follows
        with_reducible assumption
    · split
      · apply setPwr_follows
        apply wr_follows
        with_reducible assumption
      · apply setPwr_follows
        with_reducible assumption
  · split
    · split
      · apply event_follows
        apply inc_follows
        apply event_follows
        apply inc_follows
        apply setPwr_follows
        apply wr_follows
        with_reducible assumption
      · apply setPwr_follows
        with_reducible assumption
    · split
      · apply event_follows
        apply inc_follows
        apply event_follows
        apply inc_follows
        apply setPwr_follows
        apply wr_follows
        with_reducible assumption
      · apply setPwr_follows
        with_reducible assumption

theorem execSidebandRecord_follows (p : Nat) (r : List Byte) {s s' : State} (h : execSidebandRecord p r s = .next s') : s.blk.Follows s'.blk := by
  have h0 := follows_refl s.blk
  unfold execSidebandRecord at h
  refine cmd_follows h ?_
  try dsimp only
  apply follows_when
  · with_reducible assumption
  · intros
    apply pwcShow_follows
    apply give_follows
    split
    · apply nearSend_follows
      apply setNbr_follows
      apply setBalance_follows
      apply setNbr_follows
      with_reducible assumption
    · apply setNbr_follows
      with_reducible assumption

theorem execThermalCountStep_follows (d : Nat) {s s' : State} (h : execThermalCountStep d s = .next s') : s.blk.Follows s'.blk := by
  have h0 := follows_refl s.blk
  unfold execThermalCountStep at h
  refine cmd_follows h ?_
  try dsimp only
  apply thermStep_follows
  with_reducible assumption

theorem execSensorStop_follows (k : Nat) {s s' : State} (h : execSensorStop k s = .next s') : s.blk.Follows s'.blk := by
  have h0 := follows_refl s.blk
  unfold execSensorStop at h
  refine cmd_follows h ?_
  try dsimp only
  apply follows_when
  · with_reducible assumption
  · intros
    apply thermals_follows
    apply pwcError_follows
    apply follows_mk
    assumption

theorem execInletSensorReading_follows (t : Int) {s s' : State} (h : execInletSensorReading t s = .next s') : s.blk.Follows s'.blk := by
  have h0 := follows_refl s.blk
  unfold execInletSensorReading at h
  refine cmd_follows h ?_
  try dsimp only
  apply stateEvents_follows
  split
  · apply event_follows
    apply wr_follows
    with_reducible assumption
  · apply wr_follows
    with_reducible assumption

theorem execCoolantLeak_follows {s s' : State} (h : execCoolantLeak s = .next s') : s.blk.Follows s'.blk := by
  have h0 := follows_refl s.blk
  unfold execCoolantLeak at h
  refine cmd_follows h ?_
  try dsimp only
  apply follows_when
  · with_reducible assumption
  · intros
    apply leakShow_follows
    apply follows_mk
    with_reducible assumption

theorem execCoolantLeakDeassert_follows {s s' : State} (h : execCoolantLeakDeassert s = .next s') : s.blk.Follows s'.blk := by
  have h0 := follows_refl s.blk
  unfold execCoolantLeakDeassert at h
  refine cmd_follows h ?_
  try dsimp only
  apply stateEvents_follows
  apply wr_follows
  apply follows_mk
  with_reducible assumption

theorem execLeaveWindow_follows (d : Nat) {s s' : State} (h : execLeaveWindow d s = .next s') : s.blk.Follows s'.blk := by
  have h0 := follows_refl s.blk
  unfold execLeaveWindow at h
  refine cmd_follows h ?_
  try dsimp only
  split
  · split
    · apply inc_follows
      apply add64_follows
      apply follows_each
      · apply follows_mk
        with_reducible assumption
      · intros
        apply grant_follows
        assumption
    · apply add64_follows
      apply follows_each
      · apply follows_mk
        with_reducible assumption
      · intros
        apply grant_follows
        assumption
  · split
    · split
      · apply inc_follows
        apply add64_follows
        apply follows_each
        · apply follows_mk
          with_reducible assumption
        · intros
          apply grant_follows
          assumption
      · apply add64_follows
        apply follows_each
        · apply follows_mk
          with_reducible assumption
        · intros
          apply grant_follows
          assumption
    · split
      · apply inc_follows
        apply add64_follows
        apply follows_each
        · apply follows_mk
          with_reducible assumption
        · intros
          apply grant_follows
          assumption
      · apply add64_follows
        apply follows_each
        · apply follows_mk
          with_reducible assumption
        · intros
          apply grant_follows
          assumption

theorem execCreditTimeout_follows (t : Tid) {s s' : State} (h : execCreditTimeout t s = .next s') : s.blk.Follows s'.blk := by
  have h0 := follows_refl s.blk
  unfold execCreditTimeout at h
  refine cmd_follows h ?_
  try dsimp only
  apply follows_when
  · with_reducible assumption
  · intros
    apply threadFault_follows
    with_reducible assumption

end Sys2Proof.Laws
end

