-- ==== Sys2Proof/Laws/KeepsRakline.lean ====
section
/-! SUPPORT. Each command of Machine/Rakline.lean stays in `Blk.Follows`. -/

namespace Sys2Proof.Laws

open Sys2Proof.Machine

theorem execRaklineLight_follows  {s s' : State} (h : execRaklineLight  s = .next s') : s.blk.Follows s'.blk := by
  have h0 := follows_refl s.blk
  unfold execRaklineLight at h
  refine cmd_follows h ?_
  try dsimp only
  apply follows_when
  · with_reducible assumption
  · intros
    apply event_follows
    apply wr_follows
    assumption

theorem execRaklineLinkLoss_follows  {s s' : State} (h : execRaklineLinkLoss  s = .next s') : s.blk.Follows s'.blk := by
  have h0 := follows_refl s.blk
  unfold execRaklineLinkLoss at h
  refine cmd_follows h ?_
  try dsimp only
  apply follows_when
  · with_reducible assumption
  · intros
    apply rakDown_follows
    assumption

theorem execRaklineAckTimer_follows  {s s' : State} (h : execRaklineAckTimer  s = .next s') : s.blk.Follows s'.blk := by
  have h0 := follows_refl s.blk
  unfold execRaklineAckTimer at h
  refine cmd_follows h ?_
  try dsimp only
  apply follows_when
  · with_reducible assumption
  · intros
    apply rakAck_follows
    assumption

theorem execRaklineNak_follows (seq : Nat) {s s' : State} (h : execRaklineNak seq s = .next s') : s.blk.Follows s'.blk := by
  have h0 := follows_refl s.blk
  unfold execRaklineNak at h
  refine cmd_follows h ?_
  try dsimp only
  apply follows_when
  · with_reducible assumption
  · intros
    apply rakResend_follows
    assumption

theorem execRaklineReplayTimeout_follows  {s s' : State} (h : execRaklineReplayTimeout  s = .next s') : s.blk.Follows s'.blk := by
  have h0 := follows_refl s.blk
  unfold execRaklineReplayTimeout at h
  refine cmd_follows h ?_
  try dsimp only
  apply follows_when
  · with_reducible assumption
  · intros
    apply rakResend_follows
    assumption

theorem execExportSend_follows (n : Nat) {s s' : State} (h : execExportSend n s = .next s') : s.blk.Follows s'.blk := by
  have h0 := follows_refl s.blk
  unfold execExportSend at h
  refine cmd_follows h ?_
  try dsimp only
  split
  · with_reducible assumption
  · split
    · apply follows_when
      · with_reducible assumption
      · intros
        apply expSent_follows
        apply follows_send
        with_reducible assumption
    · apply follows_when
      · with_reducible assumption
      · intros
        apply expSent_follows
        apply follows_send
        with_reducible assumption
    · split
      · apply bulkPump_follows
        apply follows_mk
        with_reducible assumption
      · with_reducible assumption

theorem execRaklineFrame_follows (h : List Byte) (crcOk tagOk : Bool) (m : RakLinkMsg) {s s' : State} (h : execRaklineFrame h crcOk tagOk m s = .next s') : s.blk.Follows s'.blk := by
  have h0 := follows_refl s.blk
  unfold execRaklineFrame at h
  refine cmd_follows h ?_
  try dsimp only
  apply follows_when
  · with_reducible assumption
  · intros
    split
    · apply rakLink_follows
      apply inc_follows
      apply add64_follows
      with_reducible assumption
    · split
      · split
        · apply inc_follows
          apply inc_follows
          apply add64_follows
          with_reducible assumption
        · apply inc_follows
          apply add64_follows
          with_reducible assumption
      · apply rakTake_follows
        apply add64_follows
        with_reducible assumption

theorem execGetQuote_follows (viaMgmt : Bool) (nonce : Nat) {s s' : State} (h : execGetQuote viaMgmt nonce s = .next s') : s.blk.Follows s'.blk := by
  have h0 := follows_refl s.blk
  unfold execGetQuote at h
  refine cmd_follows h ?_
  try dsimp only
  split
  · apply follows_when
    · with_reducible assumption
    · intros
      apply mgmtLid_follows
      assumption
  · apply follows_when
    · with_reducible assumption
    · intros
      apply attest_follows
      assumption

theorem execGetCerts_follows (viaMgmt : Bool) {s s' : State} (h : execGetCerts viaMgmt s = .next s') : s.blk.Follows s'.blk := by
  have h0 := follows_refl s.blk
  unfold execGetCerts at h
  refine cmd_follows h ?_
  try dsimp only
  split
  · apply follows_when
    · with_reducible assumption
    · intros
      apply mgmtLid_follows
      assumption
  · apply follows_when
    · with_reducible assumption
    · intros
      apply attest_follows
      assumption

theorem execGetNonce_follows  {s s' : State} (h : execGetNonce  s = .next s') : s.blk.Follows s'.blk := by
  have h0 := follows_refl s.blk
  unfold execGetNonce at h
  refine cmd_follows h ?_
  try dsimp only
  apply follows_when
  · with_reducible assumption
  · intros
    apply attest_follows
    apply follows_mk
    apply entUsed_follows
    assumption

theorem execSessionInit_follows (key nonce keyHash : Nat) (sigOk : Bool) {s s' : State} (h : execSessionInit key nonce keyHash sigOk s = .next s') : s.blk.Follows s'.blk := by
  have h0 := follows_refl s.blk
  unfold execSessionInit at h
  refine cmd_follows h ?_
  try dsimp only
  apply follows_when
  · with_reducible assumption
  · intros
    split
    · split
      · apply rakBegin_follows
        apply entUsed_follows
        apply nonceUsed_follows
        apply attest_follows
        apply rakEnd_follows
        assumption
      · apply attest_follows
        apply authFail_follows
        apply rakEnd_follows
        assumption
    · split
      · apply rakBegin_follows
        apply entUsed_follows
        apply nonceUsed_follows
        apply attest_follows
        assumption
      · apply attest_follows
        apply authFail_follows
        assumption

theorem execRegRead_follows (m : List Byte) {s s' : State} (h : execRegRead m s = .next s') : s.blk.Follows s'.blk := by
  have h0 := follows_refl s.blk
  unfold execRegRead at h
  refine cmd_follows h ?_
  try dsimp only
  apply follows_when
  · with_reducible assumption
  · intros
    split
    · apply regResp_follows
      apply readRun_follows
      with_reducible assumption
    · apply regResp_follows
      with_reducible assumption

theorem execRegWrite_follows (m : List Byte) {s s' : State} (h : execRegWrite m s = .next s') : s.blk.Follows s'.blk := by
  have h0 := follows_refl s.blk
  unfold execRegWrite at h
  refine cmd_follows h ?_
  try dsimp only
  apply follows_when
  · with_reducible assumption
  · intros
    split
    · apply regResp_follows
      apply writeRun_follows
      with_reducible assumption
    · apply regResp_follows
      with_reducible assumption

theorem execRegWarmReset_follows (m : List Byte) {s s' : State} (h : execRegWarmReset m s = .next s') : s.blk.Follows s'.blk := by
  have h0 := follows_refl s.blk
  unfold execRegWarmReset at h
  refine cmd_follows h ?_
  try dsimp only
  apply follows_when
  · with_reducible assumption
  · intros
    apply warmReset_follows
    apply regResp_follows
    with_reducible assumption

theorem execRegShutdown_follows (m : List Byte) {s s' : State} (h : execRegShutdown m s = .next s') : s.blk.Follows s'.blk := by
  have h0 := follows_refl s.blk
  unfold execRegShutdown at h
  refine cmd_follows h ?_
  try dsimp only
  apply follows_when
  · with_reducible assumption
  · intros
    apply shutdown_follows
    apply regResp_follows
    with_reducible assumption

theorem execBulkWrite_follows (m : List Byte) {s s' : State} (h : execBulkWrite m s = .next s') : s.blk.Follows s'.blk := by
  have h0 := follows_refl s.blk
  unfold execBulkWrite at h
  refine cmd_follows h ?_
  try dsimp only
  apply follows_when
  · with_reducible assumption
  · intros
    apply bulkFrame_follows
    with_reducible assumption

theorem execBulkRead_follows (m : List Byte) {s s' : State} (h : execBulkRead m s = .next s') : s.blk.Follows s'.blk := by
  have h0 := follows_refl s.blk
  unfold execBulkRead at h
  refine cmd_follows h ?_
  try dsimp only
  apply follows_when
  · with_reducible assumption
  · intros
    apply bulkFrame_follows
    with_reducible assumption

theorem execBulkData_follows (m : List Byte) {s s' : State} (h : execBulkData m s = .next s') : s.blk.Follows s'.blk := by
  have h0 := follows_refl s.blk
  unfold execBulkData at h
  refine cmd_follows h ?_
  try dsimp only
  apply follows_when
  · with_reducible assumption
  · intros
    apply bulkFrame_follows
    with_reducible assumption

theorem execBulkTransferEnd_follows (k : Nat) {s s' : State} (h : execBulkTransferEnd k s = .next s') : s.blk.Follows s'.blk := by
  have h0 := follows_refl s.blk
  unfold execBulkTransferEnd at h
  refine cmd_follows h ?_
  try dsimp only
  split
  · apply follows_when
    · with_reducible assumption
    · intros
      apply bulkEnd_follows
      assumption
  · with_reducible assumption

theorem execConsole_follows (toNode : Bool) (data : List Byte) {s s' : State} (h : execConsole toNode data s = .next s') : s.blk.Follows s'.blk := by
  have h0 := follows_refl s.blk
  unfold execConsole at h
  refine cmd_follows h ?_
  try dsimp only
  apply follows_when
  · with_reducible assumption
  · intros
    split
    · apply conFrames_follows
      apply follows_mk
      assumption
    · apply rakCredit_follows
      apply follows_send
      assumption

end Sys2Proof.Laws
end

