-- ==== Sys2Proof/Laws/KeepsReduce.lean ====
section
/-! SUPPORT. Each command of Machine/Reduce.lean stays in `Blk.Follows`. -/

namespace Sys2Proof.Laws

open Sys2Proof.Machine

theorem execPostTake_follows  {s s' : State} (h : execPostTake  s = .next s') : s.blk.Follows s'.blk := by
  have h0 := follows_refl s.blk
  unfold execPostTake at h
  refine cmd_follows h ?_
  try dsimp only
  apply follows_when
  · with_reducible assumption
  · intros
    apply takePost_follows
    assumption

theorem execJoinAck_follows (p channel group : Nat) {s s' : State} (h : execJoinAck p channel group s = .next s') : s.blk.Follows s'.blk := by
  have h0 := follows_refl s.blk
  unfold execJoinAck at h
  refine cmd_follows h ?_
  try dsimp only
  apply follows_when
  · with_reducible assumption
  · intros
    apply runBuckets_follows
    apply setBorder_follows
    assumption

theorem execReject_follows (p channel group : Nat) {s s' : State} (h : execReject p channel group s = .next s') : s.blk.Follows s'.blk := by
  have h0 := follows_refl s.blk
  unfold execReject at h
  refine cmd_follows h ?_
  try dsimp only
  apply follows_when
  · with_reducible assumption
  · intros
    apply inc_follows
    apply setBorder_follows
    assumption

theorem execSwitchResult_follows (p : Nat) (r : SwRec) {s s' : State} (h : execSwitchResult p r s = .next s') : s.blk.Follows s'.blk := by
  have h0 := follows_refl s.blk
  unfold execSwitchResult at h
  refine cmd_follows h ?_
  try dsimp only
  apply follows_when
  · with_reducible assumption
  · intros
    apply swResult_follows
    with_reducible assumption

end Sys2Proof.Laws
end

