-- ==== Sys2Proof/Laws/KeepsRegRows.lean ====
section
/-! SUPPORT. Each command of Machine/RegRows.lean stays in `Blk.Follows`. -/

namespace Sys2Proof.Laws

open Sys2Proof.Machine

theorem execRegisterWrite_follows (ini : Ini) (off v : Nat) {s s' : State} (h : execRegisterWrite ini off v s = .next s') : s.blk.Follows s'.blk := by
  have h0 := follows_refl s.blk
  unfold execRegisterWrite at h
  refine cmd_follows h ?_
  try dsimp only
  apply write_follows
  with_reducible assumption

theorem execPairLoRead_follows (ini : Ini) (off : Nat) {s s' : State} (h : execPairLoRead ini off s = .next s') : s.blk.Follows s'.blk := by
  have h0 := follows_refl s.blk
  unfold execPairLoRead at h
  refine cmd_follows h ?_
  try dsimp only
  apply read_follows
  with_reducible assumption

theorem execPairLoWrite_follows (ini : Ini) (off v : Nat) {s s' : State} (h : execPairLoWrite ini off v s = .next s') : s.blk.Follows s'.blk := by
  have h0 := follows_refl s.blk
  unfold execPairLoWrite at h
  refine cmd_follows h ?_
  try dsimp only
  apply write_follows
  with_reducible assumption

theorem execPairHiWrite_follows (ini : Ini) (off v : Nat) {s s' : State} (h : execPairHiWrite ini off v s = .next s') : s.blk.Follows s'.blk := by
  have h0 := follows_refl s.blk
  unfold execPairHiWrite at h
  refine cmd_follows h ?_
  try dsimp only
  apply write_follows
  with_reducible assumption

theorem execPgCtrlEnable_follows (ini : Ini) (pg : Page) (i : Nat) (on : Bool) {s s' : State} (h : execPgCtrlEnable ini pg i on s = .next s') : s.blk.Follows s'.blk := by
  have h0 := follows_refl s.blk
  unfold execPgCtrlEnable at h
  refine cmd_follows h ?_
  try dsimp only
  apply writeField_follows
  with_reducible assumption

theorem execPgCtrlQuiesceReq_follows (ini : Ini) (pg : Page) (i : Nat) (on : Bool) {s s' : State} (h : execPgCtrlQuiesceReq ini pg i on s = .next s') : s.blk.Follows s'.blk := by
  have h0 := follows_refl s.blk
  unfold execPgCtrlQuiesceReq at h
  refine cmd_follows h ?_
  try dsimp only
  apply writeField_follows
  with_reducible assumption

theorem execPgCtrlIsolate_follows (ini : Ini) (pg : Page) (i : Nat) (on : Bool) {s s' : State} (h : execPgCtrlIsolate ini pg i on s = .next s') : s.blk.Follows s'.blk := by
  have h0 := follows_refl s.blk
  unfold execPgCtrlIsolate at h
  refine cmd_follows h ?_
  try dsimp only
  apply writeField_follows
  with_reducible assumption

theorem execBlockReset_follows (ini : Ini) (pg : Page) (i : Nat) {s s' : State} (h : execBlockReset ini pg i s = .next s') : s.blk.Follows s'.blk := by
  have h0 := follows_refl s.blk
  unfold execBlockReset at h
  refine cmd_follows h ?_
  try dsimp only
  apply writeField_follows
  with_reducible assumption

theorem execPgEventClear_follows (ini : Ini) (pg : Page) (i v : Nat) {s s' : State} (h : execPgEventClear ini pg i v s = .next s') : s.blk.Follows s'.blk := by
  have h0 := follows_refl s.blk
  unfold execPgEventClear at h
  refine cmd_follows h ?_
  try dsimp only
  apply write_follows
  with_reducible assumption

theorem execPgLock_follows (ini : Ini) (pg : Page) (i : Nat) {s s' : State} (h : execPgLock ini pg i s = .next s') : s.blk.Follows s'.blk := by
  have h0 := follows_refl s.blk
  unfold execPgLock at h
  refine cmd_follows h ?_
  try dsimp only
  apply writeField_follows
  with_reducible assumption

theorem execPgOwnerWrite_follows (ini : Ini) (pg : Page) (i v : Nat) {s s' : State} (h : execPgOwnerWrite ini pg i v s = .next s') : s.blk.Follows s'.blk := by
  have h0 := follows_refl s.blk
  unfold execPgOwnerWrite at h
  refine cmd_follows h ?_
  try dsimp only
  apply writeField_follows
  with_reducible assumption

theorem execForceClear_follows (ini : Ini) {s s' : State} (h : execForceClear ini s = .next s') : s.blk.Follows s'.blk := by
  have h0 := follows_refl s.blk
  unfold execForceClear at h
  refine cmd_follows h ?_
  try dsimp only
  apply writeField_follows
  with_reducible assumption

theorem execClaimArm_follows (ini : Ini) {s s' : State} (h : execClaimArm ini s = .next s') : s.blk.Follows s'.blk := by
  have h0 := follows_refl s.blk
  unfold execClaimArm at h
  refine cmd_follows h ?_
  try dsimp only
  apply writeField_follows
  with_reducible assumption

theorem execLidDomainRekey_follows (ini : Ini) (mask : Nat) {s s' : State} (h : execLidDomainRekey ini mask s = .next s') : s.blk.Follows s'.blk := by
  have h0 := follows_refl s.blk
  unfold execLidDomainRekey at h
  refine cmd_follows h ?_
  try dsimp only
  apply writeField_follows
  with_reducible assumption

theorem execLidDebugClose_follows (ini : Ini) {s s' : State} (h : execLidDebugClose ini s = .next s') : s.blk.Follows s'.blk := by
  have h0 := follows_refl s.blk
  unfold execLidDebugClose at h
  refine cmd_follows h ?_
  try dsimp only
  apply writeField_follows
  with_reducible assumption

theorem execLidLogGet_follows (ini : Ini) (v : Nat) {s s' : State} (h : execLidLogGet ini v s = .next s') : s.blk.Follows s'.blk := by
  have h0 := follows_refl s.blk
  unfold execLidLogGet at h
  refine cmd_follows h ?_
  try dsimp only
  apply writeField_follows
  with_reducible assumption

theorem execLidLogBase_follows (ini : Ini) (v : Nat) {s s' : State} (h : execLidLogBase ini v s = .next s') : s.blk.Follows s'.blk := by
  have h0 := follows_refl s.blk
  unfold execLidLogBase at h
  refine cmd_follows h ?_
  try dsimp only
  apply write_follows
  apply write_follows
  with_reducible assumption

theorem execBeatPeriod_follows (ini : Ini) (v : Nat) {s s' : State} (h : execBeatPeriod ini v s = .next s') : s.blk.Follows s'.blk := by
  have h0 := follows_refl s.blk
  unfold execBeatPeriod at h
  refine cmd_follows h ?_
  try dsimp only
  apply writeField_follows
  with_reducible assumption

theorem execBeatCtrlStrict_follows (ini : Ini) (on : Bool) {s s' : State} (h : execBeatCtrlStrict ini on s = .next s') : s.blk.Follows s'.blk := by
  have h0 := follows_refl s.blk
  unfold execBeatCtrlStrict at h
  refine cmd_follows h ?_
  try dsimp only
  apply writeField_follows
  with_reducible assumption

theorem execBeatCtrlSyncEn_follows (ini : Ini) (on : Bool) {s s' : State} (h : execBeatCtrlSyncEn ini on s = .next s') : s.blk.Follows s'.blk := by
  have h0 := follows_refl s.blk
  unfold execBeatCtrlSyncEn at h
  refine cmd_follows h ?_
  try dsimp only
  apply writeField_follows
  with_reducible assumption

theorem execBeatCtrlSyncOutEn_follows (ini : Ini) (on : Bool) {s s' : State} (h : execBeatCtrlSyncOutEn ini on s = .next s') : s.blk.Follows s'.blk := by
  have h0 := follows_refl s.blk
  unfold execBeatCtrlSyncOutEn at h
  refine cmd_follows h ?_
  try dsimp only
  apply writeField_follows
  with_reducible assumption

theorem execStakeStart_follows (ini : Ini) (t : Tid) {s s' : State} (h : execStakeStart ini t s = .next s') : s.blk.Follows s'.blk := by
  have h0 := follows_refl s.blk
  unfold execStakeStart at h
  refine cmd_follows h ?_
  try dsimp only
  apply stakeWrite_follows
  with_reducible assumption

theorem execStakePause_follows (ini : Ini) (t : Tid) {s s' : State} (h : execStakePause ini t s = .next s') : s.blk.Follows s'.blk := by
  have h0 := follows_refl s.blk
  unfold execStakePause at h
  refine cmd_follows h ?_
  try dsimp only
  apply stakeWrite_follows
  with_reducible assumption

theorem execStakeResume_follows (ini : Ini) (t : Tid) {s s' : State} (h : execStakeResume ini t s = .next s') : s.blk.Follows s'.blk := by
  have h0 := follows_refl s.blk
  unfold execStakeResume at h
  refine cmd_follows h ?_
  try dsimp only
  apply stakeWrite_follows
  with_reducible assumption

theorem execStakeRelease_follows (ini : Ini) (t : Tid) {s s' : State} (h : execStakeRelease ini t s = .next s') : s.blk.Follows s'.blk := by
  have h0 := follows_refl s.blk
  unfold execStakeRelease at h
  refine cmd_follows h ?_
  try dsimp only
  apply stakeWrite_follows
  with_reducible assumption

theorem execStakeReleaseSkip_follows (ini : Ini) (t : Tid) {s s' : State} (h : execStakeReleaseSkip ini t s = .next s') : s.blk.Follows s'.blk := by
  have h0 := follows_refl s.blk
  unfold execStakeReleaseSkip at h
  refine cmd_follows h ?_
  try dsimp only
  apply stakeWrite_follows
  with_reducible assumption

theorem execStakeKill_follows (ini : Ini) (t : Tid) {s s' : State} (h : execStakeKill ini t s = .next s') : s.blk.Follows s'.blk := by
  have h0 := follows_refl s.blk
  unfold execStakeKill at h
  refine cmd_follows h ?_
  try dsimp only
  apply stakeWrite_follows
  with_reducible assumption

theorem execStakeIcacheInvalidate_follows (ini : Ini) (k : Nat) {s s' : State} (h : execStakeIcacheInvalidate ini k s = .next s') : s.blk.Follows s'.blk := by
  have h0 := follows_refl s.blk
  unfold execStakeIcacheInvalidate at h
  refine cmd_follows h ?_
  try dsimp only
  apply writeField_follows
  with_reducible assumption

theorem execStakeRegAccess_follows (ini : Ini) (t : Tid) (reg : Nat) (write : Option Nat) {s s' : State} (h : execStakeRegAccess ini t reg write s = .next s') : s.blk.Follows s'.blk := by
  have h0 := follows_refl s.blk
  unfold execStakeRegAccess at h
  refine cmd_follows h ?_
  try dsimp only
  split
  · split
    · apply read_follows
      with_reducible assumption
    · apply read_follows
      apply read_follows
      with_reducible assumption
  · split
    · apply write_follows
      with_reducible assumption
    · apply write_follows
      apply write_follows
      with_reducible assumption

theorem execSchedWlPut_follows (ini : Ini) (w v : Nat) {s s' : State} (h : execSchedWlPut ini w v s = .next s') : s.blk.Follows s'.blk := by
  have h0 := follows_refl s.blk
  unfold execSchedWlPut at h
  refine cmd_follows h ?_
  try dsimp only
  apply writeField_follows
  with_reducible assumption

theorem execSchedPeakClr_follows (ini : Ini) (w : Nat) {s s' : State} (h : execSchedPeakClr ini w s = .next s') : s.blk.Follows s'.blk := by
  have h0 := follows_refl s.blk
  unfold execSchedPeakClr at h
  refine cmd_follows h ?_
  try dsimp only
  apply writeField_follows
  with_reducible assumption

theorem execSumPostPop_follows (ini : Ini) (w : Nat) {s s' : State} (h : execSumPostPop ini w s = .next s') : s.blk.Follows s'.blk := by
  have h0 := follows_refl s.blk
  unfold execSumPostPop at h
  refine cmd_follows h ?_
  try dsimp only
  apply read_follows
  with_reducible assumption

theorem execRowSideClr_follows (ini : Ini) (w : Nat) {s s' : State} (h : execRowSideClr ini w s = .next s') : s.blk.Follows s'.blk := by
  have h0 := follows_refl s.blk
  unfold execRowSideClr at h
  refine cmd_follows h ?_
  try dsimp only
  apply writeField_follows
  with_reducible assumption

theorem execXltInvalRange_follows (ini : Ini) (va pages : Nat) {s s' : State} (h : execXltInvalRange ini va pages s = .next s') : s.blk.Follows s'.blk := by
  have h0 := follows_refl s.blk
  unfold execXltInvalRange at h
  refine cmd_follows h ?_
  try dsimp only
  apply write_follows
  apply write_follows
  apply write_follows
  with_reducible assumption

theorem execXltInvalAll_follows (ini : Ini) {s s' : State} (h : execXltInvalAll ini s = .next s') : s.blk.Follows s'.blk := by
  have h0 := follows_refl s.blk
  unfold execXltInvalAll at h
  refine cmd_follows h ?_
  try dsimp only
  apply write_follows
  with_reducible assumption

theorem execXltFaultResume_follows (ini : Ini) (kind unit : Nat) {s s' : State} (h : execXltFaultResume ini kind unit s = .next s') : s.blk.Follows s'.blk := by
  have h0 := follows_refl s.blk
  unfold execXltFaultResume at h
  refine cmd_follows h ?_
  try dsimp only
  apply faultWrite_follows
  with_reducible assumption

theorem execXltFaultDiscard_follows (ini : Ini) (kind unit : Nat) {s s' : State} (h : execXltFaultDiscard ini kind unit s = .next s') : s.blk.Follows s'.blk := by
  have h0 := follows_refl s.blk
  unfold execXltFaultDiscard at h
  refine cmd_follows h ?_
  try dsimp only
  apply faultWrite_follows
  with_reducible assumption

theorem execXltFqGet_follows (ini : Ini) (v : Nat) {s s' : State} (h : execXltFqGet ini v s = .next s') : s.blk.Follows s'.blk := by
  have h0 := follows_refl s.blk
  unfold execXltFqGet at h
  refine cmd_follows h ?_
  try dsimp only
  apply writeField_follows
  with_reducible assumption

theorem execXltFqBase_follows (ini : Ini) (v : Nat) {s s' : State} (h : execXltFqBase ini v s = .next s') : s.blk.Follows s'.blk := by
  have h0 := follows_refl s.blk
  unfold execXltFqBase at h
  refine cmd_follows h ?_
  try dsimp only
  apply write_follows
  apply write_follows
  with_reducible assumption

theorem execBankResume_follows (ini : Ini) (n : Nat) {s s' : State} (h : execBankResume ini n s = .next s') : s.blk.Follows s'.blk := by
  have h0 := follows_refl s.blk
  unfold execBankResume at h
  refine cmd_follows h ?_
  try dsimp only
  apply bankWrite_follows
  with_reducible assumption

theorem execBankAbandon_follows (ini : Ini) (n : Nat) {s s' : State} (h : execBankAbandon ini n s = .next s') : s.blk.Follows s'.blk := by
  have h0 := follows_refl s.blk
  unfold execBankAbandon at h
  refine cmd_follows h ?_
  try dsimp only
  apply bankWrite_follows
  with_reducible assumption

theorem execBankSkip_follows (ini : Ini) (n : Nat) {s s' : State} (h : execBankSkip ini n s = .next s') : s.blk.Follows s'.blk := by
  have h0 := follows_refl s.blk
  unfold execBankSkip at h
  refine cmd_follows h ?_
  try dsimp only
  apply bankWrite_follows
  with_reducible assumption

theorem execBankPause_follows (ini : Ini) (n : Nat) (on : Bool) {s s' : State} (h : execBankPause ini n on s = .next s') : s.blk.Follows s'.blk := by
  have h0 := follows_refl s.blk
  unfold execBankPause at h
  refine cmd_follows h ?_
  try dsimp only
  apply writeField_follows
  with_reducible assumption

theorem execGateClr_follows (ini : Ini) (n : Nat) {s s' : State} (h : execGateClr ini n s = .next s') : s.blk.Follows s'.blk := by
  have h0 := follows_refl s.blk
  unfold execGateClr at h
  refine cmd_follows h ?_
  try dsimp only
  apply writeField_follows
  with_reducible assumption

theorem execLossRelease_follows (ini : Ini) {s s' : State} (h : execLossRelease ini s = .next s') : s.blk.Follows s'.blk := by
  have h0 := follows_refl s.blk
  unfold execLossRelease at h
  refine cmd_follows h ?_
  try dsimp only
  apply writeField_follows
  with_reducible assumption

theorem execLossStatsReset_follows (ini : Ini) {s s' : State} (h : execLossStatsReset ini s = .next s') : s.blk.Follows s'.blk := by
  have h0 := follows_refl s.blk
  unfold execLossStatsReset at h
  refine cmd_follows h ?_
  try dsimp only
  apply writeField_follows
  with_reducible assumption

theorem execLinkTraining_follows (ini : Ini) (p : Nat) (on : Bool) {s s' : State} (h : execLinkTraining ini p on s = .next s') : s.blk.Follows s'.blk := by
  have h0 := follows_refl s.blk
  unfold execLinkTraining at h
  refine cmd_follows h ?_
  try dsimp only
  apply writeField_follows
  with_reducible assumption

theorem execNlnkLoadRetry_follows (ini : Ini) (p : Nat) {s s' : State} (h : execNlnkLoadRetry ini p s = .next s') : s.blk.Follows s'.blk := by
  have h0 := follows_refl s.blk
  unfold execNlnkLoadRetry at h
  refine cmd_follows h ?_
  try dsimp only
  apply writeField_follows
  with_reducible assumption

theorem execNlnkForce4_follows (ini : Ini) (p : Nat) (on : Bool) {s s' : State} (h : execNlnkForce4 ini p on s = .next s') : s.blk.Follows s'.blk := by
  have h0 := follows_refl s.blk
  unfold execNlnkForce4 at h
  refine cmd_follows h ?_
  try dsimp only
  apply writeField_follows
  with_reducible assumption

theorem execNredAbortGo_follows (ini : Ini) (p : Nat) {s s' : State} (h : execNredAbortGo ini p s = .next s') : s.blk.Follows s'.blk := by
  have h0 := follows_refl s.blk
  unfold execNredAbortGo at h
  refine cmd_follows h ?_
  try dsimp only
  apply writeField_follows
  with_reducible assumption

theorem execNredSlotsGrant_follows (ini : Ini) (p v : Nat) {s s' : State} (h : execNredSlotsGrant ini p v s = .next s') : s.blk.Follows s'.blk := by
  have h0 := follows_refl s.blk
  unfold execNredSlotsGrant at h
  refine cmd_follows h ?_
  try dsimp only
  apply writeField_follows
  with_reducible assumption

theorem execFxpCtrlEn_follows (ini : Ini) (f : Nat) (on : Bool) (answers : List FarAnswer) {s s' : State} (h : execFxpCtrlEn ini f on answers s = .next s') : s.blk.Follows s'.blk := by
  have h0 := follows_refl s.blk
  unfold execFxpCtrlEn at h
  refine cmd_follows h ?_
  try dsimp only
  split
  · apply follows_each
    · apply writeField_follows
      with_reducible assumption
    · intros
      apply sessionAnswer_follows
      assumption
  · apply writeField_follows
    with_reducible assumption

theorem execFxpRxFree_follows (ini : Ini) (f v : Nat) {s s' : State} (h : execFxpRxFree ini f v s = .next s') : s.blk.Follows s'.blk := by
  have h0 := follows_refl s.blk
  unfold execFxpRxFree at h
  refine cmd_follows h ?_
  try dsimp only
  apply writeField_follows
  with_reducible assumption

theorem execFxpCtrlJoin_follows (ini : Ini) (f : Nat) {s s' : State} (h : execFxpCtrlJoin ini f s = .next s') : s.blk.Follows s'.blk := by
  have h0 := follows_refl s.blk
  unfold execFxpCtrlJoin at h
  refine cmd_follows h ?_
  try dsimp only
  apply writeField_follows
  with_reducible assumption

theorem execFxpRound_follows (ini : Ini) (f v : Nat) {s s' : State} (h : execFxpRound ini f v s = .next s') : s.blk.Follows s'.blk := by
  have h0 := follows_refl s.blk
  unfold execFxpRound at h
  refine cmd_follows h ?_
  try dsimp only
  apply writeField_follows
  with_reducible assumption

theorem execTelCap_follows (ini : Ini) (v : Nat) {s s' : State} (h : execTelCap ini v s = .next s') : s.blk.Follows s'.blk := by
  have h0 := follows_refl s.blk
  unfold execTelCap at h
  refine cmd_follows h ?_
  try dsimp only
  apply writeField_follows
  with_reducible assumption

theorem execTelGroup_follows (ini : Ini) (v : Nat) {s s' : State} (h : execTelGroup ini v s = .next s') : s.blk.Follows s'.blk := by
  have h0 := follows_refl s.blk
  unfold execTelGroup at h
  refine cmd_follows h ?_
  try dsimp only
  apply write_follows
  with_reducible assumption

theorem execPwcPhaseTab_follows (ini : Ini) (k v : Nat) {s s' : State} (h : execPwcPhaseTab ini k v s = .next s') : s.blk.Follows s'.blk := by
  have h0 := follows_refl s.blk
  unfold execPwcPhaseTab at h
  refine cmd_follows h ?_
  try dsimp only
  apply writeField_follows
  with_reducible assumption

theorem execBootBudget_follows (ini : Ini) (v : Nat) {s s' : State} (h : execBootBudget ini v s = .next s') : s.blk.Follows s'.blk := by
  have h0 := follows_refl s.blk
  unfold execBootBudget at h
  refine cmd_follows h ?_
  try dsimp only
  apply writeField_follows
  with_reducible assumption

theorem execBootReset_follows (ini : Ini) {s s' : State} (h : execBootReset ini s = .next s') : s.blk.Follows s'.blk := by
  have h0 := follows_refl s.blk
  unfold execBootReset at h
  refine cmd_follows h ?_
  try dsimp only
  apply writeField_follows
  with_reducible assumption

theorem execBootShutdown_follows (ini : Ini) {s s' : State} (h : execBootShutdown ini s = .next s') : s.blk.Follows s'.blk := by
  have h0 := follows_refl s.blk
  unfold execBootShutdown at h
  refine cmd_follows h ?_
  try dsimp only
  apply writeField_follows
  with_reducible assumption

theorem execBistTest_follows (ini : Ini) (kind inst : Nat) {s s' : State} (h : execBistTest ini kind inst s = .next s') : s.blk.Follows s'.blk := by
  have h0 := follows_refl s.blk
  unfold execBistTest at h
  refine cmd_follows h ?_
  try dsimp only
  apply bistWrite_follows
  with_reducible assumption

theorem execBistRetire_follows (ini : Ini) (kind inst : Nat) {s s' : State} (h : execBistRetire ini kind inst s = .next s') : s.blk.Follows s'.blk := by
  have h0 := follows_refl s.blk
  unfold execBistRetire at h
  refine cmd_follows h ?_
  try dsimp only
  apply bistWrite_follows
  with_reducible assumption

theorem execWaleTest_follows (ini : Ini) (w : Nat) {s s' : State} (h : execWaleTest ini w s = .next s') : s.blk.Follows s'.blk := by
  have h0 := follows_refl s.blk
  unfold execWaleTest at h
  refine cmd_follows h ?_
  try dsimp only
  apply writeField_follows
  with_reducible assumption

theorem execWaleRetire_follows (ini : Ini) (w : Nat) {s s' : State} (h : execWaleRetire ini w s = .next s') : s.blk.Follows s'.blk := by
  have h0 := follows_refl s.blk
  unfold execWaleRetire at h
  refine cmd_follows h ?_
  try dsimp only
  apply writeField_follows
  with_reducible assumption

theorem execHoopMigrate_follows (ini : Ini) {s s' : State} (h : execHoopMigrate ini s = .next s') : s.blk.Follows s'.blk := by
  have h0 := follows_refl s.blk
  unfold execHoopMigrate at h
  refine cmd_follows h ?_
  try dsimp only
  apply writeField_follows
  with_reducible assumption

theorem execHoopGParked_follows (ini : Ini) (g v : Nat) {s s' : State} (h : execHoopGParked ini g v s = .next s') : s.blk.Follows s'.blk := by
  have h0 := follows_refl s.blk
  unfold execHoopGParked at h
  refine cmd_follows h ?_
  try dsimp only
  apply writeField_follows
  with_reducible assumption

theorem execHoopGClaim_follows (ini : Ini) (g v : Nat) {s s' : State} (h : execHoopGClaim ini g v s = .next s') : s.blk.Follows s'.blk := by
  have h0 := follows_refl s.blk
  unfold execHoopGClaim at h
  refine cmd_follows h ?_
  try dsimp only
  apply writeField_follows
  with_reducible assumption

theorem execHoopCoreGroup_follows (ini : Ini) (k v : Nat) {s s' : State} (h : execHoopCoreGroup ini k v s = .next s') : s.blk.Follows s'.blk := by
  have h0 := follows_refl s.blk
  unfold execHoopCoreGroup at h
  refine cmd_follows h ?_
  try dsimp only
  apply write_follows
  with_reducible assumption

theorem execHoopDmaDoorbell_follows (ini : Ini) (g v : Nat) {s s' : State} (h : execHoopDmaDoorbell ini g v s = .next s') : s.blk.Follows s'.blk := by
  have h0 := follows_refl s.blk
  unfold execHoopDmaDoorbell at h
  refine cmd_follows h ?_
  try dsimp only
  apply writeField_follows
  with_reducible assumption

theorem execHoopGEvtGet_follows (ini : Ini) (g v : Nat) {s s' : State} (h : execHoopGEvtGet ini g v s = .next s') : s.blk.Follows s'.blk := by
  have h0 := follows_refl s.blk
  unfold execHoopGEvtGet at h
  refine cmd_follows h ?_
  try dsimp only
  apply writeField_follows
  with_reducible assumption

theorem execHoopMemoryAccess_follows (core a : Nat) (write : Bool) (n data : Nat) {s s' : State} (h : execHoopMemoryAccess core a write n data s = .next s') : s.blk.Follows s'.blk := by
  have h0 := follows_refl s.blk
  unfold execHoopMemoryAccess at h
  refine cmd_follows h ?_
  try dsimp only
  split
  · apply coreAccess_follows
    with_reducible assumption
  · apply follows_send
    with_reducible assumption
  · apply follows_send
    with_reducible assumption

end Sys2Proof.Laws
end

