-- ==== Sys2Proof/Laws/KeepsReplica.lean ====
section
/-! SUPPORT. Each command of Machine/Replica.lean stays in `Blk.Follows`. -/

namespace Sys2Proof.Laws

open Sys2Proof.Machine

theorem execLossValue_follows  {s s' : State} (h : execLossValue  s = .next s') : s.blk.Follows s'.blk := by
  have h0 := follows_refl s.blk
  unfold execLossValue at h
  refine cmd_follows h ?_
  try dsimp only
  split
  · with_reducible assumption
  · apply lossValue_follows
    apply follows_mk
    with_reducible assumption

theorem execDigestReady_follows (shard : Nat) {s s' : State} (h : execDigestReady shard s = .next s') : s.blk.Follows s'.blk := by
  have h0 := follows_refl s.blk
  unfold execDigestReady at h
  refine cmd_follows h ?_
  try dsimp only
  apply digestReady_follows
  with_reducible assumption

theorem execDigestReceive_follows (src shard step d : Nat) {s s' : State} (h : execDigestReceive src shard step d s = .next s') : s.blk.Follows s'.blk := by
  have h0 := follows_refl s.blk
  unfold execDigestReceive at h
  refine cmd_follows h ?_
  try dsimp only
  apply follows_when
  · with_reducible assumption
  · intros
    apply digestReceive_follows
    with_reducible assumption

theorem execDigestWaitExpire_follows (shard step : Nat) {s s' : State} (h : execDigestWaitExpire shard step s = .next s') : s.blk.Follows s'.blk := by
  have h0 := follows_refl s.blk
  unfold execDigestWaitExpire at h
  refine cmd_follows h ?_
  try dsimp only
  split
  · split
    · apply follows_when
      · with_reducible assumption
      · intros
        apply decideCmp_follows
        assumption
    · with_reducible assumption
  · with_reducible assumption

theorem execRepairServe_follows (src shard part chunk step : Nat) (served : Bool) {s s' : State} (h : execRepairServe src shard part chunk step served s = .next s') : s.blk.Follows s'.blk := by
  have h0 := follows_refl s.blk
  unfold execRepairServe at h
  refine cmd_follows h ?_
  try dsimp only
  split
  · with_reducible assumption
  · split
    · with_reducible assumption
    · split
      · apply follows_when
        · with_reducible assumption
        · intros
          apply serveBegin_follows
          with_reducible assumption
      · split
        · with_reducible assumption
        · split
          · apply error_follows
            apply ueOf_follows
            with_reducible assumption
          · apply wakeBanks_follows
            apply sendTo_follows
            apply inc_follows
            apply follows_mk
            with_reducible assumption

theorem execRepairChunkReceive_follows (c : RepairChunk) {s s' : State} (h : execRepairChunkReceive c s = .next s') : s.blk.Follows s'.blk := by
  have h0 := follows_refl s.blk
  unfold execRepairChunkReceive at h
  refine cmd_follows h ?_
  try dsimp only
  split
  · with_reducible assumption
  · split
    · with_reducible assumption
    · apply repairWith_follows
      with_reducible assumption

end Sys2Proof.Laws
end

