-- ==== Sys2Proof/Laws/KeepsRowEngine.lean ====
section
/-! SUPPORT. Each command of Machine/RowEngine.lean stays in `Blk.Follows`. -/

namespace Sys2Proof.Laws

open Sys2Proof.Machine

theorem execRowOpStart_follows (w : Nat) {s s' : State} (h : execRowOpStart w s = .next s') : s.blk.Follows s'.blk := by
  have h0 := follows_refl s.blk
  unfold execRowOpStart at h
  refine cmd_follows h ?_
  try dsimp only
  apply rowStart_follows
  with_reducible assumption

theorem execRowOpEnd_follows (w : Nat) {s s' : State} (h : execRowOpEnd w s = .next s') : s.blk.Follows s'.blk := by
  have h0 := follows_refl s.blk
  unfold execRowOpEnd at h
  refine cmd_follows h ?_
  try dsimp only
  split
  · apply rowFinish_follows
    with_reducible assumption
  · with_reducible assumption

theorem execRowSuspend_follows (w addr : Nat) {s s' : State} (h : execRowSuspend w addr s = .next s') : s.blk.Follows s'.blk := by
  have h0 := follows_refl s.blk
  unfold execRowSuspend at h
  refine cmd_follows h ?_
  try dsimp only
  split
  · with_reducible assumption
  · split
    · split
      · apply rowFinish_follows
        apply markUe_follows
        with_reducible assumption
      · with_reducible assumption
    · with_reducible assumption

theorem execSideClearDone_follows (w : Nat) {s s' : State} (h : execSideClearDone w s = .next s') : s.blk.Follows s'.blk := by
  have h0 := follows_refl s.blk
  unfold execSideClearDone at h
  refine cmd_follows h ?_
  try dsimp only
  apply follows_when
  · with_reducible assumption
  · intros
    apply event_follows
    apply wr_follows
    apply zeroRange_follows
    assumption

end Sys2Proof.Laws
end

