-- ==== Sys2Proof/Laws/KeepsScalar.lean ====
section
/-! SUPPORT. Each command of Machine/Scalar.lean stays in `Blk.Follows`. -/

namespace Sys2Proof.Laws

open Sys2Proof.Machine

theorem execNop_follows (t : Tid) {s s' : State} (h : execNop t s = .next s') : s.blk.Follows s'.blk := by
  have h0 := follows_refl s.blk
  unfold execNop at h
  refine cmd_follows h ?_
  try dsimp only
  apply insn_follows
  · with_reducible assumption
  · intros
    apply next_follows
    assumption

theorem execAdd_follows (t : Tid) {s s' : State} (h : execAdd t s = .next s') : s.blk.Follows s'.blk := by
  have h0 := follows_refl s.blk
  unfold execAdd at h
  refine cmd_follows h ?_
  try dsimp only
  apply alu_follows
  with_reducible assumption

theorem execSub_follows (t : Tid) {s s' : State} (h : execSub t s = .next s') : s.blk.Follows s'.blk := by
  have h0 := follows_refl s.blk
  unfold execSub at h
  refine cmd_follows h ?_
  try dsimp only
  apply alu_follows
  with_reducible assumption

theorem execMul_follows (t : Tid) {s s' : State} (h : execMul t s = .next s') : s.blk.Follows s'.blk := by
  have h0 := follows_refl s.blk
  unfold execMul at h
  refine cmd_follows h ?_
  try dsimp only
  apply alu_follows
  with_reducible assumption

theorem execMulhu_follows (t : Tid) {s s' : State} (h : execMulhu t s = .next s') : s.blk.Follows s'.blk := by
  have h0 := follows_refl s.blk
  unfold execMulhu at h
  refine cmd_follows h ?_
  try dsimp only
  apply alu_follows
  with_reducible assumption

theorem execAndOp_follows (t : Tid) {s s' : State} (h : execAndOp t s = .next s') : s.blk.Follows s'.blk := by
  have h0 := follows_refl s.blk
  unfold execAndOp at h
  refine cmd_follows h ?_
  try dsimp only
  apply alu_follows
  with_reducible assumption

theorem execOrOp_follows (t : Tid) {s s' : State} (h : execOrOp t s = .next s') : s.blk.Follows s'.blk := by
  have h0 := follows_refl s.blk
  unfold execOrOp at h
  refine cmd_follows h ?_
  try dsimp only
  apply alu_follows
  with_reducible assumption

theorem execXor_follows (t : Tid) {s s' : State} (h : execXor t s = .next s') : s.blk.Follows s'.blk := by
  have h0 := follows_refl s.blk
  unfold execXor at h
  refine cmd_follows h ?_
  try dsimp only
  apply alu_follows
  with_reducible assumption

theorem execSll_follows (t : Tid) {s s' : State} (h : execSll t s = .next s') : s.blk.Follows s'.blk := by
  have h0 := follows_refl s.blk
  unfold execSll at h
  refine cmd_follows h ?_
  try dsimp only
  apply alu_follows
  with_reducible assumption

theorem execSrl_follows (t : Tid) {s s' : State} (h : execSrl t s = .next s') : s.blk.Follows s'.blk := by
  have h0 := follows_refl s.blk
  unfold execSrl at h
  refine cmd_follows h ?_
  try dsimp only
  apply alu_follows
  with_reducible assumption

theorem execSra_follows (t : Tid) {s s' : State} (h : execSra t s = .next s') : s.blk.Follows s'.blk := by
  have h0 := follows_refl s.blk
  unfold execSra at h
  refine cmd_follows h ?_
  try dsimp only
  apply alu_follows
  with_reducible assumption

theorem execMin_follows (t : Tid) {s s' : State} (h : execMin t s = .next s') : s.blk.Follows s'.blk := by
  have h0 := follows_refl s.blk
  unfold execMin at h
  refine cmd_follows h ?_
  try dsimp only
  apply alu_follows
  with_reducible assumption

theorem execMax_follows (t : Tid) {s s' : State} (h : execMax t s = .next s') : s.blk.Follows s'.blk := by
  have h0 := follows_refl s.blk
  unfold execMax at h
  refine cmd_follows h ?_
  try dsimp only
  apply alu_follows
  with_reducible assumption

theorem execMinu_follows (t : Tid) {s s' : State} (h : execMinu t s = .next s') : s.blk.Follows s'.blk := by
  have h0 := follows_refl s.blk
  unfold execMinu at h
  refine cmd_follows h ?_
  try dsimp only
  apply alu_follows
  with_reducible assumption

theorem execMaxu_follows (t : Tid) {s s' : State} (h : execMaxu t s = .next s') : s.blk.Follows s'.blk := by
  have h0 := follows_refl s.blk
  unfold execMaxu at h
  refine cmd_follows h ?_
  try dsimp only
  apply alu_follows
  with_reducible assumption

theorem execSlt_follows (t : Tid) {s s' : State} (h : execSlt t s = .next s') : s.blk.Follows s'.blk := by
  have h0 := follows_refl s.blk
  unfold execSlt at h
  refine cmd_follows h ?_
  try dsimp only
  apply alu_follows
  with_reducible assumption

theorem execSltu_follows (t : Tid) {s s' : State} (h : execSltu t s = .next s') : s.blk.Follows s'.blk := by
  have h0 := follows_refl s.blk
  unfold execSltu at h
  refine cmd_follows h ?_
  try dsimp only
  apply alu_follows
  with_reducible assumption

theorem execSeq_follows (t : Tid) {s s' : State} (h : execSeq t s = .next s') : s.blk.Follows s'.blk := by
  have h0 := follows_refl s.blk
  unfold execSeq at h
  refine cmd_follows h ?_
  try dsimp only
  apply alu_follows
  with_reducible assumption

theorem execLi_follows (t : Tid) {s s' : State} (h : execLi t s = .next s') : s.blk.Follows s'.blk := by
  have h0 := follows_refl s.blk
  unfold execLi at h
  refine cmd_follows h ?_
  try dsimp only
  apply value_follows
  with_reducible assumption

theorem execLih_follows (t : Tid) {s s' : State} (h : execLih t s = .next s') : s.blk.Follows s'.blk := by
  have h0 := follows_refl s.blk
  unfold execLih at h
  refine cmd_follows h ?_
  try dsimp only
  apply value_follows
  with_reducible assumption

theorem execSel_follows (t : Tid) {s s' : State} (h : execSel t s = .next s') : s.blk.Follows s'.blk := by
  have h0 := follows_refl s.blk
  unfold execSel at h
  refine cmd_follows h ?_
  try dsimp only
  apply insn_follows
  · with_reducible assumption
  · intros
    apply next_follows
    assumption

theorem execBeq_follows (t : Tid) {s s' : State} (h : execBeq t s = .next s') : s.blk.Follows s'.blk := by
  have h0 := follows_refl s.blk
  unfold execBeq at h
  refine cmd_follows h ?_
  try dsimp only
  apply branch_follows
  with_reducible assumption

theorem execBne_follows (t : Tid) {s s' : State} (h : execBne t s = .next s') : s.blk.Follows s'.blk := by
  have h0 := follows_refl s.blk
  unfold execBne at h
  refine cmd_follows h ?_
  try dsimp only
  apply branch_follows
  with_reducible assumption

theorem execBlt_follows (t : Tid) {s s' : State} (h : execBlt t s = .next s') : s.blk.Follows s'.blk := by
  have h0 := follows_refl s.blk
  unfold execBlt at h
  refine cmd_follows h ?_
  try dsimp only
  apply branch_follows
  with_reducible assumption

theorem execBge_follows (t : Tid) {s s' : State} (h : execBge t s = .next s') : s.blk.Follows s'.blk := by
  have h0 := follows_refl s.blk
  unfold execBge at h
  refine cmd_follows h ?_
  try dsimp only
  apply branch_follows
  with_reducible assumption

theorem execBltu_follows (t : Tid) {s s' : State} (h : execBltu t s = .next s') : s.blk.Follows s'.blk := by
  have h0 := follows_refl s.blk
  unfold execBltu at h
  refine cmd_follows h ?_
  try dsimp only
  apply branch_follows
  with_reducible assumption

theorem execBgeu_follows (t : Tid) {s s' : State} (h : execBgeu t s = .next s') : s.blk.Follows s'.blk := by
  have h0 := follows_refl s.blk
  unfold execBgeu at h
  refine cmd_follows h ?_
  try dsimp only
  apply branch_follows
  with_reducible assumption

theorem execJal_follows (t : Tid) {s s' : State} (h : execJal t s = .next s') : s.blk.Follows s'.blk := by
  have h0 := follows_refl s.blk
  unfold execJal at h
  refine cmd_follows h ?_
  try dsimp only
  apply insn_follows
  · with_reducible assumption
  · intros
    apply retire_follows
    assumption

theorem execJalr_follows (t : Tid) {s s' : State} (h : execJalr t s = .next s') : s.blk.Follows s'.blk := by
  have h0 := follows_refl s.blk
  unfold execJalr at h
  refine cmd_follows h ?_
  try dsimp only
  apply insn_follows
  · with_reducible assumption
  · intros
    apply retire_follows
    assumption

theorem execLd_follows (t : Tid) {s s' : State} (h : execLd t s = .next s') : s.blk.Follows s'.blk := by
  have h0 := follows_refl s.blk
  unfold execLd at h
  refine cmd_follows h ?_
  try dsimp only
  apply ld_follows
  with_reducible assumption

theorem execSt_follows (t : Tid) {s s' : State} (h : execSt t s = .next s') : s.blk.Follows s'.blk := by
  have h0 := follows_refl s.blk
  unfold execSt at h
  refine cmd_follows h ?_
  try dsimp only
  apply stI_follows
  with_reducible assumption

theorem execAmo_follows (t : Tid) {s s' : State} (h : execAmo t s = .next s') : s.blk.Follows s'.blk := by
  have h0 := follows_refl s.blk
  unfold execAmo at h
  refine cmd_follows h ?_
  try dsimp only
  apply amo_follows
  with_reducible assumption

theorem execTwait_follows (t : Tid) {s s' : State} (h : execTwait t s = .next s') : s.blk.Follows s'.blk := by
  have h0 := follows_refl s.blk
  unfold execTwait at h
  refine cmd_follows h ?_
  try dsimp only
  apply twait_follows
  with_reducible assumption

theorem execFence_follows (t : Tid) {s s' : State} (h : execFence t s = .next s') : s.blk.Follows s'.blk := by
  have h0 := follows_refl s.blk
  unfold execFence at h
  refine cmd_follows h ?_
  try dsimp only
  apply fence_follows
  with_reducible assumption

theorem execBar_follows (t : Tid) {s s' : State} (h : execBar t s = .next s') : s.blk.Follows s'.blk := by
  have h0 := follows_refl s.blk
  unfold execBar at h
  refine cmd_follows h ?_
  try dsimp only
  apply bar_follows
  with_reducible assumption

theorem execBwait_follows (t : Tid) {s s' : State} (h : execBwait t s = .next s') : s.blk.Follows s'.blk := by
  have h0 := follows_refl s.blk
  unfold execBwait at h
  refine cmd_follows h ?_
  try dsimp only
  apply bwait_follows
  with_reducible assumption

theorem execHalt_follows (t : Tid) {s s' : State} (h : execHalt t s = .next s') : s.blk.Follows s'.blk := by
  have h0 := follows_refl s.blk
  unfold execHalt at h
  refine cmd_follows h ?_
  try dsimp only
  apply halt_follows
  with_reducible assumption

theorem execSumrd_follows (t : Tid) {s s' : State} (h : execSumrd t s = .next s') : s.blk.Follows s'.blk := by
  have h0 := follows_refl s.blk
  unfold execSumrd at h
  refine cmd_follows h ?_
  try dsimp only
  apply sumrd_follows
  with_reducible assumption

theorem execRdid_follows (t : Tid) {s s' : State} (h : execRdid t s = .next s') : s.blk.Follows s'.blk := by
  have h0 := follows_refl s.blk
  unfold execRdid at h
  refine cmd_follows h ?_
  try dsimp only
  apply rdid_follows
  with_reducible assumption

theorem execPhase_follows (t : Tid) {s s' : State} (h : execPhase t s = .next s') : s.blk.Follows s'.blk := by
  have h0 := follows_refl s.blk
  unfold execPhase at h
  refine cmd_follows h ?_
  try dsimp only
  apply phaseI_follows
  with_reducible assumption

theorem execUndefinedOpcode_follows (t : Tid) {s s' : State} (h : execUndefinedOpcode t s = .next s') : s.blk.Follows s'.blk := by
  have h0 := follows_refl s.blk
  unfold execUndefinedOpcode at h
  refine cmd_follows h ?_
  try dsimp only
  apply undefinedOp_follows
  with_reducible assumption

end Sys2Proof.Laws
end

