-- ==== Sys2Proof/Laws/KeepsSched.lean ====
section
/-! SUPPORT. Each command of Machine/Sched.lean stays in `Blk.Follows`. -/

namespace Sys2Proof.Laws

open Sys2Proof.Machine

theorem execWorkListTake_follows (w : Nat) {s s' : State} (h : execWorkListTake w s = .next s') : s.blk.Follows s'.blk := by
  have h0 := follows_refl s.blk
  unfold execWorkListTake at h
  refine cmd_follows h ?_
  try dsimp only
  apply follows_when
  · with_reducible assumption
  · intros
    apply take_follows
    assumption

theorem execSyncEdge_follows (x : Nat) {s s' : State} (h : execSyncEdge x s = .next s') : s.blk.Follows s'.blk := by
  have h0 := follows_refl s.blk
  unfold execSyncEdge at h
  refine cmd_follows h ?_
  try dsimp only
  split
  · with_reducible assumption
  · split
    · apply syncAcquire_follows
      with_reducible assumption
    · apply syncMatchEdge_follows
      with_reducible assumption
    · apply syncMatchEdge_follows
      with_reducible assumption
    · with_reducible assumption

theorem execSyncEvaluate_follows  {s s' : State} (h : execSyncEvaluate  s = .next s') : s.blk.Follows s'.blk := by
  have h0 := follows_refl s.blk
  unfold execSyncEvaluate at h
  refine cmd_follows h ?_
  try dsimp only
  apply follows_when
  · with_reducible assumption
  · intros
    apply syncEval_follows
    assumption

end Sys2Proof.Laws
end

