-- ==== Sys2Proof/Laws/KeepsSummary.lean ====
section
/-! SUPPORT. Each command of Machine/Summary.lean stays in `Blk.Follows`. -/

namespace Sys2Proof.Laws

open Sys2Proof.Machine

theorem execSumCombine_follows (w : Nat) {s s' : State} (h : execSumCombine w s = .next s') : s.blk.Follows s'.blk := by
  have h0 := follows_refl s.blk
  unfold execSumCombine at h
  refine cmd_follows h ?_
  try dsimp only
  apply sumStart_follows
  · with_reducible assumption
  · intros
    apply combine_follows
    assumption

theorem execSumPost_follows (w : Nat) {s s' : State} (h : execSumPost w s = .next s') : s.blk.Follows s'.blk := by
  have h0 := follows_refl s.blk
  unfold execSumPost at h
  refine cmd_follows h ?_
  try dsimp only
  apply sumStart_follows
  · with_reducible assumption
  · intros
    apply postGo_follows
    assumption

theorem execSumClear_follows (w : Nat) {s s' : State} (h : execSumClear w s = .next s') : s.blk.Follows s'.blk := by
  have h0 := follows_refl s.blk
  unfold execSumClear at h
  refine cmd_follows h ?_
  try dsimp only
  apply sumStart_follows
  · with_reducible assumption
  · intros
    apply setWale_follows
    assumption

theorem execSumLoss_follows (w : Nat) {s s' : State} (h : execSumLoss w s = .next s') : s.blk.Follows s'.blk := by
  have h0 := follows_refl s.blk
  unfold execSumLoss at h
  refine cmd_follows h ?_
  try dsimp only
  apply sumStart_follows
  · with_reducible assumption
  · intros
    apply setWale_follows
    with_reducible assumption

theorem execSummaryOpEnd_follows (w : Nat) {s s' : State} (h : execSummaryOpEnd w s = .next s') : s.blk.Follows s'.blk := by
  have h0 := follows_refl s.blk
  unfold execSummaryOpEnd at h
  refine cmd_follows h ?_
  try dsimp only
  split
  · split
    · apply post_follows
      split
      · apply inc_follows
        apply lossSend_follows
        apply setWale_follows
        with_reducible assumption
      · apply lossSend_follows
        apply setWale_follows
        with_reducible assumption
    · with_reducible assumption
  · with_reducible assumption

end Sys2Proof.Laws
end

