-- ==== Sys2Proof/Laws/State.lean ====
section
/-! SUPPORT. What each update of one part of the block leaves as it was, one lemma per field, and what reads of a register field, a thread, a stake and a wale
give after a write. -/

namespace Sys2Proof.Laws

open Sys2Proof.Machine

variable (b : Blk)

@[simp] theorem wr_mem (f : Fld) (v i : Nat) : (b.wr f v i).mem = b.mem := rfl
@[simp] theorem wr_xlt (f : Fld) (v i : Nat) : (b.wr f v i).xlt = b.xlt := rfl
@[simp] theorem wr_io (f : Fld) (v i : Nat) : (b.wr f v i).io = b.io := rfl
@[simp] theorem wr_flash (f : Fld) (v i : Nat) : (b.wr f v i).flash = b.flash := rfl
@[simp] theorem wr_lid (f : Fld) (v i : Nat) : (b.wr f v i).lid = b.lid := rfl
@[simp] theorem wr_rak (f : Fld) (v i : Nat) : (b.wr f v i).rak = b.rak := rfl
@[simp] theorem wr_steps (f : Fld) (v i : Nat) : (b.wr f v i).steps = b.steps := rfl
@[simp] theorem wr_border (f : Fld) (v i : Nat) : (b.wr f v i).border = b.border := rfl
@[simp] theorem wr_threads (f : Fld) (v i : Nat) : (b.wr f v i).threads = b.threads := rfl
@[simp] theorem wr_stakes (f : Fld) (v i : Nat) : (b.wr f v i).stakes = b.stakes := rfl
@[simp] theorem wr_wales (f : Fld) (v i : Nat) : (b.wr f v i).wales = b.wales := rfl
@[simp] theorem wr_streams (f : Fld) (v i : Nat) : (b.wr f v i).streams = b.streams := rfl
@[simp] theorem wr_leave (f : Fld) (v i : Nat) : (b.wr f v i).leave = b.leave := rfl
@[simp] theorem wr_beat (f : Fld) (v i : Nat) : (b.wr f v i).beat = b.beat := rfl
@[simp] theorem wr_hoopDma (f : Fld) (v i : Nat) : (b.wr f v i).hoopDma = b.hoopDma := rfl
@[simp] theorem wr_lossQ (f : Fld) (v i : Nat) : (b.wr f v i).lossQ = b.lossQ := rfl
@[simp] theorem wr_pwr (f : Fld) (v i : Nat) : (b.wr f v i).pwr = b.pwr := rfl
@[simp] theorem wr_near (f : Fld) (v i : Nat) : (b.wr f v i).near = b.near := rfl
@[simp] theorem wr_banks (f : Fld) (v i : Nat) : (b.wr f v i).banks = b.banks := rfl
@[simp] theorem wr_dig (f : Fld) (v i : Nat) : (b.wr f v i).dig = b.dig := rfl
@[simp] theorem wr_lossFlag (f : Fld) (v i : Nat) : (b.wr f v i).lossFlag = b.lossFlag := rfl
@[simp] theorem wr_far (f : Fld) (v i : Nat) : (b.wr f v i).far = b.far := rfl
@[simp] theorem wr_boot (f : Fld) (v i : Nat) : (b.wr f v i).boot = b.boot := rfl
@[simp] theorem wr_hoop (f : Fld) (v i : Nat) : (b.wr f v i).hoop = b.hoop := rfl
@[simp] theorem wr_mgmt (f : Fld) (v i : Nat) : (b.wr f v i).mgmt = b.mgmt := rfl

@[simp] theorem send_regs (o : Out) : (b.send o).regs = b.regs := rfl
@[simp] theorem send_mem (o : Out) : (b.send o).mem = b.mem := rfl
@[simp] theorem send_xlt (o : Out) : (b.send o).xlt = b.xlt := rfl
@[simp] theorem send_flash (o : Out) : (b.send o).flash = b.flash := rfl
@[simp] theorem send_lid (o : Out) : (b.send o).lid = b.lid := rfl
@[simp] theorem send_rak (o : Out) : (b.send o).rak = b.rak := rfl
@[simp] theorem send_steps (o : Out) : (b.send o).steps = b.steps := rfl
@[simp] theorem send_border (o : Out) : (b.send o).border = b.border := rfl
@[simp] theorem send_threads (o : Out) : (b.send o).threads = b.threads := rfl
@[simp] theorem send_stakes (o : Out) : (b.send o).stakes = b.stakes := rfl
@[simp] theorem send_wales (o : Out) : (b.send o).wales = b.wales := rfl
@[simp] theorem send_streams (o : Out) : (b.send o).streams = b.streams := rfl
@[simp] theorem send_leave (o : Out) : (b.send o).leave = b.leave := rfl
@[simp] theorem send_beat (o : Out) : (b.send o).beat = b.beat := rfl
@[simp] theorem send_hoopDma (o : Out) : (b.send o).hoopDma = b.hoopDma := rfl
@[simp] theorem send_lossQ (o : Out) : (b.send o).lossQ = b.lossQ := rfl
@[simp] theorem send_pwr (o : Out) : (b.send o).pwr = b.pwr := rfl
@[simp] theorem send_near (o : Out) : (b.send o).near = b.near := rfl
@[simp] theorem send_banks (o : Out) : (b.send o).banks = b.banks := rfl
@[simp] theorem send_dig (o : Out) : (b.send o).dig = b.dig := rfl
@[simp] theorem send_lossFlag (o : Out) : (b.send o).lossFlag = b.lossFlag := rfl
@[simp] theorem send_far (o : Out) : (b.send o).far = b.far := rfl
@[simp] theorem send_boot (o : Out) : (b.send o).boot = b.boot := rfl
@[simp] theorem send_hoop (o : Out) : (b.send o).hoop = b.hoop := rfl
@[simp] theorem send_mgmt (o : Out) : (b.send o).mgmt = b.mgmt := rfl

@[simp] theorem setThread_regs (t : Tid) (x : Thread) : (b.setThread t x).regs = b.regs := rfl
@[simp] theorem setThread_mem (t : Tid) (x : Thread) : (b.setThread t x).mem = b.mem := rfl
@[simp] theorem setThread_xlt (t : Tid) (x : Thread) : (b.setThread t x).xlt = b.xlt := rfl
@[simp] theorem setThread_io (t : Tid) (x : Thread) : (b.setThread t x).io = b.io := rfl
@[simp] theorem setThread_flash (t : Tid) (x : Thread) : (b.setThread t x).flash = b.flash := rfl
@[simp] theorem setThread_lid (t : Tid) (x : Thread) : (b.setThread t x).lid = b.lid := rfl
@[simp] theorem setThread_rak (t : Tid) (x : Thread) : (b.setThread t x).rak = b.rak := rfl
@[simp] theorem setThread_steps (t : Tid) (x : Thread) : (b.setThread t x).steps = b.steps := rfl
@[simp] theorem setThread_border (t : Tid) (x : Thread) : (b.setThread t x).border = b.border := rfl
@[simp] theorem setThread_stakes (t : Tid) (x : Thread) : (b.setThread t x).stakes = b.stakes := rfl
@[simp] theorem setThread_wales (t : Tid) (x : Thread) : (b.setThread t x).wales = b.wales := rfl
@[simp] theorem setThread_streams (t : Tid) (x : Thread) : (b.setThread t x).streams = b.streams := rfl
@[simp] theorem setThread_leave (t : Tid) (x : Thread) : (b.setThread t x).leave = b.leave := rfl
@[simp] theorem setThread_beat (t : Tid) (x : Thread) : (b.setThread t x).beat = b.beat := rfl
@[simp] theorem setThread_hoopDma (t : Tid) (x : Thread) : (b.setThread t x).hoopDma = b.hoopDma := rfl
@[simp] theorem setThread_lossQ (t : Tid) (x : Thread) : (b.setThread t x).lossQ = b.lossQ := rfl
@[simp] theorem setThread_pwr (t : Tid) (x : Thread) : (b.setThread t x).pwr = b.pwr := rfl
@[simp] theorem setThread_near (t : Tid) (x : Thread) : (b.setThread t x).near = b.near := rfl
@[simp] theorem setThread_banks (t : Tid) (x : Thread) : (b.setThread t x).banks = b.banks := rfl
@[simp] theorem setThread_dig (t : Tid) (x : Thread) : (b.setThread t x).dig = b.dig := rfl
@[simp] theorem setThread_lossFlag (t : Tid) (x : Thread) : (b.setThread t x).lossFlag = b.lossFlag := rfl
@[simp] theorem setThread_far (t : Tid) (x : Thread) : (b.setThread t x).far = b.far := rfl
@[simp] theorem setThread_boot (t : Tid) (x : Thread) : (b.setThread t x).boot = b.boot := rfl
@[simp] theorem setThread_hoop (t : Tid) (x : Thread) : (b.setThread t x).hoop = b.hoop := rfl
@[simp] theorem setThread_mgmt (t : Tid) (x : Thread) : (b.setThread t x).mgmt = b.mgmt := rfl

@[simp] theorem setStake_regs (k : Nat) (x : Stake) : (b.setStake k x).regs = b.regs := rfl
@[simp] theorem setStake_mem (k : Nat) (x : Stake) : (b.setStake k x).mem = b.mem := rfl
@[simp] theorem setStake_xlt (k : Nat) (x : Stake) : (b.setStake k x).xlt = b.xlt := rfl
@[simp] theorem setStake_io (k : Nat) (x : Stake) : (b.setStake k x).io = b.io := rfl
@[simp] theorem setStake_flash (k : Nat) (x : Stake) : (b.setStake k x).flash = b.flash := rfl
@[simp] theorem setStake_lid (k : Nat) (x : Stake) : (b.setStake k x).lid = b.lid := rfl
@[simp] theorem setStake_rak (k : Nat) (x : Stake) : (b.setStake k x).rak = b.rak := rfl
@[simp] theorem setStake_steps (k : Nat) (x : Stake) : (b.setStake k x).steps = b.steps := rfl
@[simp] theorem setStake_border (k : Nat) (x : Stake) : (b.setStake k x).border = b.border := rfl
@[simp] theorem setStake_threads (k : Nat) (x : Stake) : (b.setStake k x).threads = b.threads := rfl
@[simp] theorem setStake_wales (k : Nat) (x : Stake) : (b.setStake k x).wales = b.wales := rfl
@[simp] theorem setStake_streams (k : Nat) (x : Stake) : (b.setStake k x).streams = b.streams := rfl
@[simp] theorem setStake_leave (k : Nat) (x : Stake) : (b.setStake k x).leave = b.leave := rfl
@[simp] theorem setStake_beat (k : Nat) (x : Stake) : (b.setStake k x).beat = b.beat := rfl
@[simp] theorem setStake_hoopDma (k : Nat) (x : Stake) : (b.setStake k x).hoopDma = b.hoopDma := rfl
@[simp] theorem setStake_lossQ (k : Nat) (x : Stake) : (b.setStake k x).lossQ = b.lossQ := rfl
@[simp] theorem setStake_pwr (k : Nat) (x : Stake) : (b.setStake k x).pwr = b.pwr := rfl
@[simp] theorem setStake_near (k : Nat) (x : Stake) : (b.setStake k x).near = b.near := rfl
@[simp] theorem setStake_banks (k : Nat) (x : Stake) : (b.setStake k x).banks = b.banks := rfl
@[simp] theorem setStake_dig (k : Nat) (x : Stake) : (b.setStake k x).dig = b.dig := rfl
@[simp] theorem setStake_lossFlag (k : Nat) (x : Stake) : (b.setStake k x).lossFlag = b.lossFlag := rfl
@[simp] theorem setStake_far (k : Nat) (x : Stake) : (b.setStake k x).far = b.far := rfl
@[simp] theorem setStake_boot (k : Nat) (x : Stake) : (b.setStake k x).boot = b.boot := rfl
@[simp] theorem setStake_hoop (k : Nat) (x : Stake) : (b.setStake k x).hoop = b.hoop := rfl
@[simp] theorem setStake_mgmt (k : Nat) (x : Stake) : (b.setStake k x).mgmt = b.mgmt := rfl

@[simp] theorem setWale_regs (k : Nat) (x : Wale) : (b.setWale k x).regs = b.regs := rfl
@[simp] theorem setWale_mem (k : Nat) (x : Wale) : (b.setWale k x).mem = b.mem := rfl
@[simp] theorem setWale_xlt (k : Nat) (x : Wale) : (b.setWale k x).xlt = b.xlt := rfl
@[simp] theorem setWale_io (k : Nat) (x : Wale) : (b.setWale k x).io = b.io := rfl
@[simp] theorem setWale_flash (k : Nat) (x : Wale) : (b.setWale k x).flash = b.flash := rfl
@[simp] theorem setWale_lid (k : Nat) (x : Wale) : (b.setWale k x).lid = b.lid := rfl
@[simp] theorem setWale_rak (k : Nat) (x : Wale) : (b.setWale k x).rak = b.rak := rfl
@[simp] theorem setWale_steps (k : Nat) (x : Wale) : (b.setWale k x).steps = b.steps := rfl
@[simp] theorem setWale_border (k : Nat) (x : Wale) : (b.setWale k x).border = b.border := rfl
@[simp] theorem setWale_threads (k : Nat) (x : Wale) : (b.setWale k x).threads = b.threads := rfl
@[simp] theorem setWale_stakes (k : Nat) (x : Wale) : (b.setWale k x).stakes = b.stakes := rfl
@[simp] theorem setWale_streams (k : Nat) (x : Wale) : (b.setWale k x).streams = b.streams := rfl
@[simp] theorem setWale_leave (k : Nat) (x : Wale) : (b.setWale k x).leave = b.leave := rfl
@[simp] theorem setWale_beat (k : Nat) (x : Wale) : (b.setWale k x).beat = b.beat := rfl
@[simp] theorem setWale_hoopDma (k : Nat) (x : Wale) : (b.setWale k x).hoopDma = b.hoopDma := rfl
@[simp] theorem setWale_lossQ (k : Nat) (x : Wale) : (b.setWale k x).lossQ = b.lossQ := rfl
@[simp] theorem setWale_pwr (k : Nat) (x : Wale) : (b.setWale k x).pwr = b.pwr := rfl
@[simp] theorem setWale_near (k : Nat) (x : Wale) : (b.setWale k x).near = b.near := rfl
@[simp] theorem setWale_banks (k : Nat) (x : Wale) : (b.setWale k x).banks = b.banks := rfl
@[simp] theorem setWale_dig (k : Nat) (x : Wale) : (b.setWale k x).dig = b.dig := rfl
@[simp] theorem setWale_lossFlag (k : Nat) (x : Wale) : (b.setWale k x).lossFlag = b.lossFlag := rfl
@[simp] theorem setWale_far (k : Nat) (x : Wale) : (b.setWale k x).far = b.far := rfl
@[simp] theorem setWale_boot (k : Nat) (x : Wale) : (b.setWale k x).boot = b.boot := rfl
@[simp] theorem setWale_hoop (k : Nat) (x : Wale) : (b.setWale k x).hoop = b.hoop := rfl
@[simp] theorem setWale_mgmt (k : Nat) (x : Wale) : (b.setWale k x).mgmt = b.mgmt := rfl

@[simp] theorem setXl_regs (k : Nat) (x : Xl) : (b.setXl k x).regs = b.regs := rfl
@[simp] theorem setXl_mem (k : Nat) (x : Xl) : (b.setXl k x).mem = b.mem := rfl
@[simp] theorem setXl_io (k : Nat) (x : Xl) : (b.setXl k x).io = b.io := rfl
@[simp] theorem setXl_flash (k : Nat) (x : Xl) : (b.setXl k x).flash = b.flash := rfl
@[simp] theorem setXl_lid (k : Nat) (x : Xl) : (b.setXl k x).lid = b.lid := rfl
@[simp] theorem setXl_rak (k : Nat) (x : Xl) : (b.setXl k x).rak = b.rak := rfl
@[simp] theorem setXl_steps (k : Nat) (x : Xl) : (b.setXl k x).steps = b.steps := rfl
@[simp] theorem setXl_border (k : Nat) (x : Xl) : (b.setXl k x).border = b.border := rfl
@[simp] theorem setXl_threads (k : Nat) (x : Xl) : (b.setXl k x).threads = b.threads := rfl
@[simp] theorem setXl_stakes (k : Nat) (x : Xl) : (b.setXl k x).stakes = b.stakes := rfl
@[simp] theorem setXl_wales (k : Nat) (x : Xl) : (b.setXl k x).wales = b.wales := rfl
@[simp] theorem setXl_streams (k : Nat) (x : Xl) : (b.setXl k x).streams = b.streams := rfl
@[simp] theorem setXl_leave (k : Nat) (x : Xl) : (b.setXl k x).leave = b.leave := rfl
@[simp] theorem setXl_beat (k : Nat) (x : Xl) : (b.setXl k x).beat = b.beat := rfl
@[simp] theorem setXl_hoopDma (k : Nat) (x : Xl) : (b.setXl k x).hoopDma = b.hoopDma := rfl
@[simp] theorem setXl_lossQ (k : Nat) (x : Xl) : (b.setXl k x).lossQ = b.lossQ := rfl
@[simp] theorem setXl_pwr (k : Nat) (x : Xl) : (b.setXl k x).pwr = b.pwr := rfl
@[simp] theorem setXl_near (k : Nat) (x : Xl) : (b.setXl k x).near = b.near := rfl
@[simp] theorem setXl_banks (k : Nat) (x : Xl) : (b.setXl k x).banks = b.banks := rfl
@[simp] theorem setXl_dig (k : Nat) (x : Xl) : (b.setXl k x).dig = b.dig := rfl
@[simp] theorem setXl_lossFlag (k : Nat) (x : Xl) : (b.setXl k x).lossFlag = b.lossFlag := rfl
@[simp] theorem setXl_far (k : Nat) (x : Xl) : (b.setXl k x).far = b.far := rfl
@[simp] theorem setXl_boot (k : Nat) (x : Xl) : (b.setXl k x).boot = b.boot := rfl
@[simp] theorem setXl_hoop (k : Nat) (x : Xl) : (b.setXl k x).hoop = b.hoop := rfl
@[simp] theorem setXl_mgmt (k : Nat) (x : Xl) : (b.setXl k x).mgmt = b.mgmt := rfl

@[simp] theorem setStream_regs (k : Nat) (x : Option Stream) : (b.setStream k x).regs = b.regs := rfl
@[simp] theorem setStream_mem (k : Nat) (x : Option Stream) : (b.setStream k x).mem = b.mem := rfl
@[simp] theorem setStream_xlt (k : Nat) (x : Option Stream) : (b.setStream k x).xlt = b.xlt := rfl
@[simp] theorem setStream_io (k : Nat) (x : Option Stream) : (b.setStream k x).io = b.io := rfl
@[simp] theorem setStream_flash (k : Nat) (x : Option Stream) : (b.setStream k x).flash = b.flash := rfl
@[simp] theorem setStream_lid (k : Nat) (x : Option Stream) : (b.setStream k x).lid = b.lid := rfl
@[simp] theorem setStream_rak (k : Nat) (x : Option Stream) : (b.setStream k x).rak = b.rak := rfl
@[simp] theorem setStream_steps (k : Nat) (x : Option Stream) : (b.setStream k x).steps = b.steps := rfl
@[simp] theorem setStream_border (k : Nat) (x : Option Stream) : (b.setStream k x).border = b.border := rfl
@[simp] theorem setStream_threads (k : Nat) (x : Option Stream) : (b.setStream k x).threads = b.threads := rfl
@[simp] theorem setStream_stakes (k : Nat) (x : Option Stream) : (b.setStream k x).stakes = b.stakes := rfl
@[simp] theorem setStream_wales (k : Nat) (x : Option Stream) : (b.setStream k x).wales = b.wales := rfl
@[simp] theorem setStream_leave (k : Nat) (x : Option Stream) : (b.setStream k x).leave = b.leave := rfl
@[simp] theorem setStream_beat (k : Nat) (x : Option Stream) : (b.setStream k x).beat = b.beat := rfl
@[simp] theorem setStream_hoopDma (k : Nat) (x : Option Stream) : (b.setStream k x).hoopDma = b.hoopDma := rfl
@[simp] theorem setStream_lossQ (k : Nat) (x : Option Stream) : (b.setStream k x).lossQ = b.lossQ := rfl
@[simp] theorem setStream_pwr (k : Nat) (x : Option Stream) : (b.setStream k x).pwr = b.pwr := rfl
@[simp] theorem setStream_near (k : Nat) (x : Option Stream) : (b.setStream k x).near = b.near := rfl
@[simp] theorem setStream_banks (k : Nat) (x : Option Stream) : (b.setStream k x).banks = b.banks := rfl
@[simp] theorem setStream_dig (k : Nat) (x : Option Stream) : (b.setStream k x).dig = b.dig := rfl
@[simp] theorem setStream_lossFlag (k : Nat) (x : Option Stream) : (b.setStream k x).lossFlag = b.lossFlag := rfl
@[simp] theorem setStream_far (k : Nat) (x : Option Stream) : (b.setStream k x).far = b.far := rfl
@[simp] theorem setStream_boot (k : Nat) (x : Option Stream) : (b.setStream k x).boot = b.boot := rfl
@[simp] theorem setStream_hoop (k : Nat) (x : Option Stream) : (b.setStream k x).hoop = b.hoop := rfl
@[simp] theorem setStream_mgmt (k : Nat) (x : Option Stream) : (b.setStream k x).mgmt = b.mgmt := rfl

@[simp] theorem setHoopD_regs (k : Nat) (x : HoopDma) : (b.setHoopD k x).regs = b.regs := rfl
@[simp] theorem setHoopD_mem (k : Nat) (x : HoopDma) : (b.setHoopD k x).mem = b.mem := rfl
@[simp] theorem setHoopD_xlt (k : Nat) (x : HoopDma) : (b.setHoopD k x).xlt = b.xlt := rfl
@[simp] theorem setHoopD_io (k : Nat) (x : HoopDma) : (b.setHoopD k x).io = b.io := rfl
@[simp] theorem setHoopD_flash (k : Nat) (x : HoopDma) : (b.setHoopD k x).flash = b.flash := rfl
@[simp] theorem setHoopD_lid (k : Nat) (x : HoopDma) : (b.setHoopD k x).lid = b.lid := rfl
@[simp] theorem setHoopD_rak (k : Nat) (x : HoopDma) : (b.setHoopD k x).rak = b.rak := rfl
@[simp] theorem setHoopD_steps (k : Nat) (x : HoopDma) : (b.setHoopD k x).steps = b.steps := rfl
@[simp] theorem setHoopD_border (k : Nat) (x : HoopDma) : (b.setHoopD k x).border = b.border := rfl
@[simp] theorem setHoopD_threads (k : Nat) (x : HoopDma) : (b.setHoopD k x).threads = b.threads := rfl
@[simp] theorem setHoopD_stakes (k : Nat) (x : HoopDma) : (b.setHoopD k x).stakes = b.stakes := rfl
@[simp] theorem setHoopD_wales (k : Nat) (x : HoopDma) : (b.setHoopD k x).wales = b.wales := rfl
@[simp] theorem setHoopD_streams (k : Nat) (x : HoopDma) : (b.setHoopD k x).streams = b.streams := rfl
@[simp] theorem setHoopD_leave (k : Nat) (x : HoopDma) : (b.setHoopD k x).leave = b.leave := rfl
@[simp] theorem setHoopD_beat (k : Nat) (x : HoopDma) : (b.setHoopD k x).beat = b.beat := rfl
@[simp] theorem setHoopD_lossQ (k : Nat) (x : HoopDma) : (b.setHoopD k x).lossQ = b.lossQ := rfl
@[simp] theorem setHoopD_pwr (k : Nat) (x : HoopDma) : (b.setHoopD k x).pwr = b.pwr := rfl
@[simp] theorem setHoopD_near (k : Nat) (x : HoopDma) : (b.setHoopD k x).near = b.near := rfl
@[simp] theorem setHoopD_banks (k : Nat) (x : HoopDma) : (b.setHoopD k x).banks = b.banks := rfl
@[simp] theorem setHoopD_dig (k : Nat) (x : HoopDma) : (b.setHoopD k x).dig = b.dig := rfl
@[simp] theorem setHoopD_lossFlag (k : Nat) (x : HoopDma) : (b.setHoopD k x).lossFlag = b.lossFlag := rfl
@[simp] theorem setHoopD_far (k : Nat) (x : HoopDma) : (b.setHoopD k x).far = b.far := rfl
@[simp] theorem setHoopD_boot (k : Nat) (x : HoopDma) : (b.setHoopD k x).boot = b.boot := rfl
@[simp] theorem setHoopD_hoop (k : Nat) (x : HoopDma) : (b.setHoopD k x).hoop = b.hoop := rfl
@[simp] theorem setHoopD_mgmt (k : Nat) (x : HoopDma) : (b.setHoopD k x).mgmt = b.mgmt := rfl

@[simp] theorem setFar_regs (x : Far) : (b.setFar x).regs = b.regs := rfl
@[simp] theorem setFar_mem (x : Far) : (b.setFar x).mem = b.mem := rfl
@[simp] theorem setFar_xlt (x : Far) : (b.setFar x).xlt = b.xlt := rfl
@[simp] theorem setFar_io (x : Far) : (b.setFar x).io = b.io := rfl
@[simp] theorem setFar_flash (x : Far) : (b.setFar x).flash = b.flash := rfl
@[simp] theorem setFar_lid (x : Far) : (b.setFar x).lid = b.lid := rfl
@[simp] theorem setFar_rak (x : Far) : (b.setFar x).rak = b.rak := rfl
@[simp] theorem setFar_steps (x : Far) : (b.setFar x).steps = b.steps := rfl
@[simp] theorem setFar_border (x : Far) : (b.setFar x).border = b.border := rfl
@[simp] theorem setFar_threads (x : Far) : (b.setFar x).threads = b.threads := rfl
@[simp] theorem setFar_stakes (x : Far) : (b.setFar x).stakes = b.stakes := rfl
@[simp] theorem setFar_wales (x : Far) : (b.setFar x).wales = b.wales := rfl
@[simp] theorem setFar_streams (x : Far) : (b.setFar x).streams = b.streams := rfl
@[simp] theorem setFar_leave (x : Far) : (b.setFar x).leave = b.leave := rfl
@[simp] theorem setFar_beat (x : Far) : (b.setFar x).beat = b.beat := rfl
@[simp] theorem setFar_hoopDma (x : Far) : (b.setFar x).hoopDma = b.hoopDma := rfl
@[simp] theorem setFar_lossQ (x : Far) : (b.setFar x).lossQ = b.lossQ := rfl
@[simp] theorem setFar_pwr (x : Far) : (b.setFar x).pwr = b.pwr := rfl
@[simp] theorem setFar_near (x : Far) : (b.setFar x).near = b.near := rfl
@[simp] theorem setFar_banks (x : Far) : (b.setFar x).banks = b.banks := rfl
@[simp] theorem setFar_dig (x : Far) : (b.setFar x).dig = b.dig := rfl
@[simp] theorem setFar_lossFlag (x : Far) : (b.setFar x).lossFlag = b.lossFlag := rfl
@[simp] theorem setFar_boot (x : Far) : (b.setFar x).boot = b.boot := rfl
@[simp] theorem setFar_hoop (x : Far) : (b.setFar x).hoop = b.hoop := rfl
@[simp] theorem setFar_mgmt (x : Far) : (b.setFar x).mgmt = b.mgmt := rfl

@[simp] theorem setBorder_regs (x : Border) : (b.setBorder x).regs = b.regs := rfl
@[simp] theorem setBorder_mem (x : Border) : (b.setBorder x).mem = b.mem := rfl
@[simp] theorem setBorder_xlt (x : Border) : (b.setBorder x).xlt = b.xlt := rfl
@[simp] theorem setBorder_io (x : Border) : (b.setBorder x).io = b.io := rfl
@[simp] theorem setBorder_flash (x : Border) : (b.setBorder x).flash = b.flash := rfl
@[simp] theorem setBorder_lid (x : Border) : (b.setBorder x).lid = b.lid := rfl
@[simp] theorem setBorder_rak (x : Border) : (b.setBorder x).rak = b.rak := rfl
@[simp] theorem setBorder_steps (x : Border) : (b.setBorder x).steps = b.steps := rfl
@[simp] theorem setBorder_threads (x : Border) : (b.setBorder x).threads = b.threads := rfl
@[simp] theorem setBorder_stakes (x : Border) : (b.setBorder x).stakes = b.stakes := rfl
@[simp] theorem setBorder_wales (x : Border) : (b.setBorder x).wales = b.wales := rfl
@[simp] theorem setBorder_streams (x : Border) : (b.setBorder x).streams = b.streams := rfl
@[simp] theorem setBorder_leave (x : Border) : (b.setBorder x).leave = b.leave := rfl
@[simp] theorem setBorder_beat (x : Border) : (b.setBorder x).beat = b.beat := rfl
@[simp] theorem setBorder_hoopDma (x : Border) : (b.setBorder x).hoopDma = b.hoopDma := rfl
@[simp] theorem setBorder_lossQ (x : Border) : (b.setBorder x).lossQ = b.lossQ := rfl
@[simp] theorem setBorder_pwr (x : Border) : (b.setBorder x).pwr = b.pwr := rfl
@[simp] theorem setBorder_near (x : Border) : (b.setBorder x).near = b.near := rfl
@[simp] theorem setBorder_banks (x : Border) : (b.setBorder x).banks = b.banks := rfl
@[simp] theorem setBorder_dig (x : Border) : (b.setBorder x).dig = b.dig := rfl
@[simp] theorem setBorder_lossFlag (x : Border) : (b.setBorder x).lossFlag = b.lossFlag := rfl
@[simp] theorem setBorder_far (x : Border) : (b.setBorder x).far = b.far := rfl
@[simp] theorem setBorder_boot (x : Border) : (b.setBorder x).boot = b.boot := rfl
@[simp] theorem setBorder_hoop (x : Border) : (b.setBorder x).hoop = b.hoop := rfl
@[simp] theorem setBorder_mgmt (x : Border) : (b.setBorder x).mgmt = b.mgmt := rfl

@[simp] theorem setBank_regs (k : Nat) (x : Bank) : (b.setBank k x).regs = b.regs := rfl
@[simp] theorem setBank_mem (k : Nat) (x : Bank) : (b.setBank k x).mem = b.mem := rfl
@[simp] theorem setBank_xlt (k : Nat) (x : Bank) : (b.setBank k x).xlt = b.xlt := rfl
@[simp] theorem setBank_io (k : Nat) (x : Bank) : (b.setBank k x).io = b.io := rfl
@[simp] theorem setBank_flash (k : Nat) (x : Bank) : (b.setBank k x).flash = b.flash := rfl
@[simp] theorem setBank_lid (k : Nat) (x : Bank) : (b.setBank k x).lid = b.lid := rfl
@[simp] theorem setBank_rak (k : Nat) (x : Bank) : (b.setBank k x).rak = b.rak := rfl
@[simp] theorem setBank_steps (k : Nat) (x : Bank) : (b.setBank k x).steps = b.steps := rfl
@[simp] theorem setBank_border (k : Nat) (x : Bank) : (b.setBank k x).border = b.border := rfl
@[simp] theorem setBank_threads (k : Nat) (x : Bank) : (b.setBank k x).threads = b.threads := rfl
@[simp] theorem setBank_stakes (k : Nat) (x : Bank) : (b.setBank k x).stakes = b.stakes := rfl
@[simp] theorem setBank_wales (k : Nat) (x : Bank) : (b.setBank k x).wales = b.wales := rfl
@[simp] theorem setBank_streams (k : Nat) (x : Bank) : (b.setBank k x).streams = b.streams := rfl
@[simp] theorem setBank_leave (k : Nat) (x : Bank) : (b.setBank k x).leave = b.leave := rfl
@[simp] theorem setBank_beat (k : Nat) (x : Bank) : (b.setBank k x).beat = b.beat := rfl
@[simp] theorem setBank_hoopDma (k : Nat) (x : Bank) : (b.setBank k x).hoopDma = b.hoopDma := rfl
@[simp] theorem setBank_lossQ (k : Nat) (x : Bank) : (b.setBank k x).lossQ = b.lossQ := rfl
@[simp] theorem setBank_pwr (k : Nat) (x : Bank) : (b.setBank k x).pwr = b.pwr := rfl
@[simp] theorem setBank_near (k : Nat) (x : Bank) : (b.setBank k x).near = b.near := rfl
@[simp] theorem setBank_dig (k : Nat) (x : Bank) : (b.setBank k x).dig = b.dig := rfl
@[simp] theorem setBank_lossFlag (k : Nat) (x : Bank) : (b.setBank k x).lossFlag = b.lossFlag := rfl
@[simp] theorem setBank_far (k : Nat) (x : Bank) : (b.setBank k x).far = b.far := rfl
@[simp] theorem setBank_boot (k : Nat) (x : Bank) : (b.setBank k x).boot = b.boot := rfl
@[simp] theorem setBank_hoop (k : Nat) (x : Bank) : (b.setBank k x).hoop = b.hoop := rfl
@[simp] theorem setBank_mgmt (k : Nat) (x : Bank) : (b.setBank k x).mgmt = b.mgmt := rfl

@[simp] theorem setNport_regs (k : Nat) (x : NPort) : (b.setNport k x).regs = b.regs := rfl
@[simp] theorem setNport_mem (k : Nat) (x : NPort) : (b.setNport k x).mem = b.mem := rfl
@[simp] theorem setNport_xlt (k : Nat) (x : NPort) : (b.setNport k x).xlt = b.xlt := rfl
@[simp] theorem setNport_io (k : Nat) (x : NPort) : (b.setNport k x).io = b.io := rfl
@[simp] theorem setNport_flash (k : Nat) (x : NPort) : (b.setNport k x).flash = b.flash := rfl
@[simp] theorem setNport_lid (k : Nat) (x : NPort) : (b.setNport k x).lid = b.lid := rfl
@[simp] theorem setNport_rak (k : Nat) (x : NPort) : (b.setNport k x).rak = b.rak := rfl
@[simp] theorem setNport_steps (k : Nat) (x : NPort) : (b.setNport k x).steps = b.steps := rfl
@[simp] theorem setNport_border (k : Nat) (x : NPort) : (b.setNport k x).border = b.border := rfl
@[simp] theorem setNport_threads (k : Nat) (x : NPort) : (b.setNport k x).threads = b.threads := rfl
@[simp] theorem setNport_stakes (k : Nat) (x : NPort) : (b.setNport k x).stakes = b.stakes := rfl
@[simp] theorem setNport_wales (k : Nat) (x : NPort) : (b.setNport k x).wales = b.wales := rfl
@[simp] theorem setNport_streams (k : Nat) (x : NPort) : (b.setNport k x).streams = b.streams := rfl
@[simp] theorem setNport_leave (k : Nat) (x : NPort) : (b.setNport k x).leave = b.leave := rfl
@[simp] theorem setNport_beat (k : Nat) (x : NPort) : (b.setNport k x).beat = b.beat := rfl
@[simp] theorem setNport_hoopDma (k : Nat) (x : NPort) : (b.setNport k x).hoopDma = b.hoopDma := rfl
@[simp] theorem setNport_lossQ (k : Nat) (x : NPort) : (b.setNport k x).lossQ = b.lossQ := rfl
@[simp] theorem setNport_pwr (k : Nat) (x : NPort) : (b.setNport k x).pwr = b.pwr := rfl
@[simp] theorem setNport_banks (k : Nat) (x : NPort) : (b.setNport k x).banks = b.banks := rfl
@[simp] theorem setNport_dig (k : Nat) (x : NPort) : (b.setNport k x).dig = b.dig := rfl
@[simp] theorem setNport_lossFlag (k : Nat) (x : NPort) : (b.setNport k x).lossFlag = b.lossFlag := rfl
@[simp] theorem setNport_far (k : Nat) (x : NPort) : (b.setNport k x).far = b.far := rfl
@[simp] theorem setNport_boot (k : Nat) (x : NPort) : (b.setNport k x).boot = b.boot := rfl
@[simp] theorem setNport_hoop (k : Nat) (x : NPort) : (b.setNport k x).hoop = b.hoop := rfl
@[simp] theorem setNport_mgmt (k : Nat) (x : NPort) : (b.setNport k x).mgmt = b.mgmt := rfl

@[simp] theorem setStep_regs (x : StepRec) : (b.setStep x).regs = b.regs := rfl
@[simp] theorem setStep_mem (x : StepRec) : (b.setStep x).mem = b.mem := rfl
@[simp] theorem setStep_xlt (x : StepRec) : (b.setStep x).xlt = b.xlt := rfl
@[simp] theorem setStep_io (x : StepRec) : (b.setStep x).io = b.io := rfl
@[simp] theorem setStep_flash (x : StepRec) : (b.setStep x).flash = b.flash := rfl
@[simp] theorem setStep_lid (x : StepRec) : (b.setStep x).lid = b.lid := rfl
@[simp] theorem setStep_rak (x : StepRec) : (b.setStep x).rak = b.rak := rfl
@[simp] theorem setStep_border (x : StepRec) : (b.setStep x).border = b.border := rfl
@[simp] theorem setStep_threads (x : StepRec) : (b.setStep x).threads = b.threads := rfl
@[simp] theorem setStep_stakes (x : StepRec) : (b.setStep x).stakes = b.stakes := rfl
@[simp] theorem setStep_wales (x : StepRec) : (b.setStep x).wales = b.wales := rfl
@[simp] theorem setStep_streams (x : StepRec) : (b.setStep x).streams = b.streams := rfl
@[simp] theorem setStep_leave (x : StepRec) : (b.setStep x).leave = b.leave := rfl
@[simp] theorem setStep_beat (x : StepRec) : (b.setStep x).beat = b.beat := rfl
@[simp] theorem setStep_hoopDma (x : StepRec) : (b.setStep x).hoopDma = b.hoopDma := rfl
@[simp] theorem setStep_lossQ (x : StepRec) : (b.setStep x).lossQ = b.lossQ := rfl
@[simp] theorem setStep_pwr (x : StepRec) : (b.setStep x).pwr = b.pwr := rfl
@[simp] theorem setStep_near (x : StepRec) : (b.setStep x).near = b.near := rfl
@[simp] theorem setStep_banks (x : StepRec) : (b.setStep x).banks = b.banks := rfl
@[simp] theorem setStep_dig (x : StepRec) : (b.setStep x).dig = b.dig := rfl
@[simp] theorem setStep_lossFlag (x : StepRec) : (b.setStep x).lossFlag = b.lossFlag := rfl
@[simp] theorem setStep_far (x : StepRec) : (b.setStep x).far = b.far := rfl
@[simp] theorem setStep_boot (x : StepRec) : (b.setStep x).boot = b.boot := rfl
@[simp] theorem setStep_hoop (x : StepRec) : (b.setStep x).hoop = b.hoop := rfl
@[simp] theorem setStep_mgmt (x : StepRec) : (b.setStep x).mgmt = b.mgmt := rfl

@[simp] theorem setShard_regs (k : Nat) (x : ShardSt) : (b.setShard k x).regs = b.regs := rfl
@[simp] theorem setShard_mem (k : Nat) (x : ShardSt) : (b.setShard k x).mem = b.mem := rfl
@[simp] theorem setShard_xlt (k : Nat) (x : ShardSt) : (b.setShard k x).xlt = b.xlt := rfl
@[simp] theorem setShard_io (k : Nat) (x : ShardSt) : (b.setShard k x).io = b.io := rfl
@[simp] theorem setShard_flash (k : Nat) (x : ShardSt) : (b.setShard k x).flash = b.flash := rfl
@[simp] theorem setShard_lid (k : Nat) (x : ShardSt) : (b.setShard k x).lid = b.lid := rfl
@[simp] theorem setShard_rak (k : Nat) (x : ShardSt) : (b.setShard k x).rak = b.rak := rfl
@[simp] theorem setShard_steps (k : Nat) (x : ShardSt) : (b.setShard k x).steps = b.steps := rfl
@[simp] theorem setShard_border (k : Nat) (x : ShardSt) : (b.setShard k x).border = b.border := rfl
@[simp] theorem setShard_threads (k : Nat) (x : ShardSt) : (b.setShard k x).threads = b.threads := rfl
@[simp] theorem setShard_stakes (k : Nat) (x : ShardSt) : (b.setShard k x).stakes = b.stakes := rfl
@[simp] theorem setShard_wales (k : Nat) (x : ShardSt) : (b.setShard k x).wales = b.wales := rfl
@[simp] theorem setShard_streams (k : Nat) (x : ShardSt) : (b.setShard k x).streams = b.streams := rfl
@[simp] theorem setShard_leave (k : Nat) (x : ShardSt) : (b.setShard k x).leave = b.leave := rfl
@[simp] theorem setShard_beat (k : Nat) (x : ShardSt) : (b.setShard k x).beat = b.beat := rfl
@[simp] theorem setShard_hoopDma (k : Nat) (x : ShardSt) : (b.setShard k x).hoopDma = b.hoopDma := rfl
@[simp] theorem setShard_lossQ (k : Nat) (x : ShardSt) : (b.setShard k x).lossQ = b.lossQ := rfl
@[simp] theorem setShard_pwr (k : Nat) (x : ShardSt) : (b.setShard k x).pwr = b.pwr := rfl
@[simp] theorem setShard_near (k : Nat) (x : ShardSt) : (b.setShard k x).near = b.near := rfl
@[simp] theorem setShard_banks (k : Nat) (x : ShardSt) : (b.setShard k x).banks = b.banks := rfl
@[simp] theorem setShard_lossFlag (k : Nat) (x : ShardSt) : (b.setShard k x).lossFlag = b.lossFlag := rfl
@[simp] theorem setShard_far (k : Nat) (x : ShardSt) : (b.setShard k x).far = b.far := rfl
@[simp] theorem setShard_boot (k : Nat) (x : ShardSt) : (b.setShard k x).boot = b.boot := rfl
@[simp] theorem setShard_hoop (k : Nat) (x : ShardSt) : (b.setShard k x).hoop = b.hoop := rfl
@[simp] theorem setShard_mgmt (k : Nat) (x : ShardSt) : (b.setShard k x).mgmt = b.mgmt := rfl

@[simp] theorem setLatch_regs (k : Nat) (v : Option Nat) : (b.setLatch k v).regs = b.regs := rfl
@[simp] theorem setLatch_mem (k : Nat) (v : Option Nat) : (b.setLatch k v).mem = b.mem := rfl
@[simp] theorem setLatch_xlt (k : Nat) (v : Option Nat) : (b.setLatch k v).xlt = b.xlt := rfl
@[simp] theorem setLatch_flash (k : Nat) (v : Option Nat) : (b.setLatch k v).flash = b.flash := rfl
@[simp] theorem setLatch_lid (k : Nat) (v : Option Nat) : (b.setLatch k v).lid = b.lid := rfl
@[simp] theorem setLatch_rak (k : Nat) (v : Option Nat) : (b.setLatch k v).rak = b.rak := rfl
@[simp] theorem setLatch_steps (k : Nat) (v : Option Nat) : (b.setLatch k v).steps = b.steps := rfl
@[simp] theorem setLatch_border (k : Nat) (v : Option Nat) : (b.setLatch k v).border = b.border := rfl
@[simp] theorem setLatch_threads (k : Nat) (v : Option Nat) : (b.setLatch k v).threads = b.threads := rfl
@[simp] theorem setLatch_stakes (k : Nat) (v : Option Nat) : (b.setLatch k v).stakes = b.stakes := rfl
@[simp] theorem setLatch_wales (k : Nat) (v : Option Nat) : (b.setLatch k v).wales = b.wales := rfl
@[simp] theorem setLatch_streams (k : Nat) (v : Option Nat) : (b.setLatch k v).streams = b.streams := rfl
@[simp] theorem setLatch_leave (k : Nat) (v : Option Nat) : (b.setLatch k v).leave = b.leave := rfl
@[simp] theorem setLatch_beat (k : Nat) (v : Option Nat) : (b.setLatch k v).beat = b.beat := rfl
@[simp] theorem setLatch_hoopDma (k : Nat) (v : Option Nat) : (b.setLatch k v).hoopDma = b.hoopDma := rfl
@[simp] theorem setLatch_lossQ (k : Nat) (v : Option Nat) : (b.setLatch k v).lossQ = b.lossQ := rfl
@[simp] theorem setLatch_pwr (k : Nat) (v : Option Nat) : (b.setLatch k v).pwr = b.pwr := rfl
@[simp] theorem setLatch_near (k : Nat) (v : Option Nat) : (b.setLatch k v).near = b.near := rfl
@[simp] theorem setLatch_banks (k : Nat) (v : Option Nat) : (b.setLatch k v).banks = b.banks := rfl
@[simp] theorem setLatch_dig (k : Nat) (v : Option Nat) : (b.setLatch k v).dig = b.dig := rfl
@[simp] theorem setLatch_lossFlag (k : Nat) (v : Option Nat) : (b.setLatch k v).lossFlag = b.lossFlag := rfl
@[simp] theorem setLatch_far (k : Nat) (v : Option Nat) : (b.setLatch k v).far = b.far := rfl
@[simp] theorem setLatch_boot (k : Nat) (v : Option Nat) : (b.setLatch k v).boot = b.boot := rfl
@[simp] theorem setLatch_hoop (k : Nat) (v : Option Nat) : (b.setLatch k v).hoop = b.hoop := rfl
@[simp] theorem setLatch_mgmt (k : Nat) (v : Option Nat) : (b.setLatch k v).mgmt = b.mgmt := rfl

@[simp] theorem setStage_regs (k : Nat) (v : Option Nat) : (b.setStage k v).regs = b.regs := rfl
@[simp] theorem setStage_mem (k : Nat) (v : Option Nat) : (b.setStage k v).mem = b.mem := rfl
@[simp] theorem setStage_xlt (k : Nat) (v : Option Nat) : (b.setStage k v).xlt = b.xlt := rfl
@[simp] theorem setStage_flash (k : Nat) (v : Option Nat) : (b.setStage k v).flash = b.flash := rfl
@[simp] theorem setStage_lid (k : Nat) (v : Option Nat) : (b.setStage k v).lid = b.lid := rfl
@[simp] theorem setStage_rak (k : Nat) (v : Option Nat) : (b.setStage k v).rak = b.rak := rfl
@[simp] theorem setStage_steps (k : Nat) (v : Option Nat) : (b.setStage k v).steps = b.steps := rfl
@[simp] theorem setStage_border (k : Nat) (v : Option Nat) : (b.setStage k v).border = b.border := rfl
@[simp] theorem setStage_threads (k : Nat) (v : Option Nat) : (b.setStage k v).threads = b.threads := rfl
@[simp] theorem setStage_stakes (k : Nat) (v : Option Nat) : (b.setStage k v).stakes = b.stakes := rfl
@[simp] theorem setStage_wales (k : Nat) (v : Option Nat) : (b.setStage k v).wales = b.wales := rfl
@[simp] theorem setStage_streams (k : Nat) (v : Option Nat) : (b.setStage k v).streams = b.streams := rfl
@[simp] theorem setStage_leave (k : Nat) (v : Option Nat) : (b.setStage k v).leave = b.leave := rfl
@[simp] theorem setStage_beat (k : Nat) (v : Option Nat) : (b.setStage k v).beat = b.beat := rfl
@[simp] theorem setStage_hoopDma (k : Nat) (v : Option Nat) : (b.setStage k v).hoopDma = b.hoopDma := rfl
@[simp] theorem setStage_lossQ (k : Nat) (v : Option Nat) : (b.setStage k v).lossQ = b.lossQ := rfl
@[simp] theorem setStage_pwr (k : Nat) (v : Option Nat) : (b.setStage k v).pwr = b.pwr := rfl
@[simp] theorem setStage_near (k : Nat) (v : Option Nat) : (b.setStage k v).near = b.near := rfl
@[simp] theorem setStage_banks (k : Nat) (v : Option Nat) : (b.setStage k v).banks = b.banks := rfl
@[simp] theorem setStage_dig (k : Nat) (v : Option Nat) : (b.setStage k v).dig = b.dig := rfl
@[simp] theorem setStage_lossFlag (k : Nat) (v : Option Nat) : (b.setStage k v).lossFlag = b.lossFlag := rfl
@[simp] theorem setStage_far (k : Nat) (v : Option Nat) : (b.setStage k v).far = b.far := rfl
@[simp] theorem setStage_boot (k : Nat) (v : Option Nat) : (b.setStage k v).boot = b.boot := rfl
@[simp] theorem setStage_hoop (k : Nat) (v : Option Nat) : (b.setStage k v).hoop = b.hoop := rfl
@[simp] theorem setStage_mgmt (k : Nat) (v : Option Nat) : (b.setStage k v).mgmt = b.mgmt := rfl

@[simp] theorem setEvtQueue_regs (k : Nat) (l : List EvtRec) : (b.setEvtQueue k l).regs = b.regs := rfl
@[simp] theorem setEvtQueue_mem (k : Nat) (l : List EvtRec) : (b.setEvtQueue k l).mem = b.mem := rfl
@[simp] theorem setEvtQueue_xlt (k : Nat) (l : List EvtRec) : (b.setEvtQueue k l).xlt = b.xlt := rfl
@[simp] theorem setEvtQueue_flash (k : Nat) (l : List EvtRec) : (b.setEvtQueue k l).flash = b.flash := rfl
@[simp] theorem setEvtQueue_lid (k : Nat) (l : List EvtRec) : (b.setEvtQueue k l).lid = b.lid := rfl
@[simp] theorem setEvtQueue_rak (k : Nat) (l : List EvtRec) : (b.setEvtQueue k l).rak = b.rak := rfl
@[simp] theorem setEvtQueue_steps (k : Nat) (l : List EvtRec) : (b.setEvtQueue k l).steps = b.steps := rfl
@[simp] theorem setEvtQueue_border (k : Nat) (l : List EvtRec) : (b.setEvtQueue k l).border = b.border := rfl
@[simp] theorem setEvtQueue_threads (k : Nat) (l : List EvtRec) : (b.setEvtQueue k l).threads = b.threads := rfl
@[simp] theorem setEvtQueue_stakes (k : Nat) (l : List EvtRec) : (b.setEvtQueue k l).stakes = b.stakes := rfl
@[simp] theorem setEvtQueue_wales (k : Nat) (l : List EvtRec) : (b.setEvtQueue k l).wales = b.wales := rfl
@[simp] theorem setEvtQueue_streams (k : Nat) (l : List EvtRec) : (b.setEvtQueue k l).streams = b.streams := rfl
@[simp] theorem setEvtQueue_leave (k : Nat) (l : List EvtRec) : (b.setEvtQueue k l).leave = b.leave := rfl
@[simp] theorem setEvtQueue_beat (k : Nat) (l : List EvtRec) : (b.setEvtQueue k l).beat = b.beat := rfl
@[simp] theorem setEvtQueue_hoopDma (k : Nat) (l : List EvtRec) : (b.setEvtQueue k l).hoopDma = b.hoopDma := rfl
@[simp] theorem setEvtQueue_lossQ (k : Nat) (l : List EvtRec) : (b.setEvtQueue k l).lossQ = b.lossQ := rfl
@[simp] theorem setEvtQueue_pwr (k : Nat) (l : List EvtRec) : (b.setEvtQueue k l).pwr = b.pwr := rfl
@[simp] theorem setEvtQueue_near (k : Nat) (l : List EvtRec) : (b.setEvtQueue k l).near = b.near := rfl
@[simp] theorem setEvtQueue_banks (k : Nat) (l : List EvtRec) : (b.setEvtQueue k l).banks = b.banks := rfl
@[simp] theorem setEvtQueue_dig (k : Nat) (l : List EvtRec) : (b.setEvtQueue k l).dig = b.dig := rfl
@[simp] theorem setEvtQueue_lossFlag (k : Nat) (l : List EvtRec) : (b.setEvtQueue k l).lossFlag = b.lossFlag := rfl
@[simp] theorem setEvtQueue_far (k : Nat) (l : List EvtRec) : (b.setEvtQueue k l).far = b.far := rfl
@[simp] theorem setEvtQueue_boot (k : Nat) (l : List EvtRec) : (b.setEvtQueue k l).boot = b.boot := rfl
@[simp] theorem setEvtQueue_hoop (k : Nat) (l : List EvtRec) : (b.setEvtQueue k l).hoop = b.hoop := rfl
@[simp] theorem setEvtQueue_mgmt (k : Nat) (l : List EvtRec) : (b.setEvtQueue k l).mgmt = b.mgmt := rfl

@[simp] theorem wr_thread (f : Fld) (v i : Nat) (q : Tid) : (b.wr f v i).thread q = b.thread q := rfl
@[simp] theorem wr_stake (f : Fld) (v i : Nat) (q : Nat) : (b.wr f v i).stake q = b.stake q := rfl
@[simp] theorem wr_wale (f : Fld) (v i : Nat) (q : Nat) : (b.wr f v i).wale q = b.wale q := rfl
@[simp] theorem wr_byteAt (f : Fld) (v i : Nat) (dom pa : Nat) : (b.wr f v i).byteAt dom pa = b.byteAt dom pa := rfl
@[simp] theorem send_rd (o : Out) (g : Fld) (j : Nat) : (b.send o).rd g j = b.rd g j := rfl
@[simp] theorem send_thread (o : Out) (q : Tid) : (b.send o).thread q = b.thread q := rfl
@[simp] theorem send_stake (o : Out) (q : Nat) : (b.send o).stake q = b.stake q := rfl
@[simp] theorem send_wale (o : Out) (q : Nat) : (b.send o).wale q = b.wale q := rfl
@[simp] theorem send_byteAt (o : Out) (dom pa : Nat) : (b.send o).byteAt dom pa = b.byteAt dom pa := rfl
@[simp] theorem setThread_rd (t : Tid) (x : Thread) (g : Fld) (j : Nat) : (b.setThread t x).rd g j = b.rd g j := rfl
@[simp] theorem setThread_stake (t : Tid) (x : Thread) (q : Nat) : (b.setThread t x).stake q = b.stake q := rfl
@[simp] theorem setThread_wale (t : Tid) (x : Thread) (q : Nat) : (b.setThread t x).wale q = b.wale q := rfl
@[simp] theorem setThread_byteAt (t : Tid) (x : Thread) (dom pa : Nat) : (b.setThread t x).byteAt dom pa = b.byteAt dom pa := rfl
@[simp] theorem setStake_rd (k : Nat) (x : Stake) (g : Fld) (j : Nat) : (b.setStake k x).rd g j = b.rd g j := rfl
@[simp] theorem setStake_thread (k : Nat) (x : Stake) (q : Tid) : (b.setStake k x).thread q = b.thread q := rfl
@[simp] theorem setStake_wale (k : Nat) (x : Stake) (q : Nat) : (b.setStake k x).wale q = b.wale q := rfl
@[simp] theorem setStake_byteAt (k : Nat) (x : Stake) (dom pa : Nat) : (b.setStake k x).byteAt dom pa = b.byteAt dom pa := rfl
@[simp] theorem setWale_rd (k : Nat) (x : Wale) (g : Fld) (j : Nat) : (b.setWale k x).rd g j = b.rd g j := rfl
@[simp] theorem setWale_thread (k : Nat) (x : Wale) (q : Tid) : (b.setWale k x).thread q = b.thread q := rfl
@[simp] theorem setWale_stake (k : Nat) (x : Wale) (q : Nat) : (b.setWale k x).stake q = b.stake q := rfl
@[simp] theorem setWale_byteAt (k : Nat) (x : Wale) (dom pa : Nat) : (b.setWale k x).byteAt dom pa = b.byteAt dom pa := rfl
@[simp] theorem setXl_rd (k : Nat) (x : Xl) (g : Fld) (j : Nat) : (b.setXl k x).rd g j = b.rd g j := rfl
@[simp] theorem setXl_thread (k : Nat) (x : Xl) (q : Tid) : (b.setXl k x).thread q = b.thread q := rfl
@[simp] theorem setXl_stake (k : Nat) (x : Xl) (q : Nat) : (b.setXl k x).stake q = b.stake q := rfl
@[simp] theorem setXl_wale (k : Nat) (x : Xl) (q : Nat) : (b.setXl k x).wale q = b.wale q := rfl
@[simp] theorem setXl_byteAt (k : Nat) (x : Xl) (dom pa : Nat) : (b.setXl k x).byteAt dom pa = b.byteAt dom pa := rfl
@[simp] theorem setStream_rd (k : Nat) (x : Option Stream) (g : Fld) (j : Nat) : (b.setStream k x).rd g j = b.rd g j := rfl
@[simp] theorem setStream_thread (k : Nat) (x : Option Stream) (q : Tid) : (b.setStream k x).thread q = b.thread q := rfl
@[simp] theorem setStream_stake (k : Nat) (x : Option Stream) (q : Nat) : (b.setStream k x).stake q = b.stake q := rfl
@[simp] theorem setStream_wale (k : Nat) (x : Option Stream) (q : Nat) : (b.setStream k x).wale q = b.wale q := rfl
@[simp] theorem setStream_byteAt (k : Nat) (x : Option Stream) (dom pa : Nat) : (b.setStream k x).byteAt dom pa = b.byteAt dom pa := rfl
@[simp] theorem setHoopD_rd (k : Nat) (x : HoopDma) (g : Fld) (j : Nat) : (b.setHoopD k x).rd g j = b.rd g j := rfl
@[simp] theorem setHoopD_thread (k : Nat) (x : HoopDma) (q : Tid) : (b.setHoopD k x).thread q = b.thread q := rfl
@[simp] theorem setHoopD_stake (k : Nat) (x : HoopDma) (q : Nat) : (b.setHoopD k x).stake q = b.stake q := rfl
@[simp] theorem setHoopD_wale (k : Nat) (x : HoopDma) (q : Nat) : (b.setHoopD k x).wale q = b.wale q := rfl
@[simp] theorem setHoopD_byteAt (k : Nat) (x : HoopDma) (dom pa : Nat) : (b.setHoopD k x).byteAt dom pa = b.byteAt dom pa := rfl
@[simp] theorem setFar_rd (x : Far) (g : Fld) (j : Nat) : (b.setFar x).rd g j = b.rd g j := rfl
@[simp] theorem setFar_thread (x : Far) (q : Tid) : (b.setFar x).thread q = b.thread q := rfl
@[simp] theorem setFar_stake (x : Far) (q : Nat) : (b.setFar x).stake q = b.stake q := rfl
@[simp] theorem setFar_wale (x : Far) (q : Nat) : (b.setFar x).wale q = b.wale q := rfl
@[simp] theorem setFar_byteAt (x : Far) (dom pa : Nat) : (b.setFar x).byteAt dom pa = b.byteAt dom pa := rfl
@[simp] theorem setBorder_rd (x : Border) (g : Fld) (j : Nat) : (b.setBorder x).rd g j = b.rd g j := rfl
@[simp] theorem setBorder_thread (x : Border) (q : Tid) : (b.setBorder x).thread q = b.thread q := rfl
@[simp] theorem setBorder_stake (x : Border) (q : Nat) : (b.setBorder x).stake q = b.stake q := rfl
@[simp] theorem setBorder_wale (x : Border) (q : Nat) : (b.setBorder x).wale q = b.wale q := rfl
@[simp] theorem setBorder_byteAt (x : Border) (dom pa : Nat) : (b.setBorder x).byteAt dom pa = b.byteAt dom pa := rfl
@[simp] theorem setBank_rd (k : Nat) (x : Bank) (g : Fld) (j : Nat) : (b.setBank k x).rd g j = b.rd g j := rfl
@[simp] theorem setBank_thread (k : Nat) (x : Bank) (q : Tid) : (b.setBank k x).thread q = b.thread q := rfl
@[simp] theorem setBank_stake (k : Nat) (x : Bank) (q : Nat) : (b.setBank k x).stake q = b.stake q := rfl
@[simp] theorem setBank_wale (k : Nat) (x : Bank) (q : Nat) : (b.setBank k x).wale q = b.wale q := rfl
@[simp] theorem setBank_byteAt (k : Nat) (x : Bank) (dom pa : Nat) : (b.setBank k x).byteAt dom pa = b.byteAt dom pa := rfl
@[simp] theorem setNport_rd (k : Nat) (x : NPort) (g : Fld) (j : Nat) : (b.setNport k x).rd g j = b.rd g j := rfl
@[simp] theorem setNport_thread (k : Nat) (x : NPort) (q : Tid) : (b.setNport k x).thread q = b.thread q := rfl
@[simp] theorem setNport_stake (k : Nat) (x : NPort) (q : Nat) : (b.setNport k x).stake q = b.stake q := rfl
@[simp] theorem setNport_wale (k : Nat) (x : NPort) (q : Nat) : (b.setNport k x).wale q = b.wale q := rfl
@[simp] theorem setNport_byteAt (k : Nat) (x : NPort) (dom pa : Nat) : (b.setNport k x).byteAt dom pa = b.byteAt dom pa := rfl
@[simp] theorem setStep_rd (x : StepRec) (g : Fld) (j : Nat) : (b.setStep x).rd g j = b.rd g j := rfl
@[simp] theorem setStep_thread (x : StepRec) (q : Tid) : (b.setStep x).thread q = b.thread q := rfl
@[simp] theorem setStep_stake (x : StepRec) (q : Nat) : (b.setStep x).stake q = b.stake q := rfl
@[simp] theorem setStep_wale (x : StepRec) (q : Nat) : (b.setStep x).wale q = b.wale q := rfl
@[simp] theorem setStep_byteAt (x : StepRec) (dom pa : Nat) : (b.setStep x).byteAt dom pa = b.byteAt dom pa := rfl
@[simp] theorem setShard_rd (k : Nat) (x : ShardSt) (g : Fld) (j : Nat) : (b.setShard k x).rd g j = b.rd g j := rfl
@[simp] theorem setShard_thread (k : Nat) (x : ShardSt) (q : Tid) : (b.setShard k x).thread q = b.thread q := rfl
@[simp] theorem setShard_stake (k : Nat) (x : ShardSt) (q : Nat) : (b.setShard k x).stake q = b.stake q := rfl
@[simp] theorem setShard_wale (k : Nat) (x : ShardSt) (q : Nat) : (b.setShard k x).wale q = b.wale q := rfl
@[simp] theorem setShard_byteAt (k : Nat) (x : ShardSt) (dom pa : Nat) : (b.setShard k x).byteAt dom pa = b.byteAt dom pa := rfl
@[simp] theorem setLatch_rd (k : Nat) (v : Option Nat) (g : Fld) (j : Nat) : (b.setLatch k v).rd g j = b.rd g j := rfl
@[simp] theorem setLatch_thread (k : Nat) (v : Option Nat) (q : Tid) : (b.setLatch k v).thread q = b.thread q := rfl
@[simp] theorem setLatch_stake (k : Nat) (v : Option Nat) (q : Nat) : (b.setLatch k v).stake q = b.stake q := rfl
@[simp] theorem setLatch_wale (k : Nat) (v : Option Nat) (q : Nat) : (b.setLatch k v).wale q = b.wale q := rfl
@[simp] theorem setLatch_byteAt (k : Nat) (v : Option Nat) (dom pa : Nat) : (b.setLatch k v).byteAt dom pa = b.byteAt dom pa := rfl
@[simp] theorem setStage_rd (k : Nat) (v : Option Nat) (g : Fld) (j : Nat) : (b.setStage k v).rd g j = b.rd g j := rfl
@[simp] theorem setStage_thread (k : Nat) (v : Option Nat) (q : Tid) : (b.setStage k v).thread q = b.thread q := rfl
@[simp] theorem setStage_stake (k : Nat) (v : Option Nat) (q : Nat) : (b.setStage k v).stake q = b.stake q := rfl
@[simp] theorem setStage_wale (k : Nat) (v : Option Nat) (q : Nat) : (b.setStage k v).wale q = b.wale q := rfl
@[simp] theorem setStage_byteAt (k : Nat) (v : Option Nat) (dom pa : Nat) : (b.setStage k v).byteAt dom pa = b.byteAt dom pa := rfl
@[simp] theorem setEvtQueue_rd (k : Nat) (l : List EvtRec) (g : Fld) (j : Nat) : (b.setEvtQueue k l).rd g j = b.rd g j := rfl
@[simp] theorem setEvtQueue_thread (k : Nat) (l : List EvtRec) (q : Tid) : (b.setEvtQueue k l).thread q = b.thread q := rfl
@[simp] theorem setEvtQueue_stake (k : Nat) (l : List EvtRec) (q : Nat) : (b.setEvtQueue k l).stake q = b.stake q := rfl
@[simp] theorem setEvtQueue_wale (k : Nat) (l : List EvtRec) (q : Nat) : (b.setEvtQueue k l).wale q = b.wale q := rfl
@[simp] theorem setEvtQueue_byteAt (k : Nat) (l : List EvtRec) (dom pa : Nat) : (b.setEvtQueue k l).byteAt dom pa = b.byteAt dom pa := rfl

/-- A register field reads back what was written, cut to its width. -/
@[simp] theorem rd_wr_same (f : Fld) (v i : Nat) : (b.wr f v i).rd f i = v % 2 ^ f.w := get_set_same _ _ _ _

/-- A register field is left as it was by a write of another. -/
theorem rd_wr_other (f g : Fld) (v i j : Nat) (h : g.key j ≠ f.key i) : (b.wr f v i).rd g j = b.rd g j := by
  unfold Blk.rd Blk.wr
  by_cases hd : g.resetOf j = f.resetOf i
  · rw [hd]; exact get_set_other _ _ _ h
  · have del : ∀ m : SMap Nat, SMap.get (g.resetOf j) (SMap.del m (f.key i)) (g.key j) = SMap.get (g.resetOf j) m (g.key j) :=
      fun m => get_del_other _ m h
    unfold SMap.set
    split
    · exact del _
    · rw [get_ins_other _ _ _ h, del]

theorem tkey_inj {t u : Tid} (ht : t.thread < 8) (hu : u.thread < 8) (h : tkey t = tkey u) : t = u := by
  cases t; cases u; simp only [tkey] at *; simp only [Tid.mk.injEq]; omega

/-- A thread reads back what was set; another is left as it was. -/
@[simp] theorem thread_setThread_same (t : Tid) (x : Thread) : (b.setThread t x).thread t = x := get_set_same _ _ _ _
theorem thread_setThread_other {t u : Tid} (x : Thread) (h : tkey u ≠ tkey t) : (b.setThread t x).thread u = b.thread u := get_set_other _ _ _ h

@[simp] theorem stake_setStake_same (k : Nat) (x : Stake) : (b.setStake k x).stake k = x := get_set_same _ _ _ _
theorem stake_setStake_other {k j : Nat} (x : Stake) (h : j ≠ k) : (b.setStake k x).stake j = b.stake j := get_set_other _ _ _ h
@[simp] theorem wale_setWale_same (k : Nat) (x : Wale) : (b.setWale k x).wale k = x := get_set_same _ _ _ _
theorem wale_setWale_other {k j : Nat} (x : Wale) (h : j ≠ k) : (b.setWale k x).wale j = b.wale j := get_set_other _ _ _ h

/-- A scalar register reads back what was written; register 0 reads 0. -/
@[simp] theorem setReg_same (th : Thread) (r v : Nat) (h : r ≠ 0) : (th.setReg r v).reg r = v % 2 ^ 64 := by
  simp [Thread.setReg, Thread.reg, h]
@[simp] theorem reg_zero (th : Thread) : th.reg 0 = 0 := rfl
@[simp] theorem setReg_zero (th : Thread) (v : Nat) : th.setReg 0 v = th := rfl
theorem setReg_other (th : Thread) {r k : Nat} (v : Nat) (h : k ≠ r) : (th.setReg r v).reg k = th.reg k := by
  unfold Thread.setReg
  split
  · rfl
  · simp only [Thread.reg, get_set_other _ _ _ h]
@[simp] theorem setReg_pc (th : Thread) (r v : Nat) : (th.setReg r v).pc = th.pc := by unfold Thread.setReg; split <;> rfl
@[simp] theorem setReg_st (th : Thread) (r v : Nat) : (th.setReg r v).st = th.st := by unfold Thread.setReg; split <;> rfl
@[simp] theorem setReg_sleep (th : Thread) (r v : Nat) : (th.setReg r v).sleep = th.sleep := by unfold Thread.setReg; split <;> rfl
@[simp] theorem setReg_toks (th : Thread) (r v : Nat) : (th.setReg r v).toks = th.toks := by unfold Thread.setReg; split <;> rfl
@[simp] theorem setReg_entry (th : Thread) (r v : Nat) : (th.setReg r v).entry = th.entry := by unfold Thread.setReg; split <;> rfl
@[simp] theorem setReg_member (th : Thread) (r v : Nat) : (th.setReg r v).member = th.member := by unfold Thread.setReg; split <;> rfl
@[simp] theorem setReg_held (th : Thread) (r v : Nat) : (th.setReg r v).held = th.held := by unfold Thread.setReg; split <;> rfl
@[simp] theorem setReg_fCls (th : Thread) (r v : Nat) : (th.setReg r v).fCls = th.fCls := by unfold Thread.setReg; split <;> rfl
@[simp] theorem setReg_fDet (th : Thread) (r v : Nat) : (th.setReg r v).fDet = th.fDet := by unfold Thread.setReg; split <;> rfl
@[simp] theorem setReg_fSlot (th : Thread) (r v : Nat) : (th.setReg r v).fSlot = th.fSlot := by unfold Thread.setReg; split <;> rfl

end Sys2Proof.Laws
end

