-- ==== Sys2Proof/Laws/Regs.lean ====
section
/-! SUPPORT. A register of a page lies in that page of the window, and what an accepted access comes to. -/

namespace Sys2Proof.Laws

open Sys2Proof.Machine

/-- A page begins at a multiple of 4 KiB. -/
theorem pageBase_mod (p : Page) (i : Nat) : pageBase p i % 4096 = 0 := by
  cases p <;> simp only [pageBase, waleBase] <;> omega

theorem regAt_mod (p : Page) (i : Nat) {off : Nat} (h : off < 4096) : regAt p i off % 4096 = off := by
  have := pageBase_mod p i
  unfold regAt; omega

theorem regAt_base (p : Page) (i : Nat) {off : Nat} (h : off < 4096) : regAt p i off / 4096 * 4096 = pageBase p i := by
  have := pageBase_mod p i
  unfold regAt; omega

/-- The page at place `k` of a wale. -/
def walePage (w k : Nat) : Option (Page × Nat) :=
  match k with
  | 0 => some (.wale, w) | 1 => some (.sched, w) | 2 => some (.row, w) | 3 => some (.wxlt, w) | 4 => some (.sum, w)
  | _ => if 32 ≤ k then some (.stake, w * 32 + (k - 32)) else none

theorem pageAt_waleBase {w k : Nat} (hw : w < 200) (hk : k < 64) : pageAt (waleBase w + 4096 * k) =
    walePage w k := by
  have hd : w / 50 < 4 := by omega
  have hr : w % 50 < 50 := by omega
  have he : w / 50 * 50 + w % 50 = w := by omega
  have h0 : waleBase w + 4096 * k = 0x100_0000 * (w / 50 + 1) + (0x10_0000 + 0x4_0000 * (w % 50) + 0x1000 * k) := by unfold waleBase; omega
  have h1 : (waleBase w + 4096 * k) / 0x100_0000 = w / 50 + 1 := by rw [h0]; omega
  have h2 : (waleBase w + 4096 * k) % 0x100_0000 / 0x1000 * 0x1000 = 0x10_0000 + 0x4_0000 * (w % 50) + 0x1000 * k := by rw [h0]; omega
  have h3 : ¬ waleBase w + 4096 * k ≥ 0x800_0000 := by rw [h0]; omega
  have h4 : waleBase w + 4096 * k ≥ 0x100_0000 := by rw [h0]; omega
  unfold pageAt
  simp only [h1, h2, h3, h4, if_true, if_false, Nat.add_sub_cancel, hd]
  unfold diePageAt
  have h5 : ¬ (0x10_0000 + 0x4_0000 * (w % 50) + 0x1000 * k < 0x10_0000) := by omega
  have h6 : (0x10_0000 + 0x4_0000 * (w % 50) + 0x1000 * k - 0x10_0000) / 0x4_0000 = w % 50 := by omega
  have h7 : (0x10_0000 + 0x4_0000 * (w % 50) + 0x1000 * k - 0x10_0000) % 0x4_0000 / 0x1000 = k := by omega
  have h8 : ¬ (w % 50 ≥ 50) := by omega
  simp only [h5, h6, h7, h8, if_false, he]
  rfl

theorem pageAt_pageBase {p : Page} {i : Nat} (h : pageOk p i = true) : pageAt (pageBase p i) = some (p, i) := by
  unfold pageOk at h
  simp only [Bool.and_eq_true, decide_eq_true_eq, Bool.not_eq_true', Bool.and_eq_false_iff, decide_eq_false_iff_not] at h
  obtain ⟨h1, h2⟩ := h
  cases p
  case wale => exact pageAt_waleBase (k := 0) (by simpa [Page.count] using h1) (by decide)
  case sched => exact pageAt_waleBase (k := 1) (by simpa [Page.count] using h1) (by decide)
  case row => exact pageAt_waleBase (k := 2) (by simpa [Page.count] using h1) (by decide)
  case wxlt => exact pageAt_waleBase (k := 3) (by simpa [Page.count] using h1) (by decide)
  case sum => exact pageAt_waleBase (k := 4) (by simpa [Page.count] using h1) (by decide)
  case stake =>
    have h1 : i < 6400 := by simpa [Page.count] using h1
    have e : pageBase .stake i = waleBase (i / 32) + 4096 * (32 + i % 32) := by simp only [pageBase]; omega
    rw [e, pageAt_waleBase (by omega) (by omega)]
    have : ∃ n, 32 + i % 32 = n + 5 ∧ n = 27 + i % 32 := ⟨27 + i % 32, by omega, rfl⟩
    obtain ⟨n, hn, hn'⟩ := this
    rw [hn]
    show (if 32 ≤ n + 5 then some (Page.stake, i / 32 * 32 + (n + 5 - 32)) else none) = _
    have : i / 32 * 32 + (n + 5 - 32) = i := by omega
    simp only [this]
    rw [if_pos (by omega)]
  all_goals (simp [Page.count] at h1 h2; (try subst h1); (try interval_cases i) <;> first | rfl | (simp at h2))

theorem pageAt_regAt {p : Page} {i off : Nat} (h : pageOk p i = true) (ho : off < 4096) : pageAt (regAt p i off / 4096 * 4096) = some (p, i) := by
  rw [regAt_base p i ho, pageAt_pageBase h]

/-- An access that the page accepts: the write, and its response without an error. -/
theorem write_accepted {b : Blk} {ini : Ini} {p : Page} {i off v : Nat} (h : b.Accepts ini p i off v) (ho : off < 4096) (ha : off % 4 = 0) :
    b.write ini (regAt p i off) v = b.wrote ini p i off v := by
  obtain ⟨_, hp, hg, hm, hn, hs⟩ := h
  have e : ¬ regAt p i off % 4 ≠ 0 := by have := regAt_mod p i ho; omega
  unfold Blk.write Blk.wrote Blk.regWrite
  simp only [e, if_false, pageAt_regAt hp ho, regAt_mod p i ho, hm, hn, hs, Bool.not_true, Bool.or_self, Bool.false_eq_true, hg, Bool.false_and]

theorem writeField_accepted {b : Blk} {ini : Ini} {p : Page} {i : Nat} {f : Fld} {v : Nat} (h : b.AcceptsField ini p i f v) (ho : f.off < 4096)
    (ha : f.off % 4 = 0) : b.writeField ini p i f v = b.wroteField ini p i f v := write_accepted h ho ha

/-- A read that the page answers. -/
theorem read_answered {b : Blk} {ini : Ini} {p : Page} {i off : Nat} (h : b.Answers ini p i off) (ho : off < 4096) (ha : off % 4 = 0) :
    b.read ini (regAt p i off) = (b.pageRead ini (b.iniClass ini) p i off).1.respond ini (b.pageRead ini (b.iniClass ini) p i off).2 0 := by
  obtain ⟨_, hp, ht, hm, hs⟩ := h
  have e : ¬ regAt p i off % 4 ≠ 0 := by have := regAt_mod p i ho; omega
  unfold Blk.read Blk.regRead
  simp only [e, if_false, pageAt_regAt hp ho, regAt_mod p i ho, ht, hm, hs, Bool.not_true, Bool.false_eq_true]

end Sys2Proof.Laws
end

