-- ==== Sys2Proof/Laws/Threads.lean ====
section
/-! SUPPORT. What an instruction of a thread is once it is known to run, and what a fetch leaves alone. -/

namespace Sys2Proof.Laws

open Sys2Proof.Machine

/-- The common part of the instruction rows, once the thread runs that instruction. -/
theorem insn_runs {b b' : Blk} {t : Tid} {opc : Nat} {i : Ins} (h : b.Runs t opc i b') (f : Blk → Ins → Blk) : b.insn t opc f = f b' i := by
  obtain ⟨_, hr, ha, ⟨w, hf, ho, hi⟩, hk⟩ := h
  subst hi
  have hs : (!((b.thread t).sleep == .awake || (b.thread t).sleep == .stall)) = false := by
    cases ha with
    | inl e => rw [e]; rfl
    | inr e => rw [e]; rfl
  unfold Blk.insn
  simp only [hr, hs, ne_eq, not_true_eq_false, Bool.false_eq_true, or_self, if_false]
  rw [hf]
  simp only [ho, not_true_eq_false, if_false, hk, if_true]

/-- A thread that is not in RUN, or sleeps in something other than a stall, runs no instruction. -/
theorem insn_idle {b : Blk} {t : Tid} (opc : Nat) (f : Blk → Ins → Blk)
    (h : (b.thread t).st ≠ tRun ∨ ((b.thread t).sleep ≠ .awake ∧ (b.thread t).sleep ≠ .stall)) : b.insn t opc f = b := by
  unfold Blk.insn
  rw [if_pos]
  rcases h with h | ⟨h1, h2⟩
  · exact Or.inl h
  · right
    simp [h1, h2]

/-- A fetch changes nothing but an instruction cache and the counter of free values. -/
theorem fetch_keeps {b b' : Blk} {t : Tid} {r : Except (Nat × Nat × Nat) Nat} (h : b.fetch t = (b', r)) :
    b'.threads = b.threads ∧ b'.mem = b.mem ∧ b'.regs = b.regs ∧ b'.wales = b.wales ∧ b'.flash = b.flash ∧ b'.io.out = b.io.out := by
  unfold Blk.fetch at h
  dsimp only at h
  repeat' split at h
  all_goals (obtain ⟨rfl, -⟩ := Prod.mk.inj h; exact ⟨rfl, rfl, rfl, rfl, rfl, rfl⟩)

theorem runs_thread {b b' : Blk} {t : Tid} {opc : Nat} {i : Ins} (h : b.Runs t opc i b') (u : Tid) : b'.thread u = b.thread u := by
  obtain ⟨_, _, _, ⟨w, hf, _⟩, _⟩ := h
  simp only [Blk.thread, (fetch_keeps hf).1]

theorem runs_wale {b b' : Blk} {t : Tid} {opc : Nat} {i : Ins} (h : b.Runs t opc i b') (w : Nat) : b'.wale w = b.wale w := by
  obtain ⟨_, _, _, ⟨w, hf, _⟩, _⟩ := h
  simp only [Blk.wale, (fetch_keeps hf).2.2.2.1]

theorem runs_mem {b b' : Blk} {t : Tid} {opc : Nat} {i : Ins} (h : b.Runs t opc i b') : b'.mem = b.mem := by
  obtain ⟨_, _, _, ⟨w, hf, _⟩, _⟩ := h
  exact (fetch_keeps hf).2.1

/-- What an instruction that retires writes: the thread, and the count of the instructions that its stake has retired. -/
@[simp] theorem retire_thread (b : Blk) (t : Tid) (th : Thread) (pc : Nat) :
    (b.retire t th pc).thread t = { th with pc := pc % 2 ^ 32, sleep := .awake } := thread_setThread_same b t _
@[simp] theorem retire_mem (b : Blk) (t : Tid) (th : Thread) (pc : Nat) : (b.retire t th pc).mem = b.mem := rfl
@[simp] theorem retire_wales (b : Blk) (t : Tid) (th : Thread) (pc : Nat) : (b.retire t th pc).wales = b.wales := rfl
@[simp] theorem retire_stakes (b : Blk) (t : Tid) (th : Thread) (pc : Nat) : (b.retire t th pc).stakes = b.stakes := rfl
@[simp] theorem retire_io (b : Blk) (t : Tid) (th : Thread) (pc : Nat) : (b.retire t th pc).io = b.io := rfl
theorem retire_thread_other (b : Blk) {t u : Tid} (th : Thread) (pc : Nat) (h : tkey u ≠ tkey t) : (b.retire t th pc).thread u = b.thread u :=
  thread_setThread_other b _ h

end Sys2Proof.Laws
end

