-- ==== Sys2Proof/Tests/Slice0.lean ====
section
/-! SUPPORT. Tests of this model: blocks and operands that meet the hypotheses of the statements, ill-formed commands that every check refuses, and single
commands whose results the spec gives. -/

namespace Sys2Proof.Tests
open Sys2Proof Sys2Proof.Machine

set_option Elab.async false
set_option maxRecDepth 20000

/-! ## Small blocks -/

/-- The block at reset. -/
def tb : Blk := {}
/-- The pages of `l` in SERVING. -/
def served (b : Blk) (l : List (Page × Nat)) : Blk := b.each l (fun b x => b.wr (R.PG_STATE_STATE x.1) sServing x.2)
/-- An OWNED module whose named pages serve: core 0 has class V, core 8 class O. -/
def tO : Blk := served (tb.wr R.LID_OWN_STATE_STATE 1)
  [(.pwc, 0), (.nred, 0), (.nred, 7), (.rak, 0), (.fxp, 0), (.fxp, 1), (.fmac, 1), (.hbm, 0), (.hbm, 11), (.slow, 0), (.slow, 1), (.bank, 0), (.beat, 0), (.dig, 0), (.xlt, 0), (.nlnk, 7), (.hoop, 0)]
/-- What the power controller has measured, all 0. -/
def tMeas : TickMeasure := { nonStake := 0, perPhase := [], estW := 0, measW := 0, slack := 0 }
/-- A module in BLANK, with the claim window's page readable by the management plane. -/
def tBlank : Blk := tb
def tV : Blk := tO
/-- Thread 0 of stake 0 in RUN with the given registers, and the word (opcode, DEST, SRC1, SRC2, MOD, IMM) at its PC. -/
def tThread (regs : SMap Nat) (w : Nat × Nat × Nat × Nat × Nat × Nat) : Blk :=
  let (o, d, a, c, m, im) := w
  ((served tO [(.wale, 0), (.stake, 0), (.row, 0), (.wxlt, 0), (.sum, 0)]).setThread ⟨0, 0⟩ { st := tRun, regs := regs, pc := 0x1000 }).writeBytes 0 (stakeWin 0 + 0x1000)
    (natLe 8 (o * 2 ^ 57 + d * 2 ^ 52 + a * 2 ^ 47 + c * 2 ^ 42 + m * 2 ^ 32 + im)) |>.1
/-- That thread with token slots. -/
def tToks (b : Blk) (l : SMap Tok) : Blk := b.setThread ⟨0, 0⟩ { b.thread ⟨0, 0⟩ with toks := l }
/-- Wale 0 with a barrier count. -/
def tBar (b : Blk) (n : Nat) : Blk := b.setWale 0 { b.wale 0 with bars := [(15, n)] }
def tStall : Blk := (tO.setThread ⟨0, 0⟩ { st := tRun, sleep := .stall }).wr R.SCHED_CREDIT_LIMIT 1 0

/-- Descriptors that the engines accept: a 1 × 1 × 1 product, a one-element chain, a softmax of one row of 16, a copy of 64 bytes, a summary operation, all FP32
and in local memory; a copy of 1 MiB. -/
def dMat : List Nat := [2 ^ 48, 1 + 2 ^ 16 + 2 ^ 32, 0x2000 + 0x3000 * 2 ^ 32, 0x4000, 0, 0, 0, 0]
def dVec : List Nat := [1, 0x2000, 0x3000, 0, 0, 0, 0, 0]
def dRow : List Nat := [16 * 2 ^ 32, 1, 0x80_0000, 0x80_1000, 0, 64 * 2 ^ 32, 0, 0]
def dDma : List Nat := [12 + 64 * 2 ^ 32, 0x2000, 0x3000, 0, 0, 0, 0, 0]
def dSum (k : Nat) : List Nat := [k + 2 ^ 20 + 2 ^ 29, 0, 0, 0, 0, 0, 0, 0]
def dBig : List Nat := [2 ^ 20 * 2 ^ 32, 0, 2 ^ 30, 0, 0, 0, 0, 0]
/-- An operation of thread 0 of stake 0. -/
def opOf (d : List Nat) : QOp := { tid := ⟨0, 0⟩, slot := 0, desc := d }
def tOp (k : Nat) : QOp := opOf (dSum k)
def tBigOp : QOp := opOf dBig
def tSum (k : Nat) : Blk := tb.setWale 0 { sumQ := [tOp k] }
/-- The descriptor at 0x2000 of stake 0, which the thread's s1 names, in its eight words. -/
def tIss (d : List Nat) (opc imm : Nat) : Blk :=
  ((tThread [(1, 0x2000)] (opc, 0, 1, 0, 0, imm)).writeBytes 0 (stakeWin 0 + 0x2000) (d.flatMap (natLe 8))).1
def wordOf (d : List Nat) : Nat := leNat (d.flatMap (natLe 8))
def tSumEnd : Blk := tb.setWale 0 { sum := some { op := tOp 0, made := true } }
/-- A 1 × 1 × 1 product over BF16, which needs no leave grant. -/
def dMatS : List Nat := [2 ^ 48 + 1 + 16, 1 + 2 ^ 16 + 2 ^ 32, 0x2000 + 0x3000 * 2 ^ 32, 0x4000, 0, 0, 0, 0]
def tMatS : Blk := tO.setStake 0 { matQ := [opOf dMatS] }
def tMatQ : Blk := tO.setStake 0 { matQ := [opOf dMat] }
def tMatQE : Blk := { tO.setStake 0 { matQ := [opOf dMat], matEnt := some 0 } with leave := { granted := [.mat 0] } }
def tVecQ : Blk := tb.setStake 0 { vecQ := [opOf dVec] }
def tRowQ : Blk := tb.setWale 0 { rowQ := [opOf dRow] }
def tDmaQ : Blk := tb.setWale 0 { dmaQ := [opOf dDma] }
def tMatRun : Blk := tb.setStake 0 { mat := some { op := opOf dMat } }
def tVecRun : Blk := tb.setStake 0 { vec := some { op := opOf dVec } }
def tRowRun : Blk := tb.setWale 0 { row := some { op := opOf dRow } }
def tStream : Stream := { orig := .hoop 1 0, desc := [64 * 2 ^ 32, 0, 0x1000, 0, 0, 0, 0, 0], started := true }
def tDmaBig : Blk := tb.setWale 0 { dmaQ := [tBigOp] }
/-- The stream of a thread's copy in context 0. -/
def tCopy : Stream := { orig := .op (opOf dDma), desc := dDma, started := true }
def tCopying : Blk := { tb with streams := [(0, some tCopy)] }
def tDmaRun : Blk := { tb with streams := [(16895, some tStream)] }
def tLossQ : Blk := { tb with lossQ := [0] }
def tRunning : Blk := { tb with beat := { running := true } }
def tUneval : Blk := tb
def tMayTake : Blk := (served tb [(.wale, 0), (.sched, 0)]).wr R.SCHED_LAG 1 0
/-- A copy apply of one element, with every array in stack 0 and the slow tier, and the descriptor in the ring's first entry. -/
def dApply : List Nat := [5 + 2 ^ 16 * (1 + 8 + 64 + 512) + 2 ^ 28, 2 ^ 32, 0, 2 ^ 22, slowLo, 2 ^ 24, 0, 0]
def tRing (d : List Nat) : Blk :=
  ((tO.wr R.BANK_RING_PUT 1 0).writeBytes (tO.owner .bank 0) (tO.rdAddr R.BANK_RING_BASE_LO R.BANK_RING_BASE_HI 0) (d.flatMap (natLe 8))).1
def tBank : Blk := tb.setBank 0 { desc := some [0, 0, 0, 0, 0, 0, 0, 0] }
def tWork : ChunkWork := { slot := 0, master := [], m := [], v := [], crc := 0, crcOld := 0, diff := [], nfG := 0, nfM := 0 }
def tBankW : Blk := tb.setBank 0 { desc := some [0, 0, 0, 0, 0, 0, 0, 0], work := some tWork }
def tBankWait : Blk := tb.setBank 0 { waiting := true }

/-- Near port 7 UP, in an OWNED module, with its session. -/
def tUp : Blk := ((tO.wr R.NLNK_STATUS_LINK 2 7).wr R.NLNK_STATUS_WIDTH 8 7).wr R.NKEY_STATUS_SESSION 2 7
/-- A part of shard 255 applied at step 7, compared, fetched and served, with its commit record. -/
def tDigPart : DigPart := { shard := 255, part := 0, step := 7, d := 0, unit := 0, desc := dApply, nogate := true }
def tChunk : RepairChunk :=
  { shard := 255, part := 0, chunk := 0, step := 7, opt := 5, group := 0, crc := 0, count := 1, master := [1], m := [], v := [] }
def tPart : Blk :=
  ((({ tUp with dig := { parts := [tDigPart], shards := [(255, { step := 7, ready := true })], fetch := [⟨255, 7, 3, 0, [(0, 0)]⟩], serve := [⟨255, 7, 3, 0, [(0, 0)]⟩] },
                  border := { gwait := [{ src := 0, group := 0, layer := 0, commit := 7, shard := 255, attempt := 0 }] } }).writeRec (applyDesc dApply) 0
    { valid := true, opt := 5, step := 7, count := 1 }).writeLines 1 slowLo (natLe 4 1))
def tCmp : Blk := { tb with dig := { cmps := [{ shard := 255, step := 1, own := some 5, waited := 2 ^ 32 }] } }

def tDegraded : Blk := tUp.wr R.NLNK_STATUS_LINK 3 7
def tFlit : FlitIn := { fecOk := true, crcOk := true, tagOk := true, bit := 0, seq := none, plain := List.replicate 243 0 }
def tReplay : Blk := tUp.setNport 7 { replay := [{ epoch := 0, seq := 0, tc := 1 }] }
def tStep4 : Blk := tO.setNport 7 { step := 4, challenge := some 0 }
def tWaiting : Blk := (tO.setNport 7 { waiting := true }).wr R.NLNK_CTRL_TRAIN 1 7
def tCapGood : CapRecord :=
  { head := natLe 4 0x0780_0C01 ++ natLe 4 50016 ++ List.replicate 96 0 ++ natLe 2 0x0100 ++ List.replicate 10 0 ++ List.replicate 12 255 ++ natLe 32 0,
    sigOk := true, debug := 0, quoteOk := true, ownerOk := true }
def tCapBad : CapRecord := { tCapGood with ownerOk := false }
def tTripped : Blk := (tO.setNport 7 { trips := 1 }).wr R.NLNK_LOAD_TRIPPED 1 7
def tRxNext : Blk := tUp.setNport 7 { rxNext := some 1 }
def tTxAsked : Blk := tUp.setNport 7 { txAsked := true }
def tKey : BKey := { group := 255, step := 1, attempt := 0, bucket := 0 }
def tHo (back : Bool) : Handover := { step := 1, mb := 0, slot := 23, back := back, last := false, variant := 255, attempt := 0, data := [] }
def tExpert : ExpertHdr := { group := 255, step := 1, attempt := 0, xid := 0, rank := 0 }
def tGather : GatherQ := { peer := 0, group := 255, layer := 0, commit := 0, shard := 255, attempt := 0 }
def tGexp : Blk := { tO with border := { gexp := [{ group := 255, layer := 0, rank := 0, commit := 0, back := false, step := 1, attempt := 0, left := some 0 }] } }
def tGroup : Group :=
  { kind := 0, switch := false, channel := 0, coded := false, gate := false, bf16 := false, deadline := 1, members := 1, self := 0, buckets := 1, bits := 0,
    ef := false, scale := 0, layers := 1, hopTab := 0, memTab := 0, auxTab := 0 }
def tBucket : Blk := { tO with border := { buckets := [{ key := tKey, grp := tGroup, hops := [], lens := [], left := some 0 }] } }
def tJoin : Blk := { tUp with border := { join := SMap.set 0 [] (swKey 3 255) 1 } }
def tSw : SwRec :=
  { msg := 4, channel := 3, op := 0, step := 2 ^ 24 - 1, attempt := 255, seq := 0, rank := 0, group := 255, members := 0, vals := [] }

def tHdr : FarHdr := { port := 1, peer := 7, epoch := 0, num := 0, tagOk := true }
def tAckDue : Blk := (tO.wr (R.FKEY_PEER_SESSION.at 7) 2).setFpeer 7 { ackDue := 1 }
def tSent : Blk := (tO.wr (R.FKEY_PEER_SESSION.at 7) 2).setFpeer 7 { sent := [{ num := 0, mid := 0, off := 0, len := 1, route := 0 }] }
def tRoute : Blk := (tO.wr (R.FKEY_PEER_SESSION.at 7) 2).setFpeer 7 { r1 := { st := rtData } }

/-- A far exchange in which peer table and send ring stand in one cached page of the module's translator. -/
def tFar : Blk :=
  (({ (((tO.wr R.FXP_SQ_PUT 1).wr R.FMAC_CTRL_EN 1 1).wr R.FMAC_STATUS_LINK 1 1).wr R.FXP_SQ_SIZE 4 with
      xlt := { caches := [(modXl, { leafs := [{ va := 0, bits := 12, pte := 0x10_001F }] })] } }).writeBytes 1 0x10_0000 (List.replicate 128 0)).1
def tFarBad : Blk := { tFar with xlt := {} }
def sqErr (b : Blk) : Fail := match (b.loadVa modXl clsH none (b.rdAddr R.FXP_SQ_BASE_LO R.FXP_SQ_BASE_HI + b.rd R.FXP_SQ_GET % 2 ^ b.rd R.FXP_SQ_SIZE * 32) 32).2 with
  | .error f => f
  | .ok _ => { cls := 0 }
def tRecv : Blk := { tO with far := { recv := [{ mid := midOf 1 2 1 0, va := 0, len := 0 }] } }
def tMid (type site : Nat) : Nat := midOf 1 type site 0
def tEntry : ManEntry := { site := 3, round := 1, weight := 1, mid := tMid 1 3 }

def tPwr (x : Pwr) : Blk := { tb with pwr := x }
def tBoot (x : BootSt) : Blk := { tb with boot := x }
def tTrying : Blk := { tb with lid := { trying := [(0, 300), (1, 1), (4, 1)] } }
/-- Rakline UP, in BLANK with the claim window open, or OWNED; the lid's nonce is 5 and the owner's key hash 7. -/
def tClaim : Blk := { (tb.wr R.RAK_STATUS_LINK 2).wr R.LID_CLAIM_ARM 1 with lid := { nonce := some 5 } }
def tOwnedTok : Blk := { tO.wr R.RAK_STATUS_LINK 2 with lid := { nonce := some 5 }, flash := { ownerHash := some (Config.shake (List.replicate 64 0)), epoch := 1, own := 1 } }
/-- The value that `n` little-endian bytes of `v` hold. -/
theorem leNat_natLe (n v : Nat) : leNat (natLe n v) = v % 256 ^ n := by
  induction n generalizing v with
  | zero => simp [natLe, leNat, Nat.mod_one]
  | succ n ih =>
    show (BitVec.ofNat 8 v).toNat + 256 * leNat (natLe n (v / 256)) = _
    rw [ih, BitVec.toNat_ofNat, show (256 : Nat) ^ (n + 1) = 256 * 256 ^ n from Nat.pow_succ', Nat.mod_mul]

/-- A token for this module, whose signer's key is 64 zero bytes. -/
def tTok (type scope epoch nonce : Nat) : Token :=
  { head := natLe 4 type ++ natLe 4 29976 ++ natLe 32 Config.identityHash.toNat ++ natLe 4 epoch ++ natLe 4 scope ++ natLe 32 0 ++ natLe 32 nonce ++ natLe 8 0
      ++ List.replicate 64 0, sigLen := 29792, sigOk := true }
/-- A token names this module. -/
theorem tTok_identity (type scope epoch nonce : Nat) : tokIdentity (tTok type scope epoch nonce) = Config.identityHash.toNat := by
  show leNat (natLe 32 Config.identityHash.toNat) = _
  rw [leNat_natLe]
  exact Nat.mod_eq_of_lt Config.identityHash.isLt
/-- `Blk.tokenOk` by the two comparisons with opaque values and a check of the rest. -/
theorem tokenOk_of {b : Blk} {t : Token} {type : Nat} (hi : tokIdentity t = Config.identityHash.toNat)
    (h : (t.sigOk && tokLayout t && tokType t == type && tokEpoch t == (if type = 4 then 0 else b.flash.epoch % 2 ^ 32)
      && (match type with
          | 1 => tokScope t != 0 && decide (tokScope t < 256)
          | 2 => tokScope t != 0 && decide (tokScope t < 8)
          | _ => tokScope t == 0)
      && (type == 1 || tokSubject t == 0) && (if type = 1 then tokNonce t == 0 else b.lid.nonce == some (tokNonce t))
      && decide (b.flash.boots ≤ tokLastBoot t)) = true)
    (hk : (type == 4 || b.flash.ownerHash == some (tokKeyHash t)) = true) : b.tokenOk t type = true := by
  simp only [Bool.and_eq_true] at h
  obtain ⟨⟨⟨⟨⟨⟨⟨h1, h2⟩, h3⟩, h4⟩, h5⟩, h6⟩, h7⟩, h8⟩ := h
  simp only [Blk.tokenOk, Bool.and_eq_true]
  exact ⟨⟨⟨⟨⟨⟨⟨⟨⟨h1, h2⟩, h3⟩, by simp [hi]⟩, h4⟩, h5⟩, h6⟩, h7⟩, h8⟩, hk⟩

def tSvc : SvcToken := { sigOk := true, identity := Config.identityHash.toNat, boot := 0 }
def tSample : WindowSample :=
  { joules := 0, vinMv := 0, vinMinMv := 0, v3p3Mv := 0, temps := List.replicate 22 0, loads := List.replicate 8 0 }
def tUnacked : Blk := { tb.wr R.RAK_STATUS_LINK 2 with rak := { unacked := 1 } }
def tRakHdr : List Byte := [1, 0x80, 0, 0] ++ List.replicate 12 0
def tRakMsg : RakLinkMsg := .ack 0
/-- A module in SERVICE with a nonce; an OWNED session on Rakline. -/
def tSvcSess : Blk := { (tb.wr R.RAK_STATUS_LINK 2).wr R.LID_OWN_STATE_STATE 2 with lid := { nonce := some 5 } }
def tSess : Blk := (tO.wr R.RAK_STATUS_LINK 2).wr R.RAK_STATUS_SESSION 1
def tMgmt : Blk := { served tO [(.lid, 0)] with boot := { stage := 5 } }
def tEvt : Blk := { tb with boot := { stage := 5 }, mgmt := { events := [{ sensor := 0x0201, value := 1 }] } }
/-- A register command, and the head of a bulk command. -/
def tReg (op count off : Nat) (data : List Nat) : List Byte := natLe 1 op ++ natLe 1 count ++ natLe 2 0 ++ natLe 4 off ++ natLe 8 0 ++ data.flatMap (natLe 4)
def tBulkHead (op k va len : Nat) : List Byte := natLe 1 op ++ natLe 1 k ++ natLe 6 0 ++ natLe 8 va ++ natLe 8 len ++ natLe 8 0
def tBulkData (k off : Nat) (l : List Byte) : List Byte := natLe 8 k ++ natLe 8 off ++ l
def tBulk : Bulk := { write := true, va := 0, len := 0, moved := 0 }
def tUpd (x : MgmtSt) : Blk := { tb with boot := { stage := 5 }, mgmt := x }
def tImage : ImageIn := { hash := 0, secver := 0, sigOk := true }

/-- What `Blk.Runs` asks of the word at the thread's PC, as one check. -/
def runsOk (b : Blk) (t : Tid) (opc : Nat) (i : Ins) (w : Nat) : Bool :=
  tidOk t && (b.thread t).st == tRun && (b.thread t).sleep == .awake && bits w 57 7 == opc && insOf w == i && fieldsOk opc i
    && (match (b.fetch t).2 with | .ok v => v == w | .error _ => false)

theorem runs_of {b : Blk} {t : Tid} {opc : Nat} {i : Ins} (w : Nat) (h : runsOk b t opc i w = true) : b.Runs t opc i (b.fetch t).1 := by
  simp only [runsOk, Bool.and_eq_true, beq_iff_eq] at h
  obtain ⟨⟨⟨⟨⟨⟨h1, h2⟩, h3⟩, h4⟩, h5⟩, h6⟩, h7⟩ := h
  refine ⟨h1, h2, .inl h3, ⟨w, ?_, h4, h5⟩, h6⟩
  cases hf : (b.fetch t).2 with
  | error e => simp [hf] at h7
  | ok v => rw [hf] at h7; exact Prod.ext rfl (by simpa [hf] using h7)

/-! ## Witnesses: blocks and operands that meet every clause of a statement -/

/-- Every clause of O13 is met. -/
theorem witness_LidRegistersComplete :
    (∃ b : Blk, ∃ ini : Ini, b.AcceptsField ini .lid 0 R.LID_ZERO_CTRL_FORCE_CLEAR 1)
    ∧ (∃ b : Blk, ∃ ini : Ini, b.AcceptsField ini .lid 0 R.LID_CLAIM_ARM 1)
    ∧ (∃ b : Blk, ∃ ini : Ini, ∃ mask : Nat, (mask < 2 ^ R.LID_DOMAIN_REKEY.w) ∧ (b.AcceptsField ini .lid 0 R.LID_DOMAIN_REKEY mask))
    ∧ (∃ b : Blk, ∃ ini : Ini, b.AcceptsField ini .lid 0 R.LID_DEBUG_CLOSE 1)
    ∧ (∃ b : Blk, ∃ ini : Ini, ∃ v : Nat, (v < 2 ^ R.LID_LOG_GET.w) ∧ (b.AcceptsField ini .lid 0 R.LID_LOG_GET v))
    ∧ (∃ b : Blk, ∃ ini : Ini, ∃ v : Nat, (v < 2 ^ 48) ∧ (b.Accepts ini .lid 0 R.LID_LOG_BASE_LO.off (v % 2 ^ 32)) ∧ ((b.wrote ini .lid 0 R.LID_LOG_BASE_LO.off (v % 2 ^ 32)).Accepts ini .lid 0 R.LID_LOG_BASE_HI.off (v / 2 ^ 32))) :=
  ⟨⟨tV, .mgmt, ⟨by decide +kernel, by decide +kernel, by decide +kernel, by decide +kernel, by decide +kernel, by decide +kernel⟩⟩,
   ⟨tBlank, .mgmt, ⟨by decide +kernel, by decide +kernel, by decide +kernel, by decide +kernel, by decide +kernel, by decide +kernel⟩⟩,
   ⟨tO, .core 8, 255, by decide +kernel, ⟨by decide +kernel, by decide +kernel, by decide +kernel, by decide +kernel, by decide +kernel, by decide +kernel⟩⟩,
   ⟨tO, .core 8, ⟨by decide +kernel, by decide +kernel, by decide +kernel, by decide +kernel, by decide +kernel, by decide +kernel⟩⟩,
   ⟨tO, .core 8, 0, by decide +kernel, ⟨by decide +kernel, by decide +kernel, by decide +kernel, by decide +kernel, by decide +kernel, by decide +kernel⟩⟩,
   ⟨tO, .core 8, 2 ^ 48 - 4096, by decide +kernel, ⟨by decide +kernel, by decide +kernel, by decide +kernel, by decide +kernel, by decide +kernel, by decide +kernel⟩, ⟨by decide +kernel, by decide +kernel, by decide +kernel, by decide +kernel, by decide +kernel, by decide +kernel⟩⟩⟩

/-- Every clause of O14 is met. -/
theorem witness_HeaderRegistersComplete :
    (∃ b : Blk, ∃ ini : Ini, ∃ p : Page, ∃ i : Nat, ∃ on : Bool, b.AcceptsField ini p i (R.PG_CTRL_ENABLE p) (b2n on))
    ∧ (∃ b : Blk, ∃ ini : Ini, ∃ p : Page, ∃ i : Nat, ∃ on : Bool, b.AcceptsField ini p i (R.PG_CTRL_QUIESCE_REQ p) (b2n on))
    ∧ (∃ b : Blk, ∃ ini : Ini, ∃ p : Page, ∃ i : Nat, ∃ on : Bool, b.AcceptsField ini p i (R.PG_CTRL_ISOLATE p) (b2n on))
    ∧ (∃ b : Blk, ∃ ini : Ini, ∃ p : Page, ∃ i : Nat, b.AcceptsField ini p i (R.PG_CTRL_BLOCK_RESET p) 1)
    ∧ (∃ b : Blk, ∃ ini : Ini, ∃ p : Page, ∃ i : Nat, b.AcceptsField ini p i (R.PG_LOCK p) 1)
    ∧ (∃ b : Blk, ∃ ini : Ini, ∃ p : Page, ∃ i : Nat, ∃ v : Nat, (v < 2 ^ (R.PG_OWNER p).w) ∧ (b.AcceptsField ini p i (R.PG_OWNER p) v))
    ∧ (∃ b : Blk, ∃ ini : Ini, ∃ p : Page, ∃ i : Nat, ∃ v : Nat, (v < 2 ^ 32) ∧ (b.Accepts ini p i 0x014 v)) :=
  ⟨⟨tV, .core 0, .hbm, 11, true, ⟨by decide +kernel, by decide +kernel, by decide +kernel, by decide +kernel, by decide +kernel, by decide +kernel⟩⟩,
   ⟨tV, .core 0, .hbm, 11, true, ⟨by decide +kernel, by decide +kernel, by decide +kernel, by decide +kernel, by decide +kernel, by decide +kernel⟩⟩,
   ⟨tV, .core 0, .hbm, 11, true, ⟨by decide +kernel, by decide +kernel, by decide +kernel, by decide +kernel, by decide +kernel, by decide +kernel⟩⟩,
   ⟨tV, .core 0, .hbm, 11, ⟨by decide +kernel, by decide +kernel, by decide +kernel, by decide +kernel, by decide +kernel, by decide +kernel⟩⟩,
   ⟨tV, .core 0, .hbm, 11, ⟨by decide +kernel, by decide +kernel, by decide +kernel, by decide +kernel, by decide +kernel, by decide +kernel⟩⟩,
   ⟨tO, .core 8, .hbm, 0, 7, by decide +kernel, ⟨by decide +kernel, by decide +kernel, by decide +kernel, by decide +kernel, by decide +kernel, by decide +kernel⟩⟩,
   ⟨tV, .core 0, .hbm, 0, 2 ^ 32 - 1, by decide +kernel, ⟨by decide +kernel, by decide +kernel, by decide +kernel, by decide +kernel, by decide +kernel, by decide +kernel⟩⟩⟩

/-- Every clause of O15 is met. -/
theorem witness_RegisterAccessesComplete :
    (∃ b : Blk, ∃ ini : Ini, ∃ p : Page, ∃ i : Nat, ∃ off : Nat, ∃ v : Nat, (off < 4096) ∧ (off % 4 = 0) ∧ (v < 2 ^ 32) ∧ (b.Accepts ini p i off v))
    ∧ (∃ b : Blk, ∃ ini : Ini, ∃ p : Page, ∃ i : Nat, ∃ off : Nat, (off < 4096) ∧ (off % 4 = 0) ∧ (pairLo p off = true) ∧ (b.Answers ini p i off))
    ∧ (∃ b : Blk, ∃ ini : Ini, ∃ p : Page, ∃ i : Nat, ∃ off : Nat, ∃ v : Nat, (off < 4096) ∧ (off % 4 = 0) ∧ (v < 2 ^ 32) ∧ (rwPair p i off = true) ∧ (b.Accepts ini p i off v))
    ∧ (∃ b : Blk, ∃ ini : Ini, ∃ p : Page, ∃ i : Nat, ∃ off : Nat, ∃ v : Nat, (off < 4096) ∧ (off % 4 = 0) ∧ (4 ≤ off) ∧ (v < 2 ^ 32) ∧ (rwPair p i (off - 4) = true) ∧ (b.Accepts ini p i off v)) :=
  ⟨⟨tO, .core 8, .beat, 0, R.BEAT_PERIOD.off, 10 ^ 6, by decide +kernel, by decide +kernel, by decide +kernel, ⟨by decide +kernel, by decide +kernel, by decide +kernel, by decide +kernel, by decide +kernel, by decide +kernel⟩⟩,
   ⟨tO, .core 8, .beat, 0, R.BEAT_COUNT_LO.off, by decide +kernel, by decide +kernel, by decide +kernel, ⟨by decide +kernel, by decide +kernel, by decide +kernel, by decide +kernel, by decide +kernel⟩⟩,
   ⟨tO, .core 8, .dig, 0, R.DIG_TABLE_LO.off, 4096, by decide +kernel, by decide +kernel, by decide +kernel, by decide +kernel, ⟨by decide +kernel, by decide +kernel, by decide +kernel, by decide +kernel, by decide +kernel, by decide +kernel⟩⟩,
   ⟨tO, .core 8, .dig, 0, R.DIG_TABLE_HI.off, 1, by decide +kernel, by decide +kernel, by decide +kernel, by decide +kernel, by decide +kernel, ⟨by decide +kernel, by decide +kernel, by decide +kernel, by decide +kernel, by decide +kernel, by decide +kernel⟩⟩⟩

/-- Every clause of O16 is met. -/
theorem witness_BeatAndStakeRegistersComplete :
    (∃ b : Blk, ∃ ini : Ini, ∃ v : Nat, (v < 2 ^ R.BEAT_PERIOD.w) ∧ (b.AcceptsField ini .beat 0 R.BEAT_PERIOD v))
    ∧ (∃ b : Blk, ∃ ini : Ini, ∃ on : Bool, b.AcceptsField ini .beat 0 R.BEAT_CTRL_STRICT (b2n on))
    ∧ (∃ b : Blk, ∃ ini : Ini, ∃ on : Bool, b.AcceptsField ini .beat 0 R.BEAT_CTRL_SYNC_EN (b2n on))
    ∧ (∃ b : Blk, ∃ ini : Ini, ∃ on : Bool, b.AcceptsField ini .beat 0 R.BEAT_CTRL_SYNC_OUT_EN (b2n on))
    ∧ (∃ b : Blk, ∃ ini : Ini, ∃ t : Tid, (tidOk t = true) ∧ (b.Accepts ini .stake t.stake R.STAKE_CMD_CMD.off (t.thread + 16 * 1)))
    ∧ (∃ b : Blk, ∃ ini : Ini, ∃ t : Tid, (tidOk t = true) ∧ (b.Accepts ini .stake t.stake R.STAKE_CMD_CMD.off (t.thread + 16 * 2)))
    ∧ (∃ b : Blk, ∃ ini : Ini, ∃ t : Tid, (tidOk t = true) ∧ (b.Accepts ini .stake t.stake R.STAKE_CMD_CMD.off (t.thread + 16 * 3)))
    ∧ (∃ b : Blk, ∃ ini : Ini, ∃ t : Tid, (tidOk t = true) ∧ (b.Accepts ini .stake t.stake R.STAKE_CMD_CMD.off (t.thread + 16 * 4)))
    ∧ (∃ b : Blk, ∃ ini : Ini, ∃ t : Tid, (tidOk t = true) ∧ (b.Accepts ini .stake t.stake R.STAKE_CMD_CMD.off (t.thread + 16 * 5)))
    ∧ (∃ b : Blk, ∃ ini : Ini, ∃ t : Tid, (tidOk t = true) ∧ (b.Accepts ini .stake t.stake R.STAKE_CMD_CMD.off (t.thread + 16 * 6)))
    ∧ (∃ b : Blk, ∃ ini : Ini, ∃ k : Nat, b.AcceptsField ini .stake k R.STAKE_ICACHE 1)
    ∧ (∃ b : Blk, ∃ ini : Ini, ∃ t : Tid, (tidOk t = true) ∧ (b.Answers ini .stake t.stake (0x084 + 16 * t.thread)))
    ∧ (∃ b : Blk, ∃ ini : Ini, ∃ t : Tid, ∃ v : Nat, (tidOk t = true) ∧ (v < 2 ^ 32) ∧ (b.Accepts ini .stake t.stake (0x084 + 16 * t.thread) v))
    ∧ (∃ b : Blk, ∃ ini : Ini, ∃ t : Tid, ∃ r : Nat, ∃ v : Nat, (tidOk t = true) ∧ (r < 32) ∧ (v < 2 ^ 64) ∧ (b.Accepts ini .stake t.stake (0x800 + 256 * t.thread + 8 * r) (v % 2 ^ 32)) ∧ ((b.wrote ini .stake t.stake (0x800 + 256 * t.thread + 8 * r) (v % 2 ^ 32)).Accepts ini .stake t.stake (0x804 + 256 * t.thread + 8 * r) (v / 2 ^ 32)))
    ∧ (∃ b : Blk, ∃ ini : Ini, ∃ w : Nat, ∃ v : Nat, (v < 2 ^ R.SCHED_WL_PUT.w) ∧ (b.AcceptsField ini .sched w R.SCHED_WL_PUT v))
    ∧ (∃ b : Blk, ∃ ini : Ini, ∃ w : Nat, b.AcceptsField ini .sched w R.SCHED_SB_STATUS_PEAK_CLR 1)
    ∧ (∃ b : Blk, ∃ ini : Ini, ∃ w : Nat, b.Answers ini .sum w R.SUM_POST_LO.off)
    ∧ (∃ b : Blk, ∃ ini : Ini, ∃ w : Nat, b.AcceptsField ini .row w R.ROW_SIDE_CLR_START 1) :=
  ⟨⟨tO, .core 8, 25000, by decide +kernel, ⟨by decide +kernel, by decide +kernel, by decide +kernel, by decide +kernel, by decide +kernel, by decide +kernel⟩⟩,
   ⟨tO, .core 8, true, ⟨by decide +kernel, by decide +kernel, by decide +kernel, by decide +kernel, by decide +kernel, by decide +kernel⟩⟩,
   ⟨tO, .core 8, true, ⟨by decide +kernel, by decide +kernel, by decide +kernel, by decide +kernel, by decide +kernel, by decide +kernel⟩⟩,
   ⟨tO, .core 8, true, ⟨by decide +kernel, by decide +kernel, by decide +kernel, by decide +kernel, by decide +kernel, by decide +kernel⟩⟩,
   ⟨tO, .core 8, ⟨1535, 7⟩, by decide +kernel, ⟨by decide +kernel, by decide +kernel, by decide +kernel, by decide +kernel, by decide +kernel, by decide +kernel⟩⟩,
   ⟨tO, .core 8, ⟨1535, 7⟩, by decide +kernel, ⟨by decide +kernel, by decide +kernel, by decide +kernel, by decide +kernel, by decide +kernel, by decide +kernel⟩⟩,
   ⟨tO, .core 8, ⟨1535, 7⟩, by decide +kernel, ⟨by decide +kernel, by decide +kernel, by decide +kernel, by decide +kernel, by decide +kernel, by decide +kernel⟩⟩,
   ⟨tO, .core 8, ⟨1535, 7⟩, by decide +kernel, ⟨by decide +kernel, by decide +kernel, by decide +kernel, by decide +kernel, by decide +kernel, by decide +kernel⟩⟩,
   ⟨tO, .core 8, ⟨1535, 7⟩, by decide +kernel, ⟨by decide +kernel, by decide +kernel, by decide +kernel, by decide +kernel, by decide +kernel, by decide +kernel⟩⟩,
   ⟨tO, .core 8, ⟨1535, 7⟩, by decide +kernel, ⟨by decide +kernel, by decide +kernel, by decide +kernel, by decide +kernel, by decide +kernel, by decide +kernel⟩⟩,
   ⟨tO, .core 8, 1535, ⟨by decide +kernel, by decide +kernel, by decide +kernel, by decide +kernel, by decide +kernel, by decide +kernel⟩⟩,
   ⟨tO, .core 8, ⟨0, 7⟩, by decide +kernel, ⟨by decide +kernel, by decide +kernel, by decide +kernel, by decide +kernel, by decide +kernel⟩⟩,
   ⟨tO, .core 8, ⟨0, 7⟩, 2 ^ 32 - 8, by decide +kernel, by decide +kernel, ⟨by decide +kernel, by decide +kernel, by decide +kernel, by decide +kernel, by decide +kernel, by decide +kernel⟩⟩,
   ⟨tO, .core 8, ⟨0, 7⟩, 31, 2 ^ 64 - 1, by decide +kernel, by decide +kernel, by decide +kernel, ⟨by decide +kernel, by decide +kernel, by decide +kernel, by decide +kernel, by decide +kernel, by decide +kernel⟩, ⟨by decide +kernel, by decide +kernel, by decide +kernel, by decide +kernel, by decide +kernel, by decide +kernel⟩⟩,
   ⟨tO, .core 8, 0, 1, by decide +kernel, ⟨by decide +kernel, by decide +kernel, by decide +kernel, by decide +kernel, by decide +kernel, by decide +kernel⟩⟩,
   ⟨tO, .core 8, 197, ⟨by decide +kernel, by decide +kernel, by decide +kernel, by decide +kernel, by decide +kernel, by decide +kernel⟩⟩,
   ⟨tO, .core 8, 0, ⟨by decide +kernel, by decide +kernel, by decide +kernel, by decide +kernel, by decide +kernel⟩⟩,
   ⟨tO, .core 8, 0, ⟨by decide +kernel, by decide +kernel, by decide +kernel, by decide +kernel, by decide +kernel, by decide +kernel⟩⟩⟩

/-- Every clause of O17 is met. -/
theorem witness_MemoryRegistersComplete :
    (∃ b : Blk, ∃ ini : Ini, ∃ va : Nat, ∃ pages : Nat, (va < 2 ^ 48) ∧ (pages < 2 ^ 24) ∧ (b.Accepts ini .xlt 0 R.XLT_INVAL_VA_LO.off (va % 2 ^ 32)) ∧ ((b.wrote ini .xlt 0 R.XLT_INVAL_VA_LO.off (va % 2 ^ 32)).Accepts ini .xlt 0 R.XLT_INVAL_VA_HI.off (va / 2 ^ 32)) ∧ (((b.wrote ini .xlt 0 R.XLT_INVAL_VA_LO.off (va % 2 ^ 32)).wrote ini .xlt 0 R.XLT_INVAL_VA_HI.off (va / 2 ^ 32)).Accepts ini .xlt 0 R.XLT_INVAL_CMD_SCOPE.off (1 + 256 * pages)))
    ∧ (∃ b : Blk, ∃ ini : Ini, b.Accepts ini .xlt 0 R.XLT_INVAL_CMD_SCOPE.off 2)
    ∧ (∃ b : Blk, ∃ ini : Ini, ∃ kind : Nat, ∃ unit : Nat, (kind < 16) ∧ (unit < 2 ^ 15) ∧ (b.Accepts ini .xlt 0 R.XLT_FAULT_CMD_ACTION.off (1 + 16 * kind + 65536 * unit)))
    ∧ (∃ b : Blk, ∃ ini : Ini, ∃ kind : Nat, ∃ unit : Nat, (kind < 16) ∧ (unit < 2 ^ 15) ∧ (b.Accepts ini .xlt 0 R.XLT_FAULT_CMD_ACTION.off (2 + 16 * kind + 65536 * unit)))
    ∧ (∃ b : Blk, ∃ ini : Ini, ∃ v : Nat, (v < 2 ^ R.XLT_FQ_GET.w) ∧ (b.AcceptsField ini .xlt 0 R.XLT_FQ_GET v))
    ∧ (∃ b : Blk, ∃ ini : Ini, ∃ v : Nat, (v < 2 ^ 48) ∧ (b.Accepts ini .xlt 0 R.XLT_FQ_BASE_LO.off (v % 2 ^ 32)) ∧ ((b.wrote ini .xlt 0 R.XLT_FQ_BASE_LO.off (v % 2 ^ 32)).Accepts ini .xlt 0 R.XLT_FQ_BASE_HI.off (v / 2 ^ 32)))
    ∧ (∃ b : Blk, ∃ ini : Ini, ∃ n : Nat, b.AcceptsField ini .bank n R.BANK_CMD 1)
    ∧ (∃ b : Blk, ∃ ini : Ini, ∃ n : Nat, b.AcceptsField ini .bank n R.BANK_CMD 2)
    ∧ (∃ b : Blk, ∃ ini : Ini, ∃ n : Nat, b.AcceptsField ini .bank n R.BANK_CMD 3)
    ∧ (∃ b : Blk, ∃ ini : Ini, ∃ n : Nat, ∃ on : Bool, b.AcceptsField ini .bank n R.BANK_CTRL_PAUSE (b2n on))
    ∧ (∃ b : Blk, ∃ ini : Ini, ∃ n : Nat, b.AcceptsField ini .bank n R.BANK_CTRL_GATE_CLR 1)
    ∧ (∃ b : Blk, ∃ ini : Ini, b.AcceptsField ini .loss 0 R.LOSS_RELEASE 1)
    ∧ (∃ b : Blk, ∃ ini : Ini, b.AcceptsField ini .loss 0 R.LOSS_CTRL_RESET 1) :=
  ⟨⟨tO, .core 8, 2 ^ 48 - 4096, 1, by decide +kernel, by decide +kernel, ⟨by decide +kernel, by decide +kernel, by decide +kernel, by decide +kernel, by decide +kernel, by decide +kernel⟩, ⟨by decide +kernel, by decide +kernel, by decide +kernel, by decide +kernel, by decide +kernel, by decide +kernel⟩, ⟨by decide +kernel, by decide +kernel, by decide +kernel, by decide +kernel, by decide +kernel, by decide +kernel⟩⟩,
   ⟨tO, .core 8, ⟨by decide +kernel, by decide +kernel, by decide +kernel, by decide +kernel, by decide +kernel, by decide +kernel⟩⟩,
   ⟨tO, .core 8, 4, 2 ^ 15 - 1, by decide +kernel, by decide +kernel, ⟨by decide +kernel, by decide +kernel, by decide +kernel, by decide +kernel, by decide +kernel, by decide +kernel⟩⟩,
   ⟨tO, .core 8, 4, 2 ^ 15 - 1, by decide +kernel, by decide +kernel, ⟨by decide +kernel, by decide +kernel, by decide +kernel, by decide +kernel, by decide +kernel, by decide +kernel⟩⟩,
   ⟨tO, .core 8, 0, by decide +kernel, ⟨by decide +kernel, by decide +kernel, by decide +kernel, by decide +kernel, by decide +kernel, by decide +kernel⟩⟩,
   ⟨tO, .core 8, 2 ^ 48 - 4096, by decide +kernel, ⟨by decide +kernel, by decide +kernel, by decide +kernel, by decide +kernel, by decide +kernel, by decide +kernel⟩, ⟨by decide +kernel, by decide +kernel, by decide +kernel, by decide +kernel, by decide +kernel, by decide +kernel⟩⟩,
   ⟨tO, .core 8, 11, ⟨by decide +kernel, by decide +kernel, by decide +kernel, by decide +kernel, by decide +kernel, by decide +kernel⟩⟩,
   ⟨tO, .core 8, 11, ⟨by decide +kernel, by decide +kernel, by decide +kernel, by decide +kernel, by decide +kernel, by decide +kernel⟩⟩,
   ⟨tO, .core 8, 11, ⟨by decide +kernel, by decide +kernel, by decide +kernel, by decide +kernel, by decide +kernel, by decide +kernel⟩⟩,
   ⟨tO, .core 8, 0, true, ⟨by decide +kernel, by decide +kernel, by decide +kernel, by decide +kernel, by decide +kernel, by decide +kernel⟩⟩,
   ⟨tO, .core 8, 0, ⟨by decide +kernel, by decide +kernel, by decide +kernel, by decide +kernel, by decide +kernel, by decide +kernel⟩⟩,
   ⟨tO, .core 8, ⟨by decide +kernel, by decide +kernel, by decide +kernel, by decide +kernel, by decide +kernel, by decide +kernel⟩⟩,
   ⟨tO, .core 8, ⟨by decide +kernel, by decide +kernel, by decide +kernel, by decide +kernel, by decide +kernel, by decide +kernel⟩⟩⟩

/-- Every clause of O18 is met. -/
theorem witness_PortRegistersComplete :
    (∃ b : Blk, ∃ ini : Ini, ∃ p : Nat, ∃ on : Bool, b.AcceptsField ini .nlnk p R.NLNK_CTRL_TRAIN (b2n on))
    ∧ (∃ b : Blk, ∃ ini : Ini, ∃ p : Nat, b.AcceptsField ini .nlnk p R.NLNK_LOAD_CTRL_RETRY 1)
    ∧ (∃ b : Blk, ∃ ini : Ini, ∃ p : Nat, ∃ on : Bool, b.AcceptsField ini .nlnk p R.NLNK_CTRL_FORCE4 (b2n on))
    ∧ (∃ b : Blk, ∃ ini : Ini, ∃ p : Nat, b.AcceptsField ini .nred p R.NRED_ABORT_GO 1)
    ∧ (∃ b : Blk, ∃ ini : Ini, ∃ p : Nat, ∃ v : Nat, (v < 2 ^ R.NRED_SLOTS_GRANT.w) ∧ (b.AcceptsField ini .nred p R.NRED_SLOTS_GRANT v))
    ∧ (∃ b : Blk, ∃ ini : Ini, ∃ f : Nat, ∃ on : Bool, ∃ l : List FarAnswer, (l.all (fun a => decide (a.site < 8)) = true) ∧ (b.AcceptsField ini .fxp f R.FXP_CTRL_EN (b2n on)) ∧ (((b.wroteField ini .fxp f R.FXP_CTRL_EN (b2n on)).on R.FXP_CTRL_EN && ((b.wroteField ini .fxp f R.FXP_CTRL_EN (b2n on)).serving .fxp 0 || (b.wroteField ini .fxp f R.FXP_CTRL_EN (b2n on)).serving .fxp 1)) = true))
    ∧ (∃ b : Blk, ∃ ini : Ini, ∃ f : Nat, ∃ on : Bool, ∃ l : List FarAnswer, (l.all (fun a => decide (a.site < 8)) = true) ∧ (b.AcceptsField ini .fxp f R.FXP_CTRL_EN (b2n on)) ∧ (((b.wroteField ini .fxp f R.FXP_CTRL_EN (b2n on)).on R.FXP_CTRL_EN && ((b.wroteField ini .fxp f R.FXP_CTRL_EN (b2n on)).serving .fxp 0 || (b.wroteField ini .fxp f R.FXP_CTRL_EN (b2n on)).serving .fxp 1)) = false))
    ∧ (∃ b : Blk, ∃ ini : Ini, ∃ f : Nat, ∃ v : Nat, (v < 2 ^ R.FXP_RX_FREE.w) ∧ (b.AcceptsField ini .fxp f R.FXP_RX_FREE v))
    ∧ (∃ b : Blk, ∃ ini : Ini, ∃ f : Nat, b.AcceptsField ini .fxp f R.FXP_CTRL_JOIN 1)
    ∧ (∃ b : Blk, ∃ ini : Ini, ∃ f : Nat, ∃ v : Nat, (v < 2 ^ R.FXP_ROUND.w) ∧ (b.AcceptsField ini .fxp f R.FXP_ROUND v)) :=
  ⟨⟨tV, .core 0, 7, true, ⟨by decide +kernel, by decide +kernel, by decide +kernel, by decide +kernel, by decide +kernel, by decide +kernel⟩⟩,
   ⟨tV, .core 0, 7, ⟨by decide +kernel, by decide +kernel, by decide +kernel, by decide +kernel, by decide +kernel, by decide +kernel⟩⟩,
   ⟨tV, .core 0, 7, true, ⟨by decide +kernel, by decide +kernel, by decide +kernel, by decide +kernel, by decide +kernel, by decide +kernel⟩⟩,
   ⟨tO, .core 8, 7, ⟨by decide +kernel, by decide +kernel, by decide +kernel, by decide +kernel, by decide +kernel, by decide +kernel⟩⟩,
   ⟨tO, .core 8, 7, 1, by decide +kernel, ⟨by decide +kernel, by decide +kernel, by decide +kernel, by decide +kernel, by decide +kernel, by decide +kernel⟩⟩,
   ⟨tO, .core 8, 1, true, [], by decide +kernel, ⟨by decide +kernel, by decide +kernel, by decide +kernel, by decide +kernel, by decide +kernel, by decide +kernel⟩, by decide +kernel⟩,
   ⟨tO, .core 8, 1, false, [], by decide +kernel, ⟨by decide +kernel, by decide +kernel, by decide +kernel, by decide +kernel, by decide +kernel, by decide +kernel⟩, by decide +kernel⟩,
   ⟨tO, .core 8, 1, 0, by decide +kernel, ⟨by decide +kernel, by decide +kernel, by decide +kernel, by decide +kernel, by decide +kernel, by decide +kernel⟩⟩,
   ⟨tO, .core 8, 1, ⟨by decide +kernel, by decide +kernel, by decide +kernel, by decide +kernel, by decide +kernel, by decide +kernel⟩⟩,
   ⟨tO, .core 8, 1, 0, by decide +kernel, ⟨by decide +kernel, by decide +kernel, by decide +kernel, by decide +kernel, by decide +kernel, by decide +kernel⟩⟩⟩

/-- Every clause of O19 is met. -/
theorem witness_ControlRegistersComplete :
    (∃ b : Blk, ∃ ini : Ini, ∃ v : Nat, (v < 2 ^ R.TEL_CAP.w) ∧ (b.AcceptsField ini .tel 0 R.TEL_CAP v))
    ∧ (∃ b : Blk, ∃ ini : Ini, ∃ v : Nat, (v < 2 ^ 18) ∧ (b.Accepts ini .tel 0 R.TEL_GROUP_GROUP.off v))
    ∧ (∃ b : Blk, ∃ ini : Ini, ∃ k : Nat, ∃ v : Nat, (k < 64) ∧ (v < 2 ^ 16) ∧ (b.AcceptsField ini .pwc 0 (R.PWC_PHASE_TAB.at k) v))
    ∧ (∃ b : Blk, ∃ ini : Ini, ∃ v : Nat, (v < 2 ^ R.BOOT_BUDGET.w) ∧ (b.AcceptsField ini .boot 0 R.BOOT_BUDGET v))
    ∧ (∃ b : Blk, ∃ ini : Ini, b.AcceptsField ini .boot 0 R.BOOT_RESET 1)
    ∧ (∃ b : Blk, ∃ ini : Ini, b.AcceptsField ini .boot 0 R.BOOT_SHUTDOWN 1)
    ∧ (∃ b : Blk, ∃ ini : Ini, ∃ kind : Nat, ∃ inst : Nat, (kind < 4) ∧ (inst < 2 ^ 16) ∧ (b.Accepts ini .boot 0 R.BOOT_BIST_CMD_ACTION.off (1 + 256 * kind + 65536 * inst)))
    ∧ (∃ b : Blk, ∃ ini : Ini, ∃ kind : Nat, ∃ inst : Nat, (kind < 4) ∧ (inst < 2 ^ 16) ∧ (b.Accepts ini .boot 0 R.BOOT_BIST_CMD_ACTION.off (2 + 256 * kind + 65536 * inst)))
    ∧ (∃ b : Blk, ∃ ini : Ini, ∃ w : Nat, b.AcceptsField ini .wale w R.WALE_REQ_TEST 1)
    ∧ (∃ b : Blk, ∃ ini : Ini, ∃ w : Nat, b.AcceptsField ini .wale w R.WALE_REQ_RETIRE 1)
    ∧ (∃ b : Blk, ∃ ini : Ini, b.AcceptsField ini .hoop 0 R.HOOP_MIGRATE_GO 1)
    ∧ (∃ b : Blk, ∃ ini : Ini, ∃ g : Nat, ∃ v : Nat, (v < 2 ^ R.HOOP_G_PARKED.w) ∧ (b.AcceptsField ini .hoopg g R.HOOP_G_PARKED v))
    ∧ (∃ b : Blk, ∃ ini : Ini, ∃ g : Nat, ∃ v : Nat, (v < 2 ^ R.HOOP_G_CLAIM.w) ∧ (b.AcceptsField ini .hoopg g R.HOOP_G_CLAIM v))
    ∧ (∃ b : Blk, ∃ ini : Ini, ∃ k : Nat, ∃ v : Nat, (k < 4) ∧ (v < 2 ^ 32) ∧ (b.Accepts ini .hoop 0 (0x040 + 4 * k) v))
    ∧ (∃ b : Blk, ∃ ini : Ini, ∃ g : Nat, ∃ v : Nat, (v < 2 ^ R.HOOP_G_DQ_PUT.w) ∧ (b.AcceptsField ini .hoopg g R.HOOP_G_DQ_PUT v))
    ∧ (∃ b : Blk, ∃ ini : Ini, ∃ g : Nat, ∃ v : Nat, (v < 2 ^ R.HOOP_G_EVT_GET.w) ∧ (b.AcceptsField ini .hoopg g R.HOOP_G_EVT_GET v)) :=
  ⟨⟨tV, .mgmt, 4095, by decide +kernel, ⟨by decide +kernel, by decide +kernel, by decide +kernel, by decide +kernel, by decide +kernel, by decide +kernel⟩⟩,
   ⟨tV, .mgmt, 2 ^ 18 - 1, by decide +kernel, ⟨by decide +kernel, by decide +kernel, by decide +kernel, by decide +kernel, by decide +kernel, by decide +kernel⟩⟩,
   ⟨tV, .core 0, 63, 2 ^ 16 - 1, by decide +kernel, by decide +kernel, ⟨by decide +kernel, by decide +kernel, by decide +kernel, by decide +kernel, by decide +kernel, by decide +kernel⟩⟩,
   ⟨tV, .mgmt, 0, by decide +kernel, ⟨by decide +kernel, by decide +kernel, by decide +kernel, by decide +kernel, by decide +kernel, by decide +kernel⟩⟩,
   ⟨tV, .mgmt, ⟨by decide +kernel, by decide +kernel, by decide +kernel, by decide +kernel, by decide +kernel, by decide +kernel⟩⟩,
   ⟨tV, .mgmt, ⟨by decide +kernel, by decide +kernel, by decide +kernel, by decide +kernel, by decide +kernel, by decide +kernel⟩⟩,
   ⟨tV, .core 0, 3, 2 ^ 16 - 1, by decide +kernel, by decide +kernel, ⟨by decide +kernel, by decide +kernel, by decide +kernel, by decide +kernel, by decide +kernel, by decide +kernel⟩⟩,
   ⟨tV, .core 0, 3, 2 ^ 16 - 1, by decide +kernel, by decide +kernel, ⟨by decide +kernel, by decide +kernel, by decide +kernel, by decide +kernel, by decide +kernel, by decide +kernel⟩⟩,
   ⟨tO, .core 8, 197, ⟨by decide +kernel, by decide +kernel, by decide +kernel, by decide +kernel, by decide +kernel, by decide +kernel⟩⟩,
   ⟨tO, .core 8, 0, ⟨by decide +kernel, by decide +kernel, by decide +kernel, by decide +kernel, by decide +kernel, by decide +kernel⟩⟩,
   ⟨tV, .core 0, ⟨by decide +kernel, by decide +kernel, by decide +kernel, by decide +kernel, by decide +kernel, by decide +kernel⟩⟩,
   ⟨tO, .core 8, 3, 2 ^ 32 - 1, by decide +kernel, ⟨by decide +kernel, by decide +kernel, by decide +kernel, by decide +kernel, by decide +kernel, by decide +kernel⟩⟩,
   ⟨tO, .core 8, 1, 2 ^ 32 - 1, by decide +kernel, ⟨by decide +kernel, by decide +kernel, by decide +kernel, by decide +kernel, by decide +kernel, by decide +kernel⟩⟩,
   ⟨tV, .core 0, 3, 0x33333334, by decide +kernel, by decide +kernel, ⟨by decide +kernel, by decide +kernel, by decide +kernel, by decide +kernel, by decide +kernel, by decide +kernel⟩⟩,
   ⟨tO, .core 8, 1, 1, by decide +kernel, ⟨by decide +kernel, by decide +kernel, by decide +kernel, by decide +kernel, by decide +kernel, by decide +kernel⟩⟩,
   ⟨tO, .core 8, 1, 0, by decide +kernel, ⟨by decide +kernel, by decide +kernel, by decide +kernel, by decide +kernel, by decide +kernel, by decide +kernel⟩⟩⟩

/-- Every clause of O20 is met. -/
theorem witness_ArithmeticInstructionsComplete :
    (∃ b : Blk, ∃ t : Tid, ∃ i : Ins, ∃ b' : Blk, ∃ x : Nat, ∃ y : Nat, (b.Runs t 0x01 i b') ∧ (x = (b'.thread t).reg i.src1) ∧ (y = aluB (b'.thread t) i))
    ∧ (∃ b : Blk, ∃ t : Tid, ∃ i : Ins, ∃ b' : Blk, ∃ x : Nat, ∃ y : Nat, (b.Runs t 0x02 i b') ∧ (x = (b'.thread t).reg i.src1) ∧ (y = aluB (b'.thread t) i))
    ∧ (∃ b : Blk, ∃ t : Tid, ∃ i : Ins, ∃ b' : Blk, ∃ x : Nat, ∃ y : Nat, (b.Runs t 0x03 i b') ∧ (x = (b'.thread t).reg i.src1) ∧ (y = aluB (b'.thread t) i))
    ∧ (∃ b : Blk, ∃ t : Tid, ∃ i : Ins, ∃ b' : Blk, ∃ x : Nat, ∃ y : Nat, (b.Runs t 0x04 i b') ∧ (x = (b'.thread t).reg i.src1) ∧ (y = aluB (b'.thread t) i))
    ∧ (∃ b : Blk, ∃ t : Tid, ∃ i : Ins, ∃ b' : Blk, ∃ x : Nat, ∃ y : Nat, (b.Runs t 0x05 i b') ∧ (x = (b'.thread t).reg i.src1) ∧ (y = aluB (b'.thread t) i))
    ∧ (∃ b : Blk, ∃ t : Tid, ∃ i : Ins, ∃ b' : Blk, ∃ x : Nat, ∃ y : Nat, (b.Runs t 0x06 i b') ∧ (x = (b'.thread t).reg i.src1) ∧ (y = aluB (b'.thread t) i))
    ∧ (∃ b : Blk, ∃ t : Tid, ∃ i : Ins, ∃ b' : Blk, ∃ x : Nat, ∃ y : Nat, (b.Runs t 0x07 i b') ∧ (x = (b'.thread t).reg i.src1) ∧ (y = aluB (b'.thread t) i))
    ∧ (∃ b : Blk, ∃ t : Tid, ∃ i : Ins, ∃ b' : Blk, ∃ x : Nat, ∃ y : Nat, (b.Runs t 0x08 i b') ∧ (x = (b'.thread t).reg i.src1) ∧ (y = aluB (b'.thread t) i))
    ∧ (∃ b : Blk, ∃ t : Tid, ∃ i : Ins, ∃ b' : Blk, ∃ x : Nat, ∃ y : Nat, (b.Runs t 0x09 i b') ∧ (x = (b'.thread t).reg i.src1) ∧ (y = aluB (b'.thread t) i))
    ∧ (∃ b : Blk, ∃ t : Tid, ∃ i : Ins, ∃ b' : Blk, ∃ x : Nat, ∃ y : Nat, (b.Runs t 0x0A i b') ∧ (x = (b'.thread t).reg i.src1) ∧ (y = aluB (b'.thread t) i))
    ∧ (∃ b : Blk, ∃ t : Tid, ∃ i : Ins, ∃ b' : Blk, ∃ x : Nat, ∃ y : Nat, (b.Runs t 0x0B i b') ∧ (x = (b'.thread t).reg i.src1) ∧ (y = aluB (b'.thread t) i))
    ∧ (∃ b : Blk, ∃ t : Tid, ∃ i : Ins, ∃ b' : Blk, ∃ x : Nat, ∃ y : Nat, (b.Runs t 0x0C i b') ∧ (x = (b'.thread t).reg i.src1) ∧ (y = aluB (b'.thread t) i))
    ∧ (∃ b : Blk, ∃ t : Tid, ∃ i : Ins, ∃ b' : Blk, ∃ x : Nat, ∃ y : Nat, (b.Runs t 0x0D i b') ∧ (x = (b'.thread t).reg i.src1) ∧ (y = aluB (b'.thread t) i))
    ∧ (∃ b : Blk, ∃ t : Tid, ∃ i : Ins, ∃ b' : Blk, ∃ x : Nat, ∃ y : Nat, (b.Runs t 0x0E i b') ∧ (x = (b'.thread t).reg i.src1) ∧ (y = aluB (b'.thread t) i))
    ∧ (∃ b : Blk, ∃ t : Tid, ∃ i : Ins, ∃ b' : Blk, ∃ x : Nat, ∃ y : Nat, (b.Runs t 0x0F i b') ∧ (x = (b'.thread t).reg i.src1) ∧ (y = aluB (b'.thread t) i))
    ∧ (∃ b : Blk, ∃ t : Tid, ∃ i : Ins, ∃ b' : Blk, ∃ x : Nat, ∃ y : Nat, (b.Runs t 0x10 i b') ∧ (x = (b'.thread t).reg i.src1) ∧ (y = aluB (b'.thread t) i))
    ∧ (∃ b : Blk, ∃ t : Tid, ∃ i : Ins, ∃ b' : Blk, ∃ x : Nat, ∃ y : Nat, (b.Runs t 0x11 i b') ∧ (x = (b'.thread t).reg i.src1) ∧ (y = aluB (b'.thread t) i)) :=
  ⟨⟨(tThread [(1, 2 ^ 64 - 1), (2, 1)] (0x01, 31, 1, 2, 0, 0)), ⟨0, 0⟩, ⟨31, 1, 2, 0, 0⟩, ((tThread [(1, 2 ^ 64 - 1), (2, 1)] (0x01, 31, 1, 2, 0, 0)).fetch ⟨0, 0⟩).1, _, _, runs_of (0x01 * 2 ^ 57 + 31 * 2 ^ 52 + 1 * 2 ^ 47 + 2 * 2 ^ 42 + 0 * 2 ^ 32 + 0) (by decide +kernel), rfl, rfl⟩,
   ⟨(tThread [(1, 2 ^ 64 - 1), (2, 1)] (0x02, 31, 1, 2, 0, 0)), ⟨0, 0⟩, ⟨31, 1, 2, 0, 0⟩, ((tThread [(1, 2 ^ 64 - 1), (2, 1)] (0x02, 31, 1, 2, 0, 0)).fetch ⟨0, 0⟩).1, _, _, runs_of (0x02 * 2 ^ 57 + 31 * 2 ^ 52 + 1 * 2 ^ 47 + 2 * 2 ^ 42 + 0 * 2 ^ 32 + 0) (by decide +kernel), rfl, rfl⟩,
   ⟨(tThread [(1, 2 ^ 64 - 1), (2, 1)] (0x03, 31, 1, 2, 0, 0)), ⟨0, 0⟩, ⟨31, 1, 2, 0, 0⟩, ((tThread [(1, 2 ^ 64 - 1), (2, 1)] (0x03, 31, 1, 2, 0, 0)).fetch ⟨0, 0⟩).1, _, _, runs_of (0x03 * 2 ^ 57 + 31 * 2 ^ 52 + 1 * 2 ^ 47 + 2 * 2 ^ 42 + 0 * 2 ^ 32 + 0) (by decide +kernel), rfl, rfl⟩,
   ⟨(tThread [(1, 2 ^ 64 - 1), (2, 1)] (0x04, 31, 1, 2, 0, 0)), ⟨0, 0⟩, ⟨31, 1, 2, 0, 0⟩, ((tThread [(1, 2 ^ 64 - 1), (2, 1)] (0x04, 31, 1, 2, 0, 0)).fetch ⟨0, 0⟩).1, _, _, runs_of (0x04 * 2 ^ 57 + 31 * 2 ^ 52 + 1 * 2 ^ 47 + 2 * 2 ^ 42 + 0 * 2 ^ 32 + 0) (by decide +kernel), rfl, rfl⟩,
   ⟨(tThread [(1, 2 ^ 64 - 1), (2, 1)] (0x05, 31, 1, 2, 0, 0)), ⟨0, 0⟩, ⟨31, 1, 2, 0, 0⟩, ((tThread [(1, 2 ^ 64 - 1), (2, 1)] (0x05, 31, 1, 2, 0, 0)).fetch ⟨0, 0⟩).1, _, _, runs_of (0x05 * 2 ^ 57 + 31 * 2 ^ 52 + 1 * 2 ^ 47 + 2 * 2 ^ 42 + 0 * 2 ^ 32 + 0) (by decide +kernel), rfl, rfl⟩,
   ⟨(tThread [(1, 2 ^ 64 - 1), (2, 1)] (0x06, 31, 1, 2, 0, 0)), ⟨0, 0⟩, ⟨31, 1, 2, 0, 0⟩, ((tThread [(1, 2 ^ 64 - 1), (2, 1)] (0x06, 31, 1, 2, 0, 0)).fetch ⟨0, 0⟩).1, _, _, runs_of (0x06 * 2 ^ 57 + 31 * 2 ^ 52 + 1 * 2 ^ 47 + 2 * 2 ^ 42 + 0 * 2 ^ 32 + 0) (by decide +kernel), rfl, rfl⟩,
   ⟨(tThread [(1, 2 ^ 64 - 1), (2, 1)] (0x07, 31, 1, 2, 0, 0)), ⟨0, 0⟩, ⟨31, 1, 2, 0, 0⟩, ((tThread [(1, 2 ^ 64 - 1), (2, 1)] (0x07, 31, 1, 2, 0, 0)).fetch ⟨0, 0⟩).1, _, _, runs_of (0x07 * 2 ^ 57 + 31 * 2 ^ 52 + 1 * 2 ^ 47 + 2 * 2 ^ 42 + 0 * 2 ^ 32 + 0) (by decide +kernel), rfl, rfl⟩,
   ⟨(tThread [(1, 2 ^ 64 - 1), (2, 1)] (0x08, 31, 1, 2, 0, 0)), ⟨0, 0⟩, ⟨31, 1, 2, 0, 0⟩, ((tThread [(1, 2 ^ 64 - 1), (2, 1)] (0x08, 31, 1, 2, 0, 0)).fetch ⟨0, 0⟩).1, _, _, runs_of (0x08 * 2 ^ 57 + 31 * 2 ^ 52 + 1 * 2 ^ 47 + 2 * 2 ^ 42 + 0 * 2 ^ 32 + 0) (by decide +kernel), rfl, rfl⟩,
   ⟨(tThread [(1, 2 ^ 64 - 1), (2, 1)] (0x09, 31, 1, 2, 0, 0)), ⟨0, 0⟩, ⟨31, 1, 2, 0, 0⟩, ((tThread [(1, 2 ^ 64 - 1), (2, 1)] (0x09, 31, 1, 2, 0, 0)).fetch ⟨0, 0⟩).1, _, _, runs_of (0x09 * 2 ^ 57 + 31 * 2 ^ 52 + 1 * 2 ^ 47 + 2 * 2 ^ 42 + 0 * 2 ^ 32 + 0) (by decide +kernel), rfl, rfl⟩,
   ⟨(tThread [(1, 2 ^ 64 - 1), (2, 1)] (0x0A, 31, 1, 2, 0, 0)), ⟨0, 0⟩, ⟨31, 1, 2, 0, 0⟩, ((tThread [(1, 2 ^ 64 - 1), (2, 1)] (0x0A, 31, 1, 2, 0, 0)).fetch ⟨0, 0⟩).1, _, _, runs_of (0x0A * 2 ^ 57 + 31 * 2 ^ 52 + 1 * 2 ^ 47 + 2 * 2 ^ 42 + 0 * 2 ^ 32 + 0) (by decide +kernel), rfl, rfl⟩,
   ⟨(tThread [(1, 2 ^ 64 - 1), (2, 1)] (0x0B, 31, 1, 2, 0, 0)), ⟨0, 0⟩, ⟨31, 1, 2, 0, 0⟩, ((tThread [(1, 2 ^ 64 - 1), (2, 1)] (0x0B, 31, 1, 2, 0, 0)).fetch ⟨0, 0⟩).1, _, _, runs_of (0x0B * 2 ^ 57 + 31 * 2 ^ 52 + 1 * 2 ^ 47 + 2 * 2 ^ 42 + 0 * 2 ^ 32 + 0) (by decide +kernel), rfl, rfl⟩,
   ⟨(tThread [(1, 2 ^ 64 - 1), (2, 1)] (0x0C, 31, 1, 2, 0, 0)), ⟨0, 0⟩, ⟨31, 1, 2, 0, 0⟩, ((tThread [(1, 2 ^ 64 - 1), (2, 1)] (0x0C, 31, 1, 2, 0, 0)).fetch ⟨0, 0⟩).1, _, _, runs_of (0x0C * 2 ^ 57 + 31 * 2 ^ 52 + 1 * 2 ^ 47 + 2 * 2 ^ 42 + 0 * 2 ^ 32 + 0) (by decide +kernel), rfl, rfl⟩,
   ⟨(tThread [(1, 2 ^ 64 - 1), (2, 1)] (0x0D, 31, 1, 2, 0, 0)), ⟨0, 0⟩, ⟨31, 1, 2, 0, 0⟩, ((tThread [(1, 2 ^ 64 - 1), (2, 1)] (0x0D, 31, 1, 2, 0, 0)).fetch ⟨0, 0⟩).1, _, _, runs_of (0x0D * 2 ^ 57 + 31 * 2 ^ 52 + 1 * 2 ^ 47 + 2 * 2 ^ 42 + 0 * 2 ^ 32 + 0) (by decide +kernel), rfl, rfl⟩,
   ⟨(tThread [(1, 2 ^ 64 - 1), (2, 1)] (0x0E, 31, 1, 2, 0, 0)), ⟨0, 0⟩, ⟨31, 1, 2, 0, 0⟩, ((tThread [(1, 2 ^ 64 - 1), (2, 1)] (0x0E, 31, 1, 2, 0, 0)).fetch ⟨0, 0⟩).1, _, _, runs_of (0x0E * 2 ^ 57 + 31 * 2 ^ 52 + 1 * 2 ^ 47 + 2 * 2 ^ 42 + 0 * 2 ^ 32 + 0) (by decide +kernel), rfl, rfl⟩,
   ⟨(tThread [(1, 2 ^ 64 - 1), (2, 1)] (0x0F, 31, 1, 2, 0, 0)), ⟨0, 0⟩, ⟨31, 1, 2, 0, 0⟩, ((tThread [(1, 2 ^ 64 - 1), (2, 1)] (0x0F, 31, 1, 2, 0, 0)).fetch ⟨0, 0⟩).1, _, _, runs_of (0x0F * 2 ^ 57 + 31 * 2 ^ 52 + 1 * 2 ^ 47 + 2 * 2 ^ 42 + 0 * 2 ^ 32 + 0) (by decide +kernel), rfl, rfl⟩,
   ⟨(tThread [(1, 2 ^ 64 - 1), (2, 1)] (0x10, 31, 1, 2, 0, 0)), ⟨0, 0⟩, ⟨31, 1, 2, 0, 0⟩, ((tThread [(1, 2 ^ 64 - 1), (2, 1)] (0x10, 31, 1, 2, 0, 0)).fetch ⟨0, 0⟩).1, _, _, runs_of (0x10 * 2 ^ 57 + 31 * 2 ^ 52 + 1 * 2 ^ 47 + 2 * 2 ^ 42 + 0 * 2 ^ 32 + 0) (by decide +kernel), rfl, rfl⟩,
   ⟨(tThread [(1, 2 ^ 64 - 1), (2, 1)] (0x11, 31, 1, 2, 0, 0)), ⟨0, 0⟩, ⟨31, 1, 2, 0, 0⟩, ((tThread [(1, 2 ^ 64 - 1), (2, 1)] (0x11, 31, 1, 2, 0, 0)).fetch ⟨0, 0⟩).1, _, _, runs_of (0x11 * 2 ^ 57 + 31 * 2 ^ 52 + 1 * 2 ^ 47 + 2 * 2 ^ 42 + 0 * 2 ^ 32 + 0) (by decide +kernel), rfl, rfl⟩⟩

/-- Every clause of O21 is met. -/
theorem witness_MoveInstructionsComplete :
    (∃ b : Blk, ∃ t : Tid, ∃ i : Ins, ∃ b' : Blk, b.Runs t 0x00 i b')
    ∧ (∃ b : Blk, ∃ t : Tid, ∃ i : Ins, ∃ b' : Blk, b.Runs t 0x12 i b')
    ∧ (∃ b : Blk, ∃ t : Tid, ∃ i : Ins, ∃ b' : Blk, b.Runs t 0x13 i b')
    ∧ (∃ b : Blk, ∃ t : Tid, ∃ i : Ins, ∃ b' : Blk, (b.Runs t 0x14 i b') ∧ ((b'.thread t).reg i.src1 ≠ 0))
    ∧ (∃ b : Blk, ∃ t : Tid, ∃ i : Ins, ∃ b' : Blk, (b.Runs t 0x14 i b') ∧ ((b'.thread t).reg i.src1 = 0))
    ∧ (∃ b : Blk, ∃ t : Tid, ∃ i : Ins, ∃ b' : Blk, (b.Runs t 0x39 i b') ∧ (bit i.mod 0 = true))
    ∧ (∃ b : Blk, ∃ t : Tid, ∃ i : Ins, ∃ b' : Blk, (b.Runs t 0x39 i b') ∧ (bit i.mod 0 = false))
    ∧ (∃ b : Blk, ∃ t : Tid, ∃ i : Ins, ∃ b' : Blk, (b.Runs t 0x40 i b') ∧ ((b'.thread t).ea i ≤ 255))
    ∧ (∃ b : Blk, ∃ t : Tid, ∃ i : Ins, ∃ b' : Blk, (b.Runs t 0x41 i b') ∧ (i.imm = 0))
    ∧ (∃ b : Blk, ∃ t : Tid, ∃ i : Ins, ∃ b' : Blk, (b.Runs t 0x41 i b') ∧ (i.imm = 1))
    ∧ (∃ b : Blk, ∃ t : Tid, ∃ i : Ins, ∃ b' : Blk, (b.Runs t 0x41 i b') ∧ (i.imm = 2))
    ∧ (∃ b : Blk, ∃ t : Tid, ∃ i : Ins, ∃ b' : Blk, (b.Runs t 0x41 i b') ∧ (i.imm = 3))
    ∧ (∃ b : Blk, ∃ t : Tid, ∃ i : Ins, ∃ b' : Blk, (b.Runs t 0x41 i b') ∧ (i.imm = 4))
    ∧ (∃ b : Blk, ∃ t : Tid, ∃ i : Ins, ∃ b' : Blk, b.Runs t 0x42 i b') :=
  ⟨⟨(tThread [(1, 2 ^ 64 - 1), (2, 1)] (0x00, 0, 0, 0, 0, 0)), ⟨0, 0⟩, ⟨0, 0, 0, 0, 0⟩, ((tThread [(1, 2 ^ 64 - 1), (2, 1)] (0x00, 0, 0, 0, 0, 0)).fetch ⟨0, 0⟩).1, runs_of (0x00 * 2 ^ 57 + 0 * 2 ^ 52 + 0 * 2 ^ 47 + 0 * 2 ^ 42 + 0 * 2 ^ 32 + 0) (by decide +kernel)⟩,
   ⟨(tThread [(1, 2 ^ 64 - 1), (2, 1)] (0x12, 3, 0, 0, 0, 4294967295)), ⟨0, 0⟩, ⟨3, 0, 0, 0, 4294967295⟩, ((tThread [(1, 2 ^ 64 - 1), (2, 1)] (0x12, 3, 0, 0, 0, 4294967295)).fetch ⟨0, 0⟩).1, runs_of (0x12 * 2 ^ 57 + 3 * 2 ^ 52 + 0 * 2 ^ 47 + 0 * 2 ^ 42 + 0 * 2 ^ 32 + 4294967295) (by decide +kernel)⟩,
   ⟨(tThread [(1, 2 ^ 64 - 1), (2, 1)] (0x13, 3, 1, 0, 0, 4294967295)), ⟨0, 0⟩, ⟨3, 1, 0, 0, 4294967295⟩, ((tThread [(1, 2 ^ 64 - 1), (2, 1)] (0x13, 3, 1, 0, 0, 4294967295)).fetch ⟨0, 0⟩).1, runs_of (0x13 * 2 ^ 57 + 3 * 2 ^ 52 + 1 * 2 ^ 47 + 0 * 2 ^ 42 + 0 * 2 ^ 32 + 4294967295) (by decide +kernel)⟩,
   ⟨(tThread [(1, 1)] (0x14, 3, 1, 2, 0, 0)), ⟨0, 0⟩, ⟨3, 1, 2, 0, 0⟩, ((tThread [(1, 1)] (0x14, 3, 1, 2, 0, 0)).fetch ⟨0, 0⟩).1, runs_of (0x14 * 2 ^ 57 + 3 * 2 ^ 52 + 1 * 2 ^ 47 + 2 * 2 ^ 42 + 0 * 2 ^ 32 + 0) (by decide +kernel), by decide +kernel⟩,
   ⟨(tThread [] (0x14, 3, 1, 2, 0, 0)), ⟨0, 0⟩, ⟨3, 1, 2, 0, 0⟩, ((tThread [] (0x14, 3, 1, 2, 0, 0)).fetch ⟨0, 0⟩).1, runs_of (0x14 * 2 ^ 57 + 3 * 2 ^ 52 + 1 * 2 ^ 47 + 2 * 2 ^ 42 + 0 * 2 ^ 32 + 0) (by decide +kernel), by decide +kernel⟩,
   ⟨(tThread [] (0x39, 0, 0, 0, 1, 0)), ⟨0, 0⟩, ⟨0, 0, 0, 1, 0⟩, ((tThread [] (0x39, 0, 0, 0, 1, 0)).fetch ⟨0, 0⟩).1, runs_of (0x39 * 2 ^ 57 + 0 * 2 ^ 52 + 0 * 2 ^ 47 + 0 * 2 ^ 42 + 1 * 2 ^ 32 + 0) (by decide +kernel), by decide +kernel⟩,
   ⟨(tThread [] (0x39, 0, 0, 0, 0, 0)), ⟨0, 0⟩, ⟨0, 0, 0, 0, 0⟩, ((tThread [] (0x39, 0, 0, 0, 0, 0)).fetch ⟨0, 0⟩).1, runs_of (0x39 * 2 ^ 57 + 0 * 2 ^ 52 + 0 * 2 ^ 47 + 0 * 2 ^ 42 + 0 * 2 ^ 32 + 0) (by decide +kernel), by decide +kernel⟩,
   ⟨(tThread [] (0x40, 3, 0, 0, 0, 255)), ⟨0, 0⟩, ⟨3, 0, 0, 0, 255⟩, ((tThread [] (0x40, 3, 0, 0, 0, 255)).fetch ⟨0, 0⟩).1, runs_of (0x40 * 2 ^ 57 + 3 * 2 ^ 52 + 0 * 2 ^ 47 + 0 * 2 ^ 42 + 0 * 2 ^ 32 + 255) (by decide +kernel), by decide +kernel⟩,
   ⟨(tThread [] (0x41, 3, 0, 0, 0, 0)), ⟨0, 0⟩, ⟨3, 0, 0, 0, 0⟩, ((tThread [] (0x41, 3, 0, 0, 0, 0)).fetch ⟨0, 0⟩).1, runs_of (0x41 * 2 ^ 57 + 3 * 2 ^ 52 + 0 * 2 ^ 47 + 0 * 2 ^ 42 + 0 * 2 ^ 32 + 0) (by decide +kernel), by decide +kernel⟩,
   ⟨(tThread [] (0x41, 3, 0, 0, 0, 1)), ⟨0, 0⟩, ⟨3, 0, 0, 0, 1⟩, ((tThread [] (0x41, 3, 0, 0, 0, 1)).fetch ⟨0, 0⟩).1, runs_of (0x41 * 2 ^ 57 + 3 * 2 ^ 52 + 0 * 2 ^ 47 + 0 * 2 ^ 42 + 0 * 2 ^ 32 + 1) (by decide +kernel), by decide +kernel⟩,
   ⟨(tThread [] (0x41, 3, 0, 0, 0, 2)), ⟨0, 0⟩, ⟨3, 0, 0, 0, 2⟩, ((tThread [] (0x41, 3, 0, 0, 0, 2)).fetch ⟨0, 0⟩).1, runs_of (0x41 * 2 ^ 57 + 3 * 2 ^ 52 + 0 * 2 ^ 47 + 0 * 2 ^ 42 + 0 * 2 ^ 32 + 2) (by decide +kernel), by decide +kernel⟩,
   ⟨(tThread [] (0x41, 3, 0, 0, 0, 3)), ⟨0, 0⟩, ⟨3, 0, 0, 0, 3⟩, ((tThread [] (0x41, 3, 0, 0, 0, 3)).fetch ⟨0, 0⟩).1, runs_of (0x41 * 2 ^ 57 + 3 * 2 ^ 52 + 0 * 2 ^ 47 + 0 * 2 ^ 42 + 0 * 2 ^ 32 + 3) (by decide +kernel), by decide +kernel⟩,
   ⟨(tThread [] (0x41, 3, 0, 0, 0, 4)), ⟨0, 0⟩, ⟨3, 0, 0, 0, 4⟩, ((tThread [] (0x41, 3, 0, 0, 0, 4)).fetch ⟨0, 0⟩).1, runs_of (0x41 * 2 ^ 57 + 3 * 2 ^ 52 + 0 * 2 ^ 47 + 0 * 2 ^ 42 + 0 * 2 ^ 32 + 4) (by decide +kernel), by decide +kernel⟩,
   ⟨(tThread [(1, 2 ^ 64 - 1), (2, 1)] (0x42, 0, 0, 0, 0, 63)), ⟨0, 0⟩, ⟨0, 0, 0, 0, 63⟩, ((tThread [(1, 2 ^ 64 - 1), (2, 1)] (0x42, 0, 0, 0, 0, 63)).fetch ⟨0, 0⟩).1, runs_of (0x42 * 2 ^ 57 + 0 * 2 ^ 52 + 0 * 2 ^ 47 + 0 * 2 ^ 42 + 0 * 2 ^ 32 + 63) (by decide +kernel)⟩⟩

/-- Every clause of O22 is met. -/
theorem witness_BranchInstructionsComplete :
    (∃ b : Blk, ∃ t : Tid, ∃ i : Ins, ∃ b' : Blk, ∃ x : Nat, ∃ y : Nat, (b.Runs t 0x20 i b') ∧ (x = (b'.thread t).reg i.src1) ∧ (y = (b'.thread t).reg i.src2))
    ∧ (∃ b : Blk, ∃ t : Tid, ∃ i : Ins, ∃ b' : Blk, ∃ x : Nat, ∃ y : Nat, (b.Runs t 0x21 i b') ∧ (x = (b'.thread t).reg i.src1) ∧ (y = (b'.thread t).reg i.src2))
    ∧ (∃ b : Blk, ∃ t : Tid, ∃ i : Ins, ∃ b' : Blk, ∃ x : Nat, ∃ y : Nat, (b.Runs t 0x22 i b') ∧ (x = (b'.thread t).reg i.src1) ∧ (y = (b'.thread t).reg i.src2))
    ∧ (∃ b : Blk, ∃ t : Tid, ∃ i : Ins, ∃ b' : Blk, ∃ x : Nat, ∃ y : Nat, (b.Runs t 0x23 i b') ∧ (x = (b'.thread t).reg i.src1) ∧ (y = (b'.thread t).reg i.src2))
    ∧ (∃ b : Blk, ∃ t : Tid, ∃ i : Ins, ∃ b' : Blk, ∃ x : Nat, ∃ y : Nat, (b.Runs t 0x24 i b') ∧ (x = (b'.thread t).reg i.src1) ∧ (y = (b'.thread t).reg i.src2))
    ∧ (∃ b : Blk, ∃ t : Tid, ∃ i : Ins, ∃ b' : Blk, ∃ x : Nat, ∃ y : Nat, (b.Runs t 0x25 i b') ∧ (x = (b'.thread t).reg i.src1) ∧ (y = (b'.thread t).reg i.src2))
    ∧ (∃ b : Blk, ∃ t : Tid, ∃ i : Ins, ∃ b' : Blk, b.Runs t 0x26 i b')
    ∧ (∃ b : Blk, ∃ t : Tid, ∃ i : Ins, ∃ b' : Blk, b.Runs t 0x27 i b') :=
  ⟨⟨(tThread [(1, 2 ^ 64 - 1), (2, 1)] (0x20, 0, 1, 2, 0, 4294967295)), ⟨0, 0⟩, ⟨0, 1, 2, 0, 4294967295⟩, ((tThread [(1, 2 ^ 64 - 1), (2, 1)] (0x20, 0, 1, 2, 0, 4294967295)).fetch ⟨0, 0⟩).1, _, _, runs_of (0x20 * 2 ^ 57 + 0 * 2 ^ 52 + 1 * 2 ^ 47 + 2 * 2 ^ 42 + 0 * 2 ^ 32 + 4294967295) (by decide +kernel), rfl, rfl⟩,
   ⟨(tThread [(1, 2 ^ 64 - 1), (2, 1)] (0x21, 0, 1, 2, 0, 4294967295)), ⟨0, 0⟩, ⟨0, 1, 2, 0, 4294967295⟩, ((tThread [(1, 2 ^ 64 - 1), (2, 1)] (0x21, 0, 1, 2, 0, 4294967295)).fetch ⟨0, 0⟩).1, _, _, runs_of (0x21 * 2 ^ 57 + 0 * 2 ^ 52 + 1 * 2 ^ 47 + 2 * 2 ^ 42 + 0 * 2 ^ 32 + 4294967295) (by decide +kernel), rfl, rfl⟩,
   ⟨(tThread [(1, 2 ^ 64 - 1), (2, 1)] (0x22, 0, 1, 2, 0, 4294967295)), ⟨0, 0⟩, ⟨0, 1, 2, 0, 4294967295⟩, ((tThread [(1, 2 ^ 64 - 1), (2, 1)] (0x22, 0, 1, 2, 0, 4294967295)).fetch ⟨0, 0⟩).1, _, _, runs_of (0x22 * 2 ^ 57 + 0 * 2 ^ 52 + 1 * 2 ^ 47 + 2 * 2 ^ 42 + 0 * 2 ^ 32 + 4294967295) (by decide +kernel), rfl, rfl⟩,
   ⟨(tThread [(1, 2 ^ 64 - 1), (2, 1)] (0x23, 0, 1, 2, 0, 4294967295)), ⟨0, 0⟩, ⟨0, 1, 2, 0, 4294967295⟩, ((tThread [(1, 2 ^ 64 - 1), (2, 1)] (0x23, 0, 1, 2, 0, 4294967295)).fetch ⟨0, 0⟩).1, _, _, runs_of (0x23 * 2 ^ 57 + 0 * 2 ^ 52 + 1 * 2 ^ 47 + 2 * 2 ^ 42 + 0 * 2 ^ 32 + 4294967295) (by decide +kernel), rfl, rfl⟩,
   ⟨(tThread [(1, 2 ^ 64 - 1), (2, 1)] (0x24, 0, 1, 2, 0, 4294967295)), ⟨0, 0⟩, ⟨0, 1, 2, 0, 4294967295⟩, ((tThread [(1, 2 ^ 64 - 1), (2, 1)] (0x24, 0, 1, 2, 0, 4294967295)).fetch ⟨0, 0⟩).1, _, _, runs_of (0x24 * 2 ^ 57 + 0 * 2 ^ 52 + 1 * 2 ^ 47 + 2 * 2 ^ 42 + 0 * 2 ^ 32 + 4294967295) (by decide +kernel), rfl, rfl⟩,
   ⟨(tThread [(1, 2 ^ 64 - 1), (2, 1)] (0x25, 0, 1, 2, 0, 4294967295)), ⟨0, 0⟩, ⟨0, 1, 2, 0, 4294967295⟩, ((tThread [(1, 2 ^ 64 - 1), (2, 1)] (0x25, 0, 1, 2, 0, 4294967295)).fetch ⟨0, 0⟩).1, _, _, runs_of (0x25 * 2 ^ 57 + 0 * 2 ^ 52 + 1 * 2 ^ 47 + 2 * 2 ^ 42 + 0 * 2 ^ 32 + 4294967295) (by decide +kernel), rfl, rfl⟩,
   ⟨(tThread [(1, 2 ^ 64 - 1), (2, 1)] (0x26, 3, 0, 0, 0, 4294967295)), ⟨0, 0⟩, ⟨3, 0, 0, 0, 4294967295⟩, ((tThread [(1, 2 ^ 64 - 1), (2, 1)] (0x26, 3, 0, 0, 0, 4294967295)).fetch ⟨0, 0⟩).1, runs_of (0x26 * 2 ^ 57 + 3 * 2 ^ 52 + 0 * 2 ^ 47 + 0 * 2 ^ 42 + 0 * 2 ^ 32 + 4294967295) (by decide +kernel)⟩,
   ⟨(tThread [(1, 2 ^ 64 - 1), (2, 1)] (0x27, 3, 1, 0, 0, 4294967295)), ⟨0, 0⟩, ⟨3, 1, 0, 0, 4294967295⟩, ((tThread [(1, 2 ^ 64 - 1), (2, 1)] (0x27, 3, 1, 0, 0, 4294967295)).fetch ⟨0, 0⟩).1, runs_of (0x27 * 2 ^ 57 + 3 * 2 ^ 52 + 1 * 2 ^ 47 + 0 * 2 ^ 42 + 0 * 2 ^ 32 + 4294967295) (by decide +kernel)⟩⟩

/-- Every clause of O23 is met. -/
theorem witness_MemoryInstructionsComplete :
    (∃ b : Blk, ∃ t : Tid, ∃ i : Ins, ∃ b' : Blk, ∃ n : Nat, ∃ pa : Nat, ∃ v : Nat, (b.Runs t 0x28 i b') ∧ (n = 2 ^ bits i.mod 0 2) ∧ ((b'.thread t).ea i % n = 0) ∧ (localPa t.stake ((b'.thread t).ea i) n .load = .ok pa) ∧ (b'.sramRead pa n = .ok v))
    ∧ (∃ b : Blk, ∃ t : Tid, ∃ i : Ins, ∃ b' : Blk, ∃ n : Nat, ∃ pa : Nat, ∃ b2 : Blk, (b.Runs t 0x29 i b') ∧ (n = 2 ^ bits i.mod 0 2) ∧ ((b'.thread t).ea i % n = 0) ∧ (localPa t.stake ((b'.thread t).ea i) n .store = .ok pa) ∧ (b'.sramWrite pa n ((b'.thread t).reg i.src2) = .ok b2))
    ∧ (∃ b : Blk, ∃ t : Tid, ∃ i : Ins, ∃ b' : Blk, ∃ pa : Nat, ∃ old : Nat, (b.Runs t 0x2A i b') ∧ ((b'.thread t).ea i % 8 = 0) ∧ (localPa t.stake ((b'.thread t).ea i) 8 .atomic = .ok pa) ∧ (b'.sramRead pa 8 = .ok old) ∧ (amoNew i.mod old ((b'.thread t).reg i.src2) ((b'.thread t).reg i.dest) = none))
    ∧ (∃ b : Blk, ∃ t : Tid, ∃ i : Ins, ∃ b' : Blk, ∃ pa : Nat, ∃ old : Nat, ∃ v : Nat, ∃ b2 : Blk, (b.Runs t 0x2A i b') ∧ ((b'.thread t).ea i % 8 = 0) ∧ (localPa t.stake ((b'.thread t).ea i) 8 .atomic = .ok pa) ∧ (b'.sramRead pa 8 = .ok old) ∧ (amoNew i.mod old ((b'.thread t).reg i.src2) ((b'.thread t).reg i.dest) = some v) ∧ (b'.sramWrite pa 8 v = .ok b2)) :=
  ⟨⟨(tThread [] (0x28, 3, 0, 0, 7, 8)), ⟨0, 0⟩, ⟨3, 0, 0, 7, 8⟩, ((tThread [] (0x28, 3, 0, 0, 7, 8)).fetch ⟨0, 0⟩).1, 8, stakeWin 0 + 8, 0, runs_of (0x28 * 2 ^ 57 + 3 * 2 ^ 52 + 0 * 2 ^ 47 + 0 * 2 ^ 42 + 7 * 2 ^ 32 + 8) (by decide +kernel), by decide +kernel, by decide +kernel, by decide +kernel, by decide +kernel⟩,
   ⟨(tThread [(1, 1)] (0x29, 0, 0, 1, 3, 8)), ⟨0, 0⟩, ⟨0, 0, 1, 3, 8⟩, ((tThread [(1, 1)] (0x29, 0, 0, 1, 3, 8)).fetch ⟨0, 0⟩).1, 8, stakeWin 0 + 8, _, runs_of (0x29 * 2 ^ 57 + 0 * 2 ^ 52 + 0 * 2 ^ 47 + 1 * 2 ^ 42 + 3 * 2 ^ 32 + 8) (by decide +kernel), by decide +kernel, by decide +kernel, by decide +kernel, rfl⟩,
   ⟨(tThread [(1, 0x80_0000), (3, 1)] (0x2A, 3, 1, 2, 6, 0)), ⟨0, 0⟩, ⟨3, 1, 2, 6, 0⟩, ((tThread [(1, 0x80_0000), (3, 1)] (0x2A, 3, 1, 2, 6, 0)).fetch ⟨0, 0⟩).1, waleWin 0, 0, runs_of (0x2A * 2 ^ 57 + 3 * 2 ^ 52 + 1 * 2 ^ 47 + 2 * 2 ^ 42 + 6 * 2 ^ 32 + 0) (by decide +kernel), by decide +kernel, by decide +kernel, by decide +kernel, by decide +kernel⟩,
   ⟨(tThread [(1, 0x80_0000), (2, 1)] (0x2A, 3, 1, 2, 0, 0)), ⟨0, 0⟩, ⟨3, 1, 2, 0, 0⟩, ((tThread [(1, 0x80_0000), (2, 1)] (0x2A, 3, 1, 2, 0, 0)).fetch ⟨0, 0⟩).1, waleWin 0, 0, 1, _, runs_of (0x2A * 2 ^ 57 + 3 * 2 ^ 52 + 1 * 2 ^ 47 + 2 * 2 ^ 42 + 0 * 2 ^ 32 + 0) (by decide +kernel), by decide +kernel, by decide +kernel, by decide +kernel, by decide +kernel, rfl⟩⟩

/-- Every clause of O24 is met. -/
theorem witness_WaitInstructionsComplete :
    (∃ b : Blk, ∃ t : Tid, ∃ i : Ins, ∃ b' : Blk, (b.Runs t 0x38 i b') ∧ ((b'.thread t).twaitDone i.imm (bit i.mod 0) = true) ∧ ((b'.thread t).firstErr i.imm = none))
    ∧ (∃ b : Blk, ∃ t : Tid, ∃ i : Ins, ∃ b' : Blk, (b.Runs t 0x38 i b') ∧ ((b'.thread t).twaitDone i.imm (bit i.mod 0) = false))
    ∧ (∃ b : Blk, ∃ t : Tid, ∃ i : Ins, ∃ b' : Blk, (b.Runs t 0x3A i b') ∧ (b'.barCount (waleOf t.stake) i.imm ≠ 0) ∧ (b'.barCount (waleOf t.stake) i.imm ≤ (b'.atBar (waleOf t.stake) i.imm).length + 1))
    ∧ (∃ b : Blk, ∃ t : Tid, ∃ i : Ins, ∃ b' : Blk, (b.Runs t 0x3A i b') ∧ ((b'.atBar (waleOf t.stake) i.imm).length + 1 < b'.barCount (waleOf t.stake) i.imm))
    ∧ (∃ b : Blk, ∃ t : Tid, ∃ i : Ins, ∃ b' : Blk, (b.Runs t 0x3B i b') ∧ ((bit i.mod 0 && !((b'.thread t).pendingIn allSlots).isEmpty) = false))
    ∧ (∃ b : Blk, ∃ t : Tid, ∃ i : Ins, ∃ b' : Blk, (b.Runs t 0x3B i b') ∧ ((bit i.mod 0 && !((b'.thread t).pendingIn allSlots).isEmpty) = true))
    ∧ (∃ b : Blk, ∃ t : Tid, ∃ i : Ins, ∃ b' : Blk, (b.Runs t 0x3C i b') ∧ ((b'.thread t).pendingIn allSlots = []) ∧ ((b'.thread t).firstErr allSlots = none))
    ∧ (∃ b : Blk, ∃ t : Tid, ∃ i : Ins, ∃ b' : Blk, (b.Runs t 0x3C i b') ∧ ((b'.thread t).pendingIn allSlots ≠ [])) :=
  ⟨⟨(tThread [] (0x38, 3, 0, 0, 0, 0xFFFF)), ⟨0, 0⟩, ⟨3, 0, 0, 0, 0xFFFF⟩, ((tThread [] (0x38, 3, 0, 0, 0, 0xFFFF)).fetch ⟨0, 0⟩).1, runs_of (0x38 * 2 ^ 57 + 3 * 2 ^ 52 + 0 * 2 ^ 47 + 0 * 2 ^ 42 + 0 * 2 ^ 32 + 0xFFFF) (by decide +kernel), by decide +kernel, by decide +kernel⟩,
   ⟨(tToks (tThread [] (0x38, 3, 0, 0, 1, 0xFFFF)) [(0, .pending)]), ⟨0, 0⟩, ⟨3, 0, 0, 1, 0xFFFF⟩, ((tToks (tThread [] (0x38, 3, 0, 0, 1, 0xFFFF)) [(0, .pending)]).fetch ⟨0, 0⟩).1, runs_of (0x38 * 2 ^ 57 + 3 * 2 ^ 52 + 0 * 2 ^ 47 + 0 * 2 ^ 42 + 1 * 2 ^ 32 + 0xFFFF) (by decide +kernel), by decide +kernel⟩,
   ⟨(tBar (tThread [] (0x3A, 0, 0, 0, 0, 15)) 1), ⟨0, 0⟩, ⟨0, 0, 0, 0, 15⟩, ((tBar (tThread [] (0x3A, 0, 0, 0, 0, 15)) 1).fetch ⟨0, 0⟩).1, runs_of (0x3A * 2 ^ 57 + 0 * 2 ^ 52 + 0 * 2 ^ 47 + 0 * 2 ^ 42 + 0 * 2 ^ 32 + 15) (by decide +kernel), by decide +kernel, by decide +kernel⟩,
   ⟨(tBar (tThread [] (0x3A, 0, 0, 0, 0, 15)) 2), ⟨0, 0⟩, ⟨0, 0, 0, 0, 15⟩, ((tBar (tThread [] (0x3A, 0, 0, 0, 0, 15)) 2).fetch ⟨0, 0⟩).1, runs_of (0x3A * 2 ^ 57 + 0 * 2 ^ 52 + 0 * 2 ^ 47 + 0 * 2 ^ 42 + 0 * 2 ^ 32 + 15) (by decide +kernel), by decide +kernel⟩,
   ⟨(tThread [] (0x3B, 0, 0, 0, 1, 0)), ⟨0, 0⟩, ⟨0, 0, 0, 1, 0⟩, ((tThread [] (0x3B, 0, 0, 0, 1, 0)).fetch ⟨0, 0⟩).1, runs_of (0x3B * 2 ^ 57 + 0 * 2 ^ 52 + 0 * 2 ^ 47 + 0 * 2 ^ 42 + 1 * 2 ^ 32 + 0) (by decide +kernel), by decide +kernel⟩,
   ⟨(tToks (tThread [] (0x3B, 0, 0, 0, 1, 0)) [(15, .pending)]), ⟨0, 0⟩, ⟨0, 0, 0, 1, 0⟩, ((tToks (tThread [] (0x3B, 0, 0, 0, 1, 0)) [(15, .pending)]).fetch ⟨0, 0⟩).1, runs_of (0x3B * 2 ^ 57 + 0 * 2 ^ 52 + 0 * 2 ^ 47 + 0 * 2 ^ 42 + 1 * 2 ^ 32 + 0) (by decide +kernel), by decide +kernel⟩,
   ⟨(tThread [] (0x3C, 0, 0, 0, 0, 0)), ⟨0, 0⟩, ⟨0, 0, 0, 0, 0⟩, ((tThread [] (0x3C, 0, 0, 0, 0, 0)).fetch ⟨0, 0⟩).1, runs_of (0x3C * 2 ^ 57 + 0 * 2 ^ 52 + 0 * 2 ^ 47 + 0 * 2 ^ 42 + 0 * 2 ^ 32 + 0) (by decide +kernel), by decide +kernel, by decide +kernel⟩,
   ⟨(tToks (tThread [] (0x3C, 0, 0, 0, 0, 0)) [(15, .pending)]), ⟨0, 0⟩, ⟨0, 0, 0, 0, 0⟩, ((tToks (tThread [] (0x3C, 0, 0, 0, 0, 0)) [(15, .pending)]).fetch ⟨0, 0⟩).1, runs_of (0x3C * 2 ^ 57 + 0 * 2 ^ 52 + 0 * 2 ^ 47 + 0 * 2 ^ 42 + 0 * 2 ^ 32 + 0) (by decide +kernel), by decide +kernel⟩⟩

/-- Every clause of O25 is met. -/
theorem witness_IssueInstructionsComplete :
    (∃ b : Blk, ∃ t : Tid, ∃ i : Ins, ∃ b' : Blk, ∃ pa : Nat, ∃ v : Nat, ∃ d : List Nat, (b.Runs t 0x30 i b') ∧ ((b'.thread t).reg i.src1 % 64 = 0) ∧ (localPa t.stake ((b'.thread t).reg i.src1) 64 .load = .ok pa) ∧ (((b'.thread t).tok (bits i.mod 0 4)).err = 0) ∧ ((b'.thread t).tok (bits i.mod 0 4) ≠ .pending) ∧ (b'.issueFenced t.stake .mat = false) ∧ (b'.issueServing t.stake .mat = true) ∧ (b'.sramRead pa 64 = .ok v) ∧ (d = (List.range 8).map (fun k => bits v (64 * k) 64)) ∧ (issueValid .mat d i.imm = true) ∧ (b'.credits t.stake .mat ≠ 0) ∧ ((b'.sbRes t.stake < 2 ∨ b'.sbShared (waleOf t.stake) < 64)))
    ∧ (∃ b : Blk, ∃ t : Tid, ∃ i : Ins, ∃ b' : Blk, ∃ pa : Nat, ∃ v : Nat, ∃ d : List Nat, (b.Runs t 0x31 i b') ∧ ((b'.thread t).reg i.src1 % 64 = 0) ∧ (localPa t.stake ((b'.thread t).reg i.src1) 64 .load = .ok pa) ∧ (((b'.thread t).tok (bits i.mod 0 4)).err = 0) ∧ ((b'.thread t).tok (bits i.mod 0 4) ≠ .pending) ∧ (b'.issueFenced t.stake .vec = false) ∧ (b'.issueServing t.stake .vec = true) ∧ (b'.sramRead pa 64 = .ok v) ∧ (d = (List.range 8).map (fun k => bits v (64 * k) 64)) ∧ (issueValid .vec d i.imm = true) ∧ (b'.credits t.stake .vec ≠ 0) ∧ ((b'.sbRes t.stake < 2 ∨ b'.sbShared (waleOf t.stake) < 64)))
    ∧ (∃ b : Blk, ∃ t : Tid, ∃ i : Ins, ∃ b' : Blk, ∃ pa : Nat, ∃ v : Nat, ∃ d : List Nat, (b.Runs t 0x32 i b') ∧ ((b'.thread t).reg i.src1 % 64 = 0) ∧ (localPa t.stake ((b'.thread t).reg i.src1) 64 .load = .ok pa) ∧ (((b'.thread t).tok (bits i.mod 0 4)).err = 0) ∧ ((b'.thread t).tok (bits i.mod 0 4) ≠ .pending) ∧ (b'.issueFenced t.stake .row = false) ∧ (b'.issueServing t.stake .row = true) ∧ (b'.sramRead pa 64 = .ok v) ∧ (d = (List.range 8).map (fun k => bits v (64 * k) 64)) ∧ (issueValid .row d i.imm = true) ∧ (b'.credits t.stake .row ≠ 0) ∧ ((b'.sbRes t.stake < 2 ∨ b'.sbShared (waleOf t.stake) < 64)))
    ∧ (∃ b : Blk, ∃ t : Tid, ∃ i : Ins, ∃ b' : Blk, ∃ pa : Nat, ∃ v : Nat, ∃ d : List Nat, (b.Runs t 0x33 i b') ∧ ((b'.thread t).reg i.src1 % 64 = 0) ∧ (localPa t.stake ((b'.thread t).reg i.src1) 64 .load = .ok pa) ∧ (((b'.thread t).tok (bits i.mod 0 4)).err = 0) ∧ ((b'.thread t).tok (bits i.mod 0 4) ≠ .pending) ∧ (b'.issueFenced t.stake .dma = false) ∧ (b'.issueServing t.stake .dma = true) ∧ (b'.sramRead pa 64 = .ok v) ∧ (d = (List.range 8).map (fun k => bits v (64 * k) 64)) ∧ (issueValid .dma d i.imm = true) ∧ (b'.credits t.stake .dma ≠ 0) ∧ ((b'.sbRes t.stake < 2 ∨ b'.sbShared (waleOf t.stake) < 64)))
    ∧ (∃ b : Blk, ∃ t : Tid, ∃ i : Ins, ∃ b' : Blk, ∃ pa : Nat, ∃ v : Nat, ∃ d : List Nat, (b.Runs t 0x34 i b') ∧ ((b'.thread t).reg i.src1 % 64 = 0) ∧ (localPa t.stake ((b'.thread t).reg i.src1) 64 .load = .ok pa) ∧ (((b'.thread t).tok (bits i.mod 0 4)).err = 0) ∧ ((b'.thread t).tok (bits i.mod 0 4) ≠ .pending) ∧ (b'.issueFenced t.stake .sum = false) ∧ (b'.issueServing t.stake .sum = true) ∧ (b'.sramRead pa 64 = .ok v) ∧ (d = (List.range 8).map (fun k => bits v (64 * k) 64)) ∧ (issueValid .sum d i.imm = true) ∧ (b'.credits t.stake .sum ≠ 0) ∧ ((b'.sbRes t.stake < 2 ∨ b'.sbShared (waleOf t.stake) < 64)))
    ∧ (∃ b : Blk, ∃ t : Tid, (tidOk t = true) ∧ ((b.thread t).st = tRun) ∧ ((b.thread t).sleep = .stall) ∧ (b.rd R.SCHED_CREDIT_LIMIT (waleOf t.stake) ≠ 0) ∧ (b.leaveHeld = false))
    ∧ (∃ b : Blk, ∃ t : Tid, ∃ b' : Blk, ∃ w : Nat, (tidOk t = true) ∧ ((b.thread t).st = tRun) ∧ ((b.thread t).sleep = .awake) ∧ (b.fetch t = (b', .ok w)) ∧ (opUses (bits w 57 7) = none)) :=
  ⟨⟨(tIss dMat 0x30 0), ⟨0, 0⟩, ⟨0, 1, 0, 0, 0⟩, ((tIss dMat 0x30 0).fetch ⟨0, 0⟩).1, (stakeWin 0 + 0x2000), (wordOf dMat), _, runs_of (0x30 * 2 ^ 57 + 0 * 2 ^ 52 + 1 * 2 ^ 47 + 0 * 2 ^ 42 + 0 * 2 ^ 32 + 0) (by decide +kernel), by decide +kernel, by decide +kernel, by decide +kernel, by decide +kernel, by decide +kernel, by decide +kernel, by decide +kernel, rfl, by decide +kernel, by decide +kernel, by decide +kernel⟩,
   ⟨(tIss dVec 0x31 0), ⟨0, 0⟩, ⟨0, 1, 0, 0, 0⟩, ((tIss dVec 0x31 0).fetch ⟨0, 0⟩).1, (stakeWin 0 + 0x2000), (wordOf dVec), _, runs_of (0x31 * 2 ^ 57 + 0 * 2 ^ 52 + 1 * 2 ^ 47 + 0 * 2 ^ 42 + 0 * 2 ^ 32 + 0) (by decide +kernel), by decide +kernel, by decide +kernel, by decide +kernel, by decide +kernel, by decide +kernel, by decide +kernel, by decide +kernel, rfl, by decide +kernel, by decide +kernel, by decide +kernel⟩,
   ⟨(tIss dRow 0x32 1065353216), ⟨0, 0⟩, ⟨0, 1, 0, 0, 1065353216⟩, ((tIss dRow 0x32 1065353216).fetch ⟨0, 0⟩).1, (stakeWin 0 + 0x2000), (wordOf dRow), _, runs_of (0x32 * 2 ^ 57 + 0 * 2 ^ 52 + 1 * 2 ^ 47 + 0 * 2 ^ 42 + 0 * 2 ^ 32 + 1065353216) (by decide +kernel), by decide +kernel, by decide +kernel, by decide +kernel, by decide +kernel, by decide +kernel, by decide +kernel, by decide +kernel, rfl, by decide +kernel, by decide +kernel, by decide +kernel⟩,
   ⟨(tIss dDma 0x33 0), ⟨0, 0⟩, ⟨0, 1, 0, 0, 0⟩, ((tIss dDma 0x33 0).fetch ⟨0, 0⟩).1, (stakeWin 0 + 0x2000), (wordOf dDma), _, runs_of (0x33 * 2 ^ 57 + 0 * 2 ^ 52 + 1 * 2 ^ 47 + 0 * 2 ^ 42 + 0 * 2 ^ 32 + 0) (by decide +kernel), by decide +kernel, by decide +kernel, by decide +kernel, by decide +kernel, by decide +kernel, by decide +kernel, by decide +kernel, rfl, by decide +kernel, by decide +kernel, by decide +kernel⟩,
   ⟨(tIss (dSum 0) 0x34 0), ⟨0, 0⟩, ⟨0, 1, 0, 0, 0⟩, ((tIss (dSum 0) 0x34 0).fetch ⟨0, 0⟩).1, (stakeWin 0 + 0x2000), (wordOf (dSum 0)), _, runs_of (0x34 * 2 ^ 57 + 0 * 2 ^ 52 + 1 * 2 ^ 47 + 0 * 2 ^ 42 + 0 * 2 ^ 32 + 0) (by decide +kernel), by decide +kernel, by decide +kernel, by decide +kernel, by decide +kernel, by decide +kernel, by decide +kernel, by decide +kernel, rfl, by decide +kernel, by decide +kernel, by decide +kernel⟩,
   ⟨tStall, ⟨0, 0⟩, by decide +kernel, by decide +kernel, by decide +kernel, by decide +kernel, by decide +kernel⟩,
   ⟨(tThread [] (0x7F, 0, 0, 0, 0, 0)), ⟨0, 0⟩, ((tThread [] (0x7F, 0, 0, 0, 0, 0)).fetch ⟨0, 0⟩).1, (0x7F * 2 ^ 57 + 0 * 2 ^ 52 + 0 * 2 ^ 47 + 0 * 2 ^ 42 + 0 * 2 ^ 32 + 0), by decide +kernel, by decide +kernel, by decide +kernel, by decide +kernel, by decide +kernel⟩⟩

/-- Every clause of O26 is met. -/
theorem witness_SummaryCommandsComplete :
    (∃ b : Blk, ∃ w : Nat, ∃ op : QOp, ∃ l : List QOp, ∃ b' : Blk, (w < 200) ∧ (b.sumHead w = some (op, l, 0)) ∧ ((sumDesc op.desc).op = 0) ∧ (b' = (b.setWale w { b.wale w with sumQ := l }).setWale w { (b.setWale w { b.wale w with sumQ := l }).wale w with sum := some { op := op, made := true } }))
    ∧ (∃ b : Blk, ∃ w : Nat, ∃ op : QOp, ∃ l : List QOp, ∃ b' : Blk, (w < 200) ∧ (b.sumHead w = some (op, l, 0)) ∧ ((sumDesc op.desc).op = 1) ∧ (b' = (b.setWale w { b.wale w with sumQ := l }).setWale w { (b.setWale w { b.wale w with sumQ := l }).wale w with sum := some { op := op, made := true } }))
    ∧ (∃ b : Blk, ∃ w : Nat, ∃ op : QOp, ∃ l : List QOp, ∃ b' : Blk, (w < 200) ∧ (b.sumHead w = some (op, l, 0)) ∧ ((sumDesc op.desc).op = 2) ∧ (b' = (b.setWale w { b.wale w with sumQ := l }).setWale w { (b.setWale w { b.wale w with sumQ := l }).wale w with sum := some { op := op, made := true } }))
    ∧ (∃ b : Blk, ∃ w : Nat, ∃ op : QOp, ∃ l : List QOp, ∃ b' : Blk, (w < 200) ∧ (b.sumHead w = some (op, l, 0)) ∧ ((sumDesc op.desc).op = 3) ∧ (b' = (b.setWale w { b.wale w with sumQ := l }).setWale w { (b.setWale w { b.wale w with sumQ := l }).wale w with sum := some { op := op, made := true } }))
    ∧ (∃ b : Blk, ∃ w : Nat, ∃ r : SumRun, ∃ b1 : Blk, (w < 200) ∧ ((b.wale w).sum = some r) ∧ (r.made = true) ∧ (b1 = (b.setWale w { b.wale w with sum := none }).lossSend w r.loss)) :=
  ⟨⟨(tSum 0), 0, (tOp 0), [], _, by decide +kernel, by decide +kernel, by decide +kernel, rfl⟩,
   ⟨(tSum 1), 0, (tOp 1), [], _, by decide +kernel, by decide +kernel, by decide +kernel, rfl⟩,
   ⟨(tSum 2), 0, (tOp 2), [], _, by decide +kernel, by decide +kernel, by decide +kernel, rfl⟩,
   ⟨(tSum 3), 0, (tOp 3), [], _, by decide +kernel, by decide +kernel, by decide +kernel, rfl⟩,
   ⟨tSumEnd, 0, { op := tOp 0, made := true }, _, by decide +kernel, by decide +kernel, by decide +kernel, rfl⟩⟩

/-- Every clause of O27 is met. -/
theorem witness_EngineStartsComplete :
    (∃ b : Blk, ∃ k : Nat, ∃ op : QOp, ∃ l : List QOp, ∃ v : Nat, (k < 6400) ∧ ((b.stake k).mat = none) ∧ ((b.stake k).matQ = op :: l) ∧ (afterGate op = some 0) ∧ ((b.stake k).matEnt = some v) ∧ (b.lvGranted (.mat k) = true))
    ∧ (∃ b : Blk, ∃ k : Nat, ∃ op : QOp, ∃ l : List QOp, ∃ v : Nat, ∃ d : MatDesc, (k < 6400) ∧ ((b.stake k).mat = none) ∧ ((b.stake k).matQ = op :: l) ∧ (afterGate op = some 0) ∧ ((b.stake k).matEnt = none) ∧ (d = matDesc op.desc) ∧ (b.matRead k d = .ok v) ∧ (d.geom (d.entry v) = true) ∧ (d.needsLeave d.blocks = true))
    ∧ (∃ b : Blk, ∃ k : Nat, ∃ op : QOp, ∃ l : List QOp, ∃ v : Nat, ∃ d : MatDesc, (k < 6400) ∧ ((b.stake k).mat = none) ∧ ((b.stake k).matQ = op :: l) ∧ (afterGate op = some 0) ∧ ((b.stake k).matEnt = none) ∧ (d = matDesc op.desc) ∧ (b.matRead k d = .ok v) ∧ (d.geom (d.entry v) = true) ∧ (d.needsLeave d.blocks = false))
    ∧ (∃ b : Blk, ∃ k : Nat, ∃ op : QOp, ∃ l : List QOp, (k < 6400) ∧ ((b.stake k).vec = none) ∧ ((b.stake k).vecQ = op :: l) ∧ (afterGate op = some 0))
    ∧ (∃ b : Blk, ∃ w : Nat, ∃ op : QOp, ∃ l : List QOp, (w < 200) ∧ ((b.wale w).row = none) ∧ ((b.wale w).rowQ = op :: l) ∧ (b.on R.ROW_SIDE_CLR_BUSY_CLR w = false) ∧ (afterGate op = some 0))
    ∧ (∃ b : Blk, ∃ c : Nat, ∃ op : QOp, (c < 12800) ∧ ((b.stream c).isSome = false) ∧ (b.dmaNext (c / 64) = some op) ∧ (afterGate op = some 0) ∧ ((dmaDesc op.desc).total < 2 ^ 20))
    ∧ (∃ b : Blk, ∃ c : Nat, ∃ op : QOp, (c < 12800) ∧ ((b.stream c).isSome = false) ∧ (b.dmaNext (c / 64) = some op) ∧ (afterGate op = some 0) ∧ (2 ^ 20 ≤ (dmaDesc op.desc).total)) :=
  ⟨⟨tMatQE, 0, (opOf dMat), [], 0, by decide +kernel, by decide +kernel, by decide +kernel, by decide +kernel, by decide +kernel, by decide +kernel⟩,
   ⟨tMatQ, 0, (opOf dMat), [], 0, (matDesc dMat), by decide +kernel, by decide +kernel, by decide +kernel, by decide +kernel, by decide +kernel, by decide +kernel, by decide +kernel, by decide +kernel, by decide +kernel⟩,
   ⟨tMatS, 0, (opOf dMatS), [], 0, (matDesc dMatS), by decide +kernel, by decide +kernel, by decide +kernel, by decide +kernel, by decide +kernel, by decide +kernel, by decide +kernel, by decide +kernel, by decide +kernel⟩,
   ⟨tVecQ, 0, (opOf dVec), [], by decide +kernel, by decide +kernel, by decide +kernel, by decide +kernel⟩,
   ⟨tRowQ, 0, (opOf dRow), [], by decide +kernel, by decide +kernel, by decide +kernel, by decide +kernel, by decide +kernel⟩,
   ⟨tDmaQ, 0, (opOf dDma), by decide +kernel, by decide +kernel, by decide +kernel, by decide +kernel, by decide +kernel⟩,
   ⟨tDmaBig, 0, tBigOp, by decide +kernel, by decide +kernel, by decide +kernel, by decide +kernel, by decide +kernel⟩⟩

/-- Every clause of O28 is met. -/
theorem witness_EngineEndsComplete :
    (∃ b : Blk, ∃ k : Nat, ∃ r : Run, (k < 6400) ∧ (b.matRunning k = some r))
    ∧ (∃ b : Blk, ∃ k : Nat, ∃ addr : Nat, ∃ r : Run, ∃ r' : Run, ∃ b' : Blk, (k < 6400) ∧ ((inGeneral addr 1 || inWale addr 1) = true) ∧ (b.matRunning k = some r) ∧ (b' = (b.markUe (lpa k addr)).matFinish k r) ∧ ((b'.stake k).mat = some r') ∧ (r'.st = .susp) ∧ (r'.op = r.op))
    ∧ (∃ b : Blk, ∃ k : Nat, ∃ r : Run, (k < 6400) ∧ (b.chRunning k = some r))
    ∧ (∃ b : Blk, ∃ k : Nat, ∃ addr : Nat, ∃ r : Run, ∃ f : RFail, (k < 6400) ∧ ((inGeneral addr 1 || inWale addr 1) = true) ∧ (b.chRunning k = some r) ∧ (((b.markUe (lpa k addr)).chAll k (chDesc r.op.desc) r.op.imm).2 = some f))
    ∧ (∃ b : Blk, ∃ w : Nat, ∃ r : Run, (w < 200) ∧ (b.rowRunning w = some r))
    ∧ (∃ b : Blk, ∃ w : Nat, ∃ addr : Nat, ∃ r : Run, ∃ r' : Run, ∃ b' : Blk, (w < 200) ∧ (inWale addr 1 = true) ∧ (b.rowRunning w = some r) ∧ (b' = (b.markUe (lpa (w * 32) addr)).rowFinish w r) ∧ ((b'.wale w).row = some r') ∧ (r'.st = .susp) ∧ (r'.op = r.op))
    ∧ (∃ b : Blk, ∃ c : Nat, ∃ x : Stream, (c < 12800 ∨ 14848 ≤ c ∧ c < 16896) ∧ (b.dmaRunning c = some x))
    ∧ (∃ b : Blk, ∃ c : Nat, ∃ ue : Option Nat, ∃ x : Stream, ∃ x' : Stream, ∃ b' : Blk, (c < 12800 ∨ 14848 ≤ c ∧ c < 16896) ∧ (ue.getD 0 < 2 ^ 42) ∧ (b.dmaRunning c = some x) ∧ (b' = (match ue with | some a => b.markUe a | none => b).dmaFinish c x) ∧ (b'.stream c = some x') ∧ (x'.st = .susp))
    ∧ (∃ b : Blk, ∃ w : Nat, (w < 200) ∧ (b.on R.ROW_SIDE_CLR_BUSY_CLR w = true)) :=
  ⟨⟨tMatRun, 0, { op := opOf dMat }, by decide +kernel, by decide +kernel⟩,
   ⟨tMatRun, 0, 0x2000, { op := opOf dMat }, (Option.get ((((tMatRun.markUe (lpa 0 0x2000)).matFinish 0 { op := opOf dMat }).stake 0).mat) (by decide +kernel)), ((tMatRun.markUe (lpa 0 0x2000)).matFinish 0 { op := opOf dMat }), by decide +kernel, by decide +kernel, by decide +kernel, rfl, (Option.some_get _).symm, by decide +kernel, by decide +kernel⟩,
   ⟨tVecRun, 0, { op := opOf dVec }, by decide +kernel, by decide +kernel⟩,
   ⟨tVecRun, 0, 0x2000, { op := opOf dVec }, (Option.get (((tVecRun.markUe (lpa 0 0x2000)).chAll 0 (chDesc dVec) 0).2) (by decide +kernel)), by decide +kernel, by decide +kernel, by decide +kernel, (Option.some_get _).symm⟩,
   ⟨tRowRun, 0, { op := opOf dRow }, by decide +kernel, by decide +kernel⟩,
   ⟨tRowRun, 0, 0x80_0000, { op := opOf dRow }, (Option.get ((((tRowRun.markUe (lpa 0 0x80_0000)).rowFinish 0 { op := opOf dRow }).wale 0).row) (by decide +kernel)), ((tRowRun.markUe (lpa 0 0x80_0000)).rowFinish 0 { op := opOf dRow }), by decide +kernel, by decide +kernel, by decide +kernel, rfl, (Option.some_get _).symm, by decide +kernel, by decide +kernel⟩,
   ⟨tDmaRun, 16895, tStream, by decide +kernel, by decide +kernel⟩,
   ⟨tCopying, 0, (some (lpa 0 0x2000)), tCopy, (Option.get (((tCopying.markUe (lpa 0 0x2000)).dmaFinish 0 tCopy).stream 0) (by decide +kernel)), ((tCopying.markUe (lpa 0 0x2000)).dmaFinish 0 tCopy), by decide +kernel, by decide +kernel, by decide +kernel, rfl, (Option.some_get _).symm, by decide +kernel⟩,
   ⟨(tb.wr R.ROW_SIDE_CLR_BUSY_CLR 1 199), 199, by decide +kernel, by decide +kernel⟩⟩

/-- Every clause of O29 is met. -/
theorem witness_LeaveTranslationScrubComplete :
    (∃ b : Blk, ∃ d : Nat, ∃ n : Nat, ∃ b1 : Blk, (d < 4) ∧ (n = (if b.leaveHeld then 0 else if b.slowLeave then 8 else 64)) ∧ (b1 = (({ b with leave := { b.leave with reqs := SMap.set [] b.leave.reqs d ((b.lvReqs d).drop n) } }).each ((b.lvReqs d).take n) (fun b r => b.grant r)).add64 (R.PWC_LEAVE_GRANT_LO.at d) (R.PWC_LEAVE_GRANT_HI.at d) ((b.lvReqs d).take n).length))
    ∧ (∃ b : Blk, ∃ u : Nat, ∃ va : Nat, ∃ write : Bool, ∃ v : Bool, ∃ b' : Blk, ∃ pa : Nat, ∃ dom : Nat, ∃ sz : Nat, ∃ pte : Nat, (u ≤ modXl) ∧ (va < 2 ^ 48) ∧ (b.xlt.walks.find? (fun x => x.unit == u && x.va == va && x.cls == (if v then clsV else clsO) && x.write == write) = none) ∧ (b.xlate1 u (if v then clsV else clsO) write va = (b', .ok pa dom sz pte)))
    ∧ (∃ b : Blk, ∃ u : Nat, ∃ va : Nat, ∃ write : Bool, ∃ v : Bool, ∃ x : WalkRun, ∃ b1 : Blk, ∃ pa : Nat, ∃ dom : Nat, ∃ sz : Nat, ∃ pte : Nat, (u ≤ modXl) ∧ (va < 2 ^ 48) ∧ (b.xlt.walks.find? (fun x => x.unit == u && x.va == va && x.cls == (if v then clsV else clsO) && x.write == write) = some x) ∧ (x.res = .ok pa dom sz pte) ∧ (b1 = { b with xlt := { b.xlt with walks := b.xlt.walks.erase x } }))
    ∧ (∃ b : Blk, ∃ u : Nat, ∃ va : Nat, ∃ write : Bool, ∃ v : Bool, ∃ b' : Blk, ∃ c : Nat, ∃ d : Nat, ∃ pte : Nat, ∃ a : Nat, (u ≤ modXl) ∧ (va < 2 ^ 48) ∧ (b.xlt.walks.find? (fun x => x.unit == u && x.va == va && x.cls == (if v then clsV else clsO) && x.write == write) = none) ∧ (b.xlate1 u (if v then clsV else clsO) write va = (b', .bad c d pte a)))
    ∧ (∃ b : Blk, b.on R.XLT_INVAL_STATUS_BUSY = true)
    ∧ (∃ b : Blk, ∃ pa : Nat, ∃ ce : Bool, ∃ last : Bool, isDram pa = true)
    ∧ (∃ b : Blk, ∃ core : Nat, ∃ a : Nat, ∃ wr : Bool, ∃ n : Nat, ∃ data : Nat, ∃ pa : Nat, (core < 32) ∧ (a < 2 ^ 64) ∧ ([1, 2, 4, 8, 16, 32, 64].contains n = true) ∧ (data < 256 ^ n) ∧ (b.corePa core a wr = .pa pa))
    ∧ (∃ b : Blk, ∃ core : Nat, ∃ a : Nat, ∃ wr : Bool, ∃ n : Nat, ∃ data : Nat, (core < 32) ∧ (a < 2 ^ 64) ∧ ([1, 2, 4, 8, 16, 32, 64].contains n = true) ∧ (data < 256 ^ n) ∧ (b.corePa core a wr = .page)) :=
  ⟨⟨tb, 3, _, _, by decide +kernel, rfl, rfl⟩,
   ⟨tFar, modXl, 0, false, false, (tFar.xlate1 modXl clsO false 0).1, 0x10_0000, 1, 12, 0x10_001F, by decide +kernel, by decide +kernel, by decide +kernel, by decide +kernel⟩,
   ⟨{ tb with xlt := { walks := [{ unit := 0, va := 2 ^ 48 - 1, cls := clsV, write := true, ents := [], res := .ok 1 2 3 4 }] } }, 0, 2 ^ 48 - 1, true, true, { unit := 0, va := 2 ^ 48 - 1, cls := clsV, write := true, ents := [], res := .ok 1 2 3 4 }, _, 1, 2, 3, 4, by decide +kernel, by decide +kernel, by decide +kernel, by decide +kernel, rfl⟩,
   ⟨tFar, 0, 2 ^ 48 - 1, true, true, (tFar.xlate1 0 clsV true (2 ^ 48 - 1)).1, eXlate, 1, 0, 0, by decide +kernel, by decide +kernel, by decide +kernel, by decide +kernel⟩,
   ⟨(tb.wr R.XLT_INVAL_STATUS_BUSY 1), by decide +kernel⟩,
   ⟨tb, 0, true, false, by decide +kernel⟩,
   ⟨tb, 31, 2 ^ 56 - 1, true, 64, 1, _, by decide +kernel, by decide +kernel, by decide +kernel, by decide +kernel, rfl⟩,
   ⟨{ tb with hoop := { roots := [(31, some 0)] } }, 31, 2 ^ 63, true, 64, 1, by decide +kernel, by decide +kernel, by decide +kernel, by decide +kernel, by decide +kernel⟩⟩

/-- Every clause of O30 is met. -/
theorem witness_BeatCommandsComplete :
    (∃ b : Blk, ∃ m : TickMeasure, b.beat.running = true)
    ∧ (∃ b : Blk, ∃ w : Nat, (w < 200) ∧ (b.mayTake w = true))
    ∧ (∃ b : Blk, ∃ x : Nat, (x < b.beat.len) ∧ (b.rd R.BEAT_SYNC_STATUS_STATE = 1))
    ∧ (∃ b : Blk, ∃ x : Nat, (x < b.beat.len) ∧ (b.rd R.BEAT_SYNC_STATUS_STATE = 2 ∨ b.rd R.BEAT_SYNC_STATUS_STATE = 3))
    ∧ (∃ b : Blk, (b.beat.evaluated = false) ∧ (b.rd R.BEAT_SYNC_STATUS_STATE = syLocked ∨ b.rd R.BEAT_SYNC_STATUS_STATE = syLost))
    ∧ (∃ b : Blk, ∃ p : Page, ∃ i : Nat, ∃ stopped : Nat, ∃ live : Nat, (pageOk p i = true) ∧ (stopped < 40) ∧ (live < 40) ∧ (live ≠ stopped) ∧ ((pageClocks p i).any (fun c => c.code == live) = true) ∧ (([sOff, sReset, sIsolated, sFailed] : List Nat).contains (b.st p i) = false)) :=
  ⟨⟨tRunning, tMeas, by decide +kernel⟩,
   ⟨tMayTake, 0, by decide +kernel, by decide +kernel⟩,
   ⟨(tb.wr R.BEAT_SYNC_STATUS_STATE 1), 0, by decide +kernel, by decide +kernel⟩,
   ⟨(tb.wr R.BEAT_SYNC_STATUS_STATE 3), 0, by decide +kernel, by decide +kernel⟩,
   ⟨(tUneval.wr R.BEAT_SYNC_STATUS_STATE 2), by decide +kernel, by decide +kernel⟩,
   ⟨tO, .hbm, 0, 39, 12, by decide +kernel, by decide +kernel, by decide +kernel, by decide +kernel, by decide +kernel, by decide +kernel⟩⟩

/-- Every clause of O31 is met. -/
theorem witness_BlockStateCommandsComplete :
    (∃ b : Blk, ∃ p : Page, ∃ i : Nat, (pageOk p i = true) ∧ (b.blocksRun = true) ∧ (b.lid.zero = none))
    ∧ (∃ b : Blk, ∃ p : Page, ∃ i : Nat, (pageOk p i = true) ∧ (b.st p i = sReset) ∧ (b.blocksRun = true) ∧ (b.lid.zero = none))
    ∧ (∃ b : Blk, ∃ p : Page, ∃ i : Nat, (pageOk p i = true) ∧ (b.st p i = sQuiescing) ∧ (b.idleAt p i = true))
    ∧ (∃ b : Blk, ∃ p : Page, ∃ i : Nat, (pageOk p i = true) ∧ (b.st p i = sQuiescing) ∧ (b.on (R.PG_CTRL_ISOLATE p) i = true ∨ (b.boot.shut ≠ [] ∧ zeroSpares p = false)))
    ∧ (∃ b : Blk, ∃ p : Page, ∃ i : Nat, (pageOk p i = true) ∧ (b.st p i = sQuiescing) ∧ (b.on (R.PG_CTRL_ISOLATE p) i = false) ∧ (b.boot.shut = [] ∨ zeroSpares p = true))
    ∧ (∃ b : Blk, ∃ p : Page, ∃ i : Nat, (pageOk p i = true) ∧ (b.st p i ≠ sFailed))
    ∧ (∃ b : Blk, ∃ d : Nat, ∃ k : Nat, (d < 4) ∧ (k < 4) ∧ (d ≠ k) ∧ (b.rd R.D2D_STATUS_LINK (4 * d + k) ≠ 0))
    ∧ (∃ b : Blk, ∃ d : Nat, ∃ k : Nat, (d < 4) ∧ (k < 4) ∧ (d ≠ k))
    ∧ (∃ b : Blk, ∃ d : Nat, d < 4)
    ∧ (∃ b : Blk, ∃ d : Nat, d < 4)
    ∧ (∃ b : Blk, ∃ d : Nat, d < 4) :=
  ⟨⟨tO, .stake, 6399, by decide +kernel, by decide +kernel, by decide +kernel⟩,
   ⟨(tO.wr (R.PG_STATE_STATE .hbm) sReset 11), .hbm, 11, by decide +kernel, by decide +kernel, by decide +kernel, by decide +kernel⟩,
   ⟨(tO.wr (R.PG_STATE_STATE .hbm) sQuiescing 11), .hbm, 11, by decide +kernel, by decide +kernel, by decide +kernel⟩,
   ⟨((tO.wr (R.PG_STATE_STATE .hbm) sQuiescing 11).wr (R.PG_CTRL_ISOLATE .hbm) 1 11), .hbm, 11, by decide +kernel, by decide +kernel, by decide +kernel⟩,
   ⟨((tO.wr (R.PG_STATE_STATE .hbm) sQuiescing 11).wr (R.PG_CTRL_ISOLATE .hbm) 0 11), .hbm, 11, by decide +kernel, by decide +kernel, by decide +kernel, by decide +kernel⟩,
   ⟨tO, .hbm, 11, by decide +kernel, by decide +kernel⟩,
   ⟨(tb.wr R.D2D_STATUS_LINK 2 14), 3, 2, by decide +kernel, by decide +kernel, by decide +kernel, by decide +kernel⟩,
   ⟨tb, 3, 2, by decide +kernel, by decide +kernel, by decide +kernel⟩,
   ⟨tb, 3, by decide +kernel⟩,
   ⟨tb, 3, by decide +kernel⟩,
   ⟨tb, 3, by decide +kernel⟩⟩

/-- Every clause of O32 is met. -/
theorem witness_BankCommandsComplete :
    (∃ b : Blk, ∃ n : Nat, ∃ l : List Nat, (n < 12) ∧ (b.serving .bank n = true) ∧ ((b.bank n).desc = none) ∧ (b.rd R.BANK_RING_PUT n ≠ b.rd R.BANK_RING_GET n) ∧ (b.bankEntry n = .ok l) ∧ (applyValid n l = true))
    ∧ (∃ b : Blk, ∃ n : Nat, ∃ l : List Nat, (n < 12) ∧ (b.serving .bank n = true) ∧ ((b.bank n).desc = none) ∧ (b.rd R.BANK_RING_PUT n ≠ b.rd R.BANK_RING_GET n) ∧ (b.bankEntry n = .ok l) ∧ (applyValid n l = false))
    ∧ (∃ b : Blk, ∃ n : Nat, ∃ l : List Nat, (n < 12) ∧ ((b.bank n).desc = some l))
    ∧ (∃ b : Blk, ∃ n : Nat, ∃ l : List Nat, ∃ x : ChunkWork, (n < 12) ∧ ((b.bank n).desc = some l) ∧ ((b.bank n).work = some x) ∧ ((b.bank n).staged.isEmpty = true))
    ∧ (∃ b : Blk, ∃ n : Nat, ∃ a : Nat, ∃ l : List Nat, ∃ x : ChunkWork, (n < 12) ∧ ((b.bank n).desc = some l) ∧ ((b.bank n).work = some x) ∧ (chunkReads (applyDesc l) (b.bank n).chunk (if (applyDesc l).opt = 5 then x.slot else 1 - x.slot) a = true))
    ∧ (∃ b : Blk, ∃ n : Nat, (n < 12) ∧ ((b.bank n).waiting = true) ∧ (b.recHeld 5 n = false))
    ∧ (∃ b : Blk, ∃ n : Nat, ∃ r : List Byte, ∃ l : List (List Byte), ∃ f : Nat, (n < 12) ∧ ((b.bank n).expQ = r :: l) ∧ (f < 2) ∧ (b.rd R.BANK_EXP_ROUTE n = f + 1) ∧ (b.farLive f = true))
    ∧ (∃ b : Blk, ∃ n : Nat, ∃ r : List Byte, ∃ l : List (List Byte), (n < 12) ∧ ((b.bank n).expQ = r :: l) ∧ (b.rd R.BANK_EXP_ROUTE n = 0) ∧ (b.rakUp = true) ∧ (SMap.get none b.rak.expSent n = none)) :=
  ⟨⟨(tRing dApply), 0, dApply, by decide +kernel, by decide +kernel, by decide +kernel, by decide +kernel, by decide +kernel, by decide +kernel⟩,
   ⟨(tRing (dSum 0)), 0, (dSum 0), by decide +kernel, by decide +kernel, by decide +kernel, by decide +kernel, by decide +kernel, by decide +kernel⟩,
   ⟨tBank, 0, _, by decide +kernel, rfl⟩,
   ⟨tBankW, 0, _, _, by decide +kernel, rfl, rfl, by decide +kernel⟩,
   ⟨(tb.setBank 0 { desc := some dApply, work := some tWork }), 0, slowLo + 3, dApply, tWork, by decide +kernel, by decide +kernel, by decide +kernel, by decide +kernel⟩,
   ⟨tBankWait, 0, by decide +kernel, by decide +kernel, by decide +kernel⟩,
   ⟨((tFar.setBank 0 { expQ := [[]] }).wr R.BANK_EXP_ROUTE 2), 0, [], [], 1, by decide +kernel, by decide +kernel, by decide +kernel, by decide +kernel, by decide +kernel⟩,
   ⟨((tSess.setBank 0 { expQ := [[]] }).wr R.BANK_EXP_ROUTE 0), 0, [], [], by decide +kernel, by decide +kernel, by decide +kernel, by decide +kernel, by decide +kernel⟩⟩

/-- Every clause of O33 is met. -/
theorem witness_ReplicaCommandsComplete :
    (∃ b : Blk, ∃ x : Nat, ∃ l : List Nat, b.lossQ = x :: l)
    ∧ (∃ b : Blk, ∃ shard : Nat, shard < 256)
    ∧ (∃ b : Blk, ∃ src : Nat, ∃ shard : Nat, ∃ step : Nat, ∃ d : Nat, (shard < 256) ∧ (step < 2 ^ 24) ∧ (d < 2 ^ 64) ∧ (b.tcAny 6 = true))
    ∧ (∃ b : Blk, ∃ shard : Nat, ∃ step : Nat, ∃ c : DigCmp, ∃ own : Nat, (shard < 256) ∧ (b.dig.cmps.find? (fun c => c.shard == shard && c.step == step) = some c) ∧ (c.own = some own) ∧ (b.rd R.DIG_WAIT ≤ c.waited))
    ∧ (∃ b : Blk, ∃ src : Nat, ∃ shard : Nat, ∃ part : Nat, ∃ chunk : Nat, ∃ step : Nat, ∃ x : DigPart, (shard < 256) ∧ (b.digPart shard part = some x) ∧ (chunk < (applyDesc x.desc).chunks) ∧ (b.tcAny 6 = true))
    ∧ (∃ b : Blk, ∃ src : Nat, ∃ shard : Nat, ∃ part : Nat, ∃ chunk : Nat, ∃ step : Nat, ∃ x : DigPart, ∃ c : RepairChunk, (shard < 256) ∧ (b.digPart shard part = some x) ∧ (chunk < (applyDesc x.desc).chunks) ∧ (b.dig.serve.any (fun f => f.shard == shard && f.step == step && f.rank == src && f.chunks.contains (part, chunk)) = true) ∧ (b.serveChunk x chunk step = .ok c))
    ∧ (∃ b : Blk, ∃ c : RepairChunk, ∃ x : DigPart, (c.shard < 256) ∧ (c.count ≤ chunkLen) ∧ (c.master.length = c.count) ∧ (b.tcAny 6 = true) ∧ (b.dig.fetch.any (fun f => f.shard == c.shard && f.step == c.step && f.chunks.contains (c.part, c.chunk)) = true) ∧ (b.digPart c.shard c.part = some x)) :=
  ⟨⟨tLossQ, 0, [], by decide +kernel⟩,
   ⟨tb, 255, by decide +kernel⟩,
   ⟨tUp, 0, 255, 2 ^ 24 - 1, 2 ^ 64 - 1, by decide +kernel, by decide +kernel, by decide +kernel, by decide +kernel⟩,
   ⟨tCmp, 255, 1, _, _, by decide +kernel, rfl, rfl, by decide +kernel⟩,
   ⟨tPart, 3, 255, 0, 0, 7, tDigPart, by decide +kernel, by decide +kernel, by decide +kernel, by decide +kernel⟩,
   ⟨tPart, 3, 255, 0, 0, 7, tDigPart, tChunk, by decide +kernel, by decide +kernel, by decide +kernel, by decide +kernel, by decide +kernel⟩,
   ⟨tPart, tChunk, tDigPart, by decide +kernel, by decide +kernel, by decide +kernel, by decide +kernel, by decide +kernel, by decide +kernel⟩⟩

/-- Every clause of O34 is met. -/
theorem witness_NearLinkCommandsComplete :
    (∃ b : Blk, ∃ p : Nat, ∃ f : FlitIn, (p < 8) ∧ (f.bit < 2) ∧ (f.plain.length = 243) ∧ (b.flitsPass p = true))
    ∧ (∃ b : Blk, ∃ p : Nat, ∃ ep : Nat, ∃ seq : Nat, ∃ k : Nat, (p < 8) ∧ (ep < 2) ∧ (seq < 2 ^ 15) ∧ (b.flitsPass p = true) ∧ (nakPlace (b.nport p).replay ep seq = some k))
    ∧ (∃ b : Blk, ∃ p : Nat, (p < 8) ∧ (b.flitsPass p = true))
    ∧ (∃ b : Blk, ∃ p : Nat, ∃ l : List (Nat × Nat), ∃ slots : Nat, ∃ b1 : Blk, ∃ b2 : Blk, (p < 8) ∧ (l.all (fun x => decide (x.1 < 8)) = true) ∧ (b.tcOpen p 0 = true) ∧ (b1 = b.each l (fun b x => b.wr (R.NLNK_CREDIT_AVAIL.at x.1) (min (b.rd (R.NLNK_CREDIT_AVAIL.at x.1) p + x.2) (b.rd (R.NLNK_CREDIT_GRANTED.at x.1) p)) p)) ∧ (b2 = (b1.slotsBack p slots).pump p))
    ∧ (∃ b : Blk, ∃ p : Nat, (p < 8) ∧ (b.nearUp p = true))
    ∧ (∃ b : Blk, ∃ p : Nat, ∃ n : Nat, (p < 8) ∧ (n < 8) ∧ (b.nearUp p = true) ∧ (bit (b.nport p).bad n = false))
    ∧ (∃ b : Blk, ∃ p : Nat, ∃ bad : Nat, (p < 8) ∧ (bad < 256) ∧ (b.nearUp p = true))
    ∧ (∃ b : Blk, ∃ p : Nat, ∃ bad : Nat, (p < 8) ∧ (bad < 256) ∧ (b.nearUp p = true))
    ∧ (∃ b : Blk, ∃ p : Nat, ∃ good : Nat, (p < 8) ∧ (good < 256) ∧ (b.link p = lkDegraded))
    ∧ (∃ b : Blk, ∃ p : Nat, (p < 8) ∧ (b.link p = lkDegraded) ∧ ((b.nport p).bad = 0) ∧ (b.on R.NLNK_CTRL_FORCE4 p = false))
    ∧ (∃ b : Blk, ∃ p : Nat, ∃ k : Nat, (p < 8) ∧ (2 ≤ k) ∧ (k ≤ 8) ∧ (b.nearUp p = true))
    ∧ (∃ b : Blk, ∃ p : Nat, ∃ withheld : Bool, ∃ low : Bool, ∃ k : Nat, (p < 8) ∧ (b.nearUp p = true) ∧ (k = (if withheld then max 2 (b.rd R.NLNK_RATE_RX p - 1) else if low then min 8 (b.rd R.NLNK_RATE_RX p + 1) else b.rd R.NLNK_RATE_RX p)))
    ∧ (∃ b : Blk, ∃ p : Nat, ∃ r : List Byte, ∃ b1 : Blk, ∃ b2 : Blk, ∃ b3 : Blk, (p < 8) ∧ (r.length = 16) ∧ (b.nearUp p = true) ∧ (bits (leNat r) 0 8 = b.rd R.TEL_GROUP_GROUP) ∧ (bits (leNat r) 0 8 ≠ 0) ∧ (b1 = b.setNbr p { b.pwr.nbrOf p with want := if bit (leNat r) 16 then some (bits (leNat r) 8 8) else none, reverting := (b.pwr.nbrOf p).reverting && !bit (leNat r) 18 }) ∧ (b2 = (if bit (leNat r) 17 then (b1.setBalance p 0).setNbr p { b1.pwr.nbrOf p with back := 0 } else b1)) ∧ (b3 = (if bit (leNat r) 17 then b2.nearSend p 7 16 (.slack (b2.sideband false true 0)) else b2))) :=
  ⟨⟨tUp, 7, tFlit, by decide +kernel, by decide +kernel, by decide +kernel, by decide +kernel⟩,
   ⟨tReplay, 7, 0, 0, 0, by decide +kernel, by decide +kernel, by decide +kernel, by decide +kernel, by decide +kernel⟩,
   ⟨tUp, 7, by decide +kernel, by decide +kernel⟩,
   ⟨tUp, 7, [(7, 1)], 24, _, _, by decide +kernel, by decide +kernel, by decide +kernel, rfl, rfl⟩,
   ⟨tUp, 7, by decide +kernel, by decide +kernel⟩,
   ⟨tUp, 7, 7, by decide +kernel, by decide +kernel, by decide +kernel, by decide +kernel⟩,
   ⟨tUp, 7, 255, by decide +kernel, by decide +kernel, by decide +kernel⟩,
   ⟨tUp, 7, 255, by decide +kernel, by decide +kernel, by decide +kernel⟩,
   ⟨tDegraded, 7, 255, by decide +kernel, by decide +kernel, by decide +kernel⟩,
   ⟨tDegraded, 7, by decide +kernel, by decide +kernel, by decide +kernel, by decide +kernel⟩,
   ⟨tUp, 7, 2, by decide +kernel, by decide +kernel, by decide +kernel, by decide +kernel⟩,
   ⟨tUp, 7, true, false, _, by decide +kernel, by decide +kernel, rfl⟩,
   ⟨(tUp.wr R.TEL_GROUP_GROUP 1), 7, (1 :: List.replicate 15 0), _, _, _, by decide +kernel, by decide +kernel, by decide +kernel, by decide +kernel, by decide +kernel, rfl, rfl, rfl⟩⟩

/-- Every clause of O35 is met. -/
theorem witness_NearTrainingCommandsComplete :
    (∃ b : Blk, ∃ p : Nat, ∃ r : TrainResult, p < 8)
    ∧ (∃ b : Blk, ∃ p : Nat, (p < 8) ∧ ((b.nport p).step ≠ 0))
    ∧ (∃ b : Blk, ∃ p : Nat, (p < 8) ∧ ((b.nport p).waiting = true) ∧ (b.on R.NLNK_CTRL_TRAIN p = true))
    ∧ (∃ b : Blk, ∃ p : Nat, ∃ r : CapRecord, ∃ b1 : Blk, (p < 8) ∧ ((b.nport p).step = 4) ∧ (b.capCheck p r ≠ 0) ∧ (b1 = ((b.inc R.LID_AUTH_FAIL_CNT).error .nlnk p { cls := eAuth, info0 := b.capCheck p r }).wr R.NLNK_STATUS_LINK lkAuthFailed p))
    ∧ (∃ b : Blk, ∃ p : Nat, ∃ r : CapRecord, ∃ b1 : Blk, (p < 8) ∧ ((b.nport p).step = 4) ∧ (b.capCheck p r = 0) ∧ (b1 = (if (b.nport p).partner = some (capIdentity r) then b else b.endSession p)))
    ∧ (∃ b : Blk, ∃ p : Nat, ∃ present : Bool, p < 8)
    ∧ (∃ b : Blk, ∃ p : Nat, ∃ ma : Nat, ∃ b1 : Blk, (p < 8) ∧ (2000 < ma) ∧ (b.on R.NLNK_LOAD_ON p = true) ∧ (b1 = ((b.wr R.NLNK_LOAD_MA (min 4095 ma) p).wr R.NLNK_LOAD_TRIPPED 1 p).loadSwitch p))
    ∧ (∃ b : Blk, ∃ p : Nat, (p < 8) ∧ (b.on R.NLNK_LOAD_TRIPPED p = true) ∧ ((b.nport p).trips = 1))
    ∧ (∃ b : Blk, ∃ p : Nat, (p < 8) ∧ (b.sessionUp p = true))
    ∧ (∃ b : Blk, ∃ p : Nat, ∃ k : Nat, (p < 8) ∧ (b.sessionUp p = true) ∧ (k = b.rd R.NKEY_RX_EPOCH p + 1) ∧ (b.on R.NKEY_STATUS_RX_TWO p = false))
    ∧ (∃ b : Blk, ∃ p : Nat, ∃ k : Nat, (p < 8) ∧ ((b.nport p).rxNext = some k))
    ∧ (∃ b : Blk, ∃ p : Nat, ∃ k : Nat, (p < 8) ∧ ((b.nport p).txAsked = true) ∧ (k = b.rd R.NKEY_TX_EPOCH p + 1))
    ∧ (∃ b : Blk, ∃ p : Nat, ∃ k : Nat, (p < 8) ∧ (b.on R.NKEY_STATUS_RX_TWO p = true) ∧ (k + 1 = b.rd R.NKEY_RX_EPOCH p)) :=
  ⟨⟨tb, 7, {}, by decide +kernel⟩,
   ⟨tStep4, 7, by decide +kernel, by decide +kernel⟩,
   ⟨tWaiting, 7, by decide +kernel, by decide +kernel, by decide +kernel⟩,
   ⟨tStep4, 7, tCapBad, _, by decide +kernel, by decide +kernel, by decide +kernel, rfl⟩,
   ⟨tStep4, 7, tCapGood, _, by decide +kernel, by decide +kernel, by decide +kernel, rfl⟩,
   ⟨tb, 7, true, by decide +kernel⟩,
   ⟨(tb.wr R.NLNK_LOAD_ON 1 7), 7, 2001, _, by decide +kernel, by decide +kernel, by decide +kernel, rfl⟩,
   ⟨tTripped, 7, by decide +kernel, by decide +kernel, by decide +kernel⟩,
   ⟨tUp, 7, by decide +kernel, by decide +kernel⟩,
   ⟨tUp, 7, 1, by decide +kernel, by decide +kernel, by decide +kernel, by decide +kernel⟩,
   ⟨tRxNext, 7, 1, by decide +kernel, by decide +kernel⟩,
   ⟨tTxAsked, 7, 1, by decide +kernel, by decide +kernel, by decide +kernel⟩,
   ⟨((tb.wr R.NKEY_STATUS_RX_TWO 1 7).wr R.NKEY_RX_EPOCH 1 7), 7, 0, by decide +kernel, by decide +kernel, by decide +kernel⟩⟩

/-- Every clause of O36 is met. -/
theorem witness_BorderRecordCommandsComplete :
    (∃ b : Blk, ∃ p : Nat, ∃ k : BKey, ∃ b1 : Blk, (p < 8) ∧ (bkeyOk k = true) ∧ (b.tcOpen p 1 = true) ∧ (b.attemptGate k.step k.attempt = (b1, 0)))
    ∧ (∃ b : Blk, ∃ p : Nat, ∃ k : BKey, ∃ b1 : Blk, (p < 8) ∧ (bkeyOk k = true) ∧ (b.tcOpen p 1 = true) ∧ (b.attemptGate k.step k.attempt = (b1, 0)))
    ∧ (∃ b : Blk, ∃ p : Nat, ∃ k : BKey, ∃ r : Nat, ∃ data : List Nat, ∃ b1 : Blk, (p < 8) ∧ (bkeyOk k = true) ∧ (b.tcOpen p 1 = true) ∧ (b.attemptGate k.step k.attempt = (b1, 0)))
    ∧ (∃ b : Blk, ∃ p : Nat, ∃ k : BKey, ∃ first : Nat, ∃ block : Nat, ∃ data : List Byte, ∃ b1 : Blk, (p < 8) ∧ (bkeyOk k = true) ∧ (b.tcOpen p 1 = true) ∧ (b.attemptGate k.step k.attempt = (b1, 0)))
    ∧ (∃ b : Blk, ∃ p : Nat, ∃ k : BKey, ∃ first : Nat, ∃ block : Nat, ∃ b1 : Blk, (p < 8) ∧ (bkeyOk k = true) ∧ (b.tcOpen p 1 = true) ∧ (b.attemptGate k.step k.attempt = (b1, 0)))
    ∧ (∃ b : Blk, ∃ p : Nat, ∃ h : Handover, ∃ group : Nat, ∃ b1 : Blk, (p < 8) ∧ (h.slot < 24) ∧ (h.back = false) ∧ (h.step < 2 ^ 24) ∧ (h.mb < 2 ^ 16) ∧ (h.attempt < 256) ∧ (h.variant < 256) ∧ (b.tcOpen p 3 = true) ∧ (b.attemptGate h.step h.attempt = (b1, 0)))
    ∧ (∃ b : Blk, ∃ p : Nat, ∃ h : Handover, ∃ group : Nat, (p < 8) ∧ (h.slot < 24) ∧ (h.back = false) ∧ (h.step < 2 ^ 24) ∧ (h.mb < 2 ^ 16) ∧ (h.attempt < 256) ∧ (h.variant < 256))
    ∧ (∃ b : Blk, ∃ p : Nat, ∃ h : Handover, ∃ group : Nat, ∃ b1 : Blk, (p < 8) ∧ (h.slot < 24) ∧ (h.back = true) ∧ (h.step < 2 ^ 24) ∧ (h.mb < 2 ^ 16) ∧ (h.attempt < 256) ∧ (h.variant < 256) ∧ (b.tcOpen p 3 = true) ∧ (b.attemptGate h.step h.attempt = (b1, 0)))
    ∧ (∃ b : Blk, ∃ p : Nat, ∃ h : Handover, ∃ group : Nat, (p < 8) ∧ (h.slot < 24) ∧ (h.back = true) ∧ (h.step < 2 ^ 24) ∧ (h.mb < 2 ^ 16) ∧ (h.attempt < 256) ∧ (h.variant < 256))
    ∧ (∃ b : Blk, ∃ p : Nat, ∃ x : ExpertHdr, ∃ n : Nat, ∃ size : Nat, ∃ b1 : Blk, (p < 8) ∧ (x.group < 256) ∧ (x.step < 2 ^ 24) ∧ (x.attempt < 256) ∧ (x.xid < 2 ^ 16) ∧ (x.rank < 2 ^ 16) ∧ (n < 2 ^ 32) ∧ (size < 2 ^ 32) ∧ (b.tcOpen p 4 = true) ∧ (b.attemptGate x.step x.attempt = (b1, 0)))
    ∧ (∃ b : Blk, ∃ p : Nat, ∃ x : ExpertHdr, ∃ data : List Byte, ∃ b1 : Blk, (p < 8) ∧ (x.group < 256) ∧ (x.step < 2 ^ 24) ∧ (x.attempt < 256) ∧ (x.xid < 2 ^ 16) ∧ (x.rank < 2 ^ 16) ∧ (b.tcOpen p 4 = true) ∧ (b.attemptGate x.step x.attempt = (b1, 0)))
    ∧ (∃ b : Blk, ∃ p : Nat, ∃ x : ExpertHdr, ∃ n : Nat, ∃ size : Nat, (p < 8) ∧ (x.group < 256) ∧ (x.step < 2 ^ 24) ∧ (x.attempt < 256) ∧ (x.xid < 2 ^ 16) ∧ (x.rank < 2 ^ 16) ∧ (n < 2 ^ 32) ∧ (size < 2 ^ 32))
    ∧ (∃ b : Blk, ∃ p : Nat, ∃ x : ExpertHdr, ∃ data : List Byte, (p < 8) ∧ (x.group < 256) ∧ (x.step < 2 ^ 24) ∧ (x.attempt < 256) ∧ (x.xid < 2 ^ 16) ∧ (x.rank < 2 ^ 16))
    ∧ (∃ b : Blk, ∃ p : Nat, ∃ group : Nat, ∃ layer : Nat, ∃ rank : Nat, ∃ version : Nat, ∃ data : List Byte, (p < 8) ∧ (group < 256) ∧ (layer < 2 ^ 16) ∧ (rank < 2 ^ 16) ∧ (version < 2 ^ 64) ∧ (b.tcOpen p 2 = true))
    ∧ (∃ b : Blk, ∃ p : Nat, ∃ step : Nat, ∃ attempt : Nat, ∃ cls : Nat, ∃ origin : Nat, ∃ group : Nat, ∃ bucket : Nat, (p < 8) ∧ (step < 2 ^ 24) ∧ (attempt < 256) ∧ (cls < 256) ∧ (origin < 2 ^ 14) ∧ (group < 256) ∧ (bucket < 65536) ∧ (b.tcOpen p 0 = true))
    ∧ (∃ b : Blk, ∃ r : GatherQ, ∃ back : Bool, ∃ step : Nat, (r.group < 256) ∧ (r.commit < 2 ^ 24) ∧ (r.shard < 256) ∧ (r.attempt < 256) ∧ (step < 2 ^ 24) ∧ (r.layer < 2 ^ 16) ∧ (r.peer < 2 ^ 16) ∧ (b.tcAny 2 = true))
    ∧ (∃ b : Blk, ∃ data : List Byte, ∃ r : GatherReq, (data.length < 2 ^ 32) ∧ (b.border.gwait.find? (fun r => b.mayServe r) = some r)) :=
  ⟨⟨tUp, 7, tKey, _, by decide +kernel, by decide +kernel, by decide +kernel, rfl⟩,
   ⟨tUp, 7, tKey, _, by decide +kernel, by decide +kernel, by decide +kernel, rfl⟩,
   ⟨tUp, 7, tKey, 0, [], _, by decide +kernel, by decide +kernel, by decide +kernel, rfl⟩,
   ⟨tUp, 7, tKey, 0, 0, [], _, by decide +kernel, by decide +kernel, by decide +kernel, rfl⟩,
   ⟨tUp, 7, tKey, 0, 0, _, by decide +kernel, by decide +kernel, by decide +kernel, rfl⟩,
   ⟨tUp, 7, tHo false, 0, _, by decide +kernel, by decide +kernel, by decide +kernel, by decide +kernel, by decide +kernel, by decide +kernel, by decide +kernel, by decide +kernel, rfl⟩,
   ⟨tUp, 7, tHo false, 0, by decide +kernel, by decide +kernel, by decide +kernel, by decide +kernel, by decide +kernel, by decide +kernel, by decide +kernel⟩,
   ⟨tUp, 7, tHo true, 0, _, by decide +kernel, by decide +kernel, by decide +kernel, by decide +kernel, by decide +kernel, by decide +kernel, by decide +kernel, by decide +kernel, rfl⟩,
   ⟨tUp, 7, tHo true, 0, by decide +kernel, by decide +kernel, by decide +kernel, by decide +kernel, by decide +kernel, by decide +kernel, by decide +kernel⟩,
   ⟨tUp, 7, tExpert, 1, 64, _, by decide +kernel, by decide +kernel, by decide +kernel, by decide +kernel, by decide +kernel, by decide +kernel, by decide +kernel, by decide +kernel, by decide +kernel, rfl⟩,
   ⟨tUp, 7, tExpert, [], _, by decide +kernel, by decide +kernel, by decide +kernel, by decide +kernel, by decide +kernel, by decide +kernel, by decide +kernel, rfl⟩,
   ⟨tUp, 7, tExpert, 1, 64, by decide +kernel, by decide +kernel, by decide +kernel, by decide +kernel, by decide +kernel, by decide +kernel, by decide +kernel, by decide +kernel⟩,
   ⟨tUp, 7, tExpert, [], by decide +kernel, by decide +kernel, by decide +kernel, by decide +kernel, by decide +kernel, by decide +kernel⟩,
   ⟨tUp, 7, 255, 0, 0, 2 ^ 64 - 1, [], by decide +kernel, by decide +kernel, by decide +kernel, by decide +kernel, by decide +kernel, by decide +kernel⟩,
   ⟨tUp, 7, 1, 0, 10, 0, 0, 0, by decide +kernel, by decide +kernel, by decide +kernel, by decide +kernel, by decide +kernel, by decide +kernel, by decide +kernel, by decide +kernel⟩,
   ⟨tUp, tGather, false, 0, by decide +kernel, by decide +kernel, by decide +kernel, by decide +kernel, by decide +kernel, by decide +kernel, by decide +kernel, by decide +kernel⟩,
   ⟨tPart, [], { src := 0, group := 0, layer := 0, commit := 7, shard := 255, attempt := 0 }, by decide +kernel, by decide +kernel⟩⟩

/-- Every clause of O37 is met. -/
theorem witness_BorderEngineCommandsComplete :
    (∃ b : Blk, b.rd R.NRED_POST_PUT ≠ b.rd R.NRED_POST_GET)
    ∧ (∃ b : Blk, ∃ k : BKey, ∃ x : Bucket, (bkeyOk k = true) ∧ (b.bucket? k = some x) ∧ (x.complete = false) ∧ (x.left = some 0))
    ∧ (∃ b : Blk, ∃ group : Nat, ∃ step : Nat, ∃ attempt : Nat, (group < 256) ∧ (step < 2 ^ 24) ∧ (attempt < 256) ∧ (b.border.gexp.any (fun x => x.group == group && x.step == step && x.attempt == attempt && x.left == some 0) = true))
    ∧ (∃ b : Blk, ∃ p : Nat, ∃ channel : Nat, ∃ group : Nat, (p < 8) ∧ (channel < 4) ∧ (group < 256) ∧ (b.tcOpen p 5 = true) ∧ (SMap.get 0 b.border.join (swKey channel group) = 1))
    ∧ (∃ b : Blk, ∃ p : Nat, ∃ channel : Nat, ∃ group : Nat, (p < 8) ∧ (channel < 4) ∧ (group < 256) ∧ (b.tcOpen p 5 = true) ∧ (SMap.get 0 b.border.join (swKey channel group) = 1))
    ∧ (∃ b : Blk, ∃ p : Nat, ∃ r : SwRec, (p < 8) ∧ (r.channel < 4) ∧ (r.step < 2 ^ 24) ∧ (r.attempt < 256) ∧ (r.msg = 4) ∧ (r.vals.all (fun v => decide (v < 2 ^ 64)) = true) ∧ (b.tcOpen p 5 = true))
    ∧ (∃ b : Blk, ∃ c : Nat, c < 8)
    ∧ (∃ b : Blk, ∃ c : Nat, (8 ≤ c) ∧ (c < 10))
    ∧ (∃ b : Blk, ∃ c : Nat, c < 8)
    ∧ (∃ b : Blk, ∃ c : Nat, (8 ≤ c) ∧ (c < 10)) :=
  ⟨⟨(tO.wr R.NRED_POST_PUT 1), by decide +kernel⟩,
   ⟨tBucket, tKey, _, by decide +kernel, rfl, by decide +kernel, by decide +kernel⟩,
   ⟨tGexp, 255, 1, 0, by decide +kernel, by decide +kernel, by decide +kernel, by decide +kernel⟩,
   ⟨tJoin, 7, 3, 255, by decide +kernel, by decide +kernel, by decide +kernel, by decide +kernel, by decide +kernel⟩,
   ⟨tJoin, 7, 3, 255, by decide +kernel, by decide +kernel, by decide +kernel, by decide +kernel, by decide +kernel⟩,
   ⟨tUp, 7, tSw, by decide +kernel, by decide +kernel, by decide +kernel, by decide +kernel, by decide +kernel, by decide +kernel, by decide +kernel⟩,
   ⟨tb, 7, by decide +kernel⟩,
   ⟨tb, 9, by decide +kernel, by decide +kernel⟩,
   ⟨tb, 7, by decide +kernel⟩,
   ⟨tb, 9, by decide +kernel, by decide +kernel⟩⟩

/-- Every clause of O38 is met. -/
theorem witness_FarRecordCommandsComplete :
    (∃ b : Blk, ∃ h : FarHdr, ∃ seq : Nat, ∃ time : Nat, ∃ turn : Nat, ∃ f : Blk → Blk, (hdrOk h = true) ∧ (f = (fun b1 : Blk => if ((b1.fpeer h.peer).route h.port).st = rtLost ∨ ((b1.fpeer h.peer).route h.port).st = rtReturning then (b1.setFpeer h.peer ((b1.fpeer h.peer).setRoute h.port { (b1.fpeer h.peer).route h.port with st := rtReturning, hb := ((b1.fpeer h.peer).route h.port).hb + 1 })).routeBack h.peer h.port else b1)))
    ∧ (∃ b : Blk, ∃ h : FarHdr, ∃ sample : Nat, hdrOk h = true)
    ∧ (∃ b : Blk, ∃ h : FarHdr, ∃ below : Nat, ∃ ranges : List (Nat × Nat), ∃ window : Nat, ∃ c : FarSent → Bool, (hdrOk h = true) ∧ (ranges.length ≤ 64) ∧ (below < 2 ^ 64) ∧ (window < 2 ^ 64) ∧ (c = (fun x : FarSent => decide (x.num < below) || ranges.any (fun r => decide (r.1 ≤ x.num) && decide (x.num ≤ r.2)))))
    ∧ (∃ b : Blk, ∃ h : FarHdr, ∃ l : List Byte, (hdrOk h = true) ∧ (l.length = 8192))
    ∧ (∃ b : Blk, ∃ h : FarHdr, ∃ r : Nat, (hdrOk h = true) ∧ (r < 2))
    ∧ (∃ b : Blk, ∃ h : FarHdr, ∃ ep : Nat, (hdrOk h = true) ∧ (ep < 2 ^ 16))
    ∧ (∃ b : Blk, ∃ peer : Nat, (peer < 8) ∧ (b.fsess peer = 2) ∧ ((b.fpeer peer).ackDue ≠ 0))
    ∧ (∃ b : Blk, ∃ peer : Nat, ∃ rec : Nat, ∃ x : FarSent, (peer < 8) ∧ (b.fsess peer = 2) ∧ ((b.fpeer peer).sent.find? (fun x => x.num == rec) = some x))
    ∧ (∃ b : Blk, ∃ now : Nat, ∃ l : List FarAnswer, ∃ b1 : Blk, (l.all (fun a => decide (a.site < 8)) = true) ∧ (b1 = (if b.on R.FXP_CTRL_EN && (b.serving .fxp 0 || b.serving .fxp 1) then b.each l Blk.sessionAnswer else b)))
    ∧ (∃ b : Blk, ∃ peer : Nat, ∃ r : Nat, ∃ b1 : Blk, (peer < 8) ∧ (r < 2) ∧ (b.fsess peer = 2) ∧ (((b.fpeer peer).route r).st = rtData ∨ ((b.fpeer peer).route r).st = rtStandby) ∧ (b1 = ((b.inc R.FXP_ROUTE_LOST_CNT r).error .fxp r { cls := eRoute, info0 := peer + b.rd R.FXP_ROUND * 2 ^ 8 }).event .fxp 16 r))
    ∧ (∃ b : Blk, ∃ peer : Nat, ∃ age : Nat, (peer < 8) ∧ (b.fsess peer = 2) ∧ (b.rd R.LID_FAR_REKEY_S ≤ age ∨ b.farEpochFull peer = true))
    ∧ (∃ b : Blk, ∃ peer : Nat, peer < 8) :=
  ⟨⟨tb, tHdr, 0, 0, 0, _, by decide +kernel, rfl⟩,
   ⟨tb, tHdr, 0, by decide +kernel⟩,
   ⟨tb, tHdr, 0, [], 0, _, by decide +kernel, by decide +kernel, by decide +kernel, by decide +kernel, rfl⟩,
   ⟨tb, tHdr, (List.replicate 8192 0), by decide +kernel, by decide +kernel⟩,
   ⟨tb, tHdr, 1, by decide +kernel, by decide +kernel⟩,
   ⟨tb, tHdr, 2 ^ 16 - 1, by decide +kernel, by decide +kernel⟩,
   ⟨tAckDue, 7, by decide +kernel, by decide +kernel, by decide +kernel⟩,
   ⟨tSent, 7, 0, _, by decide +kernel, by decide +kernel, rfl⟩,
   ⟨tb, 0, [], _, by decide +kernel, rfl⟩,
   ⟨tRoute, 7, 1, _, by decide +kernel, by decide +kernel, by decide +kernel, by decide +kernel, rfl⟩,
   ⟨tAckDue, 7, 2 ^ 32, by decide +kernel, by decide +kernel, by decide +kernel⟩,
   ⟨tb, 7, by decide +kernel⟩⟩

/-- Every clause of O39 is met. -/
theorem witness_FarEngineCommandsComplete :
    (∃ b : Blk, ∃ f : Nat, f < 2)
    ∧ (∃ b : Blk, ∃ f : Nat, f < 2)
    ∧ (∃ b : Blk, ∃ f : Nat, f < 2)
    ∧ (∃ b : Blk, ∃ f : Nat, f < 2)
    ∧ (∃ b : Blk, ∃ f : Nat, ∃ n : Nat, f < 2)
    ∧ (∃ b : Blk, ∃ f : Nat, ∃ t : Nat, ∃ b1 : Blk, ∃ l : List Byte, (f < 2) ∧ (b.farLive f = true) ∧ ((b.add64 R.FMAC_RX_FRAMES_LO R.FMAC_RX_FRAMES_HI 1 f).peerEntry (b.add64 R.FMAC_RX_FRAMES_LO R.FMAC_RX_FRAMES_HI 1 f).site = (b1, some l)) ∧ (t = leNat ((l.drop (8 + 16 * f)).take 16)))
    ∧ (∃ b : Blk, ∃ f : Nat, ∃ t : Nat, ∃ mac : Nat, ∃ b1 : Blk, ∃ l : List Byte, (f < 2) ∧ (b.farLive f = true) ∧ ((b.add64 R.FMAC_RX_FRAMES_LO R.FMAC_RX_FRAMES_HI 1 f).peerEntry (b.add64 R.FMAC_RX_FRAMES_LO R.FMAC_RX_FRAMES_HI 1 f).site = (b1, some l)) ∧ (t = leNat ((l.drop (0x28 + 16 * f)).take 16)))
    ∧ (∃ b : Blk, ∃ f : Nat, ∃ lanes : Nat, (f < 2) ∧ (lanes < 15))
    ∧ (∃ b : Blk, ∃ f : Nat, (f < 2) ∧ (b.on R.FMAC_CTRL_EN f = true) ∧ (b.on R.FMAC_STATUS_LINK f = false))
    ∧ (∃ b : Blk, ∃ b1 : Blk, ∃ l : List Byte, ((b.serving .fxp 0 || b.serving .fxp 1) = true) ∧ (b.rd R.FXP_SQ_PUT ≠ b.rd R.FXP_SQ_GET) ∧ (b.loadVa modXl clsH none (b.rdAddr R.FXP_SQ_BASE_LO R.FXP_SQ_BASE_HI + b.rd R.FXP_SQ_GET % 2 ^ b.rd R.FXP_SQ_SIZE * 32) 32 = (b1, .ok l)))
    ∧ (∃ b : Blk, ∃ b1 : Blk, ∃ f : Fail, ((b.serving .fxp 0 || b.serving .fxp 1) = true) ∧ (b.rd R.FXP_SQ_PUT ≠ b.rd R.FXP_SQ_GET) ∧ (b.loadVa modXl clsH none (b.rdAddr R.FXP_SQ_BASE_LO R.FXP_SQ_BASE_HI + b.rd R.FXP_SQ_GET % 2 ^ b.rd R.FXP_SQ_SIZE * 32) 32 = (b1, .error f)))
    ∧ (∃ b : Blk, ∃ mid : Nat, ∃ signer : Option Nat, ∃ m : RecvMsg, (midOk mid = true) ∧ (midType mid = 2) ∧ (b.recvMsg? mid = some m) ∧ (m.whole = true) ∧ (m.seq = none) ∧ (b.far.waiting.any (fun x => x.1 == mid) = false))
    ∧ (∃ b : Blk, ∃ mid : Nat, (b.ownContribution b.nextRound = some mid) ∧ (b.far.closing = none) ∧ (b.on R.FXP_CTRL_JOIN = false))
    ∧ (∃ b : Blk, ∃ x : ManOut, b.far.closing = some x)
    ∧ (∃ b : Blk, ∃ mid : Nat, (midOk mid = true) ∧ (midType mid = 1) ∧ (b.far.last.any (fun x => x.mid == mid) = true) ∧ (midSite mid ≠ b.site) ∧ (b.far.lastKeeper ≠ b.site) ∧ ((match b.recvMsg? mid with | some m => m.complete | none => false) = false))
    ∧ (∃ b : Blk, ∃ f : Nat, f < 2)
    ∧ (∃ b : Blk, ∃ f : Nat, f < 2)
    ∧ (∃ b : Blk, ∃ f : Nat, ∃ j : FJob, ∃ c : Nat, ∃ d : Nat, ∃ ring : Nat, ∃ o : Blk × Option Fail, ∃ b1 : Blk, ∃ b2 : Blk, ∃ b3 : Blk, (f < 2) ∧ (b.fjob f = some j) ∧ (j.ended = some (c, d)) ∧ (o = b.storeVa modXl (b.fjobCls f) none (b.fjobVa f + 56) (natLe 8 (j.pos + 2 ^ 40 * c + 2 ^ 48 * d + 2 ^ 63))) ∧ (ring = b.rd R.FCOD_JOB_GET f % 2 ^ b.rd R.FCOD_JOB_SIZE f) ∧ (b1 = (match o.2 with | none => o.1 | some e => o.1.error .fcod f { cls := e.cls, info1 := ring, addr := if e.cls = eEcc then e.pa else e.va + 2 ^ 63 })) ∧ (b2 = (if c = 0 ∨ c = eCodec then b1 else b1.error .fcod f { cls := c, info1 := ring })) ∧ (b3 = ((b2.setFjob f none).addW R.FCOD_JOB_GET 1 f).event .fcod 19 f)) :=
  ⟨⟨tb, 1, by decide +kernel⟩,
   ⟨tb, 1, by decide +kernel⟩,
   ⟨tb, 1, by decide +kernel⟩,
   ⟨tb, 1, by decide +kernel⟩,
   ⟨tb, 1, 1, by decide +kernel⟩,
   ⟨tFar, 1, 0, ((tFar.add64 R.FMAC_RX_FRAMES_LO R.FMAC_RX_FRAMES_HI 1 1).peerEntry (tFar.add64 R.FMAC_RX_FRAMES_LO R.FMAC_RX_FRAMES_HI 1 1).site).1, (List.replicate 128 0), by decide +kernel, by decide +kernel, by decide +kernel, by decide +kernel⟩,
   ⟨tFar, 1, 0, 1, ((tFar.add64 R.FMAC_RX_FRAMES_LO R.FMAC_RX_FRAMES_HI 1 1).peerEntry (tFar.add64 R.FMAC_RX_FRAMES_LO R.FMAC_RX_FRAMES_HI 1 1).site).1, (List.replicate 128 0), by decide +kernel, by decide +kernel, by decide +kernel, by decide +kernel⟩,
   ⟨tb, 1, 14, by decide +kernel, by decide +kernel⟩,
   ⟨(tb.wr R.FMAC_CTRL_EN 1 1), 1, by decide +kernel, by decide +kernel, by decide +kernel⟩,
   ⟨tFar, (tFar.readVa modXl clsH (tFar.rdAddr R.FXP_SQ_BASE_LO R.FXP_SQ_BASE_HI + tFar.rd R.FXP_SQ_GET % 2 ^ tFar.rd R.FXP_SQ_SIZE * 32) 32).1, (List.replicate 32 0), by decide +kernel, by decide +kernel, by decide +kernel⟩,
   ⟨tFarBad, (tFarBad.readVa modXl clsH (tFarBad.rdAddr R.FXP_SQ_BASE_LO R.FXP_SQ_BASE_HI + tFarBad.rd R.FXP_SQ_GET % 2 ^ tFarBad.rd R.FXP_SQ_SIZE * 32) 32).1, (sqErr tFarBad), by decide +kernel, by decide +kernel, by decide +kernel⟩,
   ⟨tRecv, tMid 2 1, none, _, by decide +kernel, by decide +kernel, rfl, by decide +kernel, by decide +kernel, by decide +kernel⟩,
   ⟨{ tO with far := { own := [(1, 5)] } }, 5, by decide +kernel, by decide +kernel, by decide +kernel⟩,
   ⟨{ tO with far := { closing := some ⟨1, 0, []⟩ } }, ⟨1, 0, []⟩, by decide +kernel⟩,
   ⟨{ tO with far := { last := [tEntry], lastKeeper := 3 } }, tMid 1 3, by decide +kernel, by decide +kernel, by decide +kernel, by decide +kernel, by decide +kernel, by decide +kernel⟩,
   ⟨tb, 1, by decide +kernel⟩,
   ⟨tb, 1, by decide +kernel⟩,
   ⟨{ tO with far := { jobs := [(1, some { desc := [0, 0, 0, 0, 0, 0, 0, 0], ended := some (0, 0) })] } }, 1, { desc := [0, 0, 0, 0, 0, 0, 0, 0], ended := some (0, 0) }, 0, 0, _, _, _, _, _, by decide +kernel, by decide +kernel, by decide +kernel, rfl, rfl, rfl, rfl, rfl⟩⟩

/-- Every clause of O40 is met. -/
theorem witness_PowerCommandsComplete :
    (∃ b : Blk, ∃ v : Nat, ∃ b1 : Blk, (b.pwr.warn = false) ∧ (b.draw = (v, b1)))
    ∧ (∃ b : Blk, b.pwr.warn = true)
    ∧ (∃ b : Blk, (b.pwr.warn = true) ∧ (b.pwr.relRun = true))
    ∧ (∃ b : Blk, ∃ v : Nat, ∃ b1 : Blk, (b.pwr.alertPin = false) ∧ (2 ≤ b.boot.stage) ∧ (b.boot.refHeld = false) ∧ (({ b with pwr := { b.pwr with alertPin := true } }).draw = (v, b1)))
    ∧ (∃ b : Blk, (b.pwr.alertPin = false) ∧ (b.boot.stage < 2 ∨ b.boot.refHeld = true))
    ∧ (∃ b : Blk, b.pwr.alert = true)
    ∧ (∃ b : Blk, ∃ mw : Nat, ∃ hi : Bool, ∃ lo : Bool, ∃ slow : Bool, ∃ m : SMap Nat, (b.on R.PWC_CTRL_FAST = true) ∧ (b.pwcUp = true) ∧ (hi = decide ((mw : Int) > b.effCap * (if b.on R.PWC_STATE_UNTRUSTED then 900 else 1020))) ∧ (lo = decide ((mw : Int) < b.effCap * (if b.on R.PWC_STATE_UNTRUSTED then 850 else 950))) ∧ (m = [0, 1, 2, 3].foldl (fun m d => SMap.set 0 m d (if hi then min 60 (b.pwr.ctlOf d + 1) else if lo ∧ b.pwr.ctlOf d > b.pwr.div then b.pwr.ctlOf d - 1 else b.pwr.ctlOf d)) b.pwr.ctl) ∧ (slow = (if [0, 1, 2, 3].all (fun d => SMap.get 0 m d == 60) && hi then true else if (mw : Int) < b.effCap * 1000 then false else b.pwr.slow)))
    ∧ (∃ b : Blk, ∃ x : Nat, ∃ m : Nat, ∃ n : Nat, (b.on R.PWC_STATE_UNTRUSTED = false) ∧ (n = (if ((x : Int) - m).natAbs * 100 > 15 * m then b.pwr.bad + 1 else 0)) ∧ (n < 10))
    ∧ (∃ b : Blk, ∃ x : Nat, ∃ m : Nat, (b.on R.PWC_STATE_UNTRUSTED = false) ∧ (((x : Int) - m).natAbs * 100 > 15 * m) ∧ (9 ≤ b.pwr.bad))
    ∧ (∃ b : Blk, ∃ x : Nat, ∃ m : Nat, ∃ n : Nat, (b.on R.PWC_STATE_UNTRUSTED = true) ∧ (n = (if ((x : Int) - m).natAbs * 100 > 15 * m then 0 else b.pwr.good + 1)))
    ∧ (∃ b : Blk, ∃ d : Nat, d < 4)
    ∧ (∃ b : Blk, ∃ k : Nat, (k < 256) ∧ ((b.sensor k).stopped = false))
    ∧ (∃ b : Blk, ∃ t : Int, ∃ out : Bool, out = (decide (t < 240) || decide (720 < t)))
    ∧ (∃ b : Blk, ∃ b1 : Blk, (b.pwr.leakPin = false) ∧ (b.on R.TEL_STATUS_LEAK = false) ∧ (b1 = { b with pwr := { b.pwr with leakPin := true } })) :=
  ⟨⟨tb, _, _, by decide +kernel, rfl⟩,
   ⟨(tPwr { warn := true }), by decide +kernel⟩,
   ⟨(tPwr { warn := true, relRun := true }), by decide +kernel, by decide +kernel⟩,
   ⟨(tBoot { stage := 2 }), _, _, by decide +kernel, by decide +kernel, by decide +kernel, rfl⟩,
   ⟨(tBoot { stage := 1 }), by decide +kernel, by decide +kernel⟩,
   ⟨(tPwr { alert := true, alertPin := true }), by decide +kernel⟩,
   ⟨tO, 2500000, _, _, _, _, by decide +kernel, by decide +kernel, rfl, rfl, rfl, rfl⟩,
   ⟨tb, 1, 0, _, by decide +kernel, rfl, by decide +kernel⟩,
   ⟨(tPwr { bad := 9 }), 116, 100, by decide +kernel, by decide +kernel, by decide +kernel⟩,
   ⟨((tPwr { good := 999 }).wr R.PWC_STATE_UNTRUSTED 1), 115, 100, _, by decide +kernel, rfl⟩,
   ⟨tb, 3, by decide +kernel⟩,
   ⟨tb, 255, by decide +kernel, by decide +kernel⟩,
   ⟨tb, 720, _, rfl⟩,
   ⟨tb, _, by decide +kernel, by decide +kernel, rfl⟩⟩

/-- Every clause of O41 is met. -/
theorem witness_BootCommandsComplete :
    (∃ b : Blk, b.boot.refHeld = true)
    ∧ (∃ b : Blk, ∃ l : List Bool, ∃ ok : Bool, ∃ b1 : Blk, ∃ b2 : Blk, (b.boot.stage = 1) ∧ (b.boot.refHeld = false) ∧ (b1 = { b with boot := { b.boot with stage := 2 }, beat := { b.beat with running := true } }) ∧ (b2 = (if b1.pwr.alertPin then b1.alertIn else b1)))
    ∧ (∃ b : Blk, (b.own ≠ 3) ∧ (b.lid.zero = none) ∧ (b.boot.inWarm = false) ∧ (b.boot.refHeld = false))
    ∧ (∃ b : Blk, (2 ≤ b.boot.stage) ∧ (b.boot.stage < 5) ∧ (b.boot.inWarm = false))
    ∧ (∃ b : Blk, ∃ row : Nat, ∃ unit : Nat, ∃ ok : Bool, ∃ us : Nat, ∃ x : BootStep, ∃ b1 : Blk, ∃ b2 : Blk, ∃ b3 : Blk, (row < 9) ∧ (b.boot.steps.find? (fun x => x.row == row && x.unit == unit && x.st == 1) = some x) ∧ (b1 = b.stepSet x 2) ∧ (b2 = (if ok || row == 7 || row == 8 then b1.each (b1.stepPages x) (fun b y => b.leaveReset y.1 y.2.1) else b1.stepFailed x)) ∧ (b3 = (if row = 5 then { b2 with boot := { b2.boot with isoBack := b2.boot.isoBack.filter (fun w => w / 50 != unit) } } else b2)))
    ∧ (∃ b : Blk, (b.boot.inWarm = true) ∧ (b.pwr.trip = false))
    ∧ (∃ b : Blk, ∃ k : Nat, ∃ t : Int, ∃ full : Bool, ∃ b1 : Blk, (k < 256) ∧ (b1 = b.sensorRead k t full))
    ∧ (∃ b : Blk, (b.pwr.trip = true) ∧ ((List.range 256).all (fun k => !(b.sensor k).live || (match (b.sensor k).temp with | some t => decide (t ≤ 1520) | none => true)) = true)) :=
  ⟨⟨(tBoot { refHeld := true }), by decide +kernel⟩,
   ⟨tb, [false, true], true, _, _, by decide +kernel, by decide +kernel, rfl, rfl⟩,
   ⟨(tBoot { stage := 2 }), by decide +kernel, by decide +kernel, by decide +kernel, by decide +kernel⟩,
   ⟨(tBoot { stage := 4 }), by decide +kernel, by decide +kernel, by decide +kernel⟩,
   ⟨(tBoot { steps := [{ row := 0, unit := 0, st := 1 }] }), 0, 0, true, 1, _, _, _, _, by decide +kernel, rfl, rfl, rfl, rfl⟩,
   ⟨(tBoot { inWarm := true }), by decide +kernel, by decide +kernel⟩,
   ⟨tb, 255, 1840, false, _, by decide +kernel, rfl⟩,
   ⟨(tPwr { trip := true }), by decide +kernel, by decide +kernel⟩⟩

/-- Every clause of O42 is met. -/
theorem witness_RepairCommandsComplete :
    (∃ b : Blk, ∃ kind : Nat, ∃ inst : Nat, ∃ passed : Bool, ∃ inRange : Bool, ∃ t : Bist, (kind < 8) ∧ (b.boot.tests.find? (fun t => t.kind == kind && t.inst == inst) = some t) ∧ (inRange = false) ∧ (t.again = false))
    ∧ (∃ b : Blk, ∃ kind : Nat, ∃ inst : Nat, ∃ passed : Bool, ∃ t : Bist, ∃ b1 : Blk, (kind < 8) ∧ (b.boot.tests.find? (fun t => t.kind == kind && t.inst == inst) = some t) ∧ (b1 = { b with boot := { b.boot with tests := b.boot.tests.filter (fun y => y != t) } }))
    ∧ (∃ b : Blk, ∃ kind : Nat, ∃ k : Nat, (kind = 4 ∨ kind = 5) ∧ (b.activatable kind = true) ∧ (b.boot.stage = 5) ∧ (b.boot.inWarm = false) ∧ (b.own ≠ 3) ∧ (((b.imagePorts kind).take (SMap.get 0 b.lid.trying kind)).all (fun k => b.portSettled kind k) = true) ∧ ((b.imagePorts kind)[SMap.get 0 b.lid.trying kind]? = some k) ∧ (b.portQuiet kind k = true))
    ∧ (∃ b : Blk, ∃ kind : Nat, (kind = 4 ∨ kind = 5) ∧ (0 < SMap.get 0 b.lid.trying kind))
    ∧ (∃ b : Blk, ∃ kind : Nat, (kind < 8) ∧ (0 < SMap.get 0 b.lid.trying kind) ∧ (b.imageUnits kind ≤ SMap.get 0 b.lid.trying kind) ∧ (kind ≠ 1))
    ∧ (∃ b : Blk, (0 < SMap.get 0 b.lid.trying 1) ∧ (b.imageUnits 1 ≤ SMap.get 0 b.lid.trying 1) ∧ (b.on R.HOOP_MIGRATE_BUSY = true)) :=
  ⟨⟨(tBoot { tests := [{ kind := 0, inst := 199 }] }), 0, 199, true, false, _, by decide +kernel, rfl, by decide +kernel, by decide +kernel⟩,
   ⟨(tBoot { tests := [{ kind := 0, inst := 199 }] }), 0, 199, true, _, _, by decide +kernel, rfl, rfl⟩,
   ⟨{ tb with boot := { stage := 5 }, lid := { staged := [(4, some ⟨0, 0, true⟩)] } }, 4, 0, by decide +kernel, by decide +kernel, by decide +kernel, by decide +kernel, by decide +kernel, by decide +kernel, by decide +kernel, by decide +kernel⟩,
   ⟨tTrying, 4, by decide +kernel, by decide +kernel⟩,
   ⟨tTrying, 0, by decide +kernel, by decide +kernel, by decide +kernel, by decide +kernel⟩,
   ⟨(tTrying.wr R.HOOP_MIGRATE_BUSY 1), by decide +kernel, by decide +kernel, by decide +kernel⟩⟩

/-- Every clause of O43 is met. -/
theorem witness_LidCommandsComplete :
    (∃ b : Blk, ∃ tok : Token, (b.rakOpen = true) ∧ (b.own = 0) ∧ (b.lid.zero = none) ∧ (b.on R.LID_CLAIM_ARM = true) ∧ (b.tokenOk tok 4 = true))
    ∧ (∃ b : Blk, ∃ tok : Token, (b.rakOpen = true) ∧ (b.own = 1) ∧ (b.tokenOk tok 3 = true))
    ∧ (∃ b : Blk, ∃ tok : Token, (b.rakOpen = true) ∧ (b.own = 1) ∧ (b.tokenOk tok 2 = true))
    ∧ (∃ b : Blk, ∃ tok : Token, (b.rakOpen = true) ∧ (b.own = 1) ∧ (b.tokenOk tok 1 = true))
    ∧ (∃ b : Blk, ∃ tok : SvcToken, (b.mgmtUp = true) ∧ (b.svcFrom = true) ∧ (b.svcValid tok = true))
    ∧ (∃ b : Blk, ∃ tok : SvcToken, (b.rakOpen = true) ∧ (b.svcFrom = true) ∧ (b.svcValid tok = true))
    ∧ (∃ b : Blk, (b.mgmtUp = true) ∧ (b.svcFrom = true))
    ∧ (∃ b : Blk, b.own = 2)
    ∧ (∃ b : Blk, b.on R.LID_CLAIM_ARM = true)
    ∧ (∃ b : Blk, (b.on R.LID_CLAIM_ARM = true) ∧ (1 < b.rd R.LID_CLAIM_LEFT))
    ∧ (∃ b : Blk, ∃ d : Nat, (d < 8) ∧ (bit (b.rd R.LID_DOMAIN_REKEY) d = true))
    ∧ (∃ b : Blk, ∃ x : WindowSample, ∃ b1 : Blk, ∃ b2 : Blk, (x.temps.length = 22) ∧ (x.loads.length = 8) ∧ (b.boot.refHeld = false) ∧ (b1 = (b.send (.sanitised b.lid.san)).telWindow x) ∧ (b2 = { b1 with lid := { b1.lid with san := [] }, mgmt := { b1.mgmt with window := classCounts b.lid.san } })) :=
  ⟨⟨tClaim, (tTok 4 0 0 5), by decide +kernel, by decide +kernel, by decide +kernel, by decide +kernel, tokenOk_of (tTok_identity ..) (by decide +kernel) rfl⟩,
   ⟨tOwnedTok, (tTok 3 0 1 5), by decide +kernel, by decide +kernel, tokenOk_of (tTok_identity ..) (by decide +kernel) (beq_self_eq_true _)⟩,
   ⟨tOwnedTok, (tTok 2 7 1 5), by decide +kernel, by decide +kernel, tokenOk_of (tTok_identity ..) (by decide +kernel) (beq_self_eq_true _)⟩,
   ⟨tOwnedTok, (tTok 1 255 1 0), by decide +kernel, by decide +kernel, tokenOk_of (tTok_identity ..) (by decide +kernel) (beq_self_eq_true _)⟩,
   ⟨(tBoot { stage := 5 }), tSvc, by decide +kernel, by decide +kernel, by simp [Blk.svcValid, tSvc, tBoot, tb, Blk.wr]⟩,
   ⟨(tb.wr R.RAK_STATUS_LINK 2), tSvc, by decide +kernel, by decide +kernel, by simp [Blk.svcValid, tSvc, tBoot, tb, Blk.wr]⟩,
   ⟨(tBoot { stage := 5 }), by decide +kernel, by decide +kernel⟩,
   ⟨(tb.wr R.LID_OWN_STATE_STATE 2), by decide +kernel⟩,
   ⟨(tb.wr R.LID_CLAIM_ARM 1), by decide +kernel⟩,
   ⟨((tb.wr R.LID_CLAIM_ARM 1).wr R.LID_CLAIM_LEFT 2), by decide +kernel, by decide +kernel⟩,
   ⟨(tb.wr R.LID_DOMAIN_REKEY 128), 7, by decide +kernel, by decide +kernel⟩,
   ⟨tb, tSample, _, _, by decide +kernel, by decide +kernel, by decide +kernel, rfl, rfl⟩⟩

/-- Every clause of O44 is met. -/
theorem witness_RaklineCommandsComplete :
    (∃ b : Blk, (b.rakRuns = true) ∧ (b.rd R.RAK_STATUS_LINK ≠ 2))
    ∧ (∃ b : Blk, b.rd R.RAK_STATUS_LINK = 2)
    ∧ (∃ b : Blk, (b.rd R.RAK_STATUS_LINK = 2) ∧ (0 < b.rak.unacked))
    ∧ (∃ b : Blk, ∃ n : Nat, (n < 2 ^ 64) ∧ (b.rd R.RAK_STATUS_LINK = 2))
    ∧ (∃ b : Blk, b.rd R.RAK_STATUS_LINK = 2)
    ∧ (∃ b : Blk, ∃ h : List Byte, ∃ tagOk : Bool, ∃ m : RakLinkMsg, ∃ b1 : Blk, (rakHdrOk h = true) ∧ (b.rd R.RAK_STATUS_LINK = 2) ∧ (b1 = b.add64 R.RAK_RX_FRAMES_LO R.RAK_RX_FRAMES_HI 1) ∧ (b1.rakDrops h tagOk = false))
    ∧ (∃ b : Blk, ∃ h : List Byte, ∃ tagOk : Bool, ∃ m : RakLinkMsg, ∃ b1 : Blk, (rakHdrOk h = true) ∧ (b.rd R.RAK_STATUS_LINK = 2) ∧ (b1 = (b.add64 R.RAK_RX_FRAMES_LO R.RAK_RX_FRAMES_HI 1)) ∧ (b1.rakDrops h tagOk = true))
    ∧ (∃ b : Blk, ∃ h : List Byte, ∃ tagOk : Bool, ∃ m : RakLinkMsg, (rakHdrOk h = true) ∧ (b.rd R.RAK_STATUS_LINK = 2))
    ∧ (∃ b : Blk, ∃ nonce : Nat, (nonce < 2 ^ 256) ∧ (b.rakOpen = true))
    ∧ (∃ b : Blk, ∃ nonce : Nat, (nonce < 2 ^ 256) ∧ (b.mgmtUp = true))
    ∧ (∃ b : Blk, b.rakOpen = true)
    ∧ (∃ b : Blk, b.mgmtUp = true)
    ∧ (∃ b : Blk, b.rakOpen = true)
    ∧ (∃ b : Blk, ∃ key : Nat, ∃ nonce : Nat, ∃ keyHash : Nat, ∃ sigOk : Bool, ∃ b1 : Blk, ∃ body : List Byte, ∃ ct : Nat, (b.rakOpen = true) ∧ (b1 = (if b.rakUp then b.rakEnd else b)) ∧ (b1.sessionOk nonce keyHash sigOk = true) ∧ (body = b1.quoteBody nonce) ∧ (ct = Config.crypto 2 [key, b1.io.ent]))
    ∧ (∃ b : Blk, ∃ m : List Byte, ∃ o : Blk × List Nat × Nat × Nat, (regCmd 1 m = true) ∧ ((b.rakOpen && b.rakUp) = true) ∧ (regForm m 0 = true) ∧ (o = Blk.readRun (regCount m) 0 (regOff m) b))
    ∧ (∃ b : Blk, ∃ m : List Byte, ∃ o : Blk × Nat × Nat, (regCmd 2 m = true) ∧ ((b.rakOpen && b.rakUp) = true) ∧ (regForm m (regCount m) = true) ∧ (o = Blk.writeRun (regData m) 0 (regOff m) b))
    ∧ (∃ b : Blk, ∃ m : List Byte, (regCmd 3 m = true) ∧ ((b.rakOpen && b.rakUp) = true))
    ∧ (∃ b : Blk, ∃ m : List Byte, (regCmd 4 m = true) ∧ ((b.rakOpen && b.rakUp) = true))
    ∧ (∃ b : Blk, ∃ m : List Byte, (bulkCmd 1 m = true) ∧ ((b.rakOpen && b.rakUp) = true) ∧ (b.bulkHolds (.start true (bulkK m) (bulkVa m) (bulkLen m)) = false))
    ∧ (∃ b : Blk, ∃ m : List Byte, (bulkCmd 2 m = true) ∧ ((b.rakOpen && b.rakUp) = true) ∧ (b.bulkHolds (.start false (bulkK m) (bulkVa m) (bulkLen m)) = false))
    ∧ (∃ b : Blk, ∃ m : List Byte, (bulkFrameOk m = true) ∧ ((b.rakOpen && b.rakUp) = true) ∧ (b.bulkHolds (.data (fieldAt m 0 1) (fieldAt m 8 8) (m.drop 16)) = false))
    ∧ (∃ b : Blk, ∃ k : Nat, ∃ x : Bulk, (k < 16) ∧ (b.bulkAt k = some x) ∧ (x.moved = x.len))
    ∧ (∃ b : Blk, ∃ data : List Byte, (data.length ≤ 4096) ∧ ((b.rakOpen && b.rakUp) = true))
    ∧ (∃ b : Blk, ∃ data : List Byte, (data.length ≤ 4096) ∧ ((b.rakOpen && b.rakUp) = true)) :=
  ⟨⟨((tO.wr R.RAK_STATUS_LINK 0).wr (R.PG_STATE_STATE .rak) sReady), by decide +kernel, by decide +kernel⟩,
   ⟨(tb.wr R.RAK_STATUS_LINK 2), by decide +kernel⟩,
   ⟨tUnacked, by decide +kernel, by decide +kernel⟩,
   ⟨(tb.wr R.RAK_STATUS_LINK 2), 2 ^ 64 - 1, by decide +kernel, by decide +kernel⟩,
   ⟨(tb.wr R.RAK_STATUS_LINK 2), by decide +kernel⟩,
   ⟨(tb.wr R.RAK_STATUS_LINK 2), tRakHdr, true, tRakMsg, _, by decide +kernel, by decide +kernel, rfl, by decide +kernel⟩,
   ⟨(tb.wr R.RAK_STATUS_LINK 2), ([1, 6, 0, 0] ++ List.replicate 12 0), true, tRakMsg, _, by decide +kernel, by decide +kernel, rfl, by decide +kernel⟩,
   ⟨(tb.wr R.RAK_STATUS_LINK 2), tRakHdr, true, tRakMsg, by decide +kernel, by decide +kernel⟩,
   ⟨(tb.wr R.RAK_STATUS_LINK 2), 2 ^ 256 - 1, by decide +kernel, by decide +kernel⟩,
   ⟨(tBoot { stage := 5 }), 0, by decide +kernel, by decide +kernel⟩,
   ⟨(tb.wr R.RAK_STATUS_LINK 2), by decide +kernel⟩,
   ⟨(tBoot { stage := 5 }), by decide +kernel⟩,
   ⟨(tb.wr R.RAK_STATUS_LINK 2), by decide +kernel⟩,
   ⟨tSvcSess, 0, 5, 7, true, _, _, _, by decide +kernel, rfl, by decide +kernel, rfl, rfl⟩,
   ⟨tSess, (tReg 1 1 0 []), _, by decide +kernel, by decide +kernel, by decide +kernel, rfl⟩,
   ⟨tSess, (tReg 2 1 0 [1]), _, by decide +kernel, by decide +kernel, by decide +kernel, rfl⟩,
   ⟨tSess, (tReg 3 0 0 []), by decide +kernel, by decide +kernel⟩,
   ⟨tSess, (tReg 4 0 0 []), by decide +kernel, by decide +kernel⟩,
   ⟨tSess, (tBulkHead 1 15 0 (2 ^ 64 - 1)), by decide +kernel, by decide +kernel, by decide +kernel⟩,
   ⟨tSess, (tBulkHead 2 15 0 0), by decide +kernel, by decide +kernel, by decide +kernel⟩,
   ⟨tSess, (tBulkData 15 0 [1]), by decide +kernel, by decide +kernel, by decide +kernel⟩,
   ⟨{ tSess with rak := { bulk := [(15, some tBulk)] } }, 15, tBulk, by decide +kernel, by decide +kernel, by decide +kernel⟩,
   ⟨tSess, [1], by decide +kernel, by decide +kernel⟩,
   ⟨tSess, [1], by decide +kernel, by decide +kernel⟩⟩

/-- Every clause of O45 is met. -/
theorem witness_MgmtEndpointCommandsComplete :
    (∃ b : Blk, ∃ addr : Nat, (addr < 128) ∧ (b.mgmtUp = true))
    ∧ (∃ b : Blk, ∃ eid : Nat, (eid < 256) ∧ (b.mgmtUp = true))
    ∧ (∃ b : Blk, b.mgmtUp = true)
    ∧ (∃ b : Blk, b.mgmtUp = true)
    ∧ (∃ b : Blk, ∃ type : Nat, (type < 256) ∧ (b.mgmtUp = true))
    ∧ (∃ b : Blk, b.mgmtUp = true)
    ∧ (∃ b : Blk, b.mgmtUp = true)
    ∧ (∃ b : Blk, ∃ k : Nat, (k < 256) ∧ (k ≠ 0) ∧ (b.mgmtUp = true))
    ∧ (∃ b : Blk, b.mgmtUp = true)
    ∧ (∃ b : Blk, ∃ tid : Nat, (tid < 256) ∧ (b.mgmtUp = true))
    ∧ (∃ b : Blk, ∃ type : Nat, (type = 0 ∨ type = 2 ∨ type = 5) ∧ (b.mgmtUp = true))
    ∧ (∃ b : Blk, ∃ type : Nat, (type < 64) ∧ (type ≠ 0) ∧ (type ≠ 2) ∧ (type ≠ 5) ∧ (b.mgmtUp = true))
    ∧ (∃ b : Blk, b.mgmtUp = true)
    ∧ (∃ b : Blk, ∃ type : Nat, (type = 0 ∨ type = 2 ∨ type = 5) ∧ (b.mgmtUp = true))
    ∧ (∃ b : Blk, b.mgmtUp = true)
    ∧ (∃ b : Blk, ∃ id : Nat, ∃ k : Nat, (id < 2 ^ 16) ∧ (pdrKind id = some k) ∧ (b.mgmtUp = true))
    ∧ (∃ b : Blk, ∃ id : Nat, (id < 2 ^ 16) ∧ (pdrKind id = none) ∧ (b.mgmtUp = true))
    ∧ (∃ b : Blk, b.mgmtUp = true)
    ∧ (∃ b : Blk, b.mgmtUp = true) :=
  ⟨⟨(tBoot { stage := 5 }), 127, by decide +kernel, by decide +kernel⟩,
   ⟨(tBoot { stage := 5 }), 255, by decide +kernel, by decide +kernel⟩,
   ⟨(tBoot { stage := 5 }), by decide +kernel⟩,
   ⟨(tBoot { stage := 5 }), by decide +kernel⟩,
   ⟨(tBoot { stage := 5 }), 255, by decide +kernel, by decide +kernel⟩,
   ⟨(tBoot { stage := 5 }), by decide +kernel⟩,
   ⟨(tBoot { stage := 5 }), by decide +kernel⟩,
   ⟨(tBoot { stage := 5 }), 255, by decide +kernel, by decide +kernel, by decide +kernel⟩,
   ⟨(tBoot { stage := 5 }), by decide +kernel⟩,
   ⟨(tBoot { stage := 5 }), 255, by decide +kernel, by decide +kernel⟩,
   ⟨(tBoot { stage := 5 }), 5, by decide +kernel, by decide +kernel⟩,
   ⟨(tBoot { stage := 5 }), 63, by decide +kernel, by decide +kernel, by decide +kernel, by decide +kernel, by decide +kernel⟩,
   ⟨(tBoot { stage := 5 }), by decide +kernel⟩,
   ⟨(tBoot { stage := 5 }), 5, by decide +kernel, by decide +kernel⟩,
   ⟨(tBoot { stage := 5 }), by decide +kernel⟩,
   ⟨(tBoot { stage := 5 }), 0x1101, 3, by decide +kernel, by decide +kernel, by decide +kernel⟩,
   ⟨(tBoot { stage := 5 }), 0x1102, by decide +kernel, by decide +kernel, by decide +kernel⟩,
   ⟨(tBoot { stage := 5 }), by decide +kernel⟩,
   ⟨(tBoot { stage := 5 }), by decide +kernel⟩⟩

/-- Every clause of O46 is met. -/
theorem witness_MgmtSensorCommandsComplete :
    (∃ b : Blk, ∃ id : Nat, (0x0201 ≤ id) ∧ (id ≤ 0x0211) ∧ (b.mgmtUp = true))
    ∧ (∃ b : Blk, ∃ id : Nat, ∃ f : Fld, (id < 2 ^ 16) ∧ (classSensor id = false) ∧ (numSensor id = some f) ∧ (b.mgmtUp = true))
    ∧ (∃ b : Blk, ∃ id : Nat, (id < 2 ^ 16) ∧ (classSensor id = false) ∧ (numSensor id = none) ∧ (b.mgmtUp = true))
    ∧ (∃ b : Blk, ∃ id : Nat, ∃ f : Fld, ∃ b' : Blk, ∃ v : Nat, (id < 2 ^ 16) ∧ (stateFld id = some f) ∧ (b.mgmtRead f = (b', .ok v)) ∧ (b.mgmtUp = true))
    ∧ (∃ b : Blk, ∃ id : Nat, ∃ f : Fld, ∃ b' : Blk, ∃ c : Nat, (id < 2 ^ 16) ∧ (stateFld id = some f) ∧ (b.mgmtRead f = (b', .error c)) ∧ (b.mgmtUp = true))
    ∧ (∃ b : Blk, ∃ v : Nat, (v < 2 ^ 12) ∧ (b.mgmtUp = true))
    ∧ (∃ b : Blk, ∃ v : Nat, (v < 2 ^ 18) ∧ (b.mgmtUp = true))
    ∧ (∃ b : Blk, ∃ v : Nat, (v < 2 ^ 12) ∧ (b.mgmtUp = true))
    ∧ (∃ b : Blk, ∃ v : Nat, (v < 2 ^ 18) ∧ (b.mgmtUp = true))
    ∧ (∃ b : Blk, b.mgmtUp = true)
    ∧ (∃ b : Blk, b.mgmtUp = true)
    ∧ (∃ b : Blk, b.mgmtUp = true)
    ∧ (∃ b : Blk, b.mgmtUp = true)
    ∧ (∃ b : Blk, b.mgmtUp = true)
    ∧ (∃ b : Blk, b.mgmtUp = true)
    ∧ (∃ b : Blk, b.mgmtUp = true)
    ∧ (∃ b : Blk, b.mgmtUp = true)
    ∧ (∃ b : Blk, ∃ eid : Nat, (eid < 256) ∧ (b.mgmtUp = true))
    ∧ (∃ b : Blk, ∃ k : Nat, ∃ x : PlatEvt, (k < 2 ^ 16) ∧ (b.mgmt.events.find? (fun x : PlatEvt => x.sensor == k) = some x) ∧ (b.mgmtUp = true)) :=
  ⟨⟨(tBoot { stage := 5 }), 0x0211, by decide +kernel, by decide +kernel, by decide +kernel⟩,
   ⟨(tBoot { stage := 5 }), 0x0037, _, by decide +kernel, by decide +kernel, rfl, by decide +kernel⟩,
   ⟨(tBoot { stage := 5 }), 0x0038, by decide +kernel, by decide +kernel, by decide +kernel, by decide +kernel⟩,
   ⟨tMgmt, 0x0100, R.LID_OWN_STATE_STATE, (tMgmt.mgmtRead R.LID_OWN_STATE_STATE).1, 1, by decide +kernel, by decide +kernel, by decide +kernel, by decide +kernel⟩,
   ⟨(tBoot { stage := 5 }), 0x0100, _, _, 4, by decide +kernel, rfl, rfl, by decide +kernel⟩,
   ⟨(tBoot { stage := 5 }), 2 ^ 12 - 1, by decide +kernel, by decide +kernel⟩,
   ⟨(tBoot { stage := 5 }), 2 ^ 18 - 1, by decide +kernel, by decide +kernel⟩,
   ⟨(tBoot { stage := 5 }), 2 ^ 12 - 1, by decide +kernel, by decide +kernel⟩,
   ⟨(tBoot { stage := 5 }), 2 ^ 18 - 1, by decide +kernel, by decide +kernel⟩,
   ⟨(tBoot { stage := 5 }), by decide +kernel⟩,
   ⟨(tBoot { stage := 5 }), by decide +kernel⟩,
   ⟨(tBoot { stage := 5 }), by decide +kernel⟩,
   ⟨(tBoot { stage := 5 }), by decide +kernel⟩,
   ⟨(tBoot { stage := 5 }), by decide +kernel⟩,
   ⟨(tBoot { stage := 5 }), by decide +kernel⟩,
   ⟨(tBoot { stage := 5 }), by decide +kernel⟩,
   ⟨(tBoot { stage := 5 }), by decide +kernel⟩,
   ⟨(tBoot { stage := 5 }), 255, by decide +kernel, by decide +kernel⟩,
   ⟨tEvt, 0x0201, _, by decide +kernel, rfl, by decide +kernel⟩⟩

/-- Every clause of O47 is met. -/
theorem witness_FirmwareUpdateCommandsComplete :
    (∃ b : Blk, (b.updState = 0 ∨ b.updState = 5) ∧ (b.mgmtUp = true))
    ∧ (∃ b : Blk, ∃ l : List Nat, (b.mgmt.upd = 1) ∧ (l ≠ []) ∧ (l.any (fun k => decide (8 ≤ k)) = false) ∧ (b.mgmtUp = true))
    ∧ (∃ b : Blk, ∃ kind : Nat, (kind < 2 ^ 16) ∧ (b.mgmt.upd = 2 ∨ b.mgmt.upd = 4) ∧ (b.mgmt.comps.contains kind = true) ∧ (b.mgmtUp = true))
    ∧ (∃ b : Blk, ∃ im : ImageIn, ∃ k : Nat, ∃ ok : Bool, ∃ m : SMap (Option Image), ∃ b0 : Blk, ∃ b1 : Blk, (b.mgmt.upd = 3) ∧ (b.mgmt.cur = some k) ∧ (ok = (im.sigOk && decide (SMap.get 0 b.flash.rollback k ≤ im.secver))) ∧ (m = (if ok then SMap.set none b.mgmt.ready k (some ⟨im.hash, im.secver, true⟩) else b.mgmt.ready)) ∧ (b0 = { b with mgmt := { b.mgmt with ready := m, cur := none, upd := if b.mgmt.comps.all (fun c => (SMap.get none m c).isSome) then 4 else 2 } }) ∧ (b1 = (b0.send (.transferComplete k)).send (.verifyComplete k ok)) ∧ (b.mgmtUp = true))
    ∧ (∃ b : Blk, (b.mgmt.upd = 4) ∧ (b.mgmt.ready.any (fun x => SMap.get 0 b.lid.trying x.1 != 0) = false) ∧ (b.mgmtUp = true))
    ∧ (∃ b : Blk, b.mgmtUp = true)
    ∧ (∃ b : Blk, (b.mgmt.upd = 3) ∧ (b.mgmtUp = true))
    ∧ (∃ b : Blk, (1 ≤ b.mgmt.upd) ∧ (b.mgmt.upd ≤ 4) ∧ (b.mgmtUp = true)) :=
  ⟨⟨(tBoot { stage := 5 }), by decide +kernel, by decide +kernel⟩,
   ⟨(tUpd { upd := 1 }), [7, 0], by decide +kernel, by decide +kernel, by decide +kernel, by decide +kernel⟩,
   ⟨(tUpd { upd := 4, comps := [7] }), 7, by decide +kernel, by decide +kernel, by decide +kernel, by decide +kernel⟩,
   ⟨(tUpd { upd := 3, comps := [7], cur := some 7 }), tImage, 7, _, _, _, _, by decide +kernel, by decide +kernel, rfl, rfl, rfl, rfl, by decide +kernel⟩,
   ⟨(tUpd { upd := 4 }), by decide +kernel, by decide +kernel, by decide +kernel⟩,
   ⟨(tBoot { stage := 5 }), by decide +kernel⟩,
   ⟨(tUpd { upd := 3 }), by decide +kernel, by decide +kernel⟩,
   ⟨(tUpd { upd := 4 }), by decide +kernel, by decide +kernel, by decide +kernel⟩⟩

/-! ## Witnesses of the statements that are stated as a whole -/

/-- A step that goes on, from a state with canonical memory and a well-formed command (O4, O5, O6), a command of each kind (O3). -/
theorem witness_steps :
    (∃ s s' : State, s.Inv ∧ s.ready = true ∧ s.pending ≠ [] ∧ step s = .next s')
    ∧ (∃ c : Instr, c.wf = true) ∧ (∃ c : Instr, c.wf = false) :=
  ⟨⟨{ State.reset with pending := [.warmN] }, _, ⟨by decide +kernel, rfl⟩, rfl, by decide, rfl⟩, ⟨.warmN, rfl⟩, ⟨.nearRekeyDue 8, rfl⟩⟩

theorem witness_RegisterAccessesAreAligned32Bit :
    (∃ (ini : Ini) (off v : Nat), iniOk ini = true ∧ off < 2 ^ 27 ∧ v < 2 ^ 32 ∧ off % 4 ≠ 0)
    ∧ (∃ (b : Blk) (core a off n data : Nat) (write : Bool), core < 32 ∧ a < 2 ^ 64 ∧ b.iniClass (.core core) ≠ 0 ∧ off < 2 ^ 27
      ∧ n ∈ [1, 2, 4, 8, 16, 32, 64] ∧ data < 256 ^ n ∧ (n ≠ 4 ∨ off % 4 ≠ 0) ∧ b.corePa core a write = .pa (regLo + off)) :=
  ⟨⟨.mgmt, 2 ^ 27 - 1, 2 ^ 32 - 1, by decide +kernel⟩, ⟨tO, 8, regLo + 4, 4, 8, 0, true, by decide +kernel⟩⟩

theorem witness_PgOwnerTakesItsClasses :
    (∃ (b : Blk) (ini : Ini) (p : Page) (i v : Nat), v < 8 ∧ b.AcceptsField ini p i (R.PG_OWNER p) v ∧ v ≠ 0 ∧ b.iniClass ini = clsO)
    ∧ (∃ (b : Blk) (ini : Ini) (p : Page) (i v : Nat), v < 8 ∧ b.AcceptsField ini p i (R.PG_OWNER p) v ∧ v = 0 ∧ b.iniClass ini = clsV) :=
  ⟨⟨tO, .core 8, .bank, 0, 7, by decide, ⟨by decide +kernel, by decide +kernel, by decide +kernel, by decide +kernel, by decide +kernel, by decide +kernel⟩, by decide, by decide +kernel⟩,
   ⟨tO, .core 0, .hbm, 0, 0, by decide, ⟨by decide +kernel, by decide +kernel, by decide +kernel, by decide +kernel, by decide +kernel, by decide +kernel⟩, rfl, by decide +kernel⟩⟩

theorem witness_DeniedAccessesChangeNothingElse :
    (∃ (b : Blk) (ini : Ini) (p : Page) (i off v : Nat), iniOk ini = true ∧ pageOk p i = true ∧ off < 4096 ∧ off % 4 = 0 ∧ v < 2 ^ 32 ∧ b.waleGone p i = false
      ∧ b.mayWrite (b.iniClass ini) p i = false)
    ∧ (∃ (b : Blk) (ini : Ini) (p : Page) (i off v : Nat), iniOk ini = true ∧ pageOk p i = true ∧ off < 4096 ∧ off % 4 = 0 ∧ v < 2 ^ 32 ∧ b.waleGone p i = false
      ∧ b.mayWrite (b.iniClass ini) p i = true ∧ b.narrowed (b.iniClass ini) p i off v = true)
    ∧ (∃ (b : Blk) (ini : Ini) (p : Page) (i off : Nat), iniOk ini = true ∧ pageOk p i = true ∧ off < 4096 ∧ off % 4 = 0 ∧ pairLo p off = true
      ∧ b.waleGone p i = false ∧ b.mayRead (b.iniClass ini) p i = false)
    ∧ (∃ (b : Blk) (ini : Ini) (p : Page) (i off v : Nat), iniOk ini = true ∧ pageOk p i = true ∧ off < 4096 ∧ off % 4 = 0 ∧ v < 2 ^ 32 ∧ b.waleGone p i = true ∧ p ≠ .wale)
    ∧ (∃ (b : Blk) (ini : Ini) (w off v : Nat), iniOk ini = true ∧ w < 200 ∧ off < 4096 ∧ off % 4 = 0 ∧ v < 2 ^ 32 ∧ b.waleGone .wale w = true
      ∧ b.mayWrite (b.iniClass ini) .wale w = true ∧ b.narrowed (b.iniClass ini) .wale w off v = false) :=
  ⟨⟨tO, .core 0, .stake, 0, 4092, 2 ^ 32 - 1, by decide +kernel⟩, ⟨tO, .core 8, .lid, 0, 72, 1, by decide +kernel⟩, ⟨tO, .core 0, .dig, 0, R.DIG_TABLE_LO.off, by decide +kernel⟩,
   ⟨tO, .core 8, .sched, 49, 0, 0, by decide +kernel⟩, ⟨tO, .core 8, 49, 8, 0, by decide +kernel⟩⟩

theorem witness_HeaderWritesKeepTheRest :
    ∃ (b : Blk) (ini : Ini) (p : Page) (i off v : Nat), off < 0x040 ∧ off % 4 = 0 ∧ off ≠ 0x00C ∧ off ≠ 0x014 ∧ v < 2 ^ 32 ∧ b.Accepts ini p i off v :=
  ⟨tO, .core 8, .bank, 11, 0x03C, 2 ^ 32 - 1, by decide, by decide, by decide, by decide, by decide,
    ⟨by decide +kernel, by decide +kernel, by decide +kernel, by decide +kernel, by decide +kernel, by decide +kernel⟩⟩

theorem witness_PairsCommitInOneUpdate :
    ∃ (b : Blk) (ini : Ini) (v : Nat), v < 2 ^ 32 ∧ b.Accepts ini .dig 0 R.DIG_TABLE_LO.off v ∧ b.Accepts ini .dig 0 R.DIG_TABLE_HI.off v :=
  ⟨tO, .core 8, 2 ^ 32 - 1, by decide,
    ⟨by decide +kernel, by decide +kernel, by decide +kernel, by decide +kernel, by decide +kernel, by decide +kernel⟩,
    ⟨by decide +kernel, by decide +kernel, by decide +kernel, by decide +kernel, by decide +kernel, by decide +kernel⟩⟩

theorem witness_WorkListPutStaysInItsRing :
    ∃ (b : Blk) (ini : Ini) (w v : Nat), v < 2 ^ 16 ∧ b.AcceptsField ini .sched w R.SCHED_WL_PUT v
      ∧ 2 ^ b.rd R.SCHED_WL_SIZE w < (v + 2 ^ 16 - b.rd R.SCHED_WL_GET w) % 2 ^ 16 :=
  ⟨tO, .core 8, 0, 2 ^ 16 - 1, by decide, ⟨by decide +kernel, by decide +kernel, by decide +kernel, by decide +kernel, by decide +kernel, by decide +kernel⟩, by decide +kernel⟩

/-- A thread about to run `NOP` (O48), and one asleep (O55), with its PC misaligned or its word ill-formed (O54). -/
theorem witness_threads :
    (∃ (b : Blk) (t : Tid) (i : Ins) (b1 : Blk), b.Runs t 0x00 i b1)
    ∧ (∃ (b : Blk) (t : Tid), tidOk t = true ∧ (b.thread t).st ≠ tRun)
    ∧ (∃ (b : Blk) (t : Tid), tidOk t = true ∧ (b.thread t).sleep ≠ .awake ∧ (b.thread t).sleep ≠ .stall)
    ∧ (∃ (b : Blk) (t : Tid), tidOk t = true ∧ (b.thread t).st = tRun ∧ (b.thread t).sleep = .awake ∧ (b.thread t).pc % 8 ≠ 0)
    ∧ (∃ (b : Blk) (t : Tid) (b1 : Blk) (w : Nat), tidOk t = true ∧ (b.thread t).st = tRun ∧ (b.thread t).sleep = .awake ∧ b.fetch t = (b1, .ok w)
      ∧ bits w 57 7 = 0x00 ∧ fieldsOk 0x00 (insOf w) = false) :=
  ⟨⟨tThread [] (0, 0, 0, 0, 0, 0), ⟨0, 0⟩, ⟨0, 0, 0, 0, 0⟩, _, runs_of 0 (by decide +kernel)⟩, ⟨tb, ⟨6399, 7⟩, by decide +kernel⟩,
   ⟨tb.setThread ⟨0, 0⟩ { sleep := .bar 0 }, ⟨0, 0⟩, by decide +kernel⟩, ⟨tb.setThread ⟨0, 0⟩ { st := tRun, pc := 4 }, ⟨0, 0⟩, by decide +kernel⟩,
   ⟨tThread [] (0, 0, 0, 0, 0, 1), ⟨0, 0⟩, ((tThread [] (0, 0, 0, 0, 0, 1)).fetch ⟨0, 0⟩).1, 1, by decide +kernel⟩⟩

/-- A thread about to store 8 bytes at 0x2000 (O49, O51), to add to the word there (O50), and at an unaligned or absent address (O54). -/
theorem witness_StoreFrame :
    ∃ (b : Blk) (t : Tid) (i : Ins) (b1 : Blk) (n pa : Nat), b.Runs t 0x29 i b1 ∧ n = 2 ^ bits i.mod 0 2 ∧ (b.thread t).ea i % n = 0
      ∧ localPa t.stake ((b.thread t).ea i) n .store = .ok pa ∧ b.memGateN clsO pa n = 0 ∧ b.firstUe pa n = none :=
  ⟨tThread [(1, 0x2000), (2, 5)] (0x29, 0, 1, 2, 3, 0), ⟨0, 0⟩, ⟨0, 1, 2, 3, 0⟩, _, 8, stakeWin 0 + 0x2000,
    runs_of (0x29 * 2 ^ 57 + 1 * 2 ^ 47 + 2 * 2 ^ 42 + 3 * 2 ^ 32) (by decide +kernel), by decide +kernel, by decide +kernel, by decide +kernel, by decide +kernel, by decide +kernel⟩

theorem witness_AmoFrame :
    ∃ (b : Blk) (t : Tid) (i : Ins) (b1 : Blk) (pa : Nat), b.Runs t 0x2A i b1 ∧ (b.thread t).ea i % 8 = 0
      ∧ localPa t.stake ((b.thread t).ea i) 8 .atomic = .ok pa ∧ b.memGateN clsO pa 8 = 0 ∧ b.firstUe pa 8 = none :=
  ⟨tThread [(1, 0x80_0000), (2, 5)] (0x2A, 3, 1, 2, 0, 0), ⟨0, 0⟩, ⟨3, 1, 2, 0, 0⟩, _, waleWin 0,
    runs_of (0x2A * 2 ^ 57 + 3 * 2 ^ 52 + 1 * 2 ^ 47 + 2 * 2 ^ 42) (by decide +kernel), by decide +kernel, by decide +kernel, by decide +kernel, by decide +kernel⟩

theorem witness_ThreadFaultsKeepTheThread :
    (∃ (b : Blk) (t : Tid) (i : Ins) (b1 : Blk), b.Runs t 0x29 i b1 ∧ (b.thread t).ea i % 2 ^ bits i.mod 0 2 ≠ 0)
    ∧ (∃ (b : Blk) (t : Tid) (i : Ins) (b1 : Blk) (d : Nat), b.Runs t 0x2A i b1 ∧ (b.thread t).ea i % 8 = 0
      ∧ localPa t.stake ((b.thread t).ea i) 8 .atomic = .error d) :=
  ⟨⟨tThread [(1, 1), (2, 5)] (0x29, 0, 1, 2, 3, 0), ⟨0, 0⟩, ⟨0, 1, 2, 3, 0⟩, _, runs_of (0x29 * 2 ^ 57 + 1 * 2 ^ 47 + 2 * 2 ^ 42 + 3 * 2 ^ 32) (by decide +kernel), by decide +kernel⟩,
   ⟨tThread [(1, 0x2000), (2, 5)] (0x2A, 3, 1, 2, 0, 0), ⟨0, 0⟩, ⟨3, 1, 2, 0, 0⟩, _, 0x05,
    runs_of (0x2A * 2 ^ 57 + 3 * 2 ^ 52 + 1 * 2 ^ 47 + 2 * 2 ^ 42) (by decide +kernel), by decide +kernel, by decide +kernel⟩⟩

/-- A thread that stores a doubleword and has the load of it as its next word. -/
def tStLd : Blk :=
  ((tThread [(1, 0x2000), (2, 5)] (0x29, 0, 1, 2, 3, 0)).writeBytes 0 (stakeWin 0 + 0x1008) (natLe 8 (0x28 * 2 ^ 57 + 3 * 2 ^ 52 + 1 * 2 ^ 47 + 3 * 2 ^ 32))).1
/-- The block of the state that a command answers. -/
def nextBlk : Host.Outcome State Fault Refusal → Blk
  | .next s => s.blk
  | _ => tb
theorem witness_LoadReadsTheStore :
    ∃ (b : Blk) (t : Tid) (i : Ins) (b1 : Blk) (n pa : Nat) (b2 : Blk) (i' : Ins) (b3 : Blk),
      b.Runs t 0x29 i b1 ∧ n = 2 ^ bits i.mod 0 2 ∧ (b.thread t).ea i % n = 0 ∧ localPa t.stake ((b.thread t).ea i) n .store = .ok pa
      ∧ b.memGateN clsO pa n = 0 ∧ b.firstUe pa n = none ∧ exec (.st t) ⟨b, [], []⟩ = .next ⟨b2, [], []⟩
      ∧ b2.Runs t 0x28 i' b3 ∧ (b2.thread t).ea i' = (b.thread t).ea i ∧ bits i'.mod 0 2 = bits i.mod 0 2 ∧ bit i'.mod 2 = false ∧ i'.dest ≠ 0 :=
  ⟨tStLd, ⟨0, 0⟩, ⟨0, 1, 2, 3, 0⟩, _, 8, stakeWin 0 + 0x2000, nextBlk (exec (.st ⟨0, 0⟩) ⟨tStLd, [], []⟩), ⟨3, 1, 0, 3, 0⟩, _,
    runs_of (0x29 * 2 ^ 57 + 1 * 2 ^ 47 + 2 * 2 ^ 42 + 3 * 2 ^ 32) (by decide +kernel), by decide +kernel, by decide +kernel, by decide +kernel, by decide +kernel,
    by decide +kernel, rfl, runs_of (0x28 * 2 ^ 57 + 3 * 2 ^ 52 + 1 * 2 ^ 47 + 3 * 2 ^ 32) (by decide +kernel), by decide +kernel, by decide +kernel, by decide +kernel,
    by decide⟩

/-- A module whose first line of memory holds a block under domain 1's first key. -/
def tKeyed : Blk := { tO with mem := { lines := [(0, .keyed 1 0)] } }
theorem witness_PartialLineWritesAreReadModifyWrites :
    (∃ (b : Blk) (cls pa : Nat) (l : List Byte), isDram pa = true ∧ 0 < l.length ∧ l.length < 64 ∧ pa % 64 + l.length ≤ 64 ∧ b.memGateN cls pa l.length = 0
      ∧ b.ueAt pa = true)
    ∧ (∃ (b : Blk) (cls pa : Nat) (l : List Byte), isDram pa = true ∧ 0 < l.length ∧ l.length < 64 ∧ pa % 64 + l.length ≤ 64 ∧ b.memGateN cls pa l.length = 0
      ∧ b.ueAt pa = false)
    ∧ (∃ (b : Blk) (cls pa : Nat) (l : List Byte), isDram pa = true ∧ l.length = 64 ∧ pa % 64 = 0 ∧ b.memGateN cls pa 64 = 0) :=
  ⟨⟨tO.markUe 0, clsO, 0, List.replicate 63 1, by decide +kernel⟩, ⟨tKeyed, clsO, 63, [1], by decide +kernel⟩, ⟨tO, clsO, 64, List.replicate 64 1, by decide +kernel⟩⟩

theorem witness_WrongKeysReadNoPlaintext :
    (∃ (b : Blk) (d g dom pa : Nat), isDram pa = true ∧ b.mem.line pa = .keyed d g ∧ d = dom ∧ g = b.domGen dom)
    ∧ (∃ (b : Blk) (d g dom pa : Nat), isDram pa = true ∧ b.mem.line pa = .keyed d g ∧ (d ≠ dom ∨ g ≠ b.domGen dom))
    ∧ (∃ pa : Nat, isDram pa = false) ∧ (∃ (b : Blk) (d : Nat), d < 8 ∧ bit (b.rd R.LID_DOMAIN_REKEY) d = true) :=
  ⟨⟨tKeyed, 1, 0, 1, 0, by decide +kernel⟩, ⟨tKeyed, 1, 0, 7, 63, by decide +kernel⟩, ⟨stakeWin 0, by decide +kernel⟩,
   ⟨tb.wr R.LID_DOMAIN_REKEY 128, 7, by decide +kernel⟩⟩

theorem witness_BarrierReleasesItsGeneration :
    ∃ (b : Blk) (t : Tid) (i : Ins) (b1 : Blk), b.Runs t 0x3A i b1 ∧ b.barCount (waleOf t.stake) i.imm ≠ 0
      ∧ b.barCount (waleOf t.stake) i.imm ≤ (b.atBar (waleOf t.stake) i.imm).length + 1 :=
  ⟨tBar (tThread [] (0x3A, 0, 0, 0, 0, 15)) 1, ⟨0, 0⟩, ⟨0, 0, 0, 0, 15⟩, _, runs_of (0x3A * 2 ^ 57 + 15) (by decide +kernel), by decide +kernel, by decide +kernel⟩

theorem witness_arithmetic :
    (∃ a : Nat, f32 a = .nan) ∧ (∃ a c : Nat, f32 a = .fin true 0 0 ∧ f32 c = .fin false 0 0) ∧ (∃ a c : Nat, flt a c = true)
    ∧ (∃ m k : Nat, 2 * ((roundShift .rne m k : Int) * 2 ^ k - m).natAbs = 2 ^ k) ∧ (∃ v : Nat, v < 2 ^ 32 ∧ f32 v ≠ .nan) :=
  ⟨⟨0x7FC0_0001, by decide +kernel⟩, ⟨0x8000_0000, 0, by decide +kernel⟩, ⟨0xFF80_0000, 0x7F80_0000, by decide +kernel⟩, ⟨3, 1, by decide +kernel⟩,
   ⟨0x7F80_0000, by decide +kernel⟩⟩

theorem witness_FirstErrorsStandUntilRearmed :
    (∃ (b : Blk) (p : Page) (i : Nat) (e : Err), e.cls < 256 ∧ b.on (R.PG_EVENT_ERROR p) i = true)
    ∧ (∃ (b : Blk) (p : Page) (i : Nat) (e : Err), e.cls < 256 ∧ b.on (R.PG_EVENT_ERROR p) i = false) :=
  ⟨⟨tb.wr (R.PG_EVENT_ERROR .stake) 1 6399, .stake, 6399, { cls := 255 }, by decide +kernel⟩, ⟨tb, .tel, 0, { cls := 0 }, by decide +kernel⟩⟩

/-! ## Ill-formed commands: one term for each check of `Instr.wf` -/

theorem test_illFormed_forceClear_to_quiesceTimeout : ([
    .forceClear (.core 32), .claimArm (.core 32), .lidDomainRekey (.core 32) 0, .lidDomainRekey .mgmt (2 ^ 32), .domainKeyInstalled 8, .imageReadyPoint 8,
     .lidDebugClose (.core 32), .nearRekeyDue 8, .keyNext 8 0, .nearKeyInstalled 8, .keyReady 8 0, .keyRetire 8 0, .farRekeyDue 8 0, .farPrevKeyExpire 8,
     .sanitisedWindowEnd { tSample with temps := [] }, .sanitisedWindowEnd { tSample with loads := [] }, .lidLogGet (.core 32) 0, .lidLogGet .mgmt (2 ^ 32),
     .lidLogBase (.core 32) 0, .lidLogBase .mgmt (2 ^ 48), .registerWrite (.core 32) 0 0, .registerWrite .mgmt (2 ^ 27) 0, .registerWrite .mgmt 0 (2 ^ 32),
     .pairLoRead (.core 32) (regAt .dig 0 R.DIG_TABLE_LO.off), .pairLoRead .mgmt (2 ^ 27), .pairLoRead .mgmt (regAt .dig 0 8),
     .pairLoWrite (.core 32) (regAt .dig 0 R.DIG_TABLE_LO.off) 0, .pairLoWrite .mgmt (2 ^ 27) 0,
     .pairLoWrite .mgmt (regAt .dig 0 R.DIG_TABLE_LO.off) (2 ^ 32), .pairLoWrite .mgmt (regAt .dig 0 8) 0,
     .pairHiWrite (.core 32) (regAt .dig 0 R.DIG_TABLE_HI.off) 0, .pairHiWrite .mgmt (2 ^ 27) 0,
     .pairHiWrite .mgmt (regAt .dig 0 R.DIG_TABLE_HI.off) (2 ^ 32), .pairHiWrite .mgmt (regAt .dig 0 0) 0, .pairHiWrite .mgmt (regAt .dig 0 8) 0,
     .pgCtrlEnable (.core 32) .mod 0 false, .pgCtrlEnable .mgmt .mod 6400 false, .pgCtrlQuiesceReq (.core 32) .mod 0 false,
     .pgCtrlQuiesceReq .mgmt .mod 6400 false, .pgCtrlIsolate (.core 32) .mod 0 false, .pgCtrlIsolate .mgmt .mod 6400 false, .blockReset (.core 32) .mod 0,
     .blockReset .mgmt .mod 6400, .pgEventClear (.core 32) .mod 0 0, .pgEventClear .mgmt .mod 6400 0, .pgEventClear .mgmt .mod 0 (2 ^ 32),
     .pgLock (.core 32) .mod 0, .pgLock .mgmt .mod 6400, .pgOwnerWrite (.core 32) .mod 0 0, .pgOwnerWrite .mgmt .mod 6400 0,
     .pgOwnerWrite .mgmt .mod 0 (2 ^ 32), .blockInitDone .mod 6400, .blockInitTimeout .mod 6400, .blockDrained .mod 6400, .quiesceTimeout .mod 6400] : List Instr).all (fun c => !c.wf) = true := by decide +kernel
theorem test_illFormed_blockSelfCheckFail_to_beq : ([
    .blockSelfCheckFail .mod 6400, .workListTake 200, .beatPeriod (.core 32) 0, .beatPeriod .mgmt (2 ^ 32), .beatCtrlStrict (.core 32) false,
     .beatCtrlSyncEn (.core 32) false, .beatCtrlSyncOutEn (.core 32) false, .cdcTimeout .mod 6400 0 0, .cdcTimeout .mod 0 40 0, .cdcTimeout .mod 0 0 40,
     .creditTimeout ⟨6400, 0⟩, .creditTimeout ⟨0, 8⟩, .nop ⟨6400, 0⟩, .nop ⟨0, 8⟩, .add ⟨6400, 0⟩, .add ⟨0, 8⟩, .sub ⟨6400, 0⟩, .sub ⟨0, 8⟩, .mul ⟨6400, 0⟩,
     .mul ⟨0, 8⟩, .mulhu ⟨6400, 0⟩, .mulhu ⟨0, 8⟩, .andOp ⟨6400, 0⟩, .andOp ⟨0, 8⟩, .orOp ⟨6400, 0⟩, .orOp ⟨0, 8⟩, .xor ⟨6400, 0⟩, .xor ⟨0, 8⟩,
     .sll ⟨6400, 0⟩, .sll ⟨0, 8⟩, .srl ⟨6400, 0⟩, .srl ⟨0, 8⟩, .sra ⟨6400, 0⟩, .sra ⟨0, 8⟩, .min ⟨6400, 0⟩, .min ⟨0, 8⟩, .max ⟨6400, 0⟩, .max ⟨0, 8⟩,
     .minu ⟨6400, 0⟩, .minu ⟨0, 8⟩, .maxu ⟨6400, 0⟩, .maxu ⟨0, 8⟩, .slt ⟨6400, 0⟩, .slt ⟨0, 8⟩, .sltu ⟨6400, 0⟩, .sltu ⟨0, 8⟩, .seq ⟨6400, 0⟩, .seq ⟨0, 8⟩,
     .li ⟨6400, 0⟩, .li ⟨0, 8⟩, .lih ⟨6400, 0⟩, .lih ⟨0, 8⟩, .sel ⟨6400, 0⟩, .sel ⟨0, 8⟩, .beq ⟨6400, 0⟩] : List Instr).all (fun c => !c.wf) = true := by decide +kernel
theorem test_illFormed_beq_to_stakePause : ([
    .beq ⟨0, 8⟩, .bne ⟨6400, 0⟩, .bne ⟨0, 8⟩, .blt ⟨6400, 0⟩, .blt ⟨0, 8⟩, .bge ⟨6400, 0⟩, .bge ⟨0, 8⟩, .bltu ⟨6400, 0⟩, .bltu ⟨0, 8⟩, .bgeu ⟨6400, 0⟩,
     .bgeu ⟨0, 8⟩, .jal ⟨6400, 0⟩, .jal ⟨0, 8⟩, .jalr ⟨6400, 0⟩, .jalr ⟨0, 8⟩, .ld ⟨6400, 0⟩, .ld ⟨0, 8⟩, .st ⟨6400, 0⟩, .st ⟨0, 8⟩, .amo ⟨6400, 0⟩,
     .amo ⟨0, 8⟩, .issMat ⟨6400, 0⟩, .issMat ⟨0, 8⟩, .issVec ⟨6400, 0⟩, .issVec ⟨0, 8⟩, .issRow ⟨6400, 0⟩, .issRow ⟨0, 8⟩, .issDma ⟨6400, 0⟩,
     .issDma ⟨0, 8⟩, .issSum ⟨6400, 0⟩, .issSum ⟨0, 8⟩, .twait ⟨6400, 0⟩, .twait ⟨0, 8⟩, .fence ⟨6400, 0⟩, .fence ⟨0, 8⟩, .bar ⟨6400, 0⟩, .bar ⟨0, 8⟩,
     .bwait ⟨6400, 0⟩, .bwait ⟨0, 8⟩, .halt ⟨6400, 0⟩, .halt ⟨0, 8⟩, .sumrd ⟨6400, 0⟩, .sumrd ⟨0, 8⟩, .rdid ⟨6400, 0⟩, .rdid ⟨0, 8⟩, .phase ⟨6400, 0⟩,
     .phase ⟨0, 8⟩, .undefinedOpcode ⟨6400, 0⟩, .undefinedOpcode ⟨0, 8⟩, .stakeStart (.core 32) ⟨0, 0⟩, .stakeStart .mgmt ⟨6400, 0⟩,
     .stakeStart .mgmt ⟨0, 8⟩, .stakePause (.core 32) ⟨0, 0⟩, .stakePause .mgmt ⟨6400, 0⟩, .stakePause .mgmt ⟨0, 8⟩] : List Instr).all (fun c => !c.wf) = true := by decide +kernel
theorem test_illFormed_stakeResume_to_dmaStreamFault : ([
    .stakeResume (.core 32) ⟨0, 0⟩, .stakeResume .mgmt ⟨6400, 0⟩, .stakeResume .mgmt ⟨0, 8⟩, .stakeRelease (.core 32) ⟨0, 0⟩,
     .stakeRelease .mgmt ⟨6400, 0⟩, .stakeRelease .mgmt ⟨0, 8⟩, .stakeReleaseSkip (.core 32) ⟨0, 0⟩, .stakeReleaseSkip .mgmt ⟨6400, 0⟩,
     .stakeReleaseSkip .mgmt ⟨0, 8⟩, .stakeKill (.core 32) ⟨0, 0⟩, .stakeKill .mgmt ⟨6400, 0⟩, .stakeKill .mgmt ⟨0, 8⟩, .stakeIcacheInvalidate (.core 32) 0,
     .stakeIcacheInvalidate .mgmt 6400, .stakeRegAccess (.core 32) ⟨0, 0⟩ 0 none, .stakeRegAccess .mgmt ⟨6400, 0⟩ 0 none,
     .stakeRegAccess .mgmt ⟨0, 8⟩ 0 none, .stakeRegAccess .mgmt ⟨0, 0⟩ (32 + 1) none, .stakeRegAccess .mgmt ⟨0, 0⟩ 0 (some (2 ^ 64)),
     .schedWlPut (.core 32) 0 0, .schedWlPut .mgmt 6400 0, .schedWlPut .mgmt 0 (2 ^ 32), .schedPeakClr (.core 32) 0, .schedPeakClr .mgmt 6400,
     .sumCombine 200, .sumPost 200, .sumClear 200, .sumLoss 200, .summaryOpEnd 200, .sumPostPop (.core 32) 0, .sumPostPop .mgmt 6400, .matrixOpStart 6400,
     .matrixOpEnd 6400, .matrixSuspend 6400 0, .matrixSuspend 0 0x3_8000, .matrixSuspend 0 0x100_0000, .chainOpStart 6400, .chainOpEnd 6400,
     .chainSuspend 6400 0, .chainSuspend 0 0x3_8000, .chainSuspend 0 0x100_0000, .rowOpStart 200, .rowOpEnd 200, .rowSuspend 200 0x80_0000,
     .rowSuspend 0 0x7F_FFFF, .rowSuspend 0 0x100_0000, .rowSideClr (.core 32) 0, .rowSideClr .mgmt 6400, .sideClearDone 200, .leaveWindow 4,
     .dmaStreamStart 16896, .dmaStreamStart 12800, .dmaStreamStart 14847, .dmaStreamEnd 16896, .dmaStreamFault 16896 none] : List Instr).all (fun c => !c.wf) = true := by decide +kernel
theorem test_illFormed_dmaStreamFault_to_gatherReq : ([
    .dmaStreamFault 0 (some (2 ^ 42)), .translationWalkEnd (modXl + 1) 0 false false, .translationWalkEnd 0 (2 ^ 48) false false,
     .xltInvalRange (.core 32) 0 0, .xltInvalRange .mgmt (2 ^ 48) 0, .xltInvalRange .mgmt 0 (2 ^ 24), .xltInvalAll (.core 32),
     .xltFaultResume (.core 32) 0 0, .xltFaultResume .mgmt 16 0, .xltFaultResume .mgmt 0 (2 ^ 15), .xltFaultDiscard (.core 32) 0 0,
     .xltFaultDiscard .mgmt 16 0, .xltFaultDiscard .mgmt 0 (2 ^ 15), .xltFqGet (.core 32) 0, .xltFqGet .mgmt (2 ^ 32), .xltFqBase (.core 32) 0,
     .xltFqBase .mgmt (2 ^ 48), .scrubLine (stakeWin 0) false false, .hoopMemoryAccess 32 0 false 4 0, .hoopMemoryAccess 0 (2 ^ 64) false 4 0,
     .hoopMemoryAccess 0 0 false 3 0, .hoopMemoryAccess 0 0 false 128 0, .hoopMemoryAccess 0 0 false 4 (256 ^ 4), .applyDescriptorTake 12,
     .applyChunkStart 12, .applyChunkCommit 12, .applyChunkAbort 12 0, .applyRetry 12, .bankResume (.core 32) 0, .bankResume .mgmt 6400,
     .bankAbandon (.core 32) 0, .bankAbandon .mgmt 6400, .bankSkip (.core 32) 0, .bankSkip .mgmt 6400, .bankPause (.core 32) 0 false,
     .bankPause .mgmt 6400 false, .gateClr (.core 32) 0, .gateClr .mgmt 6400, .exportSend 12, .lossRelease (.core 32), .lossStatsReset (.core 32),
     .digestReady 256, .digestReceive 0 256 0 0, .digestReceive 0 0 (2 ^ 24) 0, .digestReceive 0 0 0 (2 ^ 64), .digestWaitExpire 256 0,
     .repairServe 0 256 0 0 0 false, .repairChunkReceive { tChunk with shard := 256 }, .repairChunkReceive { tChunk with count := chunkLen + 1 },
     .repairChunkReceive { tChunk with master := [] }, .gatherReq { tGather with group := 256 } false false 0,
     .gatherReq { tGather with commit := 2 ^ 24 } false false 0, .gatherReq { tGather with shard := 256 } false false 0,
     .gatherReq { tGather with attempt := 256 } false false 0, .gatherReq tGather false false (2 ^ 24)] : List Instr).all (fun c => !c.wf) = true := by decide +kernel
theorem test_illFormed_gatherReq_to_nlnkLoadRetry : ([
    .gatherReq { tGather with layer := 2 ^ 16 } false false 0, .gatherReq { tGather with peer := 2 ^ 16 } false false 0, .gatherPiece 8 0 0 0 0 [],
     .gatherPiece 0 256 0 0 0 [], .gatherPiece 0 0 (2 ^ 16) 0 0 [], .gatherPiece 0 0 0 (2 ^ 16) 0 [], .gatherPiece 0 0 0 0 (2 ^ 64) [],
     .handoverForward 8 (tHo false) false 0, .handoverForward 0 { tHo false with slot := 24 } false 0,
     .handoverForward 0 { tHo false with back := true } false 0, .handoverForward 0 { tHo false with step := 2 ^ 24 } false 0,
     .handoverForward 0 { tHo false with mb := 2 ^ 16 } false 0, .handoverForward 0 { tHo false with attempt := 256 } false 0,
     .handoverForward 0 { tHo false with variant := 256 } false 0, .handoverBackward 8 (tHo true) false 0,
     .handoverBackward 0 { tHo true with slot := 24 } false 0, .handoverBackward 0 { tHo true with back := false } false 0,
     .handoverBackward 0 { tHo true with step := 2 ^ 24 } false 0, .handoverBackward 0 { tHo true with mb := 2 ^ 16 } false 0,
     .handoverBackward 0 { tHo true with attempt := 256 } false 0, .handoverBackward 0 { tHo true with variant := 256 } false 0,
     .countRecord 8 tExpert 0 0 false, .countRecord 0 { tExpert with group := 256 } 0 0 false, .countRecord 0 { tExpert with step := 2 ^ 24 } 0 0 false,
     .countRecord 0 { tExpert with attempt := 256 } 0 0 false, .countRecord 0 { tExpert with xid := 2 ^ 16 } 0 0 false,
     .countRecord 0 { tExpert with rank := 2 ^ 16 } 0 0 false, .countRecord 0 tExpert (2 ^ 32) 0 false, .countRecord 0 tExpert 0 (2 ^ 32) false,
     .expertTokens 8 tExpert [] false, .expertTokens 0 { tExpert with group := 256 } [] false, .expertTokens 0 { tExpert with step := 2 ^ 24 } [] false,
     .expertTokens 0 { tExpert with attempt := 256 } [] false, .expertTokens 0 { tExpert with xid := 2 ^ 16 } [] false,
     .expertTokens 0 { tExpert with rank := 2 ^ 16 } [] false, .flitReceive 8 tFlit, .flitReceive 0 { tFlit with bit := 2 },
     .flitReceive 0 { tFlit with plain := [] }, .nak 8 0 0, .nak 0 2 0, .nak 0 0 (2 ^ 15), .replayTimeout 8, .creditReturn 8 [] 0,
     .creditReturn 0 [(8, 0)] 0, .linkTraining (.core 32) 0 false, .linkTraining .mgmt 6400 false, .trainingStepDone 8 {}, .trainingStepTimeout 8,
     .trainingRetry 8, .capabilityRecord 8 tCapGood, .cableOvercurrent 8 2001, .cableOvercurrent 0 2000, .loadSwitchReclose 8, .nlnkLoadRetry (.core 32) 0,
     .nlnkLoadRetry .mgmt 6400] : List Instr).all (fun c => !c.wf) = true := by decide +kernel
theorem test_illFormed_nlnkForce4_to_switchResult : ([
    .nlnkForce4 (.core 32) 0 false, .nlnkForce4 .mgmt 6400 false, .laneFail 8 0, .laneFail 0 8, .width 8 8 0, .width 0 6 0, .width 0 8 256,
     .laneRetrainAttempt 8 0, .laneRetrainAttempt 0 256, .laneRestore 8, .rate 8 2, .rate 0 1, .rate 0 (8 + 1), .backpressurePeriod 8 false false,
     .sidebandRecord 8 (List.replicate 16 0), .sidebandRecord 0 [], .openMsg 8 tKey, .openMsg 0 { tKey with group := 256 },
     .openMsg 0 { tKey with step := 2 ^ 24 }, .openMsg 0 { tKey with attempt := 256 }, .openMsg 0 { tKey with bucket := 65536 }, .grant 8 tKey,
     .grant 0 { tKey with group := 256 }, .grant 0 { tKey with step := 2 ^ 24 }, .grant 0 { tKey with attempt := 256 },
     .grant 0 { tKey with bucket := 65536 }, .bucketData 8 (.piece tKey 0 []), .bucketData 0 (.piece { tKey with group := 256 } 0 []),
     .bucketDeadlineExpire { tKey with group := 256 }, .bucketDeadlineExpire { tKey with step := 2 ^ 24 },
     .bucketDeadlineExpire { tKey with attempt := 256 }, .bucketDeadlineExpire { tKey with bucket := 65536 }, .abortMsg 8 0 0 0 0 0 0,
     .abortMsg 0 (2 ^ 24) 0 0 0 0 0, .abortMsg 0 0 256 0 0 0 0, .abortMsg 0 0 0 256 0 0 0, .abortMsg 0 0 0 0 (2 ^ 14) 0 0, .abortMsg 0 0 0 0 0 256 0,
     .abortMsg 0 0 0 0 0 0 65536, .nredAbortGo (.core 32) 0, .nredAbortGo .mgmt 6400, .nredSlotsGrant (.core 32) 0 0, .nredSlotsGrant .mgmt 6400 0,
     .nredSlotsGrant .mgmt 0 (2 ^ 32), .joinAck 8 0 0, .joinAck 0 4 0, .joinAck 0 0 256, .reject 8 0 0, .reject 0 4 0, .reject 0 0 256, .switchResult 8 tSw,
     .switchResult 0 { tSw with channel := 4 }, .switchResult 0 { tSw with step := 2 ^ 24 }, .switchResult 0 { tSw with attempt := 256 },
     .switchResult 0 { tSw with msg := 3 }] : List Instr).all (fun c => !c.wf) = true := by decide +kernel
theorem test_illFormed_switchResult_to_manifest : ([
    .switchResult 0 { tSw with vals := [2 ^ 64] }, .codedBlockRerequest 8 tKey 0 0, .codedBlockRerequest 0 { tKey with group := 256 } 0 0,
     .codedBlockRerequest 0 { tKey with step := 2 ^ 24 } 0 0, .codedBlockRerequest 0 { tKey with attempt := 256 } 0 0,
     .codedBlockRerequest 0 { tKey with bucket := 65536 } 0 0, .codecBlockEncode 10, .codecBlockDecode 10, .fcodEncode 2, .fcodDecode 2, .fcodJobEnd 2,
     .heartbeatTimer 0 [{ site := 8, identity := 0, debug := 0, ok := true }], .heartbeat { tHdr with port := 2 } 0 0 0,
     .heartbeat { tHdr with peer := 8 } 0 0 0, .heartbeat { tHdr with epoch := 2 ^ 16 } 0 0 0, .heartbeat { tHdr with num := 2 ^ 64 } 0 0 0,
     .echo { tHdr with port := 2 } 0, .echo { tHdr with peer := 8 } 0, .echo { tHdr with epoch := 2 ^ 16 } 0, .echo { tHdr with num := 2 ^ 64 } 0,
     .ack { tHdr with port := 2 } 0 [] 0, .ack { tHdr with peer := 8 } 0 [] 0, .ack { tHdr with epoch := 2 ^ 16 } 0 [] 0,
     .ack { tHdr with num := 2 ^ 64 } 0 [] 0, .ack tHdr 0 (List.replicate 65 (0, 0)) 0, .ack tHdr (2 ^ 64) [] 0, .ack tHdr 0 [] (2 ^ 64),
     .dataRec { tHdr with port := 2 } (List.replicate 8192 0), .dataRec { tHdr with peer := 8 } (List.replicate 8192 0),
     .dataRec { tHdr with epoch := 2 ^ 16 } (List.replicate 8192 0), .dataRec { tHdr with num := 2 ^ 64 } (List.replicate 8192 0), .dataRec tHdr [],
     .ackTimer 8, .resendTimeout 8 0, .routeLostTimeout 8 0, .routeLostTimeout 0 2, .routeDown { tHdr with port := 2 } 0,
     .routeDown { tHdr with peer := 8 } 0, .routeDown { tHdr with epoch := 2 ^ 16 } 0, .routeDown { tHdr with num := 2 ^ 64 } 0, .routeDown tHdr 2,
     .keyRec { tHdr with port := 2 } 0, .keyRec { tHdr with peer := 8 } 0, .keyRec { tHdr with epoch := 2 ^ 16 } 0, .keyRec { tHdr with num := 2 ^ 64 } 0,
     .keyRec tHdr (2 ^ 16), .neighborDiscovery 2 (.solicit 0), .farFrameDrop 2 .fcs, .fxpCtrlEn (.core 32) 0 false [], .fxpCtrlEn .mgmt 6400 false [],
     .fxpCtrlEn .mgmt 0 false [{ site := 8, identity := 0, debug := 0, ok := true }], .fxpRxFree (.core 32) 0 0, .fxpRxFree .mgmt 6400 0,
     .fxpRxFree .mgmt 0 (2 ^ 32), .manifest (midOf 0 0 0 0) none] : List Instr).all (fun c => !c.wf) = true := by decide +kernel
theorem test_illFormed_manifest_to_d2dLaneRepair : ([
    .manifest (midOf 0 6 0 0) none, .manifest (midOf 0 1 0 0) none, .fetchWaitExpire (midOf 0 0 0 0), .fetchWaitExpire (midOf 0 6 0 0),
     .fetchWaitExpire (midOf 0 2 0 0), .fxpCtrlJoin (.core 32) 0, .fxpCtrlJoin .mgmt 6400, .fxpRound (.core 32) 0 0, .fxpRound .mgmt 6400 0,
     .fxpRound .mgmt 0 (2 ^ 32), .telCap (.core 32) 0, .telCap .mgmt (2 ^ 32), .telGroup (.core 32) 0, .telGroup .mgmt (2 ^ 18),
     .pwcPhaseTab (.core 32) 0 0, .pwcPhaseTab .mgmt 64 0, .pwcPhaseTab .mgmt 0 (2 ^ 16), .sensorReading 256 0 false, .thermalCountStep 4, .sensorStop 256,
     .bootStepEnd 9 0 false 0, .bootBudget (.core 32) 0, .bootBudget .mgmt (2 ^ 32), .bootReset (.core 32), .bootShutdown (.core 32),
     .bistTest (.core 32) 0 0, .bistTest .mgmt 4 0, .bistTest .mgmt 0 (2 ^ 16), .bistRetire (.core 32) 0 0, .bistRetire .mgmt 4 0,
     .bistRetire .mgmt 0 (2 ^ 16), .bistComplete 8 0 false false, .waleTest (.core 32) 0, .waleTest .mgmt 6400, .waleRetire (.core 32) 0,
     .waleRetire .mgmt 6400, .portFwActivate 3 false, .portFwActivate 6 false, .hoopMigrate (.core 32), .hoopGParked (.core 32) 0 0,
     .hoopGParked .mgmt 6400 0, .hoopGParked .mgmt 0 (2 ^ 32), .hoopGClaim (.core 32) 0 0, .hoopGClaim .mgmt 6400 0, .hoopGClaim .mgmt 0 (2 ^ 32),
     .hoopCoreGroup (.core 32) 0 0, .hoopCoreGroup .mgmt 4 0, .hoopCoreGroup .mgmt 0 (2 ^ 32), .hoopDmaDoorbell (.core 32) 0 0,
     .hoopDmaDoorbell .mgmt 6400 0, .hoopDmaDoorbell .mgmt 0 (2 ^ 32), .hoopGEvtGet (.core 32) 0 0, .hoopGEvtGet .mgmt 6400 0,
     .hoopGEvtGet .mgmt 0 (2 ^ 32), .d2dLaneRepair 4 1] : List Instr).all (fun c => !c.wf) = true := by decide +kernel
theorem test_illFormed_d2dLaneRepair_to_platformEventAck : ([
    .d2dLaneRepair 0 4, .d2dLaneRepair 0 0, .d2dLinkFail 4 1, .d2dLinkFail 0 4, .d2dLinkFail 0 0, .diePllUnlock 4 0, .diePllUnlock 0 3,
     .raklineFrame [] false false tRakMsg, .raklineFrame ([2, 0x80, 0, 0] ++ List.replicate 12 0) false false tRakMsg,
     .raklineFrame ([1, 0x88, 0, 0] ++ List.replicate 12 0) false false tRakMsg,
     .raklineFrame ([1, 0x80, 1, 16] ++ List.replicate 12 0) false false tRakMsg,
     .raklineFrame ([1, 0x80, 0, 0, 1] ++ List.replicate 11 0) false false tRakMsg, .raklineNak (2 ^ 64), .getQuote false (2 ^ 256),
     .regRead (tReg 2 1 0 []), .regRead [1], .regWrite (tReg 1 1 0 []), .regWrite [2], .regWarmReset (tReg 1 1 0 []), .regShutdown (tReg 1 1 0 []),
     .bulkWrite (tBulkHead 2 0 0 0), .bulkWrite [1], .bulkRead (tBulkHead 1 0 0 0), .bulkRead [2], .bulkData [], .bulkData (List.replicate 4097 0),
     .bulkTransferEnd 16, .console false (List.replicate 4097 0), .i3cEntdaa 128, .setEndpointId 256, .getMctpVersionSupport 256,
     .getVendorDefinedMessageSupport 256, .setTid 256, .getPldmVersion 64, .getPldmCommands 64, .getPdr (2 ^ 16), .getSensorReading (2 ^ 16),
     .getStateSensorReadings (2 ^ 16), .setNumericEffecterValue (2 ^ 16) 0, .setNumericEffecterValue 0 (2 ^ 32), .getNumericEffecterValue (2 ^ 16),
     .setStateEffecterStates (2 ^ 16) 0, .setStateEffecterStates 0 256, .getStateEffecterStates (2 ^ 16), .setEventReceiver 256, .updateComponent (2 ^ 16),
     .fmacLinkDown 2 0, .fmacLinkDown 0 15, .fmacLinkUp 2, .cblPresentN 8 false, .creditReturnTimer 8, .groupDeadlineExpire 256 0 0,
     .groupDeadlineExpire 0 (2 ^ 24) 0, .groupDeadlineExpire 0 0 256, .platformEventAck (2 ^ 16)] : List Instr).all (fun c => !c.wf) = true := by decide +kernel
/-- The same commands with operands that exist are well formed. -/
theorem test_wellFormed_0 : ([
    .forceClear .mgmt, .claimArm .mgmt, .lidDomainRekey .mgmt 0, .domainKeyInstalled 0, .imageReadyPoint 0, .lidDebugClose .mgmt, .nearRekeyDue 0,
     .keyNext 0 0, .nearKeyInstalled 0, .keyReady 0 0, .keyRetire 0 0, .farRekeyDue 0 0, .farPrevKeyExpire 0, .sanitisedWindowEnd tSample,
     .lidLogGet .mgmt 0, .lidLogBase .mgmt 0, .registerWrite .mgmt 0 0, .pairLoRead .mgmt (regAt .dig 0 R.DIG_TABLE_LO.off),
     .pairLoWrite .mgmt (regAt .dig 0 R.DIG_TABLE_LO.off) 0, .pairHiWrite .mgmt (regAt .dig 0 R.DIG_TABLE_HI.off) 0, .pgCtrlEnable .mgmt .mod 0 false,
     .pgCtrlQuiesceReq .mgmt .mod 0 false, .pgCtrlIsolate .mgmt .mod 0 false, .blockReset .mgmt .mod 0, .pgEventClear .mgmt .mod 0 0, .pgLock .mgmt .mod 0,
     .pgOwnerWrite .mgmt .mod 0 0, .blockInitDone .mod 0, .blockInitTimeout .mod 0, .blockDrained .mod 0, .quiesceTimeout .mod 0,
     .blockSelfCheckFail .mod 0, .workListTake 0, .beatPeriod .mgmt 0, .beatCtrlStrict .mgmt false, .beatCtrlSyncEn .mgmt false,
     .beatCtrlSyncOutEn .mgmt false, .cdcTimeout .mod 0 0 0, .creditTimeout ⟨0, 0⟩, .nop ⟨0, 0⟩, .add ⟨0, 0⟩, .sub ⟨0, 0⟩, .mul ⟨0, 0⟩, .mulhu ⟨0, 0⟩,
     .andOp ⟨0, 0⟩, .orOp ⟨0, 0⟩, .xor ⟨0, 0⟩, .sll ⟨0, 0⟩, .srl ⟨0, 0⟩, .sra ⟨0, 0⟩, .min ⟨0, 0⟩, .max ⟨0, 0⟩, .minu ⟨0, 0⟩, .maxu ⟨0, 0⟩, .slt ⟨0, 0⟩,
     .sltu ⟨0, 0⟩, .seq ⟨0, 0⟩, .li ⟨0, 0⟩, .lih ⟨0, 0⟩, .sel ⟨0, 0⟩, .beq ⟨0, 0⟩, .bne ⟨0, 0⟩, .blt ⟨0, 0⟩, .bge ⟨0, 0⟩, .bltu ⟨0, 0⟩, .bgeu ⟨0, 0⟩,
     .jal ⟨0, 0⟩, .jalr ⟨0, 0⟩, .ld ⟨0, 0⟩, .st ⟨0, 0⟩, .amo ⟨0, 0⟩, .issMat ⟨0, 0⟩, .issVec ⟨0, 0⟩, .issRow ⟨0, 0⟩, .issDma ⟨0, 0⟩, .issSum ⟨0, 0⟩,
     .twait ⟨0, 0⟩, .fence ⟨0, 0⟩, .bar ⟨0, 0⟩, .bwait ⟨0, 0⟩] : List Instr).all Instr.wf = true := by decide +kernel
theorem test_wellFormed_1 : ([
    .halt ⟨0, 0⟩, .sumrd ⟨0, 0⟩, .rdid ⟨0, 0⟩, .phase ⟨0, 0⟩, .undefinedOpcode ⟨0, 0⟩, .stakeStart .mgmt ⟨0, 0⟩, .stakePause .mgmt ⟨0, 0⟩,
     .stakeResume .mgmt ⟨0, 0⟩, .stakeRelease .mgmt ⟨0, 0⟩, .stakeReleaseSkip .mgmt ⟨0, 0⟩, .stakeKill .mgmt ⟨0, 0⟩, .stakeIcacheInvalidate .mgmt 0,
     .stakeRegAccess .mgmt ⟨0, 0⟩ 0 none, .schedWlPut .mgmt 0 0, .schedPeakClr .mgmt 0, .sumCombine 0, .sumPost 0, .sumClear 0, .sumLoss 0, .summaryOpEnd 0,
     .sumPostPop .mgmt 0, .matrixOpStart 0, .matrixOpEnd 0, .matrixSuspend 0 0, .chainOpStart 0, .chainOpEnd 0, .chainSuspend 0 0, .rowOpStart 0,
     .rowOpEnd 0, .rowSuspend 0 0x80_0000, .rowSideClr .mgmt 0, .sideClearDone 0, .leaveWindow 0, .dmaStreamStart 0, .dmaStreamEnd 0,
     .dmaStreamFault 0 none, .translationWalkEnd 0 0 false false, .xltInvalRange .mgmt 0 0, .xltInvalAll .mgmt, .xltFaultResume .mgmt 0 0,
     .xltFaultDiscard .mgmt 0 0, .xltFqGet .mgmt 0, .xltFqBase .mgmt 0, .scrubLine 0 false false, .hoopMemoryAccess 0 0 false 4 0, .applyDescriptorTake 0,
     .applyChunkStart 0, .applyChunkCommit 0, .applyChunkAbort 0 0, .applyRetry 0, .bankResume .mgmt 0, .bankAbandon .mgmt 0, .bankSkip .mgmt 0,
     .bankPause .mgmt 0 false, .gateClr .mgmt 0, .exportSend 0, .lossRelease .mgmt, .lossStatsReset .mgmt, .digestReady 0, .digestReceive 0 0 0 0,
     .digestWaitExpire 0 0, .repairServe 0 0 0 0 0 false, .repairChunkReceive tChunk, .gatherReq tGather false false 0, .gatherServe [],
     .gatherPiece 0 0 0 0 0 [], .handoverForward 0 (tHo false) false 0, .handoverBackward 0 (tHo true) false 0, .countRecord 0 tExpert 0 0 false,
     .expertTokens 0 tExpert [] false, .flitReceive 0 tFlit, .nak 0 0 0, .replayTimeout 0, .creditReturn 0 [] 0, .linkTraining .mgmt 0 false,
     .trainingStepDone 0 {}, .trainingStepTimeout 0, .trainingRetry 0, .capabilityRecord 0 tCapGood, .cableOvercurrent 0 2001] : List Instr).all Instr.wf = true := by decide +kernel
theorem test_wellFormed_2 : ([
    .loadSwitchReclose 0, .nlnkLoadRetry .mgmt 0, .nlnkForce4 .mgmt 0 false, .laneFail 0 0, .width 0 8 0, .laneRetrainAttempt 0 0, .laneRestore 0,
     .rate 0 2, .backpressurePeriod 0 false false, .sidebandRecord 0 (List.replicate 16 0), .openMsg 0 tKey, .grant 0 tKey,
     .bucketData 0 (.piece tKey 0 []), .bucketDeadlineExpire tKey, .abortMsg 0 0 0 0 0 0 0, .nredAbortGo .mgmt 0, .nredSlotsGrant .mgmt 0 0, .joinAck 0 0 0,
     .reject 0 0 0, .switchResult 0 tSw, .codedBlockRerequest 0 tKey 0 0, .codecBlockEncode 0, .codecBlockDecode 0, .fcodEncode 0, .fcodDecode 0,
     .fcodJobEnd 0, .heartbeatTimer 0 [], .heartbeat tHdr 0 0 0, .echo tHdr 0, .ack tHdr 0 [] 0, .dataRec tHdr (List.replicate 8192 0), .ackTimer 0,
     .resendTimeout 0 0, .routeLostTimeout 0 0, .routeDown tHdr 0, .keyRec tHdr 0, .neighborDiscovery 0 (.solicit 0), .farFrameDrop 0 .fcs,
     .fxpCtrlEn .mgmt 0 false [], .fxpRxFree .mgmt 0 0, .manifest (midOf 0 2 0 0) none, .fetchWaitExpire (midOf 0 1 0 0), .fxpCtrlJoin .mgmt 0,
     .fxpRound .mgmt 0 0, .telCap .mgmt 0, .telGroup .mgmt 0, .pwcPhaseTab .mgmt 0 0, .sensorReading 0 0 false, .thermalCountStep 0, .sensorStop 0,
     .bootStepEnd 0 0 false 0, .bootBudget .mgmt 0, .bootReset .mgmt, .bootShutdown .mgmt, .bistTest .mgmt 0 0, .bistRetire .mgmt 0 0,
     .bistComplete 0 0 false false, .waleTest .mgmt 0, .waleRetire .mgmt 0, .portFwActivate 4 false, .hoopMigrate .mgmt, .hoopGParked .mgmt 0 0,
     .hoopGClaim .mgmt 0 0, .hoopCoreGroup .mgmt 0 0, .hoopDmaDoorbell .mgmt 0 0, .hoopGEvtGet .mgmt 0 0, .d2dLaneRepair 0 1, .d2dLinkFail 0 1,
     .diePllUnlock 0 0, .raklineFrame tRakHdr false false tRakMsg, .raklineNak 0, .getQuote false 0, .regRead (tReg 1 1 0 []), .regWrite (tReg 2 1 0 [1]),
     .regWarmReset (tReg 3 0 0 []), .regShutdown (tReg 4 0 0 []), .bulkWrite (tBulkHead 1 15 0 0), .bulkRead (tBulkHead 2 15 0 0),
     .bulkData (tBulkData 15 0 []), .bulkTransferEnd 0] : List Instr).all Instr.wf = true := by decide +kernel
theorem test_wellFormed_3 : ([
    .console false [], .i3cEntdaa 0, .setEndpointId 0, .getMctpVersionSupport 0, .getVendorDefinedMessageSupport 0, .setTid 0, .getPldmVersion 0,
     .getPldmCommands 0, .getPdr 0, .getSensorReading 0, .getStateSensorReadings 0, .setNumericEffecterValue 0 0, .getNumericEffecterValue 0,
     .setStateEffecterStates 0 0, .getStateEffecterStates 0, .setEventReceiver 0, .updateComponent 0, .fmacLinkDown 0 0, .fmacLinkUp 0,
     .cblPresentN 0 false, .creditReturnTimer 0, .groupDeadlineExpire 0 0 0, .platformEventAck 0] : List Instr).all Instr.wf = true := by decide +kernel

/-! ## The spec's examples -/

/-- R135's example: the word of `ADD s3, s4, 100`. -/
theorem test_add_word : bits 0x0232_0001_0000_0064 57 7 = 0x01 ∧ insOf 0x0232_0001_0000_0064 = ⟨3, 4, 0, 1, 0x64⟩ := by decide +kernel
/-- That instruction runs, and its result wraps. -/
theorem test_add_runs :
    ((nextBlk (exec (.add ⟨0, 0⟩) ⟨tThread [(4, 2 ^ 64 - 1)] (1, 3, 4, 0, 1, 100), [], []⟩)).thread ⟨0, 0⟩).reg 3 = 99 := by decide +kernel
/-- The example of 03_register_pages.md: the page of stake 17 of wale 23 on CD2, and its PG_IDENT. -/
theorem test_stake_page : regAt .stake 3953 0 = 0x36F_1000 ∧ (tO.regRead (.core 8) 0x36F_1000).2.1 = 0x0075_0F71 := by decide +kernel
/-- The example of 08_memory_and_faults.md: the four table indices and the offset of a virtual address. -/
theorem test_table_indices : bits 0x5F03_4567_89AB 39 9 = 190 ∧ bits 0x5F03_4567_89AB 30 9 = 13 ∧ bits 0x5F03_4567_89AB 21 9 = 43 ∧ bits 0x5F03_4567_89AB 16 5 = 7 := by
  decide +kernel
/-- The conversions of 06_number_formats.md, bit for bit. -/
theorem test_conversions :
    [convert 4 .rne (.fin false 244 0), convert 4 .rne (.fin false 248 0), convert 4 .rtz (.fin false 248 0), convert 4 .rne (.fin false 1 (-10)),
     convert 4 .rne (.fin false 3 (-11)), convert 7 .rne (.fin false 5 (-1)), convert 7 .rne (.fin false 3 (-2)), convert 7 .rne (.fin false 7 (-1)),
     convert 7 .rne (.fin true 1 (-2)), convert 7 (.sr 0x4000) (.fin false 5 (-1)), convert 7 (.sr 0x9000) (.fin false 5 (-1)),
     convert 1 .rne (f32 0x3F80_8000), convert 1 .rne (f32 0x3F81_8000)]
    = [0x77, 0x78, 0x77, 0x00, 0x01, 0x4, 0x2, 0x6, 0x8, 0x5, 0x4, 0x3F80, 0x3F82] := by decide +kernel
/-- The scale of 06_number_formats.md's block of magnitude 1,000, and its largest element. -/
theorem test_block_scale : deriveScale 4 [.fin false 1000 0] = 0x82 ∧ convert 4 .rne (.fin false 125 0) = 0x70 := by decide +kernel
/-- The chain of 11_near_ports_and_reduction.md: 2^24 + 1.0, then − 2^24. -/
theorem test_chain_order : fadd (fadd 0x4B80_0000 one32) 0xCB80_0000 = 0 ∧ fadd (fadd 0x4B80_0000 0xCB80_0000) one32 = one32 := by decide +kernel
/-- The reciprocal of R229's example: 1 / 1.875 = 0.53333336. -/
theorem test_recip : frecip 0x3FF0_0000 = 0x3F08_8889 := by decide +kernel
/-- The code lengths of 12_coder.md's histogram. -/
theorem test_code_lengths :
    (hLengths 64 16 [131072, 32768, 16384, 8192, 4096, 2048, 1024, 1024, 0, 1024, 1024, 2048, 4096, 8192, 16384, 32768]).1
      = [1, 3, 4, 5, 6, 7, 8, 8, 0, 8, 8, 7, 6, 5, 4, 3] := by decide +kernel
/-- The symbols of 12_coder.md's example: BITS 4, SCALE 0x73. -/
theorem test_quantise :
    [0x38D1_B717, 0x39C0_0000, 0xBA00_0000, 0x3A83_126F, 0x3C23_D70A].map (fun x => (quantise ⟨0, 4, 0x73⟩ x).sym) = [0x0, 0x2, 0xE, 0x4, 0x7] := by decide +kernel

end Sys2Proof.Tests
end

section
/-! SUPPORT. Register accesses: the refusal of a misaligned access (R82), a hoop core's way into the register window, and what an accepted write of a header register does. -/

namespace Sys2Proof.Proofs

open Sys2Proof.Machine Sys2Proof.Laws

section

variable (b : Blk)

/-! ## Refused accesses (R82) -/

theorem write_misaligned (ini : Ini) {off : Nat} (v : Nat) (h : off % 4 ≠ 0) : b.write ini off v = b.respond ini 0 eDenied := by
  have hr : b.regWrite ini off v = (b, eDenied) := if_pos h
  rw [Blk.write, hr]

theorem read_misaligned (ini : Ini) {off : Nat} (h : off % 4 ≠ 0) : b.read ini off = b.respond ini 0 eDenied := by
  have hr : b.regRead ini off = (b, 0, eDenied) := if_pos h
  rw [Blk.read, hr]

/-! ## The register window in the physical address map (R234, R238) -/

theorem region_window {off : Nat} (h : off < 2 ^ 27) : region (regLo + off) = .reg := by
  have hpast : ¬ regLo + off < hbmEnd ∧ ¬ regLo + off < slowEnd ∧ ¬ regLo + off < waleEnd ∧ ¬ regLo + off < stakeEnd := by
    simp only [regLo, hbmEnd, slowEnd, waleEnd, stakeEnd]; omega
  obtain ⟨hhbm, hslow, hwale, hstake⟩ := hpast
  have hin : regLo ≤ regLo + off ∧ regLo + off < regEnd := by simp only [regLo, regEnd]; omega
  simp only [region, hhbm, hslow, hwale, hstake, hin, and_false, and_self, if_false, if_true]

/-- The window lies below the domain bits, so its device physical address is the address itself. -/
theorem window_mod {off : Nat} (h : off < 2 ^ 27) : (regLo + off) % 2 ^ 42 = regLo + off := by
  simp only [regLo]; omega

theorem corePaFault_window {core off : Nat} (hc : b.iniClass (.core core) ≠ 0) (h : off < 2 ^ 27) : b.corePaFault core (regLo + off) = false := by
  have hlt : ¬ 2 ^ 45 ≤ regLo + off := by simp only [regLo]; omega
  simp only [Blk.corePaFault, window_mod h, region_window h, hc, hlt, decide_false, Bool.or_self]

/-- A hoop core's access in the window is a register access, where it has the size of one. -/
theorem coreAccess_window {core off : Nat} (write : Bool) (n data : Nat) (hc : b.iniClass (.core core) ≠ 0) (h : off < 2 ^ 27) :
    b.coreAccess core (regLo + off) write n data =
      if n ≠ 4 then b.respond (.core core) 0 eDenied
      else if write then b.write (.core core) off data else b.read (.core core) off := by
  simp only [Blk.coreAccess, corePaFault_window b hc h, window_mod h, region_window h, Nat.add_sub_cancel_left, Bool.false_eq_true, if_false, if_true]

theorem coreAccess_window_refused {core off : Nat} (write : Bool) {n : Nat} (data : Nat) (hc : b.iniClass (.core core) ≠ 0) (h : off < 2 ^ 27)
    (hbad : n ≠ 4 ∨ off % 4 ≠ 0) : b.coreAccess core (regLo + off) write n data = b.respond (.core core) 0 eDenied := by
  rw [coreAccess_window b write n data hc h]
  by_cases hn : n ≠ 4
  · exact if_pos hn
  · have ha : off % 4 ≠ 0 := hbad.resolve_left hn
    rw [if_neg hn, write_misaligned b _ _ ha, read_misaligned b _ ha, ite_self]

/-! ## Fields of one page -/

theorem key_ne_of_off_ne {f g : Fld} {i : Nat} (hp : f.page = g.page) (hs : f.shared = g.shared) (hf : f.lo < 32) (hg : g.lo < 32)
    (ho : f.off ≠ g.off) : f.key i ≠ g.key i := by
  simp only [Fld.key, hp, hs]; omega

/-- The count of accepted writes leaves the page's fields at other offsets as they were. -/
theorem addW_pgSeq_rd {p : Page} (f : Fld) (n i : Nat) (hp : f.page = p) (hs : f.shared = false) (hf : f.lo < 32) (ho : f.off ≠ 0x034) :
    (b.addW (R.PG_SEQ p) n i).rd f i = b.rd f i :=
  rd_wr_other _ _ _ _ _ _ (key_ne_of_off_ne hp hs hf (by decide : (0 : Nat) < 32) ho)

theorem addW_pgSeq_on_pgLock (p : Page) (n i : Nat) : (b.addW (R.PG_SEQ p) n i).on (R.PG_LOCK p) i = b.on (R.PG_LOCK p) i :=
  congrArg (· != 0) (addW_pgSeq_rd b (R.PG_LOCK p) n i rfl rfl (by simp [R.PG_LOCK]) (by simp [R.PG_LOCK]))

theorem addW_pgSeq_rd_pgOwner (p : Page) (n i : Nat) : (b.addW (R.PG_SEQ p) n i).rd (R.PG_OWNER p) i = b.rd (R.PG_OWNER p) i :=
  addW_pgSeq_rd b (R.PG_OWNER p) n i rfl rfl (by simp [R.PG_OWNER]) (by simp [R.PG_OWNER])

@[simp] theorem respond_rd (ini : Ini) (data cls : Nat) (g : Fld) (j : Nat) : (b.respond ini data cls).rd g j = b.rd g j := by
  cases ini with
  | core c => by_cases h : cls = 0 <;> simp [Blk.respond, h]
  | rak | mgmt | fw => rfl

/-! ## Accepted writes of header registers (R86, R89) -/

theorem rwPairs_body (p : Page) : ∀ o ∈ rwPairs p, 0x040 ≤ o := by
  cases p <;> decide

theorem rwPair_header (p : Page) (i : Nat) {off : Nat} (h : off < 0x040) : rwPair p i off = false := by
  have hm : off ∉ rwPairs p := fun hm => absurd (rwPairs_body p off hm) (by omega)
  have ho : ¬ 0x800 ≤ off := by omega
  simp only [rwPair, List.contains_eq_mem, hm, ho, decide_false, Bool.false_and, ite_self]

theorem wordWrite_header (cls : Nat) (p : Page) (i : Nat) {off : Nat} (v : Nat) (h : off < 0x040) :
    b.wordWrite cls p i off v = (pageFields p i off).foldl (fun (b : Blk) f => b.fieldWrite cls p i f (bits v f.lo f.w)) b := by
  have hfxp : ¬ (p = .fxp ∧ off = 0x088 ∧ bits v 0 8 + bits v 8 8 > 48) := by omega
  have hsched : ¬ (p = .sched ∧ off = 0x048 ∧ 2 ^ b.rd R.SCHED_WL_SIZE i < ringUsed 16 (v % 65536) (b.rd R.SCHED_WL_GET i)) := by omega
  have hstake : ¬ (p = .stake ∧ 0x080 ≤ off ∧ off < 0x100 ∧ off % 16 = 4) := by omega
  rw [Blk.wordWrite, if_neg hfxp, if_neg hsched, if_neg hstake]

/-- Only PG_CTRL and PG_EVENT set something going when they are written. -/
theorem after_header (b0 : Blk) (cls : Nat) (p : Page) (i : Nat) {off : Nat} (v : Nat) (h : off < 0x040) (hctrl : off ≠ 0x00C) (hevent : off ≠ 0x014) :
    Blk.after b0 b cls p i off v = b := by
  have hhead : Blk.after b0 b cls p i off v = b.headerAfter p i off v := if_pos h
  rw [hhead]
  unfold Blk.headerAfter
  split
  · exact absurd rfl hctrl
  · exact absurd rfl hevent
  · rfl

/-- An accepted write of a header register outside PG_CTRL and PG_EVENT is counted and stored, and nothing more. -/
theorem pageWrite_header (ini : Ini) (cls : Nat) (p : Page) (i : Nat) {off : Nat} (v : Nat) (h : off < 0x040) (hctrl : off ≠ 0x00C)
    (hevent : off ≠ 0x014) : b.pageWrite ini cls p i off v = (b.addW (R.PG_SEQ p) 1 i).wordWrite cls p i off v := by
  simp only [Blk.pageWrite, rwPair_header p i h, rwPair_header p i (show off - 4 < 0x040 by omega), and_false, Bool.false_eq_true, if_false,
    after_header _ _ cls p i v h hctrl hevent]

/-! ## PG_OWNER (R87) -/

theorem pageFields_pgOwner (p : Page) (i : Nat) : pageFields p i 0x038 = [R.PG_OWNER p] := rfl

theorem wordFor_pgOwner (p : Page) (i v : Nat) : b.wordFor p i 0x038 0 3 v = v % 8 := by
  simp [Blk.wordFor, pageFields_pgOwner, R.PG_OWNER]

/-- When PG_OWNER takes a value: on a page that is not locked, 1–7 from O and 0 from V. -/
abbrev OwnerTakes (locked : Bool) (cls v : Nat) : Prop := locked = false ∧ ((v ≠ 0 ∧ cls = clsO) ∨ (v = 0 ∧ cls = clsV))

theorem taken_pgOwner (cls : Nat) (p : Page) (i v : Nat) : b.taken cls p i (R.PG_OWNER p) v =
    if OwnerTakes (b.on (R.PG_LOCK p) i) cls v then some v else none := by
  cases hlock : b.on (R.PG_LOCK p) i
  case true => simp [Blk.taken, R.PG_OWNER, OwnerTakes, hlock]
  case false =>
    by_cases hv : v = 0
    · by_cases hcls : cls = clsV <;> simp [Blk.taken, R.PG_OWNER, OwnerTakes, hlock, hv, hcls]
    · by_cases hcls : cls = clsO <;> simp [Blk.taken, R.PG_OWNER, OwnerTakes, hlock, hv, hcls]

theorem fieldWrite_rwl (cls : Nat) (p : Page) (i : Nat) {f : Fld} (v : Nat) (h : f.acc = .rwl) :
    b.fieldWrite cls p i f v = (b.taken cls p i f v).elim b (fun x => b.wr f x i) := by
  simp only [Blk.fieldWrite, h]
  cases b.taken cls p i f v <;> rfl

theorem fieldWrite_pgOwner_rd (cls : Nat) (p : Page) (i : Nat) {v : Nat} (hv : v < 8) : (b.fieldWrite cls p i (R.PG_OWNER p) v).rd (R.PG_OWNER p) i =
    if OwnerTakes (b.on (R.PG_LOCK p) i) cls v then v else b.rd (R.PG_OWNER p) i := by
  have hfits : v % 2 ^ (R.PG_OWNER p).w = v := Nat.mod_eq_of_lt hv
  rw [fieldWrite_rwl b cls p i v rfl, taken_pgOwner]
  by_cases ht : OwnerTakes (b.on (R.PG_LOCK p) i) cls v
  · simp only [if_pos ht, Option.elim_some, rd_wr_same, hfits]
  · simp only [if_neg ht, Option.elim_none]

/-- An accepted write of PG_OWNER is the write of that one field after the count. -/
theorem pageWrite_pgOwner (ini : Ini) (cls : Nat) (p : Page) (i : Nat) {v : Nat} (hv : v < 8) :
    b.pageWrite ini cls p i 0x038 v = (b.addW (R.PG_SEQ p) 1 i).fieldWrite cls p i (R.PG_OWNER p) v := by
  have hbits : bits v 0 3 = v := by simp only [bits]; omega
  rw [pageWrite_header b ini cls p i v (by decide) (by decide) (by decide), wordWrite_header _ cls p i v (by decide), pageFields_pgOwner]
  show (b.addW (R.PG_SEQ p) 1 i).fieldWrite cls p i (R.PG_OWNER p) (bits v 0 3) = _
  rw [hbits]

theorem wroteField_pgOwner_rd (ini : Ini) (p : Page) (i : Nat) {v : Nat} (hv : v < 8) :
    (b.wroteField ini p i (R.PG_OWNER p) v).rd (R.PG_OWNER p) i =
      if OwnerTakes (b.on (R.PG_LOCK p) i) (b.iniClass ini) v then v else b.rd (R.PG_OWNER p) i := by
  have hword : b.wordFor p i 0x038 0 3 v = v := by rw [wordFor_pgOwner, Nat.mod_eq_of_lt hv]
  show ((b.pageWrite ini (b.iniClass ini) p i 0x038 (b.wordFor p i 0x038 0 3 v)).respond ini 0 0).rd (R.PG_OWNER p) i = _
  rw [respond_rd, hword, pageWrite_pgOwner b ini _ p i hv, fieldWrite_pgOwner_rd _ _ p i hv, addW_pgSeq_on_pgLock, addW_pgSeq_rd_pgOwner]

theorem exec_pgOwnerWrite_accepted (q : List Instr) (os : List Obs) {ini : Ini} {p : Page} {i v : Nat} (hv : v < 8)
    (h : b.AcceptsField ini p i (R.PG_OWNER p) v) :
    exec (.pgOwnerWrite ini p i v) ⟨b, q, os⟩ = .next ⟨b.wroteField ini p i (R.PG_OWNER p) v, q, os⟩ := by
  have hok : fldOk ini p i (R.PG_OWNER p) v = true := by
    have hfits : v < 2 ^ (R.PG_OWNER p).w := hv
    simp only [fldOk, h.sender, h.page, hfits, decide_true, Bool.and_self]
  rw [exec_pgOwnerWrite, execPgOwnerWrite, cmd_next hok, writeField_accepted h (by simp [R.PG_OWNER]) (by simp [R.PG_OWNER])]

theorem resetOf_pgOwner (p : Page) (i : Nat) : (R.PG_OWNER p).resetOf i = if ownedAccess p i % 256 = clsV then 0 else 1 := if_pos rfl

end

/-! ## The statements -/

/-- Settles O8: the write stores through the branches of `taken_pgOwner`; the count that comes before it reaches neither PG_LOCK nor PG_OWNER. -/
theorem pgOwnerTakesItsClasses : Obligations.PgOwnerTakesItsClasses := by
  unfold Obligations.PgOwnerTakesItsClasses
  refine ⟨fun b q os ini p i v hv h => ?_, resetOf_pgOwner⟩
  exact ⟨_, exec_pgOwnerWrite_accepted b q os hv h, wroteField_pgOwner_rd b ini p i hv⟩

/-- Settles O7: both refusals come before anything of the block is touched. -/
theorem registerAccessesAreAligned32Bit : Obligations.RegisterAccessesAreAligned32Bit := by
  unfold Obligations.RegisterAccessesAreAligned32Bit
  refine ⟨fun b q os ini off v hini hoff hv ha => ?_, fun b q os core a off n data write hcore haddr hc hoff hn hdata hbad hpa => ?_⟩
  · have hok : accOk ini off v = true := by simp only [accOk, hini, hoff, hv, decide_true, Bool.and_self]
    rw [exec_registerWrite, execRegisterWrite, cmd_next hok, write_misaligned b ini v ha]
    rfl
  · have hsize : [1, 2, 4, 8, 16, 32, 64].contains n = true := List.contains_iff_mem.mpr hn
    have hok : (decide (core < 32) && decide (a < 2 ^ 64) && [1, 2, 4, 8, 16, 32, 64].contains n && decide (data < 256 ^ n)) = true := by
      simp only [hcore, haddr, hsize, hdata, decide_true, Bool.and_self]
    rw [exec_hoopMemoryAccess, execHoopMemoryAccess, cmd_next hok]
    simp only [hpa, coreAccess_window_refused b write data hc hoff hbad]
    rfl

end Sys2Proof.Proofs
end

section
/-! SUPPORT. The order of FP32 values (R189): what a NaN does to a comparison, and minimum and maximum as the two ends of one order in which −0 comes before +0. -/

namespace Sys2Proof.Proofs

open Sys2Proof.Machine

section

variable {x y : Machine.Num}

/-! ## A NaN is unordered -/

theorem num_lt_of_nan (h : x = .nan ∨ y = .nan) : x.lt y = false := by
  obtain rfl | rfl := h
  · rfl
  · cases x <;> rfl

theorem num_eq_of_nan (h : x = .nan ∨ y = .nan) : x.eq y = false := by
  obtain rfl | rfl := h
  · rfl
  · cases x <;> rfl

theorem num_ne_nan_of_lt (h : x.lt y = true) : ¬ (x = .nan ∨ y = .nan) := fun hn => by simp [num_lt_of_nan hn] at h

/-! ## The order of two values -/

theorem num_lt_asymm (h : x.lt y = true) : y.lt x = false := by
  cases x <;> cases y
  case fin.fin n m e n' m' e' =>
    simp only [Num.lt, decide_eq_true_eq] at h
    simp only [Num.lt, min_comm e' e, decide_eq_false_iff_not, not_lt]
    exact h.le
  all_goals simp_all [Num.lt]

/-- Values that compare equal are the ordered ones of which neither is less. -/
theorem num_eq_iff : x.eq y = true ↔ ¬ (x = .nan ∨ y = .nan) ∧ x.lt y = false ∧ y.lt x = false := by
  cases x <;> cases y <;> simp [Num.eq]

/-- The order of minimum and maximum (R189): that of the values, with −0 before +0. -/
def ordersBefore (x y : Machine.Num) : Bool := x.lt y || (x.eq y && x.neg && !y.neg)

theorem ordersBefore_iff : ordersBefore x y = true ↔ x.lt y = true ∨ (x.eq y = true ∧ x.neg = true ∧ y.neg = false) := by
  simp [ordersBefore, and_assoc]

theorem ordersBefore_of_lt (h : x.lt y = true) : ordersBefore x y = true := ordersBefore_iff.mpr (.inl h)

theorem ne_nan_of_ordersBefore (h : ordersBefore x y = true) : ¬ (x = .nan ∨ y = .nan) := by
  obtain hlt | ⟨heq, -, -⟩ := ordersBefore_iff.mp h
  · exact num_ne_nan_of_lt hlt
  · exact (num_eq_iff.mp heq).1

theorem ordersBefore_asymm (h : ordersBefore x y = true) : ordersBefore y x = false := by
  rw [← Bool.not_eq_true, ordersBefore_iff]
  rintro (hyx | ⟨heq', hy, -⟩)
  · obtain hxy | ⟨heq, -, -⟩ := ordersBefore_iff.mp h
    · simp [num_lt_asymm hxy] at hyx
    · simp [(num_eq_iff.mp heq).2.2] at hyx
  · obtain hxy | ⟨-, -, hy'⟩ := ordersBefore_iff.mp h
    · simp [(num_eq_iff.mp heq').2.2] at hxy
    · simp [hy'] at hy

end

/-! ## Minimum and maximum -/

theorem fminmax_of_nan (isMax : Bool) {a c : Nat} (h : f32 a = .nan ∨ f32 c = .nan) : fminmax isMax a c = nan32 := if_pos h

theorem fminmax_of_ne_nan (isMax : Bool) {a c : Nat} (h : ¬ (f32 a = .nan ∨ f32 c = .nan)) :
    fminmax isMax a c = toF32 (if ordersBefore (f32 a) (f32 c) == isMax then f32 c else f32 a) := if_neg h

/-- Whichever way round its operands come, the minimum is the one that comes first in the order and the maximum the other. -/
theorem fmin_fmax_of_ordersBefore {a c : Nat} (h : ordersBefore (f32 a) (f32 c) = true) :
    fmin a c = toF32 (f32 a) ∧ fmin c a = toF32 (f32 a) ∧ fmax a c = toF32 (f32 c) ∧ fmax c a = toF32 (f32 c) := by
  have hn := ne_nan_of_ordersBefore h
  have hac (isMax : Bool) : fminmax isMax a c = toF32 (if true == isMax then f32 c else f32 a) := by rw [fminmax_of_ne_nan isMax hn, h]
  have hca (isMax : Bool) : fminmax isMax c a = toF32 (if false == isMax then f32 a else f32 c) := by
    rw [fminmax_of_ne_nan isMax (hn ∘ Or.symm), ordersBefore_asymm h]
  exact ⟨hac false, hca false, hac true, hca true⟩

/-! ## Comparisons of bit patterns -/

theorem comparisons_of_nan {a c : Nat} (h : f32 a = .nan ∨ f32 c = .nan) : flt a c = false ∧ fle a c = false ∧ feq a c = false := by
  have hlt : flt a c = false := num_lt_of_nan h
  have heq : feq a c = false := num_eq_of_nan h
  exact ⟨hlt, by simp [fle, hlt, heq], heq⟩

/-! ## The statement -/

/-- Settles O57: −0 and +0 are a pair of the same order as any two values of which one is less, so both clauses are `fmin_fmax_of_ordersBefore`. -/
theorem minimaAndMaximaOrderZerosAndNaN : Obligations.MinimaAndMaximaOrderZerosAndNaN := by
  unfold Obligations.MinimaAndMaximaOrderZerosAndNaN
  refine ⟨fun a c h => ?_, fun a c ha hc => ?_, fun a c h => fmin_fmax_of_ordersBefore (ordersBefore_of_lt h), fun a c => ⟨rfl, rfl⟩⟩
  · obtain ⟨hlt, hle, heq⟩ := comparisons_of_nan h
    obtain ⟨hlt', hle', -⟩ := comparisons_of_nan h.symm
    exact ⟨fminmax_of_nan false h, fminmax_of_nan true h, hlt, hlt', hle, hle', heq⟩
  · have hzeros : ordersBefore (f32 a) (f32 c) = true := by rw [ha, hc]; decide
    obtain ⟨hmin, hmin', hmax, hmax'⟩ := fmin_fmax_of_ordersBefore hzeros
    have hneg : toF32 (f32 a) = 0x8000_0000 := by rw [ha]; decide
    have hpos : toF32 (f32 c) = 0 := by rw [hc]; decide
    have hequal : feq a c = true ∧ feq c a = true := by rw [feq, feq, ha, hc]; decide
    exact ⟨hmin.trans hneg, hmin'.trans hneg, hmax.trans hpos, hmax'.trans hpos, hequal⟩

end Sys2Proof.Proofs
end

section
/-! SUPPORT. Writes within one 64-byte line of HBM or the slow tier (R252, R254): when one is refused, and what the line reads as after one that is not. -/

namespace Sys2Proof.Proofs

open Sys2Proof.Machine Sys2Proof.Laws

section

variable (b : Blk) {cls dom pa a : Nat} {l : List Byte}

/-! ## Lines -/

theorem isDram_iff : isDram pa = true ↔ pa < hbmEnd ∨ slowLo ≤ pa ∧ pa < slowEnd := by
  unfold isDram region
  by_cases hhbm : pa < hbmEnd
  · simp only [hhbm, if_true, true_or]
  by_cases hslow : slowLo ≤ pa ∧ pa < slowEnd
  · simp only [hhbm, hslow, if_false, if_true, or_true, and_self]
  · simp only [hhbm, hslow, if_false, or_self, iff_false]
    split_ifs <;> simp

/-- A region that has an inline engine starts and ends at a line's edge. -/
theorem isDram_of_same_line (hd : isDram pa = true) (ha : a / 64 = pa / 64) : isDram a = true := by
  simp only [isDram_iff, hbmEnd, slowLo, slowEnd] at hd ⊢
  omega

theorem eccUnit_of_isDram (hd : isDram pa = true) : eccUnit pa = 64 := if_pos hd

theorem eccBase_of_isDram (hd : isDram pa = true) : eccBase pa = pa / 64 * 64 := by rw [eccBase, eccUnit_of_isDram hd]

/-- The cells of a line that the reader's own current key wrote hold what it reads. -/
theorem byteAt_of_keyed (hd : isDram a = true) (h : b.mem.line a = .keyed dom (b.domGen dom)) : b.byteAt dom a = b.mem.raw a := by
  simp [Blk.byteAt, hd, h]

@[simp] theorem length_readBytes (n : Nat) : (b.readBytes dom pa n).length = n := by simp [Blk.readBytes]

theorem getElem_readBytes {n k : Nat} (h : k < (b.readBytes dom pa n).length) : (b.readBytes dom pa n)[k] = b.byteAt dom (pa + k) := by
  simp [Blk.readBytes]

/-! ## The line after a write inside it -/

theorem writeUnit_line (hd : isDram pa = true) (ha : a / 64 = pa / 64) : (b.writeUnit dom pa l).mem.line a = .keyed dom (b.domGen dom) := by
  simp [Blk.writeUnit, Mem.line, hd, ha]

theorem writeUnit_ueAt (hd : isDram pa = true) : (b.writeUnit dom pa l).ueAt pa = false := by
  have hline := writeUnit_line b (dom := dom) (l := l) hd rfl
  have hmark : SMap.get false (b.writeUnit dom pa l).mem.ue (eccBase pa) = false := by simp [Blk.writeUnit, hd]
  simp [Blk.ueAt, hline, hmark]

theorem writeUnit_raw_in {k : Nat} (hk : k < l.length) : (b.writeUnit dom pa l).mem.raw (pa + k) = l[k] := by
  have hstored (m : Mem) : (m.storeRaw pa l).raw (pa + k) = l[k] := storeRaw_raw_in m pa l k hk
  unfold Blk.writeUnit
  dsimp only
  split <;> exact hstored _

/-- Where the writer's key wrote the line before, its cells stay. -/
theorem writeUnit_raw_of_keyed (hd : isDram pa = true) (hkey : b.mem.line pa = .keyed dom (b.domGen dom)) :
    (b.writeUnit dom pa l).mem.raw a = (b.mem.storeRaw pa l).raw a := by
  simp [Blk.writeUnit, Mem.raw, hd, hkey]

/-- Where it did not, a partial write puts in what the writer read of the line. -/
theorem writeUnit_raw_of_not_keyed (hd : isDram pa = true) (hkey : b.mem.line pa ≠ .keyed dom (b.domGen dom)) (hl : l.length < 64) :
    (b.writeUnit dom pa l).mem.raw a = ((b.mem.storeRaw (pa / 64 * 64) (b.readBytes dom (pa / 64 * 64) 64)).storeRaw pa l).raw a := by
  simp [Blk.writeUnit, Mem.raw, hd, hkey, hl, eccUnit_of_isDram hd, eccBase_of_isDram hd]

/-- A partial write merges with what the line reads as under the writer's domain. -/
theorem writeUnit_raw_out (hd : isDram pa = true) (hl : l.length < 64) (ha : a / 64 = pa / 64) (hout : a < pa ∨ pa + l.length ≤ a) :
    (b.writeUnit dom pa l).mem.raw a = b.byteAt dom a := by
  by_cases hkey : b.mem.line pa = .keyed dom (b.domGen dom)
  · have hkeyA : b.mem.line a = .keyed dom (b.domGen dom) := by rw [← hkey, Mem.line, ha, Mem.line]
    rw [writeUnit_raw_of_keyed b hd hkey, storeRaw_raw_out _ _ _ _ hout, byteAt_of_keyed b (isDram_of_same_line hd ha) hkeyA]
  · obtain ⟨k, hk, rfl⟩ : ∃ k < 64, a = pa / 64 * 64 + k := ⟨a % 64, by omega, by omega⟩
    rw [writeUnit_raw_of_not_keyed b hd hkey hl, storeRaw_raw_out _ _ _ _ hout, storeRaw_raw_in _ _ _ k (by simpa using hk), getElem_readBytes]

theorem byteAt_writeUnit (hd : isDram pa = true) (ha : a / 64 = pa / 64) : (b.writeUnit dom pa l).byteAt dom a = (b.writeUnit dom pa l).mem.raw a :=
  byteAt_of_keyed _ (isDram_of_same_line hd ha) (writeUnit_line b hd ha)

/-- The written bytes read as written, and the line's other bytes as they read before a partial write. -/
theorem writeUnit_byteAt_of_partial (hd : isDram pa = true) (hl : l.length < 64) (ha : a / 64 = pa / 64) :
    (b.writeUnit dom pa l).byteAt dom a = if h : pa ≤ a ∧ a - pa < l.length then l[a - pa]'h.2 else b.byteAt dom a := by
  rw [byteAt_writeUnit b hd ha]
  split
  next hin =>
    obtain ⟨k, rfl⟩ := Nat.exists_eq_add_of_le hin.1
    simpa using writeUnit_raw_in b (dom := dom) (by simpa using hin.2)
  next hout => exact writeUnit_raw_out b hd hl ha (by omega)

theorem writeUnit_readBytes_of_whole (hd : isDram pa = true) (hl : l.length = 64) (ha : pa % 64 = 0) :
    (b.writeUnit dom pa l).readBytes dom pa 64 = l := by
  refine List.ext_getElem (by simp [hl]) fun k hk hkl => ?_
  rw [getElem_readBytes, byteAt_writeUnit b hd (by omega), writeUnit_raw_in b hkl]

/-! ## Writes at a device physical address -/

theorem writeGo_nil (fuel : Nat) : b.writeGo dom fuel pa [] = (b, none) := by cases fuel <;> rfl

/-- A write that stays inside one line is one write of a unit, refused where it is partial and the line is uncorrectable. -/
theorem writeBytes_within_line (hd : isDram pa = true) (hpos : 0 < l.length) (hfit : pa % 64 + l.length ≤ 64) :
    b.writeBytes dom pa l = if l.length < 64 ∧ b.ueAt pa = true then (b, some pa) else (b.writeUnit dom pa l, none) := by
  have hn : min (64 - pa % 64) l.length = l.length := by omega
  cases l with
  | nil => simp at hpos
  | cons x xs =>
    simp only [List.length_cons] at hn
    simp [Blk.writeBytes, Blk.writeGo, eccUnit_of_isDram hd, hn, writeGo_nil]

theorem writePa_of_gate (hg : b.memGateN cls pa l.length = 0) :
    b.writePa cls dom pa l =
      ((b.writeBytes dom pa l).1, (b.writeBytes dom pa l).2.map fun a => { cls := eEcc, va := (⟨0, pa, l.length, dom⟩ : Piece).vaOf a, pa := a }) := by
  simp only [Blk.writePa, Blk.writePieces, hg, List.take_length]
  rcases b.writeBytes dom pa l with ⟨b', _ | a⟩ <;> simp

theorem writePa_refused (hd : isDram pa = true) (hpos : 0 < l.length) (hlt : l.length < 64) (hfit : pa % 64 + l.length ≤ 64)
    (hg : b.memGateN cls pa l.length = 0) (hue : b.ueAt pa = true) : b.writePa cls dom pa l = (b, some { cls := eEcc, pa := pa }) := by
  rw [writePa_of_gate b hg, writeBytes_within_line b hd hpos hfit, if_pos ⟨hlt, hue⟩]
  simp [Piece.vaOf]

theorem writePa_accepted (hd : isDram pa = true) (hpos : 0 < l.length) (hfit : pa % 64 + l.length ≤ 64)
    (hg : b.memGateN cls pa l.length = 0) (hok : ¬ (l.length < 64 ∧ b.ueAt pa = true)) : b.writePa cls dom pa l = (b.writeUnit dom pa l, none) := by
  rw [writePa_of_gate b hg, writeBytes_within_line b hd hpos hfit, if_neg hok]
  rfl

end

/-! ## The statement -/

/-- Settles O52: inside one line a write is refused, or is one `writeUnit`, whose line then holds the writer's key and what the writer read of it. -/
theorem partialLineWritesAreReadModifyWrites : Obligations.PartialLineWritesAreReadModifyWrites := by
  unfold Obligations.PartialLineWritesAreReadModifyWrites
  refine ⟨fun b cls dom pa l hd hpos hlt hfit hg hue => ?_, fun b cls dom pa l hd hpos hlt hfit hg hue => ?_, fun b cls dom pa l hd hlen ha hg => ?_⟩
  · exact ⟨_, writePa_refused b hd hpos hlt hfit hg hue, rfl, rfl⟩
  · exact ⟨_, writePa_accepted b hd hpos hfit hg (by simp [hue]), fun a ha => writeUnit_byteAt_of_partial b hd hlt ha⟩
  · exact ⟨_, writePa_accepted b hd (by omega) (by omega) (by rwa [hlen]) (by simp [hlen]), writeUnit_ueAt b hd, writeUnit_readBytes_of_whole b hd hlen ha⟩

end Sys2Proof.Proofs
end

section
/-! SUPPORT. What a step comes to: the queue and the observations after it, and the block, which follows the one before; and so for a whole queue of well-formed commands. -/

namespace Sys2Proof.Proofs

open Sys2Proof.Machine Sys2Proof.Laws

/-! ## What a command answers -/

theorem exec_of_wf {c : Instr} (h : c.wf = true) (s : State) : ∃ b', exec c s = .next ⟨b', s.pending, s.obs⟩ := by
  obtain ⟨f, hf⟩ := exec_cmd c s
  exact ⟨f s.blk, by rw [hf, h, cmd_true]⟩

theorem exec_of_not_wf {c : Instr} (h : c.wf = false) (s : State) : exec c s = .refused .illFormed := by
  obtain ⟨f, hf⟩ := exec_cmd c s
  rw [hf, h, cmd_false]

theorem exec_keeps_queue {c : Instr} {s s' : State} (h : exec c s = .next s') : s'.pending = s.pending ∧ s'.obs = s.obs := by
  cases hw : c.wf
  case false => simp [exec_of_not_wf hw] at h
  case true =>
    obtain ⟨b', hb⟩ := exec_of_wf hw s
    obtain rfl := Host.Outcome.next.inj (hb.symm.trans h)
    exact ⟨rfl, rfl⟩

/-- The laws of the single commands, as one law of `exec`. -/
theorem exec_follows (c : Instr) {s s' : State} (h : exec c s = .next s') : s.blk.Follows s'.blk := by
  cases c with
  | ownerClaim => exact execOwnerClaim_follows _ h
  | ownerRelease => exact execOwnerRelease_follows _ h
  | forceClear => exact execForceClear_follows _ h
  | serviceToken => exact execServiceToken_follows _ _ h
  | serviceConsent => exact execServiceConsent_follows h
  | serviceHoldLapse => exact execServiceHoldLapse_follows _ h
  | serviceExit => exact execServiceExit_follows h
  | zeroiseQuiesceEnd => exact execZeroiseQuiesceEnd_follows h
  | zeroiseMediaDone => exact execZeroiseMediaDone_follows h
  | claimArm => exact execClaimArm_follows _ h
  | claimWindowExpire => exact execClaimWindowExpire_follows h
  | claimLeftTick => exact execClaimLeftTick_follows h
  | lidDomainRekey => exact execLidDomainRekey_follows _ _ h
  | domainKeyInstalled => exact execDomainKeyInstalled_follows _ h
  | firmwareApproval => exact execFirmwareApproval_follows _ h
  | imageReadyPoint => exact execImageReadyPoint_follows _ h
  | debugOpen => exact execDebugOpen_follows _ h
  | lidDebugClose => exact execLidDebugClose_follows _ h
  | nearRekeyDue => exact execNearRekeyDue_follows _ h
  | keyNext => exact execKeyNext_follows _ _ h
  | nearKeyInstalled => exact execNearKeyInstalled_follows _ h
  | keyReady => exact execKeyReady_follows _ _ h
  | keyRetire => exact execKeyRetire_follows _ _ h
  | farRekeyDue => exact execFarRekeyDue_follows _ _ h
  | farPrevKeyExpire => exact execFarPrevKeyExpire_follows _ h
  | sanitisedWindowEnd => exact execSanitisedWindowEnd_follows _ h
  | lidLogGet => exact execLidLogGet_follows _ _ h
  | lidLogBase => exact execLidLogBase_follows _ _ h
  | registerWrite => exact execRegisterWrite_follows _ _ _ h
  | pairLoRead => exact execPairLoRead_follows _ _ h
  | pairLoWrite => exact execPairLoWrite_follows _ _ _ h
  | pairHiWrite => exact execPairHiWrite_follows _ _ _ h
  | pgCtrlEnable => exact execPgCtrlEnable_follows _ _ _ _ h
  | pgCtrlQuiesceReq => exact execPgCtrlQuiesceReq_follows _ _ _ _ h
  | pgCtrlIsolate => exact execPgCtrlIsolate_follows _ _ _ _ h
  | blockReset => exact execBlockReset_follows _ _ _ h
  | pgEventClear => exact execPgEventClear_follows _ _ _ _ h
  | pgLock => exact execPgLock_follows _ _ _ h
  | pgOwnerWrite => exact execPgOwnerWrite_follows _ _ _ _ h
  | blockInitDone => exact execBlockInitDone_follows _ _ h
  | blockInitTimeout => exact execBlockInitTimeout_follows _ _ h
  | blockDrained => exact execBlockDrained_follows _ _ h
  | quiesceTimeout => exact execQuiesceTimeout_follows _ _ h
  | blockSelfCheckFail => exact execBlockSelfCheckFail_follows _ _ h
  | beatTick => exact execBeatTick_follows _ h
  | workListTake => exact execWorkListTake_follows _ h
  | syncEdge => exact execSyncEdge_follows _ h
  | syncEvaluate => exact execSyncEvaluate_follows h
  | beatPeriod => exact execBeatPeriod_follows _ _ h
  | beatCtrlStrict => exact execBeatCtrlStrict_follows _ _ h
  | beatCtrlSyncEn => exact execBeatCtrlSyncEn_follows _ _ h
  | beatCtrlSyncOutEn => exact execBeatCtrlSyncOutEn_follows _ _ h
  | cdcTimeout => exact execCdcTimeout_follows _ _ _ _ h
  | creditTimeout => exact execCreditTimeout_follows _ h
  | nop => exact execNop_follows _ h
  | add => exact execAdd_follows _ h
  | sub => exact execSub_follows _ h
  | mul => exact execMul_follows _ h
  | mulhu => exact execMulhu_follows _ h
  | andOp => exact execAndOp_follows _ h
  | orOp => exact execOrOp_follows _ h
  | xor => exact execXor_follows _ h
  | sll => exact execSll_follows _ h
  | srl => exact execSrl_follows _ h
  | sra => exact execSra_follows _ h
  | min => exact execMin_follows _ h
  | max => exact execMax_follows _ h
  | minu => exact execMinu_follows _ h
  | maxu => exact execMaxu_follows _ h
  | slt => exact execSlt_follows _ h
  | sltu => exact execSltu_follows _ h
  | seq => exact execSeq_follows _ h
  | li => exact execLi_follows _ h
  | lih => exact execLih_follows _ h
  | sel => exact execSel_follows _ h
  | beq => exact execBeq_follows _ h
  | bne => exact execBne_follows _ h
  | blt => exact execBlt_follows _ h
  | bge => exact execBge_follows _ h
  | bltu => exact execBltu_follows _ h
  | bgeu => exact execBgeu_follows _ h
  | jal => exact execJal_follows _ h
  | jalr => exact execJalr_follows _ h
  | ld => exact execLd_follows _ h
  | st => exact execSt_follows _ h
  | amo => exact execAmo_follows _ h
  | issMat => exact execIssMat_follows _ h
  | issVec => exact execIssVec_follows _ h
  | issRow => exact execIssRow_follows _ h
  | issDma => exact execIssDma_follows _ h
  | issSum => exact execIssSum_follows _ h
  | twait => exact execTwait_follows _ h
  | fence => exact execFence_follows _ h
  | bar => exact execBar_follows _ h
  | bwait => exact execBwait_follows _ h
  | halt => exact execHalt_follows _ h
  | sumrd => exact execSumrd_follows _ h
  | rdid => exact execRdid_follows _ h
  | phase => exact execPhase_follows _ h
  | undefinedOpcode => exact execUndefinedOpcode_follows _ h
  | stakeStart => exact execStakeStart_follows _ _ h
  | stakePause => exact execStakePause_follows _ _ h
  | stakeResume => exact execStakeResume_follows _ _ h
  | stakeRelease => exact execStakeRelease_follows _ _ h
  | stakeReleaseSkip => exact execStakeReleaseSkip_follows _ _ h
  | stakeKill => exact execStakeKill_follows _ _ h
  | stakeIcacheInvalidate => exact execStakeIcacheInvalidate_follows _ _ h
  | stakeRegAccess => exact execStakeRegAccess_follows _ _ _ _ h
  | schedWlPut => exact execSchedWlPut_follows _ _ _ h
  | schedPeakClr => exact execSchedPeakClr_follows _ _ h
  | sumCombine => exact execSumCombine_follows _ h
  | sumPost => exact execSumPost_follows _ h
  | sumClear => exact execSumClear_follows _ h
  | sumLoss => exact execSumLoss_follows _ h
  | summaryOpEnd => exact execSummaryOpEnd_follows _ h
  | sumPostPop => exact execSumPostPop_follows _ _ h
  | matrixOpStart => exact execMatrixOpStart_follows _ h
  | matrixOpEnd => exact execMatrixOpEnd_follows _ h
  | matrixSuspend => exact execMatrixSuspend_follows _ _ h
  | chainOpStart => exact execChainOpStart_follows _ h
  | chainOpEnd => exact execChainOpEnd_follows _ h
  | chainSuspend => exact execChainSuspend_follows _ _ h
  | rowOpStart => exact execRowOpStart_follows _ h
  | rowOpEnd => exact execRowOpEnd_follows _ h
  | rowSuspend => exact execRowSuspend_follows _ _ h
  | rowSideClr => exact execRowSideClr_follows _ _ h
  | sideClearDone => exact execSideClearDone_follows _ h
  | leaveWindow => exact execLeaveWindow_follows _ h
  | dmaStreamStart => exact execDmaStreamStart_follows _ h
  | dmaStreamEnd => exact execDmaStreamEnd_follows _ h
  | dmaStreamFault => exact execDmaStreamFault_follows _ _ h
  | translationWalkEnd => exact execTranslationWalkEnd_follows _ _ _ _ h
  | xltInvalRange => exact execXltInvalRange_follows _ _ _ h
  | xltInvalAll => exact execXltInvalAll_follows _ h
  | invalComplete => exact execInvalComplete_follows h
  | xltFaultResume => exact execXltFaultResume_follows _ _ _ h
  | xltFaultDiscard => exact execXltFaultDiscard_follows _ _ _ h
  | xltFqGet => exact execXltFqGet_follows _ _ h
  | xltFqBase => exact execXltFqBase_follows _ _ h
  | scrubLine => exact execScrubLine_follows _ _ _ h
  | hoopMemoryAccess => exact execHoopMemoryAccess_follows _ _ _ _ _ h
  | applyDescriptorTake => exact execApplyDescriptorTake_follows _ h
  | applyChunkStart => exact execApplyChunkStart_follows _ h
  | applyChunkCommit => exact execApplyChunkCommit_follows _ h
  | applyChunkAbort => exact execApplyChunkAbort_follows _ _ h
  | applyRetry => exact execApplyRetry_follows _ h
  | bankResume => exact execBankResume_follows _ _ h
  | bankAbandon => exact execBankAbandon_follows _ _ h
  | bankSkip => exact execBankSkip_follows _ _ h
  | bankPause => exact execBankPause_follows _ _ _ h
  | gateClr => exact execGateClr_follows _ _ h
  | exportSend => exact execExportSend_follows _ h
  | lossValue => exact execLossValue_follows h
  | lossRelease => exact execLossRelease_follows _ h
  | lossStatsReset => exact execLossStatsReset_follows _ h
  | digestReady => exact execDigestReady_follows _ h
  | digestReceive => exact execDigestReceive_follows _ _ _ _ h
  | digestWaitExpire => exact execDigestWaitExpire_follows _ _ h
  | repairServe => exact execRepairServe_follows _ _ _ _ _ _ h
  | repairChunkReceive => exact execRepairChunkReceive_follows _ h
  | gatherReq => exact execGatherReq_follows _ _ _ _ h
  | gatherServe => exact execGatherServe_follows _ h
  | gatherPiece => exact execGatherPiece_follows _ _ _ _ _ _ h
  | handoverForward => exact execHandoverForward_follows _ _ _ _ h
  | handoverBackward => exact execHandoverBackward_follows _ _ _ _ h
  | countRecord => exact execCountRecord_follows _ _ _ _ _ h
  | expertTokens => exact execExpertTokens_follows _ _ _ _ h
  | flitReceive => exact execFlitReceive_follows _ _ h
  | nak => exact execNak_follows _ _ _ h
  | replayTimeout => exact execReplayTimeout_follows _ h
  | creditReturn => exact execCreditReturn_follows _ _ _ h
  | linkTraining => exact execLinkTraining_follows _ _ _ h
  | trainingStepDone => exact execTrainingStepDone_follows _ _ h
  | trainingStepTimeout => exact execTrainingStepTimeout_follows _ h
  | trainingRetry => exact execTrainingRetry_follows _ h
  | capabilityRecord => exact execCapabilityRecord_follows _ _ h
  | cableOvercurrent => exact execCableOvercurrent_follows _ _ h
  | loadSwitchReclose => exact execLoadSwitchReclose_follows _ h
  | nlnkLoadRetry => exact execNlnkLoadRetry_follows _ _ h
  | nlnkForce4 => exact execNlnkForce4_follows _ _ _ h
  | laneFail => exact execLaneFail_follows _ _ h
  | width => exact execWidth_follows _ _ _ h
  | laneRetrainAttempt => exact execLaneRetrainAttempt_follows _ _ h
  | laneRestore => exact execLaneRestore_follows _ h
  | rate => exact execRate_follows _ _ h
  | backpressurePeriod => exact execBackpressurePeriod_follows _ _ _ h
  | sidebandRecord => exact execSidebandRecord_follows _ _ h
  | postTake => exact execPostTake_follows h
  | openMsg => exact execOpenMsg_follows _ _ h
  | grant => exact execGrant_follows _ _ h
  | bucketData => exact execBucketData_follows _ _ h
  | bucketDeadlineExpire => exact execBucketDeadlineExpire_follows _ h
  | abortMsg => exact execAbortMsg_follows _ _ _ _ _ _ _ h
  | nredAbortGo => exact execNredAbortGo_follows _ _ h
  | nredSlotsGrant => exact execNredSlotsGrant_follows _ _ _ h
  | joinAck => exact execJoinAck_follows _ _ _ h
  | reject => exact execReject_follows _ _ _ h
  | switchResult => exact execSwitchResult_follows _ _ h
  | codedBlockRerequest => exact execCodedBlockRerequest_follows _ _ _ _ h
  | codecBlockEncode => exact execCodecBlockEncode_follows _ h
  | codecBlockDecode => exact execCodecBlockDecode_follows _ h
  | fcodEncode => exact execFcodEncode_follows _ h
  | fcodDecode => exact execFcodDecode_follows _ h
  | fcodJobEnd => exact execFcodJobEnd_follows _ h
  | heartbeatTimer => exact execHeartbeatTimer_follows _ _ h
  | heartbeat => exact execHeartbeat_follows _ _ _ _ h
  | echo => exact execEcho_follows _ _ h
  | ack => exact execAck_follows _ _ _ _ h
  | dataRec => exact execDataRec_follows _ _ h
  | ackTimer => exact execAckTimer_follows _ h
  | resendTimeout => exact execResendTimeout_follows _ _ h
  | routeLostTimeout => exact execRouteLostTimeout_follows _ _ h
  | routeDown => exact execRouteDown_follows _ _ h
  | keyRec => exact execKeyRec_follows _ _ h
  | neighborDiscovery => exact execNeighborDiscovery_follows _ _ h
  | farFrameDrop => exact execFarFrameDrop_follows _ _ h
  | fxpCtrlEn => exact execFxpCtrlEn_follows _ _ _ _ h
  | sendDescriptorTake => exact execSendDescriptorTake_follows h
  | fxpRxFree => exact execFxpRxFree_follows _ _ _ h
  | manifestCloseTimeout => exact execManifestCloseTimeout_follows h
  | manifestSigned => exact execManifestSigned_follows h
  | manifest => exact execManifest_follows _ _ h
  | fetchWaitExpire => exact execFetchWaitExpire_follows _ h
  | fxpCtrlJoin => exact execFxpCtrlJoin_follows _ _ h
  | fxpRound => exact execFxpRound_follows _ _ _ h
  | supplyWarn => exact execSupplyWarn_follows h
  | supplyRecover => exact execSupplyRecover_follows h
  | warningRelease => exact execWarningRelease_follows h
  | bubbleRamp => exact execBubbleRamp_follows h
  | brownOut => exact execBrownOut_follows h
  | overVoltage => exact execOverVoltage_follows h
  | pwrAlert => exact execPwrAlert_follows h
  | alertRelease => exact execAlertRelease_follows h
  | fastLoop => exact execFastLoop_follows _ h
  | estimateCompare => exact execEstimateCompare_follows _ _ h
  | telCap => exact execTelCap_follows _ _ h
  | telGroup => exact execTelGroup_follows _ _ h
  | pwcPhaseTab => exact execPwcPhaseTab_follows _ _ _ h
  | sensorReading => exact execSensorReading_follows _ _ _ h
  | thermalCountStep => exact execThermalCountStep_follows _ h
  | sensorStop => exact execSensorStop_follows _ h
  | tripRelease => exact execTripRelease_follows h
  | coolantLeak => exact execCoolantLeak_follows h
  | powerOn => exact execPowerOn_follows h
  | rstN => exact execRstN_follows h
  | refclkLoss => exact execRefclkLoss_follows h
  | powerGood => exact execPowerGood_follows _ _ h
  | baseStageEnd => exact execBaseStageEnd_follows h
  | baseStageTimeout => exact execBaseStageTimeout_follows h
  | bootDecision => exact execBootDecision_follows h
  | bootStepEnd => exact execBootStepEnd_follows _ _ _ _ h
  | bootBudget => exact execBootBudget_follows _ _ h
  | warmN => exact execWarmN_follows h
  | bootReset => exact execBootReset_follows _ h
  | warmStart => exact execWarmStart_follows h
  | bootShutdown => exact execBootShutdown_follows _ h
  | bistTest => exact execBistTest_follows _ _ _ h
  | bistRetire => exact execBistRetire_follows _ _ _ h
  | bistComplete => exact execBistComplete_follows _ _ _ _ h
  | waleTest => exact execWaleTest_follows _ _ h
  | waleRetire => exact execWaleRetire_follows _ _ h
  | portFwActivate => exact execPortFwActivate_follows _ _ h
  | hoopMigrate => exact execHoopMigrate_follows _ h
  | hoopGParked => exact execHoopGParked_follows _ _ _ h
  | hoopGClaim => exact execHoopGClaim_follows _ _ _ h
  | hoopCoreGroup => exact execHoopCoreGroup_follows _ _ _ h
  | hoopDmaDoorbell => exact execHoopDmaDoorbell_follows _ _ _ h
  | hoopGEvtGet => exact execHoopGEvtGet_follows _ _ _ h
  | d2dLaneRepair => exact execD2dLaneRepair_follows _ _ h
  | d2dLinkFail => exact execD2dLinkFail_follows _ _ h
  | diePllUnlock => exact execDiePllUnlock_follows _ _ h
  | raklineLight => exact execRaklineLight_follows h
  | raklineLinkLoss => exact execRaklineLinkLoss_follows h
  | raklineFrame => exact execRaklineFrame_follows _ _ _ _ h
  | raklineAckTimer => exact execRaklineAckTimer_follows h
  | raklineNak => exact execRaklineNak_follows _ h
  | raklineReplayTimeout => exact execRaklineReplayTimeout_follows h
  | getNonce => exact execGetNonce_follows h
  | sessionInit => exact execSessionInit_follows _ _ _ _ h
  | getQuote => exact execGetQuote_follows _ _ h
  | getCerts => exact execGetCerts_follows _ h
  | regRead => exact execRegRead_follows _ h
  | regWrite => exact execRegWrite_follows _ h
  | regWarmReset => exact execRegWarmReset_follows _ h
  | regShutdown => exact execRegShutdown_follows _ h
  | bulkWrite => exact execBulkWrite_follows _ h
  | bulkRead => exact execBulkRead_follows _ h
  | bulkData => exact execBulkData_follows _ h
  | bulkTransferEnd => exact execBulkTransferEnd_follows _ h
  | console => exact execConsole_follows _ _ h
  | i3cEntdaa => exact execI3cEntdaa_follows _ h
  | setEndpointId => exact execSetEndpointId_follows _ h
  | getEndpointId => exact execGetEndpointId_follows h
  | getEndpointUuid => exact execGetEndpointUuid_follows h
  | getMctpVersionSupport => exact execGetMctpVersionSupport_follows _ h
  | getMessageTypeSupport => exact execGetMessageTypeSupport_follows h
  | getVendorDefinedMessageSupport => exact execGetVendorDefinedMessageSupport_follows _ h
  | getTid => exact execGetTid_follows h
  | setTid => exact execSetTid_follows _ h
  | getPldmVersion => exact execGetPldmVersion_follows _ h
  | getPldmTypes => exact execGetPldmTypes_follows h
  | getPldmCommands => exact execGetPldmCommands_follows _ h
  | getPdrRepositoryInfo => exact execGetPdrRepositoryInfo_follows h
  | getPdr => exact execGetPdr_follows _ h
  | getSensorReading => exact execGetSensorReading_follows _ h
  | getStateSensorReadings => exact execGetStateSensorReadings_follows _ h
  | setNumericEffecterValue => exact execSetNumericEffecterValue_follows _ _ h
  | getNumericEffecterValue => exact execGetNumericEffecterValue_follows _ h
  | setStateEffecterStates => exact execSetStateEffecterStates_follows _ _ h
  | getStateEffecterStates => exact execGetStateEffecterStates_follows _ h
  | setEventReceiver => exact execSetEventReceiver_follows _ h
  | queryDeviceIdentifiers => exact execQueryDeviceIdentifiers_follows h
  | getFirmwareParameters => exact execGetFirmwareParameters_follows h
  | requestUpdate => exact execRequestUpdate_follows h
  | passComponentTable => exact execPassComponentTable_follows _ h
  | updateComponent => exact execUpdateComponent_follows _ h
  | verifyComplete => exact execVerifyComplete_follows _ h
  | activateFirmware => exact execActivateFirmware_follows h
  | getStatus => exact execGetStatus_follows h
  | cancelUpdateComponent => exact execCancelUpdateComponent_follows h
  | cancelUpdate => exact execCancelUpdate_follows h
  | fmacLinkDown => exact execFmacLinkDown_follows _ _ h
  | fmacLinkUp => exact execFmacLinkUp_follows _ h
  | cblPresentN => exact execCblPresentN_follows _ _ h
  | creditReturnTimer => exact execCreditReturnTimer_follows _ h
  | groupDeadlineExpire => exact execGroupDeadlineExpire_follows _ _ _ h
  | refclkReturn => exact execRefclkReturn_follows h
  | inletSensorReading => exact execInletSensorReading_follows _ h
  | coolantLeakDeassert => exact execCoolantLeakDeassert_follows h
  | platformEventAck => exact execPlatformEventAck_follows _ h

/-! ## What a step answers -/

theorem step_cons (c : Instr) (b : Blk) (q : List Instr) (os : List Obs) : step ⟨b, c :: q, os⟩ = exec c ⟨b, q, os⟩ := rfl

theorem step_observe (b : Blk) (o : Obs) (os : List Obs) : step ⟨b, [], o :: os⟩ = .next ⟨b.observe o, [], os⟩ := rfl

theorem step_idle (b : Blk) : step ⟨b, [], []⟩ = .next ⟨b, [], []⟩ := rfl

/-- All that a step can do: run the front command, take the first observation, or idle. -/
theorem step_cases {s s' : State} (h : step s = .next s') :
    (∃ c q, s.pending = c :: q ∧ exec c ⟨s.blk, q, s.obs⟩ = .next s') ∨
    (∃ o os, s.pending = [] ∧ s' = ⟨s.blk.observe o, [], os⟩) ∨ (s.pending = [] ∧ s' = s) := by
  obtain ⟨b, _ | ⟨c, q⟩, _ | ⟨o, os⟩⟩ := s
  case nil.nil => exact .inr (.inr ⟨rfl, (Host.Outcome.next.inj (step_idle b ▸ h)).symm⟩)
  case nil.cons => exact .inr (.inl ⟨o, os, rfl, (Host.Outcome.next.inj (step_observe b o os ▸ h)).symm⟩)
  all_goals exact .inl ⟨c, q, rfl, h⟩

theorem step_follows {s s' : State} (h : step s = .next s') : s.blk.Follows s'.blk := by
  obtain ⟨c, q, -, hc⟩ | ⟨o, os, -, rfl⟩ | ⟨-, rfl⟩ := step_cases h
  · exact exec_follows (s := ⟨s.blk, q, s.obs⟩) c hc
  · exact observe_follows (fun c _ _ => exec_follows c) s.blk o (follows_refl _)
  · exact follows_refl _

theorem step_pending {s s' : State} (h : step s = .next s') : s'.pending = s.pending.tail := by
  obtain ⟨c, q, hp, hc⟩ | ⟨o, os, hp, rfl⟩ | ⟨hp, rfl⟩ := step_cases h
  · rw [hp, (exec_keeps_queue hc).1, List.tail_cons]
  · rw [hp, List.tail_nil]
  · rw [hp, List.tail_nil]

/-! ## Queues of well-formed commands -/

theorem ready_cons {b : Blk} {c : Instr} {q : List Instr} {os : List Obs} :
    State.ready ⟨b, c :: q, os⟩ = true ↔ c.wf = true ∧ State.ready ⟨b, q, os⟩ = true := by
  simp [State.ready]

theorem step_keeps_ready {s s' : State} (hr : s.ready = true) (h : step s = .next s') : s'.ready = true := by
  simp only [State.ready, step_pending h, List.all_eq_true] at hr ⊢
  exact fun c hc => hr c (List.mem_of_mem_tail hc)

theorem run_drains (q : List Instr) (b : Blk) (os : List Obs) (hr : State.ready ⟨b, q, os⟩ = true) :
    ∃ b', Host.Core.run core q.length (⟨b, q, os⟩ : State) = .next (⟨b', [], os⟩ : State) ∧ b.Follows b' := by
  induction q generalizing b with
  | nil => exact ⟨b, rfl, follows_refl b⟩
  | cons c q ih =>
    obtain ⟨hc, hq⟩ := ready_cons.mp hr
    obtain ⟨b1, h1⟩ := exec_of_wf hc ⟨b, q, os⟩
    obtain ⟨b2, hrun, hfollows⟩ := ih b1 hq
    have hstep : core.step (⟨b, c :: q, os⟩ : State) = .next (⟨b1, q, os⟩ : State) := h1
    refine ⟨b2, ?_, follows_trans (exec_follows c h1) hfollows⟩
    simp only [List.length_cons, Host.Core.run, hstep]
    exact hrun

/-! ## The statements -/

/-- Settles O4: a step is a command, an observation, or nothing, and the laws of the commands and observations cover the first two. -/
theorem everyStepFollows : Obligations.EveryStepFollows := by
  unfold Obligations.EveryStepFollows
  exact fun s s' h => step_follows h

/-- Settles O5: the memory by `step_follows`, the queue because a step only takes its front. -/
theorem stepKeepsInv : Obligations.StepKeepsInv := by
  unfold Obligations.StepKeepsInv
  exact fun s s' hs h => ⟨(step_follows h).mem hs.mem, step_keeps_ready hs.ready h⟩

/-- Settles O6, by induction on the queue. -/
theorem queueDrains : Obligations.QueueDrains := by
  unfold Obligations.QueueDrains
  exact fun s hr => run_drains s.pending s.blk s.obs hr

/-- Settles O3. -/
theorem wellFormedCommandsComplete : Obligations.WellFormedCommandsComplete := by
  unfold Obligations.WellFormedCommandsComplete
  exact fun c s => ⟨fun h => exec_of_wf h s, fun h => exec_of_not_wf h s⟩

/-- Settles O1. -/
theorem stepRunsTheFrontCommand : Obligations.StepRunsTheFrontCommand := by
  unfold Obligations.StepRunsTheFrontCommand
  exact ⟨step_cons, step_observe, step_idle⟩

end Sys2Proof.Proofs
end

section
/-! SUPPORT. The commands that are register accesses: what an access to a register of a page comes to, accepted or refused (R81–R95). -/

namespace Sys2Proof.Proofs

open Sys2Proof.Machine Sys2Proof.Laws

/-! ## Registers lie in the window (R82, R234) -/

theorem pageAt_lt_window {off : Nat} {x : Page × Nat} (h : pageAt off = some x) : off < 2 ^ 27 := by
  by_contra hge
  have hout : 0x800_0000 ≤ off := by omega
  simp [pageAt, hout] at h

theorem regAt_lt_window {p : Page} {i off : Nat} (hp : pageOk p i = true) (ho : off < 4096) : regAt p i off < 2 ^ 27 := by
  have hbase := pageAt_lt_window (pageAt_pageBase hp)
  have hmod := pageBase_mod p i
  unfold regAt
  omega

theorem accOk_regAt {ini : Ini} {p : Page} {i off v : Nat} (hini : iniOk ini = true) (hp : pageOk p i = true) (ho : off < 4096) (hv : v < 2 ^ 32) :
    accOk ini (regAt p i off) v = true := by
  simp only [accOk, hini, regAt_lt_window hp ho, hv, decide_true, Bool.and_self]

theorem loAt_regAt {p : Page} {i off : Nat} (hp : pageOk p i = true) (ho : off < 4096) : loAt (regAt p i off) = pairLo p off := by
  simp only [loAt, pageAt_regAt hp ho, regAt_mod p i ho]

theorem rwLoAt_regAt {p : Page} {i off : Nat} (hp : pageOk p i = true) (ho : off < 4096) : rwLoAt (regAt p i off) = rwPair p i off := by
  simp only [rwLoAt, pageAt_regAt hp ho, regAt_mod p i ho]

/-! ## Accepted accesses -/

section

variable {b : Blk} {q : List Instr} {os : List Obs} {ini : Ini} {p : Page} {i off v : Nat} {f : Fld}

/-- A row that writes one field, once its operands exist and the page accepts the write. -/
theorem cmd_writeField {ok : Bool} (hok : ok = true) (h : b.AcceptsField ini p i f v) (ha : f.off < 4096 ∧ f.off % 4 = 0) :
    cmd ok ⟨b, q, os⟩ (fun b => b.writeField ini p i f v) = .next ⟨b.wroteField ini p i f v, q, os⟩ := by
  rw [cmd_next hok, writeField_accepted h ha.1 ha.2]

/-- The three checks that the rows make of their operands: on a page that exists once, on a page that exists many times, and of a value. -/
theorem cmd_writeField_ini (h : b.AcceptsField ini p i f v) (ha : f.off < 4096 ∧ f.off % 4 = 0 := by decide) :
    cmd (iniOk ini) ⟨b, q, os⟩ (fun b => b.writeField ini p i f v) = .next ⟨b.wroteField ini p i f v, q, os⟩ := cmd_writeField h.sender h ha

theorem cmd_writeField_page (h : b.AcceptsField ini p i f v) (ha : f.off < 4096 ∧ f.off % 4 = 0 := by decide) :
    cmd (iniOk ini && pageOk p i) ⟨b, q, os⟩ (fun b => b.writeField ini p i f v) = .next ⟨b.wroteField ini p i f v, q, os⟩ :=
  cmd_writeField (by simp [h.sender, h.page]) h ha

theorem cmd_writeField_fits (h : b.AcceptsField ini p i f v) (hv : v < 2 ^ f.w) (ha : f.off < 4096 ∧ f.off % 4 = 0 := by decide) :
    cmd (fldOk ini p i f v) ⟨b, q, os⟩ (fun b => b.writeField ini p i f v) = .next ⟨b.wroteField ini p i f v, q, os⟩ :=
  cmd_writeField (by simp [fldOk, h.sender, h.page, hv]) h ha

/-- A row that writes a whole register, once its operands exist and the page accepts the write. -/
theorem cmd_write {ok : Bool} (hok : ok = true) (h : b.Accepts ini p i off v) (ha : off < 4096 ∧ off % 4 = 0 := by decide) :
    cmd ok ⟨b, q, os⟩ (fun b => b.write ini (regAt p i off) v) = .next ⟨b.wrote ini p i off v, q, os⟩ := by
  rw [cmd_next hok, write_accepted h ha.1 ha.2]

/-- A row that writes two registers of a page. -/
theorem cmd_write_write {ok : Bool} {off' v' : Nat} (hok : ok = true) (h : b.Accepts ini p i off v) (h' : (b.wrote ini p i off v).Accepts ini p i off' v')
    (ha : (off < 4096 ∧ off % 4 = 0) ∧ off' < 4096 ∧ off' % 4 = 0 := by decide) :
    cmd ok ⟨b, q, os⟩ (fun b => (b.write ini (regAt p i off) v).write ini (regAt p i off') v') =
      .next ⟨(b.wrote ini p i off v).wrote ini p i off' v', q, os⟩ := by
  rw [cmd_next hok, write_accepted h ha.1.1 ha.1.2, write_accepted h' ha.2.1 ha.2.2]

theorem exec_registerWrite_accepted (ho : off < 4096) (ha : off % 4 = 0) (hv : v < 2 ^ 32) (h : b.Accepts ini p i off v) :
    exec (.registerWrite ini (regAt p i off) v) ⟨b, q, os⟩ = .next ⟨b.wrote ini p i off v, q, os⟩ :=
  cmd_write (accOk_regAt h.sender h.page ho hv) h ⟨ho, ha⟩

theorem exec_pairLoRead_answered (ho : off < 4096) (ha : off % 4 = 0) (hlo : pairLo p off = true) (h : b.Answers ini p i off) :
    exec (.pairLoRead ini (regAt p i off)) ⟨b, q, os⟩ =
      .next ⟨(b.pageRead ini (b.iniClass ini) p i off).1.respond ini (b.pageRead ini (b.iniClass ini) p i off).2 0, q, os⟩ := by
  have hok : (accOk ini (regAt p i off) 0 && loAt (regAt p i off)) = true := by
    simp only [accOk_regAt h.sender h.page ho (by decide : 0 < 2 ^ 32), loAt_regAt h.page ho, hlo, Bool.and_self]
  rw [exec_pairLoRead, execPairLoRead, cmd_next hok, read_answered h ho ha]

theorem exec_pairLoWrite_accepted (ho : off < 4096) (ha : off % 4 = 0) (hv : v < 2 ^ 32) (hlo : rwPair p i off = true) (h : b.Accepts ini p i off v) :
    exec (.pairLoWrite ini (regAt p i off) v) ⟨b, q, os⟩ = .next ⟨b.wrote ini p i off v, q, os⟩ :=
  cmd_write (by simp only [accOk_regAt h.sender h.page ho hv, rwLoAt_regAt h.page ho, hlo, Bool.and_self]) h ⟨ho, ha⟩

theorem exec_pairHiWrite_accepted (ho : off < 4096) (ha : off % 4 = 0) (h4 : 4 ≤ off) (hv : v < 2 ^ 32) (hlo : rwPair p i (off - 4) = true)
    (h : b.Accepts ini p i off v) : exec (.pairHiWrite ini (regAt p i off) v) ⟨b, q, os⟩ = .next ⟨b.wrote ini p i off v, q, os⟩ := by
  have hsub : regAt p i off - 4 = regAt p i (off - 4) := by simp only [regAt]; omega
  have hlo' : rwLoAt (regAt p i off - 4) = true := by rw [hsub, rwLoAt_regAt h.page (by omega), hlo]
  exact cmd_write (by simp only [accOk_regAt h.sender h.page ho hv, regAt_mod p i ho, h4, hlo', decide_true, Bool.and_self]) h ⟨ho, ha⟩

/-! ## Refused accesses (R84, R95) -/

/-- A class that may not write the page, or a field that names other writers. -/
theorem write_denied (hp : pageOk p i = true) (ho : off < 4096) (ha : off % 4 = 0) (hon : b.waleGone p i = false)
    (h : b.mayWrite (b.iniClass ini) p i = false ∨ b.narrowed (b.iniClass ini) p i off v = true) :
    b.write ini (regAt p i off) v = (b.noteDenied (b.iniClass ini) (regAt p i off)).respond ini 0 eDenied := by
  have hal : ¬ regAt p i off % 4 ≠ 0 := by have := regAt_mod p i ho; omega
  have hden : (!b.mayWrite (b.iniClass ini) p i || b.narrowed (b.iniClass ini) p i off v) = true := by
    obtain h | h := h <;> simp [h]
  simp only [Blk.write, Blk.regWrite, hal, if_false, pageAt_regAt hp ho, regAt_mod p i ho, hon, Bool.false_and, Bool.false_eq_true, hden, if_true]

theorem read_denied (hp : pageOk p i = true) (ho : off < 4096) (ha : off % 4 = 0) (hon : b.waleGone p i = false)
    (h : b.mayRead (b.iniClass ini) p i = false) :
    b.read ini (regAt p i off) = (b.noteDenied (b.iniClass ini) (regAt p i off)).respond ini 0 eDenied := by
  have hal : ¬ regAt p i off % 4 ≠ 0 := by have := regAt_mod p i ho; omega
  simp only [Blk.read, Blk.regRead, hal, if_false, pageAt_regAt hp ho, hon, Bool.false_and, Bool.false_eq_true, h, Bool.not_false, if_true]

theorem write_waleGone (hp : pageOk p i = true) (ho : off < 4096) (ha : off % 4 = 0) (hoff : b.waleGone p i = true) (hpage : p ≠ .wale) :
    b.write ini (regAt p i off) v = b.respond ini 0 eDenied := by
  have hal : ¬ regAt p i off % 4 ≠ 0 := by have := regAt_mod p i ho; omega
  have hgone : (b.waleGone p i && p != .wale) = true := by simp [hoff, hpage]
  simp only [Blk.write, Blk.regWrite, hal, if_false, pageAt_regAt hp ho, hgone, if_true]

/-- The header page of a wale that is not enabled counts the write and ignores it. -/
theorem write_waleHeader (hp : pageOk .wale i = true) (ho : off < 4096) (ha : off % 4 = 0) (hoff : b.waleGone .wale i = true)
    (hmay : b.mayWrite (b.iniClass ini) .wale i = true) (hnar : b.narrowed (b.iniClass ini) .wale i off v = false) :
    b.write ini (regAt .wale i off) v = (b.addW (R.PG_SEQ .wale) 1 i).respond ini 0 0 := by
  have hal : ¬ regAt .wale i off % 4 ≠ 0 := by have := regAt_mod .wale i ho; omega
  simp only [Blk.write, Blk.regWrite, hal, if_false, pageAt_regAt hp ho, regAt_mod .wale i ho, hoff, bne_self_eq_false, Bool.and_false, Bool.false_eq_true,
    hmay, hnar, Bool.not_true, Bool.or_self, if_true]

end

/-! ## The statements -/

/-- Settles O15. -/
theorem registerAccessesComplete : Obligations.RegisterAccessesComplete := by
  unfold Obligations.RegisterAccessesComplete
  refine ⟨fun b q os ini p i off v ho ha hv h => exec_registerWrite_accepted ho ha hv h, fun b q os ini p i off ho ha hlo h => exec_pairLoRead_answered ho ha hlo h,
    fun b q os ini p i off v ho ha hv hlo h => exec_pairLoWrite_accepted ho ha hv hlo h, ?_⟩
  exact fun b q os ini p i off v ho ha h4 hv hlo h => exec_pairHiWrite_accepted ho ha h4 hv hlo h

/-- Settles O9, one refusal of `Blk.regWrite` or `Blk.regRead` per clause. -/
theorem deniedAccessesChangeNothingElse : Obligations.DeniedAccessesChangeNothingElse := by
  unfold Obligations.DeniedAccessesChangeNothingElse
  refine ⟨fun b q os ini p i off v hini hp ho ha hv hon h => ?_, fun b q os ini p i off hini hp ho ha hlo hon h => ?_,
    fun b q os ini p i off v hini hp ho ha hv hoff hpage => ?_, fun b q os ini w off v hini hw ho ha hv hoff hmay hnar => ?_⟩
  · rw [exec_registerWrite, execRegisterWrite, cmd_next (accOk_regAt hini hp ho hv), write_denied hp ho ha hon h]
    rfl
  · have hok : (accOk ini (regAt p i off) 0 && loAt (regAt p i off)) = true := by
      simp only [accOk_regAt hini hp ho (by decide : 0 < 2 ^ 32), loAt_regAt hp ho, hlo, Bool.and_self]
    rw [exec_pairLoRead, execPairLoRead, cmd_next hok, read_denied hp ho ha hon h]
    rfl
  · rw [exec_registerWrite, execRegisterWrite, cmd_next (accOk_regAt hini hp ho hv), write_waleGone hp ho ha hoff hpage]
    rfl
  · have hp : pageOk .wale w = true := by simp [pageOk, Page.count, hw]
    rw [exec_registerWrite, execRegisterWrite, cmd_next (accOk_regAt hini hp ho hv), write_waleHeader hp ho ha hoff hmay hnar]

/-- Settles O13. -/
theorem lidRegistersComplete : Obligations.LidRegistersComplete := by
  unfold Obligations.LidRegistersComplete
  refine ⟨fun b q os ini h => cmd_writeField_ini h, fun b q os ini h => cmd_writeField_ini h, fun b q os ini mask hv h => cmd_writeField_fits h hv,
    fun b q os ini h => cmd_writeField_ini h, fun b q os ini v hv h => cmd_writeField_fits h hv, ?_⟩
  exact fun b q os ini v hv hlo hhi => cmd_write_write (by simpa [hlo.sender] using hv) hlo hhi

/-- Settles O14. -/
theorem headerRegistersComplete : Obligations.HeaderRegistersComplete := by
  unfold Obligations.HeaderRegistersComplete
  have hctrl : 0x00C < 4096 ∧ 0x00C % 4 = 0 := by decide
  have hlock : 0x030 < 4096 ∧ 0x030 % 4 = 0 := by decide
  have howner : 0x038 < 4096 ∧ 0x038 % 4 = 0 := by decide
  refine ⟨fun b q os ini p i on h => cmd_writeField_page h hctrl, fun b q os ini p i on h => cmd_writeField_page h hctrl,
    fun b q os ini p i on h => cmd_writeField_page h hctrl, fun b q os ini p i h => cmd_writeField_page h hctrl,
    fun b q os ini p i h => cmd_writeField_page h hlock, fun b q os ini p i v hv h => cmd_writeField_fits h hv howner, ?_⟩
  exact fun b q os ini p i v hv h => cmd_write (by simpa [h.sender, h.page] using hv) h

end Sys2Proof.Proofs
end

section
/-! SUPPORT. The register rows of the single units (R84–R410): each is the accepted write, or read, of its register. A pop of the summary unit's posts also shows the
upper half in SUM_POST_HI, which O16 leaves out. -/

namespace Sys2Proof.Proofs

open Sys2Proof.Machine Sys2Proof.Laws Sys2Proof.Tests

/-! ## The summary unit's posts (R173) -/

/-- A read of SUM_POST_LO takes the oldest post, shows its upper half in SUM_POST_HI and keeps it for the initiator. -/
theorem exec_sumPostPop_answered {b : Blk} {q : List Instr} {os : List Obs} {ini : Ini} {w : Nat} (h : b.Answers ini .sum w R.SUM_POST_LO.off) :
    exec (.sumPostPop ini w) ⟨b, q, os⟩ = .next
      ⟨(((b.postPop w).2.wr R.SUM_POST_HI ((b.postPop w).1 / 2 ^ 32) w).setLatch (pairKey ini .sum w 0x048) (some ((b.postPop w).1 / 2 ^ 32))).respond ini
        ((b.postPop w).1 % 2 ^ 32) 0, q, os⟩ := by
  rw [exec_sumPostPop, execSumPostPop, cmd_next (by simp only [h.sender, h.page, Bool.and_self]), read_answered h (by decide) (by decide)]
  rfl

/-- Wale 0 with one post, whose upper half is 1. -/
def onePost : Blk := tO.setWale 0 { post := [2 ^ 32] }

theorem onePost_answers : onePost.Answers (.core 8) .sum 0 R.SUM_POST_LO.off :=
  ⟨by decide +kernel, by decide +kernel, by decide +kernel, by decide +kernel, by decide +kernel⟩

theorem onePost_postPop_fst : (onePost.postPop 0).1 = 2 ^ 32 := by decide +kernel

theorem onePost_postPop_rd : (onePost.postPop 0).2.rd R.SUM_POST_HI 0 = 0 := by decide +kernel

/-! ## The statements -/

/-- Refutes O16: its clause for SUM_POST_POP leaves SUM_POST_HI as it was, where the read of a post with upper half 1 sets it to 1. -/
theorem not_beatAndStakeRegistersComplete : ¬ Obligations.BeatAndStakeRegistersComplete := by
  unfold Obligations.BeatAndStakeRegistersComplete
  rintro ⟨-, -, -, -, -, -, -, -, -, -, -, -, -, -, -, -, hpop, -⟩
  have hnext := (exec_sumPostPop_answered onePost_answers).symm.trans (hpop onePost [] [] (.core 8) 0 onePost_answers)
  have hshown := congrArg (fun s : State => s.blk.rd R.SUM_POST_HI 0) (Host.Outcome.next.inj hnext)
  simp only [respond_rd, setLatch_rd, rd_wr_same, onePost_postPop_fst, onePost_postPop_rd] at hshown
  exact absurd hshown (by decide)

/-- Settles O17. -/
theorem memoryRegistersComplete : Obligations.MemoryRegistersComplete := by
  unfold Obligations.MemoryRegistersComplete
  refine ⟨fun b q os ini va pages hva hpages h1 h2 h3 => ?_, fun b q os ini h => cmd_write h.sender h, fun b q os ini kind unit hk hu h => ?_,
    fun b q os ini kind unit hk hu h => ?_, fun b q os ini v hv h => cmd_writeField_fits h hv, fun b q os ini v hv h1 h2 => ?_,
    fun b q os ini n h => cmd_writeField_page h, fun b q os ini n h => cmd_writeField_page h, fun b q os ini n h => cmd_writeField_page h,
    fun b q os ini n on h => cmd_writeField_page h, fun b q os ini n h => cmd_writeField_page h, fun b q os ini h => cmd_writeField_ini h,
    fun b q os ini h => cmd_writeField_ini h⟩
  · have hok : (iniOk ini && decide (va < 2 ^ 48) && decide (pages < 2 ^ 24)) = true := by simp only [h1.sender, hva, hpages, decide_true, Bool.and_self]
    rw [exec_xltInvalRange, execXltInvalRange, cmd_next hok]
    simp only [write_accepted h1 (by decide) (by decide), write_accepted h2 (by decide) (by decide), write_accepted h3 (by decide) (by decide)]
  · exact cmd_write (by simp only [h.sender, hk, hu, decide_true, Bool.and_self]) h
  · exact cmd_write (by simp only [h.sender, hk, hu, decide_true, Bool.and_self]) h
  · exact cmd_write_write (by simp only [h1.sender, hv, decide_true, Bool.and_self]) h1 h2

/-- Settles O18. -/
theorem portRegistersComplete : Obligations.PortRegistersComplete := by
  unfold Obligations.PortRegistersComplete
  refine ⟨fun b q os ini p on h => cmd_writeField_page h, fun b q os ini p h => cmd_writeField_page h, fun b q os ini p on h => cmd_writeField_page h,
    fun b q os ini p h => cmd_writeField_page h, fun b q os ini p v hv h => cmd_writeField_fits h hv, fun b q os ini f on l hl h hruns => ?_,
    fun b q os ini f on l hl h hruns => ?_, fun b q os ini f v hv h => cmd_writeField_fits h hv, fun b q os ini f h => cmd_writeField_page h,
    fun b q os ini f v hv h => cmd_writeField_fits h hv⟩
  · rw [exec_fxpCtrlEn, execFxpCtrlEn, cmd_next (by simp only [h.sender, h.page, hl, Bool.and_self])]
    simp only [writeField_accepted h (by decide) (by decide), hruns, if_true]
  · rw [exec_fxpCtrlEn, execFxpCtrlEn, cmd_next (by simp only [h.sender, h.page, hl, Bool.and_self])]
    simp only [writeField_accepted h (by decide) (by decide), hruns, Bool.false_eq_true, if_false]

/-- Settles O19. -/
theorem controlRegistersComplete : Obligations.ControlRegistersComplete := by
  unfold Obligations.ControlRegistersComplete
  refine ⟨fun b q os ini v hv h => cmd_writeField_fits h hv, fun b q os ini v hv h => ?_, fun b q os ini k v hk hv h => ?_,
    fun b q os ini v hv h => cmd_writeField_fits h hv, fun b q os ini h => cmd_writeField_ini h, fun b q os ini h => cmd_writeField_ini h,
    fun b q os ini kind inst hk hi h => ?_, fun b q os ini kind inst hk hi h => ?_, fun b q os ini w h => cmd_writeField_page h,
    fun b q os ini w h => cmd_writeField_page h, fun b q os ini h => cmd_writeField_ini h, fun b q os ini g v hv h => cmd_writeField_fits h hv,
    fun b q os ini g v hv h => cmd_writeField_fits h hv, fun b q os ini k v hk hv h => ?_, fun b q os ini g v hv h => cmd_writeField_fits h hv,
    fun b q os ini g v hv h => cmd_writeField_fits h hv⟩
  · exact cmd_write (by simp only [h.sender, hv, decide_true, Bool.and_self]) h
  · have hoff : (R.PWC_PHASE_TAB.at k).off = 0x100 + 4 * k := rfl
    exact cmd_writeField (by simp only [h.sender, hk, hv, decide_true, Bool.and_self]) h (by omega)
  · exact cmd_write (by simp only [h.sender, hk, hi, decide_true, Bool.and_self]) h
  · exact cmd_write (by simp only [h.sender, hk, hi, decide_true, Bool.and_self]) h
  · exact cmd_write (by simp only [h.sender, hk, hv, decide_true, Bool.and_self]) h (by omega)

end Sys2Proof.Proofs
end

section
/-! SUPPORT. What accepted writes store: a header register and nothing else (R86, R89), both halves of a pair at once (R85), and no PUT past a full ring (R158, R170). -/

namespace Sys2Proof.Proofs

open Sys2Proof.Machine Sys2Proof.Laws

section

variable (b : Blk) {ini : Ini} {cls : Nat} {p : Page} {i v : Nat} {f : Fld}

/-! ## Fields -/

/-- A field takes its own new value, or nothing. -/
theorem fieldWrite_cases (cls : Nat) (p : Page) (i : Nat) (f : Fld) (v : Nat) :
    b.fieldWrite cls p i f v = b ∨ (f.acc ≠ .ro ∧ ∃ x, b.fieldWrite cls p i f v = b.wr f x i) := by
  unfold Blk.fieldWrite
  split
  next h =>
    split
    · exact .inr ⟨by simp [h], _, rfl⟩
    · exact .inl rfl
  next h =>
    split
    · exact .inr ⟨by simp [h], _, rfl⟩
    · exact .inl rfl
  next h => exact .inr ⟨by simp [h], _, rfl⟩
  next h =>
    split_ifs
    · exact .inl rfl
    · exact .inr ⟨by simp [h], _, rfl⟩
    · exact .inr ⟨by simp [h], _, rfl⟩
  next => exact .inl rfl
  next => exact .inl rfl

/-- The fields of a register, written one after another with their bits of the word. -/
def writeFields (b : Blk) (cls : Nat) (p : Page) (i v : Nat) (l : List Fld) : Blk :=
  l.foldl (fun (b : Blk) f => b.fieldWrite cls p i f (bits v f.lo f.w)) b

/-- Writing a field touches the register store alone. -/
theorem fieldWrite_regs (cls : Nat) (p : Page) (i : Nat) (f : Fld) (v : Nat) : ∃ r, b.fieldWrite cls p i f v = { b with regs := r } := by
  obtain hsame | ⟨-, x, hwr⟩ := fieldWrite_cases b cls p i f v
  · exact ⟨b.regs, hsame⟩
  · exact ⟨_, hwr⟩

theorem writeFields_regs (cls : Nat) (p : Page) (i v : Nat) (l : List Fld) : ∃ r, writeFields b cls p i v l = { b with regs := r } := by
  induction l generalizing b with
  | nil => exact ⟨b.regs, rfl⟩
  | cons f l ih =>
    obtain ⟨r, hl⟩ := ih (b.fieldWrite cls p i f (bits v f.lo f.w))
    obtain ⟨r', hf⟩ := fieldWrite_regs b cls p i f (bits v f.lo f.w)
    rw [hf] at hl
    exact ⟨r, by rw [writeFields, List.foldl_cons, hf]; exact hl⟩

/-- A place in the register store that no writable field of the list has is left as it was. -/
theorem writeFields_rd_other {l : List Fld} {g : Fld} {j : Nat} (h : ∀ f ∈ l, f.acc ≠ .ro → g.key j ≠ f.key i) :
    (writeFields b cls p i v l).rd g j = b.rd g j := by
  induction l generalizing b with
  | nil => rfl
  | cons f l ih =>
    obtain ⟨hf, hl⟩ := List.forall_mem_cons.mp h
    refine (ih (b.fieldWrite cls p i f (bits v f.lo f.w)) hl).trans ?_
    obtain hsame | ⟨hacc, x, hwr⟩ := fieldWrite_cases b cls p i f (bits v f.lo f.w)
    · rw [hsame]
    · rw [hwr, rd_wr_other b f g x i j (hf hacc)]

/-! ## Header registers (R86, R89) -/

theorem pageFields_header (p : Page) (i : Nat) {off : Nat} (h : off < 0x040) : pageFields p i off = (headerFields p).filter (fun f => f.off == off) := if_pos h

/-- The fields of a header lie on its page, and PG_SEQ is RO. -/
theorem headerFields_spec (p : Page) : ∀ f ∈ headerFields p, f.page = p ∧ f.shared = false ∧ f.lo < 32 ∧ (f.off = 0x034 → f.acc = .ro) := by
  cases p <;> decide

theorem pgSeq_key_ne_header {off : Nat} (h : off < 0x040) : ∀ f ∈ pageFields p i off, f.acc ≠ .ro → (R.PG_SEQ p).key i ≠ f.key i := by
  intro f hf hacc
  rw [pageFields_header p i h] at hf
  obtain ⟨hpage, hshared, hlo, hseq⟩ := headerFields_spec p f (List.mem_of_mem_filter hf)
  exact key_ne_of_off_ne hpage.symm hshared.symm (by decide : 0 < 32) hlo (fun ho => hacc (hseq ho.symm))

/-- A response without an error is one message. -/
theorem respond_ok (ini : Ini) (data : Nat) : b.respond ini data 0 = b.send (.resp ini data 0) := by
  cases ini <;> rfl

theorem wrote_header {off : Nat} (h : off < 0x040) (hctrl : off ≠ 0x00C) (hevent : off ≠ 0x014) :
    b.wrote ini p i off v = (writeFields (b.addW (R.PG_SEQ p) 1 i) (b.iniClass ini) p i v (pageFields p i off)).send (.resp ini 0 0) := by
  rw [Blk.wrote, pageWrite_header b ini _ p i v h hctrl hevent, wordWrite_header _ _ p i v h, respond_ok]
  rfl

theorem send_rd (o : Out) (g : Fld) (j : Nat) : (b.send o).rd g j = b.rd g j := rfl

theorem wrote_header_pgSeq {off : Nat} (h : off < 0x040) (hctrl : off ≠ 0x00C) (hevent : off ≠ 0x014) :
    (b.wrote ini p i off v).rd (R.PG_SEQ p) i = (b.rd (R.PG_SEQ p) i + 1) % 2 ^ 32 := by
  rw [wrote_header b h hctrl hevent, send_rd, writeFields_rd_other _ (pgSeq_key_ne_header h)]
  exact rd_wr_same b _ _ _

theorem wrote_header_other {off : Nat} (h : off < 0x040) (hctrl : off ≠ 0x00C) (hevent : off ≠ 0x014) {g : Fld} {j : Nat}
    (hseq : g.key j ≠ (R.PG_SEQ p).key i) (hfields : ∀ f ∈ pageFields p i off, g.key j ≠ f.key i) :
    (b.wrote ini p i off v).rd g j = b.rd g j := by
  rw [wrote_header b h hctrl hevent, send_rd, writeFields_rd_other _ (fun f hf _ => hfields f hf)]
  exact rd_wr_other b _ _ _ _ _ hseq

theorem wrote_header_rest {off : Nat} (h : off < 0x040) (hctrl : off ≠ 0x00C) (hevent : off ≠ 0x014) :
    { b.wrote ini p i off v with regs := b.regs, io := b.io } = b ∧ (b.wrote ini p i off v).io.out = b.io.out ++ [.resp ini 0 0] := by
  obtain ⟨r, hr⟩ := writeFields_regs (b.addW (R.PG_SEQ p) 1 i) (b.iniClass ini) p i v (pageFields p i off)
  rw [wrote_header b h hctrl hevent, hr]
  exact ⟨rfl, rfl⟩

/-! ## The pair of DIG_TABLE (R85) -/

theorem stage_setStage_same (k : Nat) (x : Option Nat) : SMap.get none (b.setStage k x).io.stage k = x := get_set_same none b.io.stage k x

/-- The write of the low half is kept for its initiator. -/
theorem wrote_digTableLo :
    b.wrote ini .dig 0 R.DIG_TABLE_LO.off v =
      ((b.addW (R.PG_SEQ .dig) 1 0).setStage (pairKey ini .dig 0 R.DIG_TABLE_LO.off) (some v)).respond ini 0 0 := by
  have hpair : rwPair .dig 0 R.DIG_TABLE_LO.off = true := by decide
  simp only [Blk.wrote, Blk.pageWrite, hpair, if_true]

/-- The counted write of the high half, the stage empty: the block on which both fields are stored. -/
def digCounted (b : Blk) (ini : Ini) : Blk := (b.addW (R.PG_SEQ .dig) 1 0).setStage (pairKey ini .dig 0 R.DIG_TABLE_LO.off) none

/-- The word that the low half takes: the staged one, or what the page reads there. -/
def digLow (b : Blk) (ini : Ini) : Nat :=
  (SMap.get none b.io.stage (pairKey ini .dig 0 R.DIG_TABLE_LO.off)).getD ((b.addW (R.PG_SEQ .dig) 1 0).regWord clsO .dig 0 R.DIG_TABLE_LO.off)

theorem wrote_digTableHi :
    b.wrote ini .dig 0 R.DIG_TABLE_HI.off v =
      (((digCounted b ini).fieldWrite (b.iniClass ini) .dig 0 R.DIG_TABLE_LO (bits (digLow b ini) R.DIG_TABLE_LO.lo R.DIG_TABLE_LO.w)).fieldWrite
        (b.iniClass ini) .dig 0 R.DIG_TABLE_HI (bits v R.DIG_TABLE_HI.lo R.DIG_TABLE_HI.w)).respond ini 0 0 := by
  have hlow : ¬ rwPair .dig 0 R.DIG_TABLE_HI.off = true := by decide
  have hhigh : 4 ≤ R.DIG_TABLE_HI.off ∧ rwPair .dig 0 (R.DIG_TABLE_HI.off - 4) = true := by decide
  rw [Blk.wrote, Blk.pageWrite, if_neg hlow, if_pos hhigh]
  rfl

/-- An RW-L field without a bound takes what is written, unless the page is locked. -/
theorem fieldWrite_digTable (b : Blk) (cls v : Nat) (hf : f = R.DIG_TABLE_LO ∨ f = R.DIG_TABLE_HI) :
    b.fieldWrite cls .dig 0 f v = if b.on (R.PG_LOCK .dig) = false then b.wr f v else b := by
  obtain rfl | rfl := hf <;> cases hlock : b.on (R.PG_LOCK .dig) <;> simp [Blk.fieldWrite, Blk.taken, R.DIG_TABLE_LO, R.DIG_TABLE_HI, hlock]

theorem digCounted_rd {g : Fld} (h : g.key 0 ≠ (R.PG_SEQ .dig).key 0) : (digCounted b ini).rd g 0 = b.rd g 0 :=
  rd_wr_other b (R.PG_SEQ .dig) g _ 0 0 h

theorem digCounted_on_lock : (digCounted b ini).on (R.PG_LOCK .dig) = b.on (R.PG_LOCK .dig) := addW_pgSeq_on_pgLock b .dig 1 0

/-- A write of the pair's half does not reach the lock. -/
theorem wr_on_lock (hf : f = R.DIG_TABLE_LO ∨ f = R.DIG_TABLE_HI) (v : Nat) : (b.wr f v).on (R.PG_LOCK .dig) = b.on (R.PG_LOCK .dig) := by
  obtain rfl | rfl := hf <;> exact congrArg (· != 0) (rd_wr_other b _ (R.PG_LOCK .dig) v 0 0 (by decide))

/-- Both halves are stored on a page that is not locked, neither on a locked one. -/
theorem wrote_digTableHi_eq :
    b.wrote ini .dig 0 R.DIG_TABLE_HI.off v =
      (if b.on (R.PG_LOCK .dig) = false then
        ((digCounted b ini).wr R.DIG_TABLE_LO (bits (digLow b ini) R.DIG_TABLE_LO.lo R.DIG_TABLE_LO.w)).wr R.DIG_TABLE_HI
          (bits v R.DIG_TABLE_HI.lo R.DIG_TABLE_HI.w)
      else digCounted b ini).respond ini 0 0 := by
  rw [wrote_digTableHi, fieldWrite_digTable (digCounted b ini) _ _ (.inl rfl), digCounted_on_lock, fieldWrite_digTable _ _ _ (.inr rfl)]
  by_cases hlock : b.on (R.PG_LOCK .dig) = false
  · simp only [if_pos hlock, wr_on_lock _ (.inl rfl), digCounted_on_lock]
  · simp only [if_neg hlock, digCounted_on_lock]

/-- Where nothing is staged, the low half keeps its value. -/
theorem bits_digLow : bits (digLow b ini) R.DIG_TABLE_LO.lo R.DIG_TABLE_LO.w =
    (SMap.get none b.io.stage (pairKey ini .dig 0 R.DIG_TABLE_LO.off)).elim (b.rd R.DIG_TABLE_LO % 2 ^ R.DIG_TABLE_LO.w)
      (fun x => bits x R.DIG_TABLE_LO.lo R.DIG_TABLE_LO.w) := by
  unfold digLow
  cases SMap.get none b.io.stage (pairKey ini .dig 0 R.DIG_TABLE_LO.off) with
  | some x => rfl
  | none =>
    have hword (b : Blk) : b.regWord clsO .dig 0 R.DIG_TABLE_LO.off = b.rd R.DIG_TABLE_LO % 2 ^ 27 * 2 ^ 5 := Nat.zero_add _
    have hrd : (b.addW (R.PG_SEQ .dig) 1 0).rd R.DIG_TABLE_LO = b.rd R.DIG_TABLE_LO := rd_wr_other b _ _ _ 0 0 (by decide)
    show (b.addW (R.PG_SEQ .dig) 1 0).regWord clsO .dig 0 R.DIG_TABLE_LO.off / 2 ^ 5 % 2 ^ 27 = b.rd R.DIG_TABLE_LO % 2 ^ 27
    rw [hword, hrd]
    omega

theorem wrote_digTableHi_rdHi : (b.wrote ini .dig 0 R.DIG_TABLE_HI.off v).rd R.DIG_TABLE_HI =
    if b.on (R.PG_LOCK .dig) = false then v % 2 ^ R.DIG_TABLE_HI.w else b.rd R.DIG_TABLE_HI := by
  rw [wrote_digTableHi_eq, respond_rd]
  split_ifs
  · simp [rd_wr_same, bits, R.DIG_TABLE_HI]
  · exact digCounted_rd b (by decide)

theorem wrote_digTableHi_rdLo : (b.wrote ini .dig 0 R.DIG_TABLE_HI.off v).rd R.DIG_TABLE_LO =
    if b.on (R.PG_LOCK .dig) = false then bits (digLow b ini) R.DIG_TABLE_LO.lo R.DIG_TABLE_LO.w else b.rd R.DIG_TABLE_LO := by
  rw [wrote_digTableHi_eq, respond_rd]
  split_ifs
  · rw [rd_wr_other _ _ _ _ _ _ (by decide), rd_wr_same, bits, Nat.mod_mod]
  · exact digCounted_rd b (by decide)

theorem wrote_digTableHi_unstaged : SMap.get none (b.wrote ini .dig 0 R.DIG_TABLE_HI.off v).io.stage (pairKey ini .dig 0 R.DIG_TABLE_LO.off) = none := by
  have hcounted : SMap.get none (digCounted b ini).io.stage (pairKey ini .dig 0 R.DIG_TABLE_LO.off) = none :=
    stage_setStage_same _ _ _
  rw [wrote_digTableHi_eq, respond_ok]
  split_ifs <;> exact hcounted

/-! ## The work list's PUT (R158, R170) -/

theorem wordFor_wlPut (w : Nat) {v : Nat} (hv : v < 2 ^ 16) : b.wordFor .sched w R.SCHED_WL_PUT.off R.SCHED_WL_PUT.lo R.SCHED_WL_PUT.w v = v := by
  show 0 + 0 + v % 2 ^ 16 * 2 ^ 0 = v
  omega

/-- A PUT past the slot count is not stored: the page raises WL_BAD. -/
theorem wordWrite_wlPut_bad (w : Nat) (h : 2 ^ b.rd R.SCHED_WL_SIZE w < (v + 2 ^ 16 - b.rd R.SCHED_WL_GET w) % 2 ^ 16) (hv : v < 2 ^ 16) :
    b.wordWrite cls .sched w R.SCHED_WL_PUT.off v = b.event .sched 17 w := by
  have hfull : 2 ^ b.rd R.SCHED_WL_SIZE w < ringUsed 16 (v % 65536) (b.rd R.SCHED_WL_GET w) := by
    rwa [show v % 65536 = v from Nat.mod_eq_of_lt hv]
  have hfxp : ¬ (Page.sched = .fxp ∧ R.SCHED_WL_PUT.off = 0x088 ∧ bits v 0 8 + bits v 8 8 > 48) := by simp
  rw [Blk.wordWrite, if_neg hfxp, if_pos ⟨rfl, rfl, hfull⟩]

theorem wroteField_wlPut_bad (w : Nat) {v : Nat} (hv : v < 2 ^ 16) (h : 2 ^ b.rd R.SCHED_WL_SIZE w < (v + 2 ^ 16 - b.rd R.SCHED_WL_GET w) % 2 ^ 16) :
    b.wroteField ini .sched w R.SCHED_WL_PUT v = ((b.addW (R.PG_SEQ .sched) 1 w).event .sched 17 w).respond ini 0 0 := by
  have hsize : (b.addW (R.PG_SEQ .sched) 1 w).rd R.SCHED_WL_SIZE w = b.rd R.SCHED_WL_SIZE w := addW_pgSeq_rd b _ 1 w rfl rfl (by decide) (by decide)
  have hget : (b.addW (R.PG_SEQ .sched) 1 w).rd R.SCHED_WL_GET w = b.rd R.SCHED_WL_GET w := addW_pgSeq_rd b _ 1 w rfl rfl (by decide) (by decide)
  have hbad := wordWrite_wlPut_bad (b.addW (R.PG_SEQ .sched) 1 w) (cls := b.iniClass ini) w (by rwa [hsize, hget]) hv
  have hpage : b.pageWrite ini (b.iniClass ini) .sched w R.SCHED_WL_PUT.off v =
      (b.addW (R.PG_SEQ .sched) 1 w).wordWrite (b.iniClass ini) .sched w R.SCHED_WL_PUT.off v := rfl
  rw [Blk.wroteField, wordFor_wlPut b w hv, Blk.wrote, hpage, hbad]

end

/-! ## The statements -/

/-- Settles O10: a header write is the count and the fields of the word (`wrote_header`), and a field reaches no other place of the register store. -/
theorem headerWritesKeepTheRest : Obligations.HeaderWritesKeepTheRest := by
  unfold Obligations.HeaderWritesKeepTheRest
  intro b q os ini p i off v h ha hctrl hevent hv hacc
  exact ⟨_, exec_registerWrite_accepted (by omega) ha hv hacc, wrote_header_pgSeq b h hctrl hevent,
    fun f j hseq hfields => wrote_header_other b h hctrl hevent hseq hfields, wrote_header_rest b h hctrl hevent⟩

/-- Settles O11. -/
theorem pairsCommitInOneUpdate : Obligations.PairsCommitInOneUpdate := by
  unfold Obligations.PairsCommitInOneUpdate
  refine ⟨fun b q os ini v hv h => ?_, fun b q os ini v hv h => ?_⟩
  · refine ⟨_, exec_pairLoWrite_accepted (by decide) (by decide) hv (by decide) h, ?_, fun f j hseq => ?_⟩
    · rw [wrote_digTableLo, respond_ok]
      exact stage_setStage_same (b.addW (R.PG_SEQ .dig) 1 0) (pairKey ini .dig 0 R.DIG_TABLE_LO.off) (some v)
    · rw [wrote_digTableLo, respond_rd]
      exact rd_wr_other b _ _ _ _ _ hseq
  · refine ⟨_, exec_pairHiWrite_accepted (by decide) (by decide) (by decide) hv (by decide) h, wrote_digTableHi_rdHi b, ?_, wrote_digTableHi_unstaged b⟩
    rw [wrote_digTableHi_rdLo, bits_digLow]
    cases SMap.get none b.io.stage (pairKey ini .dig 0 R.DIG_TABLE_LO.off) <;> rfl

/-- Settles O12. -/
theorem workListPutStaysInItsRing : Obligations.WorkListPutStaysInItsRing := by
  unfold Obligations.WorkListPutStaysInItsRing
  intro b q os ini w v hv h hfull
  have hexec : exec (.schedWlPut ini w v) ⟨b, q, os⟩ = .next ⟨b.wroteField ini .sched w R.SCHED_WL_PUT v, q, os⟩ := cmd_writeField_fits h hv
  rw [hexec, wroteField_wlPut_bad b w hv hfull]

end Sys2Proof.Proofs
end

section
/-! SUPPORT. The instructions of a thread (R136–R163): a thread that runs one retires it with its result, waits in it or issues it, and one that is stopped or sleeps runs none. -/

namespace Sys2Proof.Proofs

open Sys2Proof.Machine Sys2Proof.Laws

section

variable {b b' : Blk} {q : List Instr} {os : List Obs} {t : Tid} {i : Ins} {opc x y : Nat}

/-! ## Instruction rows -/

/-- The rows of R136, each with its opcode. -/
def insnRows (t : Tid) : List (Nat × Instr) :=
  [(0x00, .nop t), (0x01, .add t), (0x02, .sub t), (0x03, .mul t), (0x04, .mulhu t), (0x05, .andOp t), (0x06, .orOp t), (0x07, .xor t),
    (0x08, .sll t), (0x09, .srl t), (0x0A, .sra t), (0x0B, .min t), (0x0C, .max t), (0x0D, .minu t), (0x0E, .maxu t), (0x0F, .slt t), (0x10, .sltu t),
    (0x11, .seq t), (0x12, .li t), (0x13, .lih t), (0x14, .sel t), (0x20, .beq t), (0x21, .bne t), (0x22, .blt t), (0x23, .bge t), (0x24, .bltu t),
    (0x25, .bgeu t), (0x26, .jal t), (0x27, .jalr t), (0x28, .ld t), (0x29, .st t), (0x2A, .amo t), (0x30, .issMat t), (0x31, .issVec t), (0x32, .issRow t),
    (0x33, .issDma t), (0x34, .issSum t), (0x38, .twait t), (0x39, .fence t), (0x3A, .bar t), (0x3B, .bwait t), (0x3C, .halt t), (0x40, .sumrd t),
    (0x41, .rdid t), (0x42, .phase t)]

/-- Every row has the common part of `Blk.insn`, under its own opcode. -/
theorem exec_insnRows : ∀ r ∈ insnRows t, ∃ f, ∀ b q os, exec r.2 ⟨b, q, os⟩ = cmd (tidOk t) ⟨b, q, os⟩ (fun b => b.insn t r.1 f) := by
  unfold insnRows
  intro r hr
  fin_cases hr <;> exact ⟨_, fun _ _ _ => rfl⟩

/-- A row of a thread that runs the instruction. -/
theorem cmd_insn_runs (h : b.Runs t opc i b') (f : Blk → Ins → Blk) :
    cmd (tidOk t) ⟨b, q, os⟩ (fun b => b.insn t opc f) = .next ⟨f b' i, q, os⟩ := by
  rw [cmd_next h.tid, insn_runs h f]

/-! ## Results and branches -/

theorem cmd_alu_runs (h : b.Runs t opc i b') (hx : x = (b'.thread t).reg i.src1) (hy : y = aluB (b'.thread t) i) (f : Nat → Nat → Nat) :
    cmd (tidOk t) ⟨b, q, os⟩ (fun b => b.alu t opc f) = .next ⟨b'.next t ((b'.thread t).setReg i.dest (f x y)), q, os⟩ := by
  subst hx hy
  exact cmd_insn_runs h _

/-- A comparison's 0 or 1. -/
theorem b2n_eq_ite {c : Bool} {P : Prop} [Decidable P] (h : c = true ↔ P) : b2n c = if P then 1 else 0 := by
  simp only [b2n, h]

theorem cmd_compare_runs (h : b.Runs t opc i b') (hx : x = (b'.thread t).reg i.src1) (hy : y = aluB (b'.thread t) i) {c : Nat → Nat → Bool} {P : Prop}
    [Decidable P] (hc : c x y = true ↔ P) :
    cmd (tidOk t) ⟨b, q, os⟩ (fun b => b.alu t opc (fun x y => b2n (c x y))) =
      .next ⟨b'.next t ((b'.thread t).setReg i.dest (if P then 1 else 0)), q, os⟩ := by
  rw [cmd_alu_runs h hx hy, b2n_eq_ite hc]

theorem cmd_branch_runs (h : b.Runs t opc i b') (hx : x = (b'.thread t).reg i.src1) (hy : y = (b'.thread t).reg i.src2) {c : Nat → Nat → Bool} {P : Prop}
    [Decidable P] (hc : c x y = true ↔ P) :
    cmd (tidOk t) ⟨b, q, os⟩ (fun b => b.branch t opc c) =
      .next ⟨if P then b'.retire t (b'.thread t) (branchTo (b'.thread t).pc i.imm) else b'.next t (b'.thread t), q, os⟩ := by
  subst hx hy
  refine (cmd_insn_runs h _).trans ?_
  simp only [hc]

/-! ## Memory (R132, R163) -/

variable {addr n pa d : Nat} {k : LAcc} {f : Nat → Except (Nat × Nat) Blk}

theorem access_misaligned (ha : addr % n ≠ 0) : b.access t addr n k f = b.threadFault t eDenied 0x03 := if_pos ha

theorem access_unmapped (ha : addr % n = 0) (hpa : localPa t.stake addr n k = .error d) : b.access t addr n k f = b.threadFault t eDenied d := by
  simp only [Blk.access, ha, ne_eq, not_true_eq_false, if_false, hpa]

theorem access_ok (ha : addr % n = 0) (hpa : localPa t.stake addr n k = .ok pa) (hf : f pa = .ok b') : b.access t addr n k f = b' := by
  simp only [Blk.access, ha, ne_eq, not_true_eq_false, if_false, hpa, hf]

theorem exec_ld_runs {v : Nat} (h : b.Runs t 0x28 i b') (hn : n = 2 ^ bits i.mod 0 2) (ha : (b'.thread t).ea i % n = 0)
    (hpa : localPa t.stake ((b'.thread t).ea i) n .load = .ok pa) (hv : b'.sramRead pa n = .ok v) :
    exec (.ld t) ⟨b, q, os⟩ = .next ⟨b'.next t ((b'.thread t).setReg i.dest (if bit i.mod 2 then toBits 64 (sext (8 * n) v) else v)), q, os⟩ := by
  subst hn
  refine (cmd_insn_runs h _).trans ?_
  rw [access_ok ha hpa (by rw [hv])]

theorem exec_st_runs {b2 : Blk} (h : b.Runs t 0x29 i b') (hn : n = 2 ^ bits i.mod 0 2) (ha : (b'.thread t).ea i % n = 0)
    (hpa : localPa t.stake ((b'.thread t).ea i) n .store = .ok pa) (hw : b'.sramWrite pa n ((b'.thread t).reg i.src2) = .ok b2) :
    exec (.st t) ⟨b, q, os⟩ = .next ⟨b2.next t (b'.thread t), q, os⟩ := by
  subst hn
  refine (cmd_insn_runs h _).trans ?_
  rw [access_ok ha hpa (by rw [hw])]

theorem exec_amo_unstored {old : Nat} (h : b.Runs t 0x2A i b') (ha : (b'.thread t).ea i % 8 = 0)
    (hpa : localPa t.stake ((b'.thread t).ea i) 8 .atomic = .ok pa) (hold : b'.sramRead pa 8 = .ok old)
    (hnew : amoNew i.mod old ((b'.thread t).reg i.src2) ((b'.thread t).reg i.dest) = none) :
    exec (.amo t) ⟨b, q, os⟩ = .next ⟨b'.next t ((b'.thread t).setReg i.dest old), q, os⟩ := by
  refine (cmd_insn_runs h _).trans ?_
  rw [access_ok (b' := b'.next t ((b'.thread t).setReg i.dest old)) ha hpa (by simp only [hold, hnew])]

theorem exec_amo_stored {old v : Nat} {b2 : Blk} (h : b.Runs t 0x2A i b') (ha : (b'.thread t).ea i % 8 = 0)
    (hpa : localPa t.stake ((b'.thread t).ea i) 8 .atomic = .ok pa) (hold : b'.sramRead pa 8 = .ok old)
    (hnew : amoNew i.mod old ((b'.thread t).reg i.src2) ((b'.thread t).reg i.dest) = some v) (hw : b'.sramWrite pa 8 v = .ok b2) :
    exec (.amo t) ⟨b, q, os⟩ = .next ⟨b2.next t ((b'.thread t).setReg i.dest old), q, os⟩ := by
  refine (cmd_insn_runs h _).trans ?_
  rw [access_ok (b' := b2.next t ((b'.thread t).setReg i.dest old)) ha hpa (by simp only [hold, hnew, hw])]

/-! ## Barriers (R151) -/

theorem exec_bar_release (h : b.Runs t 0x3A i b') (h0 : b'.barCount (waleOf t.stake) i.imm ≠ 0)
    (hn : b'.barCount (waleOf t.stake) i.imm ≤ (b'.atBar (waleOf t.stake) i.imm).length + 1) :
    exec (.bar t) ⟨b, q, os⟩ =
      .next ⟨(b'.barRelease (waleOf t.stake) i.imm).next t ((b'.barRelease (waleOf t.stake) i.imm).thread t), q, os⟩ := by
  refine (cmd_insn_runs h _).trans ?_
  simp only [if_neg h0, if_pos hn]

/-! ## Issue (R138–R149) -/

/-- The conditions under which an issue is accepted. -/
theorem issue_accepted {qu : Queue} {v : Nat} {d : List Nat} (h : b.Runs t opc i b') (ha : (b'.thread t).reg i.src1 % 64 = 0)
    (hpa : localPa t.stake ((b'.thread t).reg i.src1) 64 .load = .ok pa) (herr : ((b'.thread t).tok (bits i.mod 0 4)).err = 0)
    (hfree : (b'.thread t).tok (bits i.mod 0 4) ≠ .pending) (hfence : b'.issueFenced t.stake qu = false) (hserve : b'.issueServing t.stake qu = true)
    (hv : b'.sramRead pa 64 = .ok v) (hd : d = (List.range 8).map (fun k => bits v (64 * k) 64)) (hvalid : issueValid qu d i.imm = true)
    (hcred : b'.credits t.stake qu ≠ 0) (hsb : b'.sbRes t.stake < 2 ∨ b'.sbShared (waleOf t.stake) < 64) :
    cmd (tidOk t) ⟨b, q, os⟩ (fun b => b.issue t opc qu) = .next ⟨b'.issueAccept t qu i d, q, os⟩ := by
  have hroom : (decide (2 ≤ b'.sbRes t.stake) && decide (64 ≤ b'.sbShared (waleOf t.stake))) = false := by
    simpa [Nat.not_le, imp_iff_not_or] using hsb
  have hpend : ((b'.thread t).tok (bits i.mod 0 4) == Tok.pending) = false := by simpa using hfree
  subst hd
  refine (cmd_insn_runs h _).trans ?_
  simp only [ha, herr, hpa, hpend, hfence, hserve, hv, hvalid, hcred, hroom, ne_eq, not_true_eq_false, if_false, Bool.false_eq_true, Bool.not_true,
    Bool.and_false, Bool.or_false, decide_false]

/-- A row of a thread that is stopped or sleeps. -/
theorem cmd_insn_idle (ht : tidOk t = true) (f : Blk → Ins → Blk)
    (h : (b.thread t).st ≠ tRun ∨ ((b.thread t).sleep ≠ .awake ∧ (b.thread t).sleep ≠ .stall)) :
    cmd (tidOk t) ⟨b, q, os⟩ (fun b => b.insn t opc f) = .next ⟨b, q, os⟩ := by
  rw [cmd_next ht, insn_idle opc f h]

end

/-! ## The statements -/

/-- Settles O20. -/
theorem arithmeticInstructionsComplete : Obligations.ArithmeticInstructionsComplete := by
  unfold Obligations.ArithmeticInstructionsComplete
  refine ⟨?_, ?_, ?_, ?_, ?_, ?_, ?_, ?_, ?_, ?_, ?_, ?_, ?_, ?_, fun b q os t i b' x y h hx hy => cmd_compare_runs h hx hy decide_eq_true_iff,
    fun b q os t i b' x y h hx hy => cmd_compare_runs h hx hy decide_eq_true_iff, fun b q os t i b' x y h hx hy => cmd_compare_runs h hx hy beq_iff_eq⟩
  all_goals exact fun b q os t i b' x y h hx hy => cmd_alu_runs h hx hy _

/-- Settles O21: each row's function of the fetched block, by cases where it looks at a register, a modifier or the selector. -/
theorem moveInstructionsComplete : Obligations.MoveInstructionsComplete := by
  unfold Obligations.MoveInstructionsComplete
  refine ⟨fun b q os t i b' h => cmd_insn_runs h _, fun b q os t i b' h => cmd_insn_runs h _, fun b q os t i b' h => cmd_insn_runs h _,
    fun b q os t i b' h hs => (cmd_insn_runs h _).trans (by simp only [hs, if_false]), fun b q os t i b' h hs => (cmd_insn_runs h _).trans (by simp only [hs, if_true]),
    fun b q os t i b' h hm => (cmd_insn_runs h _).trans (by simp only [hm, if_true]),
    fun b q os t i b' h hm => (cmd_insn_runs h _).trans (by simp only [hm, Bool.false_eq_true, if_false]),
    fun b q os t i b' h hk => (cmd_insn_runs h _).trans (by simp only [Nat.not_lt.mpr hk, if_false]), ?_, ?_, ?_, ?_, ?_, fun b q os t i b' h => cmd_insn_runs h _⟩
  all_goals exact fun b q os t i b' h hi => (cmd_insn_runs h _).trans (by simp only [hi])

/-- Settles O22. -/
theorem branchInstructionsComplete : Obligations.BranchInstructionsComplete := by
  unfold Obligations.BranchInstructionsComplete
  refine ⟨fun b q os t i b' x y h hx hy => cmd_branch_runs h hx hy beq_iff_eq, fun b q os t i b' x y h hx hy => cmd_branch_runs h hx hy bne_iff_ne,
    ?_, ?_, ?_, ?_, fun b q os t i b' h => cmd_insn_runs h _, fun b q os t i b' h => cmd_insn_runs h _⟩
  all_goals exact fun b q os t i b' x y h hx hy => cmd_branch_runs h hx hy decide_eq_true_iff

/-- Settles O23. -/
theorem memoryInstructionsComplete : Obligations.MemoryInstructionsComplete := by
  unfold Obligations.MemoryInstructionsComplete
  exact ⟨fun b q os t i b' n pa v h hn ha hpa hv => exec_ld_runs h hn ha hpa hv, fun b q os t i b' n pa b2 h hn ha hpa hw => exec_st_runs h hn ha hpa hw,
    fun b q os t i b' pa old h ha hpa hold hnew => exec_amo_unstored h ha hpa hold hnew,
    fun b q os t i b' pa old v b2 h ha hpa hold hnew hw => exec_amo_stored h ha hpa hold hnew hw⟩

/-- Settles O24. -/
theorem waitInstructionsComplete : Obligations.WaitInstructionsComplete := by
  unfold Obligations.WaitInstructionsComplete
  refine ⟨fun b q os t i b' h hdone herr => (cmd_insn_runs h _).trans (by simp only [hdone, if_true, Blk.twaitEnd, herr]),
    fun b q os t i b' h hdone => (cmd_insn_runs h _).trans (by simp only [hdone, Bool.false_eq_true, if_false]),
    fun b q os t i b' h h0 hn => exec_bar_release h h0 hn, fun b q os t i b' h hn => (cmd_insn_runs h _).trans ?_,
    fun b q os t i b' h hd => (cmd_insn_runs h _).trans (by simp only [hd, Bool.false_eq_true, if_false]),
    fun b q os t i b' h hd => (cmd_insn_runs h _).trans (by simp only [hd, if_true]),
    fun b q os t i b' h hp herr => (cmd_insn_runs h _).trans (by simp only [hp, List.isEmpty_nil, if_true, Blk.haltEnd, herr]),
    fun b q os t i b' h hp => (cmd_insn_runs h _).trans (by simp only [List.isEmpty_iff, hp, if_false])⟩
  have h0 : b'.barCount (waleOf t.stake) i.imm ≠ 0 := by omega
  simp only [if_neg h0, if_neg (Nat.not_le.mpr hn)]

/-- Settles O25. -/
theorem issueInstructionsComplete : Obligations.IssueInstructionsComplete := by
  unfold Obligations.IssueInstructionsComplete
  refine ⟨?_, ?_, ?_, ?_, ?_, fun b q os t ht hst hsl hlim hheld => ?_, fun b q os t b' w ht hst hsl hf hop => ?_⟩
  case refine_6 =>
    have hlim' : (b.rd R.SCHED_CREDIT_LIMIT (waleOf t.stake) != 0) = true := bne_iff_ne.mpr hlim
    rw [exec_creditTimeout, execCreditTimeout, cmd_next ht]
    simp only [hst, hsl, hlim', hheld, beq_self_eq_true, Bool.not_false, Bool.and_self, when_true]
  case refine_7 =>
    rw [exec_undefinedOpcode, execUndefinedOpcode, cmd_next ht]
    simp only [Blk.undefinedOp, hst, hsl, hf, hop, ne_eq, not_true_eq_false, or_self, if_false, Option.isNone_none, if_true]
  all_goals
    exact fun b q os t i b' pa v d h ha hpa herr hfree hfence hserve hv hd hvalid hcred hsb =>
      issue_accepted h ha hpa herr hfree hfence hserve hv hd hvalid hcred hsb

/-- Settles O55: every row is `Blk.insn`, which such a thread leaves alone. -/
theorem idleThreadsRunNothing : Obligations.IdleThreadsRunNothing := by
  unfold Obligations.IdleThreadsRunNothing
  intro b q os t x hx ht h
  obtain ⟨f, hf⟩ := exec_insnRows x hx
  rw [hf, cmd_insn_idle ht f h]

end Sys2Proof.Proofs
end

section
/-! SUPPORT. The summary unit and the engines (R165–R174, R205–R232, R244–R256), the leave windows (R418, R419) and the hoop's accesses (R235–R239). -/

namespace Sys2Proof.Proofs

open Sys2Proof.Machine Sys2Proof.Laws

section

variable {b b' : Blk} {q : List Instr} {os : List Obs} {ok : Bool} {f : Blk → Blk}

/-- A well-formed command whose effect on the block is known. -/
theorem cmd_eq (hok : ok = true) (hf : f b = b') : cmd ok ⟨b, q, os⟩ f = .next ⟨b', q, os⟩ := by rw [cmd_next hok, hf]

/-- A well-formed command under a condition that holds. -/
theorem cmd_when {c : Blk → Bool} (hok : ok = true) (hc : c b = true) (f : Blk → Blk) :
    cmd ok ⟨b, q, os⟩ (fun b' => b'.when (c b') f) = .next ⟨f b, q, os⟩ := by
  rw [cmd_next hok, hc, when_true]

/-! ## The summary unit -/

/-- The unit takes the operation at the head of its queue, of the command's kind and with no error in its AFTER slot. -/
theorem sumStart_ready {w kind : Nat} {op : QOp} {l : List QOp} (f : Blk → QOp → SumDesc → Blk) (hhead : b.sumHead w = some (op, l, 0))
    (hkind : (sumDesc op.desc).op = kind) (hb' : b' = (b.setWale w { b.wale w with sumQ := l }).setWale w
      { (b.setWale w { b.wale w with sumQ := l }).wale w with sum := some { op := op, made := true } }) :
    b.sumStart w kind f = f b' op (sumDesc op.desc) := by
  subst hb'
  simp only [Blk.sumStart, hhead, hkind, ne_eq, not_true_eq_false, if_false]

/-! ## Streams -/

theorem dmaStart_ready {c : Nat} {op : QOp} (hnext : b.dmaNext (c / 64) = some op) (hafter : afterGate op = some 0) {big : Bool}
    (hbig : decide (2 ^ 20 ≤ (dmaDesc op.desc).total) = big)
    (hb' : b' = (b.setWale (c / 64) { b.wale (c / 64) with dmaQ := (b.wale (c / 64)).dmaQ.erase op }).setStream c
      (some { orig := .op op, desc := op.desc, imm := op.imm, st := if big then .wait else .run, started := !big })) :
    b.dmaStart c = if big then b'.lvAsk (.dma c) else b' := by
  subst hb' hbig
  simp only [Blk.dmaStart, hnext, hafter]

/-- The contexts of the wales and of the hoop groups are contexts of the engine. -/
theorem ctx_lt {c : Nat} (h : c < 12800 ∨ 14848 ≤ c ∧ c < 16896) : c < 16896 := by omega

end

/-! ## The statements -/

/-- Settles O26. -/
theorem summaryCommandsComplete : Obligations.SummaryCommandsComplete := by
  unfold Obligations.SummaryCommandsComplete
  refine ⟨fun b q os w op l b' hw hhead hkind hb' => ?_, fun b q os w op l b' hw hhead hkind hb' => ?_, fun b q os w op l b' hw hhead hkind hb' => ?_,
    fun b q os w op l b' hw hhead hkind hb' => ?_, fun b q os w r b1 hw hrun hmade hb1 => ?_⟩
  · rw [exec_sumCombine, execSumCombine]
    exact cmd_eq (decide_eq_true hw) (sumStart_ready _ hhead hkind hb')
  · rw [exec_sumPost, execSumPost]
    exact cmd_eq (decide_eq_true hw) (sumStart_ready _ hhead hkind hb')
  · rw [exec_sumClear, execSumClear]
    exact cmd_eq (decide_eq_true hw) (sumStart_ready _ hhead hkind hb')
  · rw [exec_sumLoss, execSumLoss]
    exact cmd_eq (decide_eq_true hw) (sumStart_ready _ hhead hkind hb')
  · rw [exec_summaryOpEnd, execSummaryOpEnd]
    subst hb1
    exact cmd_eq (decide_eq_true hw) (by simp only [hrun, hmade, if_true])

/-- Settles O27. -/
theorem engineStartsComplete : Obligations.EngineStartsComplete := by
  unfold Obligations.EngineStartsComplete
  refine ⟨fun b q os k op l v hk hidle hq hafter hent hleave => ?_, fun b q os k op l v d hk hidle hq hafter hent hd hread hgeom hneeds => ?_,
    fun b q os k op l v d hk hidle hq hafter hent hd hread hgeom hneeds => ?_, fun b q os k op l hk hidle hq hafter => ?_,
    fun b q os w op l hw hidle hq hclear hafter => ?_, fun b q os c op hc hfree hnext hafter hsize => ?_, fun b q os c op hc hfree hnext hafter hsize => ?_⟩
  · rw [exec_matrixOpStart, execMatrixOpStart]
    exact cmd_eq (decide_eq_true hk) (by simp only [Blk.matStart, hidle, hq, hafter, hent, hleave, if_true])
  · rw [exec_matrixOpStart, execMatrixOpStart]
    subst hd
    exact cmd_eq (decide_eq_true hk) (by simp only [Blk.matStart, hidle, hq, hafter, hent, hread, hgeom, hneeds, Bool.not_true, Bool.false_eq_true, if_false, if_true])
  · rw [exec_matrixOpStart, execMatrixOpStart]
    subst hd
    exact cmd_eq (decide_eq_true hk) (by simp only [Blk.matStart, hidle, hq, hafter, hent, hread, hgeom, hneeds, Bool.not_true, Bool.false_eq_true, if_false])
  · rw [exec_chainOpStart, execChainOpStart]
    exact cmd_eq (decide_eq_true hk) (by simp only [Blk.chStart, hidle, hq, hafter])
  · rw [exec_rowOpStart, execRowOpStart]
    exact cmd_eq (decide_eq_true hw) (by simp only [Blk.rowStart, hidle, hq, hclear, hafter, Bool.false_eq_true, if_false])
  · rw [exec_dmaStreamStart, execDmaStreamStart]
    have hok : (decide (c < 16896) && !(decide (12800 ≤ c) && decide (c < 14848))) = true := by grind
    exact cmd_eq hok (by simp only [hfree, hc, Bool.false_eq_true, if_false, if_true, dmaStart_ready hnext hafter (decide_eq_false (Nat.not_le.mpr hsize)) rfl, Bool.not_false])
  · rw [exec_dmaStreamStart, execDmaStreamStart]
    have hok : (decide (c < 16896) && !(decide (12800 ≤ c) && decide (c < 14848))) = true := by grind
    exact cmd_eq hok (by simp only [hfree, hc, Bool.false_eq_true, if_false, if_true, dmaStart_ready hnext hafter (decide_eq_true hsize) rfl, Bool.not_true])

/-- Settles O28. -/
theorem engineEndsComplete : Obligations.EngineEndsComplete := by
  unfold Obligations.EngineEndsComplete
  refine ⟨fun b q os k r hk hrun => ?_, fun b q os k addr r r' b' hk ha hrun hb' hr' hsusp hop => ?_, fun b q os k r hk hrun => ?_,
    fun b q os k addr r f hk ha hrun hbad => ?_, fun b q os w r hw hrun => ?_, fun b q os w addr r r' b' hw ha hrun hb' hr' hsusp hop => ?_,
    fun b q os c x hc hrun => ?_, fun b q os c ue x x' b' hc hue hrun hb' hx' hsusp => ?_, fun b q os w hw hbusy => ?_⟩
  · rw [exec_matrixOpEnd, execMatrixOpEnd]
    exact cmd_eq (decide_eq_true hk) (by simp only [hrun])
  · rw [exec_matrixSuspend, execMatrixSuspend]
    subst hb'
    exact cmd_eq (by simp only [hk, ha, decide_true, Bool.and_self]) (by simp only [hrun, hr', hsusp, hop, beq_self_eq_true, Bool.and_self, if_true])
  · rw [exec_chainOpEnd, execChainOpEnd]
    exact cmd_eq (decide_eq_true hk) (by simp only [hrun])
  · rw [exec_chainSuspend, execChainSuspend]
    exact cmd_eq (by simp only [hk, ha, decide_true, Bool.and_self]) (by simp only [hrun, hbad])
  · rw [exec_rowOpEnd, execRowOpEnd]
    exact cmd_eq (decide_eq_true hw) (by simp only [hrun])
  · rw [exec_rowSuspend, execRowSuspend]
    subst hb'
    exact cmd_eq (by simp only [hw, ha, decide_true, Bool.and_self]) (by simp only [hrun, hr', hsusp, hop, beq_self_eq_true, Bool.and_self, if_true])
  · rw [exec_dmaStreamEnd, execDmaStreamEnd]
    exact cmd_eq (decide_eq_true (ctx_lt hc)) (by simp only [hrun])
  · rw [exec_dmaStreamFault, execDmaStreamFault]
    refine cmd_eq (by simp only [ctx_lt hc, hue, decide_true, Bool.and_self]) ?_
    subst hb'
    cases ue <;> (dsimp only at hx'; simp only [hrun, hx', hsusp, beq_self_eq_true, if_true])
  · rw [exec_sideClearDone, execSideClearDone]
    exact cmd_eq (decide_eq_true hw) (by simp only [hbusy, when_true])

/-- Settles O29. -/
theorem leaveTranslationScrubComplete : Obligations.LeaveTranslationScrubComplete := by
  unfold Obligations.LeaveTranslationScrubComplete
  refine ⟨fun b q os d n b1 hd hn hb1 => ?_, fun b q os u va write v b' pa dom sz pte hu hva hnone hwalk => ?_,
    fun b q os u va write v x b1 pa dom sz pte hu hva hsome hres hb1 => ?_, fun b q os u va write v b' c d pte a hu hva hnone hwalk => ?_,
    fun b q os hbusy => ?_, fun b q os pa ce last hpa => (exec_scrubLine pa ce last _).trans (cmd_next hpa _ _), fun b q os core a wr n data pa hcore ha hn hdata hpa => ?_,
    fun b q os core a wr n data hcore ha hn hdata hpage => ?_⟩
  · rw [exec_leaveWindow, execLeaveWindow]
    subst hb1 hn
    exact cmd_eq (decide_eq_true hd) rfl
  · rw [exec_translationWalkEnd, execTranslationWalkEnd]
    exact cmd_eq (by simp only [hu, hva, decide_true, Bool.and_self]) (by simp only [hnone, hwalk])
  · rw [exec_translationWalkEnd, execTranslationWalkEnd]
    subst hb1
    exact cmd_eq (by simp only [hu, hva, decide_true, Bool.and_self]) (by simp only [hsome, Blk.walkEnd, hres])
  · rw [exec_translationWalkEnd, execTranslationWalkEnd]
    exact cmd_eq (by simp only [hu, hva, decide_true, Bool.and_self]) (by simp only [hnone, hwalk])
  · rw [exec_invalComplete, execInvalComplete]
    exact cmd_eq rfl (by simp only [hbusy, when_true])
  · rw [exec_hoopMemoryAccess, execHoopMemoryAccess]
    exact cmd_eq (by simp only [hcore, ha, hn, hdata, decide_true, Bool.and_self]) (by simp only [hpa])
  · rw [exec_hoopMemoryAccess, execHoopMemoryAccess]
    exact cmd_eq (by simp only [hcore, ha, hn, hdata, decide_true, Bool.and_self]) (by simp only [hpage])

end Sys2Proof.Proofs
end

section
/-! SUPPORT. The beat timer (R106–R128), the events of blocks and dies (R39–R41, R97–R99), the banks (R271–R276, R291) and the replicas' digests (R281–R289). -/

namespace Sys2Proof.Proofs

open Sys2Proof.Machine Sys2Proof.Laws

/-! ## The statements -/

/-- Settles O30. -/
theorem beatCommandsComplete : Obligations.BeatCommandsComplete := by
  unfold Obligations.BeatCommandsComplete
  refine ⟨fun b q os m hrun => ?_, fun b q os w hw htake => ?_, fun b q os x hx hst => ?_, fun b q os x hx hst => ?_, fun b q os hnew hst => ?_,
    fun b q os p i stopped live hpage hstopped hlive hne hclock hst => ?_⟩
  · rw [exec_beatTick, execBeatTick]
    exact cmd_when rfl hrun _
  · rw [exec_workListTake, execWorkListTake]
    exact cmd_when (decide_eq_true hw) htake _
  · rw [exec_syncEdge, execSyncEdge]
    exact cmd_eq rfl (by simp only [hx, hst, decide_true, Bool.not_true, Bool.false_eq_true, if_false])
  · rw [exec_syncEdge, execSyncEdge]
    refine cmd_eq rfl ?_
    obtain hst | hst := hst <;> simp only [hx, hst, decide_true, Bool.not_true, Bool.false_eq_true, if_false]
  · rw [exec_syncEvaluate, execSyncEvaluate]
    refine cmd_when rfl ?_ _
    simpa only [hnew, Bool.not_false, Bool.true_and, Bool.or_eq_true, beq_iff_eq] using hst
  · rw [exec_cdcTimeout, execCdcTimeout]
    refine cmd_when (by simp only [hpage, hstopped, hlive, decide_true, Bool.and_self]) ?_ _
    simp only [bne_iff_ne.mpr hne, hclock, hst, Bool.not_false, Bool.and_self]

/-- Settles O31. -/
theorem blockStateCommandsComplete : Obligations.BlockStateCommandsComplete := by
  unfold Obligations.BlockStateCommandsComplete
  refine ⟨fun b q os p i hpage hruns hzero => ?_, fun b q os p i hpage hst hruns hzero => ?_, fun b q os p i hpage hst hidle => ?_,
    fun b q os p i hpage hst hwhy => ?_, fun b q os p i hpage hst hiso hwhy => ?_, fun b q os p i hpage hst => ?_, fun b q os d k hd hk hne hlink => ?_,
    fun b q os d k hd hk hne => ?_, fun b q os d hd => ?_, fun b q os d hd => ?_, fun b q os d hd => ?_⟩
  · rw [exec_blockInitDone, execBlockInitDone]
    exact cmd_when hpage (by simp only [hruns, hzero, Option.isNone_none, Bool.and_self]) _
  · rw [exec_blockInitTimeout, execBlockInitTimeout]
    exact cmd_when hpage (by simp only [hst, hruns, hzero, beq_self_eq_true, Option.isNone_none, Bool.and_self]) _
  · rw [exec_blockDrained, execBlockDrained]
    exact cmd_when hpage (by simp only [hst, hidle, beq_self_eq_true, Bool.and_self]) _
  · rw [exec_quiesceTimeout, execQuiesceTimeout]
    have hforced : (b.on (R.PG_CTRL_ISOLATE p) i || (!b.boot.shut.isEmpty && !zeroSpares p)) = true := by
      obtain hiso | ⟨hshut, hspares⟩ := hwhy
      · rw [hiso, Bool.true_or]
      · rw [List.isEmpty_eq_false_iff.mpr hshut, hspares, Bool.not_false, Bool.and_self, Bool.or_true]
    exact (cmd_when hpage (by rw [hst, beq_self_eq_true]) _).trans (by rw [if_pos hforced])
  · rw [exec_quiesceTimeout, execQuiesceTimeout]
    have hfree : (b.on (R.PG_CTRL_ISOLATE p) i || (!b.boot.shut.isEmpty && !zeroSpares p)) = false := by
      obtain hshut | hspares := hwhy
      · rw [hiso, hshut, List.isEmpty_nil, Bool.not_true, Bool.false_and, Bool.or_self]
      · rw [hiso, hspares, Bool.not_true, Bool.and_false, Bool.or_self]
    exact (cmd_when hpage (by rw [hst, beq_self_eq_true]) _).trans (by rw [if_neg (by rw [hfree]; exact Bool.false_ne_true)])
  · rw [exec_blockSelfCheckFail, execBlockSelfCheckFail]
    refine cmd_when hpage ?_ _
    exact bne_iff_ne.mpr hst
  · rw [exec_d2dLaneRepair, execD2dLaneRepair]
    refine cmd_when (by simp only [hd, hk, bne_iff_ne.mpr hne, decide_true, Bool.and_self]) ?_ _
    exact bne_iff_ne.mpr hlink
  · rw [exec_d2dLinkFail, execD2dLinkFail]
    exact cmd_eq (by simp only [hd, hk, bne_iff_ne.mpr hne, decide_true, Bool.and_self]) rfl
  · exact (exec_diePllUnlock d _ _).trans (cmd_next (by rw [decide_eq_true hd]; rfl) _ _)
  · exact (exec_diePllUnlock d _ _).trans (cmd_next (by rw [decide_eq_true hd]; rfl) _ _)
  · exact (exec_diePllUnlock d _ _).trans (cmd_next (by rw [decide_eq_true hd]; rfl) _ _)

/-- Settles O32. -/
theorem bankCommandsComplete : Obligations.BankCommandsComplete := by
  unfold Obligations.BankCommandsComplete
  refine ⟨fun b q os n l hn hserves hfree hring hentry hvalid => ?_, fun b q os n l hn hserves hfree hring hentry hvalid => ?_,
    fun b q os n l hn hdesc => ?_, fun b q os n l x hn hdesc hwork hstaged => ?_, fun b q os n a l x hn hdesc hwork hreads => ?_,
    fun b q os n hn hwait hheld => ?_, fun b q os n r l f hn hq hf hroute hlive => ?_, fun b q os n r l hn hq hroute hup hsent => ?_⟩
  · rw [exec_applyDescriptorTake, execApplyDescriptorTake]
    refine (cmd_when (decide_eq_true hn) (by simp only [hserves, hfree, bne_iff_ne.mpr hring, Option.isNone_none, Bool.and_self]) _).trans ?_
    simp only [hentry, hvalid, Bool.not_true, Bool.false_eq_true, if_false]
  · rw [exec_applyDescriptorTake, execApplyDescriptorTake]
    refine (cmd_when (decide_eq_true hn) (by simp only [hserves, hfree, bne_iff_ne.mpr hring, Option.isNone_none, Bool.and_self]) _).trans ?_
    simp only [hentry, hvalid, Bool.not_false, if_true]
  · rw [exec_applyChunkStart, execApplyChunkStart]
    exact cmd_when (decide_eq_true hn) (by rw [hdesc, Option.isSome_some]) _
  · rw [exec_applyChunkCommit, execApplyChunkCommit]
    exact cmd_eq (decide_eq_true hn) (by simp only [hdesc, hwork, hstaged, when_true])
  · rw [exec_applyChunkAbort, execApplyChunkAbort]
    exact cmd_eq (decide_eq_true hn) (by simp only [hdesc, hwork, hreads, if_true])
  · rw [exec_applyRetry, execApplyRetry]
    exact cmd_when (decide_eq_true hn) (by simp only [hwait, hheld, Bool.not_false, Bool.and_self]) _
  · rw [exec_exportSend, execExportSend]
    refine cmd_eq (decide_eq_true hn) ?_
    obtain rfl | rfl : f = 0 ∨ f = 1 := by omega
    · simp only [hq, hroute, hlive, when_true]
    · simp only [hq, hroute, hlive, when_true]
  · rw [exec_exportSend, execExportSend]
    exact cmd_eq (decide_eq_true hn) (by simp only [hq, hroute, hup, hsent, Option.isNone_none, Bool.and_self, if_true])

/-- Settles O33. -/
theorem replicaCommandsComplete : Obligations.ReplicaCommandsComplete := by
  unfold Obligations.ReplicaCommandsComplete
  refine ⟨fun b q os x l hq => ?_, fun b q os shard hs => ?_, fun b q os src shard step d hs hstep hd hopen => ?_,
    fun b q os shard step c own hs hcmp hown hwaited => ?_, fun b q os src shard part chunk step x hs hpart hchunk hopen => ?_,
    fun b q os src shard part chunk step x c hs hpart hchunk hserve hread => ?_, fun b q os c x hs hcount hlen hopen hfetch hpart => ?_⟩
  · rw [exec_lossValue, execLossValue]
    exact cmd_eq rfl (by simp only [hq])
  · rw [exec_digestReady, execDigestReady]
    exact cmd_next (decide_eq_true hs) _ _
  · rw [exec_digestReceive, execDigestReceive]
    exact cmd_when (by simp only [hs, hstep, hd, decide_true, Bool.and_self]) hopen _
  · rw [exec_digestWaitExpire, execDigestWaitExpire]
    exact cmd_eq (decide_eq_true hs) (by simp only [hcmp, hown, hwaited, decide_true, when_true])
  · rw [exec_repairServe, execRepairServe]
    exact cmd_eq (decide_eq_true hs) (by simp only [hpart, hchunk, hopen, decide_true, Bool.not_true, Bool.not_false, Bool.false_eq_true, if_false, if_true, when_true])
  · rw [exec_repairServe, execRepairServe]
    exact cmd_eq (decide_eq_true hs) (by simp only [hpart, hchunk, hserve, hread, decide_true, Bool.not_true, Bool.false_eq_true, if_false])
  · rw [exec_repairChunkReceive, execRepairChunkReceive]
    refine cmd_eq (by simp only [hs, hcount, hlen, decide_true, beq_self_eq_true, Bool.and_self]) ?_
    simp only [hopen, hfetch, hpart, Bool.not_true, Bool.or_self, Bool.false_eq_true, if_false]

end Sys2Proof.Proofs
end

section
/-! SUPPORT. The near ports: flits, credits, lanes and rate (R316–R332), training and the cable (R325–R329), the epochs (R65–R67) and the sideband (R426, R427). -/

namespace Sys2Proof.Proofs

open Sys2Proof.Machine Sys2Proof.Laws

/-! ## The statements -/

/-- Settles O34. -/
theorem nearLinkCommandsComplete : Obligations.NearLinkCommandsComplete := by
  unfold Obligations.NearLinkCommandsComplete
  refine ⟨fun b q os p f hp hbit hlen hpass => ?_, fun b q os p ep seq k hp hep hseq hpass hplace => ?_, fun b q os p hp hpass => ?_,
    fun b q os p l slots b1 b2 hp hl hopen hb1 hb2 => ?_, fun b q os p hp hup => ?_, fun b q os p n hp hn hup hgood => ?_,
    fun b q os p bad hp hbad hup => ?_, fun b q os p bad hp hbad hup => ?_, fun b q os p good hp hgood hlink => ?_,
    fun b q os p hp hlink hbad hforce => ?_, fun b q os p k hp hlo hhi hup => ?_, fun b q os p withheld low k hp hup hk => ?_,
    fun b q os p r b1 b2 b3 hp hr hup hgroup hne hb1 hb2 hb3 => ?_⟩
  · rw [exec_flitReceive, execFlitReceive]
    exact cmd_when (by simp only [hp, hbit, hlen, decide_true, beq_self_eq_true, Bool.and_self]) hpass _
  · rw [exec_nak, execNak]
    exact cmd_eq (by simp only [hp, hep, hseq, decide_true, Bool.and_self]) (by simp only [hplace, hpass, when_true])
  · rw [exec_replayTimeout, execReplayTimeout]
    exact cmd_when (decide_eq_true hp) hpass _
  · rw [exec_creditReturn, execCreditReturn]
    exact cmd_eq (by simp only [hp, hl, decide_true, Bool.and_self]) (by simp only [hopen, when_true, hb2, hb1])
  · rw [exec_creditReturnTimer, execCreditReturnTimer]
    exact cmd_when (decide_eq_true hp) hup _
  · rw [exec_laneFail, execLaneFail]
    exact cmd_when (by simp only [hp, hn, decide_true, Bool.and_self]) (by simp only [hup, hgood, Bool.not_false, Bool.and_self]) _
  · rw [exec_width, execWidth]
    exact cmd_when (by rw [decide_eq_true hp, decide_eq_true hbad]; rfl) hup _
  · rw [exec_width, execWidth]
    exact cmd_when (by rw [decide_eq_true hp, decide_eq_true hbad]; rfl) hup _
  · rw [exec_laneRetrainAttempt, execLaneRetrainAttempt]
    exact cmd_when (by simp only [hp, hgood, decide_true, Bool.and_self]) (by simp only [hlink, beq_self_eq_true]) _
  · rw [exec_laneRestore, execLaneRestore]
    exact cmd_when (decide_eq_true hp) (by simp only [hlink, hbad, hforce, beq_self_eq_true, Bool.not_false, Bool.and_self]) _
  · rw [exec_rate, execRate]
    exact cmd_when (by simp only [hp, hlo, hhi, decide_true, Bool.and_self]) hup _
  · rw [exec_backpressurePeriod, execBackpressurePeriod]
    subst hk
    exact cmd_when (decide_eq_true hp) hup _
  · rw [exec_sidebandRecord, execSidebandRecord]
    subst hb3 hb2 hb1
    refine cmd_when (by simp only [hp, hr, decide_true, beq_self_eq_true, Bool.and_self]) ?_ _
    simp only [hup, hgroup, bne_iff_ne.mpr (hgroup ▸ hne), beq_self_eq_true, Bool.and_self]

/-- Settles O35. -/
theorem nearTrainingCommandsComplete : Obligations.NearTrainingCommandsComplete := by
  unfold Obligations.NearTrainingCommandsComplete
  refine ⟨fun b q os p r hp => ?_, fun b q os p hp hstep => ?_, fun b q os p hp hwait htrain => ?_, fun b q os p r b1 hp hstep hcheck hb1 => ?_,
    fun b q os p r b1 hp hstep hcheck hb1 => ?_, fun b q os p present hp => ?_, fun b q os p ma b1 hp hma hon hb1 => ?_, fun b q os p hp htrip hone => ?_,
    fun b q os p hp hup => ?_, fun b q os p k hp hup hk htwo => ?_, fun b q os p k hp hnext => ?_, fun b q os p k hp hasked hk => ?_,
    fun b q os p k hp htwo hk => ?_⟩
  · rw [exec_trainingStepDone, execTrainingStepDone]
    exact cmd_next (decide_eq_true hp) _ _
  · rw [exec_trainingStepTimeout, execTrainingStepTimeout]
    refine cmd_when (decide_eq_true hp) ?_ _
    exact bne_iff_ne.mpr hstep
  · rw [exec_trainingRetry, execTrainingRetry]
    exact cmd_when (decide_eq_true hp) (by simp only [hwait, htrain, Bool.and_self]) _
  · rw [exec_capabilityRecord, execCapabilityRecord]
    subst hb1
    refine (cmd_when (decide_eq_true hp) (by simp only [hstep, beq_self_eq_true]) _).trans ?_
    simp only [ne_eq, hcheck, not_false_eq_true, if_true]
  · rw [exec_capabilityRecord, execCapabilityRecord]
    subst hb1
    refine (cmd_when (decide_eq_true hp) (by simp only [hstep, beq_self_eq_true]) _).trans ?_
    simp only [ne_eq, hcheck, not_true_eq_false, if_false, beq_iff_eq]
  · rw [exec_cblPresentN, execCblPresentN]
    exact cmd_next (decide_eq_true hp) _ _
  · rw [exec_cableOvercurrent, execCableOvercurrent]
    subst hb1
    exact cmd_when (by simp only [hp, hma, decide_true, Bool.and_self]) hon _
  · rw [exec_loadSwitchReclose, execLoadSwitchReclose]
    exact cmd_when (decide_eq_true hp) (by simp only [htrip, hone, beq_self_eq_true, Bool.and_self]) _
  · rw [exec_nearRekeyDue, execNearRekeyDue]
    exact cmd_when (decide_eq_true hp) hup _
  · rw [exec_keyNext, execKeyNext]
    exact cmd_when (decide_eq_true hp) (by simp only [hup, hk, htwo, beq_self_eq_true, Bool.not_false, Bool.and_self]) _
  · rw [exec_nearKeyInstalled, execNearKeyInstalled]
    exact cmd_eq (decide_eq_true hp) (by simp only [hnext])
  · rw [exec_keyReady, execKeyReady]
    exact cmd_when (decide_eq_true hp) (by simp only [hasked, hk, beq_self_eq_true, Bool.and_self]) _
  · rw [exec_keyRetire, execKeyRetire]
    exact cmd_when (decide_eq_true hp) (by simp only [htwo, hk, beq_self_eq_true, Bool.and_self]) _

end Sys2Proof.Proofs
end

section
/-! SUPPORT. The border (R297–R314, R335–R360): records under the attempt rule, posts, deadlines, switch channels and coders. -/

namespace Sys2Proof.Proofs

open Sys2Proof.Machine Sys2Proof.Laws

/-! ## The attempt rule (R297, R344) -/

/-- A record from an open port whose step and attempt the rule admits is taken in order, with what that releases. -/
theorem rx_admitted {b b1 : Blk} {p tc step attempt : Nat} {m : NMsg} (hopen : b.tcOpen p tc = true) (hm : msgAttempt m = some (step, attempt))
    (hgate : b.attemptGate step attempt = (b1, 0)) : b.rx p tc m = (b1.rxCore p m).settled := by
  simp only [Blk.rx, hopen, when_true, Blk.rxIn, hm, hgate]

/-- A handover that arrives takes its direction's way. -/
theorem rxCore_handover (b : Blk) (p : Nat) (h : Handover) : b.rxCore p (.handover h) = if h.back then b.hoBackward p h else b.hoForward p h := rfl

/-! ## The statements -/

/-- Settles O36. -/
theorem borderRecordCommandsComplete : Obligations.BorderRecordCommandsComplete := by
  unfold Obligations.BorderRecordCommandsComplete
  refine ⟨fun b q os p k b1 hp hk hopen hgate => ?_, fun b q os p k b1 hp hk hopen hgate => ?_, fun b q os p k r data b1 hp hk hopen hgate => ?_,
    fun b q os p k first block data b1 hp hk hopen hgate => ?_, fun b q os p k first block b1 hp hk hopen hgate => ?_,
    fun b q os p h group b1 hp hslot hback hstep hmb hatt hvar hopen hgate => ?_, fun b q os p h group hp hslot hback hstep hmb hatt hvar => ?_,
    fun b q os p h group b1 hp hslot hback hstep hmb hatt hvar hopen hgate => ?_, fun b q os p h group hp hslot hback hstep hmb hatt hvar => ?_,
    fun b q os p x n size b1 hp hgroup hstep hatt hxid hrank hn hsize hopen hgate => ?_,
    fun b q os p x data b1 hp hgroup hstep hatt hxid hrank hopen hgate => ?_, fun b q os p x n size hp hgroup hstep hatt hxid hrank hn hsize => ?_,
    fun b q os p x data hp hgroup hstep hatt hxid hrank => ?_, fun b q os p group layer rank version data hp hgroup hlayer hrank hver hopen => ?_,
    fun b q os p step attempt cls origin group bucket hp hstep hatt hcls horigin hgroup hbucket hopen => ?_,
    fun b q os r back step hgroup hcommit hshard hatt hstep hlayer hpeer hopen => ?_, fun b q os data r hlen hserve => ?_⟩
  · rw [exec_openMsg, execOpenMsg]
    exact cmd_eq (by simp only [hp, hk, decide_true, Bool.and_self]) (rx_admitted hopen rfl hgate)
  · rw [exec_grant, execGrant]
    exact cmd_eq (by simp only [hp, hk, decide_true, Bool.and_self]) (rx_admitted hopen rfl hgate)
  · rw [exec_bucketData, execBucketData]
    exact cmd_eq (by simp only [hp, bucketKey, hk, decide_true, Bool.and_self]) (rx_admitted hopen rfl hgate)
  · rw [exec_bucketData, execBucketData]
    exact cmd_eq (by simp only [hp, bucketKey, hk, decide_true, Bool.and_self]) (rx_admitted hopen rfl hgate)
  · rw [exec_codedBlockRerequest, execCodedBlockRerequest]
    exact cmd_eq (by simp only [hp, hk, decide_true, Bool.and_self]) (rx_admitted hopen rfl hgate)
  · rw [exec_handoverForward, execHandoverForward]
    refine cmd_eq (by simp only [hp, hslot, hback, hstep, hmb, hatt, hvar, decide_true, Bool.not_false, Bool.and_self]) ?_
    simp only [Bool.false_eq_true, if_false, rx_admitted (m := .handover h) hopen rfl hgate, rxCore_handover, hback]
  · rw [exec_handoverForward, execHandoverForward]
    exact cmd_eq (by simp only [hp, hslot, hback, hstep, hmb, hatt, hvar, decide_true, Bool.not_false, Bool.and_self]) rfl
  · rw [exec_handoverBackward, execHandoverBackward]
    refine cmd_eq (by simp only [hp, hslot, hback, hstep, hmb, hatt, hvar, decide_true, Bool.and_self]) ?_
    simp only [Bool.false_eq_true, if_false, rx_admitted (m := .handover h) hopen rfl hgate, rxCore_handover, hback, if_true]
  · rw [exec_handoverBackward, execHandoverBackward]
    exact cmd_eq (by simp only [hp, hslot, hback, hstep, hmb, hatt, hvar, decide_true, Bool.and_self]) rfl
  · rw [exec_countRecord, execCountRecord]
    refine cmd_eq (by simp only [hp, hgroup, hstep, hatt, hxid, hrank, hn, hsize, decide_true, Bool.and_self]) ?_
    exact rx_admitted hopen rfl hgate
  · rw [exec_expertTokens, execExpertTokens]
    refine cmd_eq (by simp only [hp, hgroup, hstep, hatt, hxid, hrank, decide_true, Bool.and_self]) ?_
    exact rx_admitted hopen rfl hgate
  · rw [exec_countRecord, execCountRecord]
    exact cmd_eq (by simp only [hp, hgroup, hstep, hatt, hxid, hrank, hn, hsize, decide_true, Bool.and_self]) rfl
  · rw [exec_expertTokens, execExpertTokens]
    exact cmd_eq (by simp only [hp, hgroup, hstep, hatt, hxid, hrank, decide_true, Bool.and_self]) rfl
  · rw [exec_gatherPiece, execGatherPiece]
    exact cmd_when (by simp only [hp, hgroup, hlayer, hrank, hver, decide_true, Bool.and_self]) hopen _
  · rw [exec_abortMsg, execAbortMsg]
    exact cmd_when (by simp only [hp, hstep, hatt, hcls, horigin, hgroup, hbucket, decide_true, Bool.and_self]) hopen _
  · rw [exec_gatherReq, execGatherReq]
    refine cmd_eq (by simp only [hgroup, hcommit, hshard, hatt, hstep, hlayer, hpeer, decide_true, Bool.and_self]) ?_
    simp only [Bool.not_false, if_true, hopen, when_true]
  · rw [exec_gatherServe, execGatherServe]
    exact cmd_eq (decide_eq_true hlen) (by simp only [hserve] <;> rfl)

/-- Settles O37. -/
theorem borderEngineCommandsComplete : Obligations.BorderEngineCommandsComplete := by
  unfold Obligations.BorderEngineCommandsComplete
  refine ⟨fun b q os hring => ?_, fun b q os k x hk hbucket hopen hleft => ?_, fun b q os group step attempt hgroup hstep hatt hlate => ?_,
    fun b q os p channel group hp hch hgroup hopen hjoin => ?_, fun b q os p channel group hp hch hgroup hopen hjoin => ?_,
    fun b q os p r hp hch hstep hatt hmsg hvals hopen => ?_, fun b q os c hc => ?_, fun b q os c hlo hhi => ?_, fun b q os c hc => ?_,
    fun b q os c hlo hhi => ?_⟩
  · rw [exec_postTake, execPostTake]
    refine cmd_when rfl ?_ _
    exact bne_iff_ne.mpr hring
  · rw [exec_bucketDeadlineExpire, execBucketDeadlineExpire]
    exact cmd_eq hk (by simp only [hbucket, hopen, hleft, beq_self_eq_true, Bool.not_false, Bool.and_self, when_true])
  · rw [exec_groupDeadlineExpire, execGroupDeadlineExpire]
    refine cmd_when (by simp only [hgroup, hstep, hatt, decide_true, Bool.and_self]) ?_ _
    simp only [hlate, Bool.true_or]
  · rw [exec_joinAck, execJoinAck]
    exact cmd_when (by simp only [hp, hch, hgroup, decide_true, Bool.and_self]) (by simp only [hopen, hjoin, beq_self_eq_true, Bool.and_self]) _
  · rw [exec_reject, execReject]
    exact cmd_when (by simp only [hp, hch, hgroup, decide_true, Bool.and_self]) (by simp only [hopen, hjoin, beq_self_eq_true, Bool.and_self]) _
  · rw [exec_switchResult, execSwitchResult]
    exact cmd_when (by simp only [hp, hch, hstep, hatt, hmsg, hvals, decide_true, Bool.and_self]) hopen _
  · rw [exec_codecBlockEncode, execCodecBlockEncode]
    exact cmd_eq (decide_eq_true (by omega)) (if_pos hc)
  · rw [exec_codecBlockEncode, execCodecBlockEncode]
    exact cmd_eq (decide_eq_true hhi) (if_neg (by omega))
  · rw [exec_codecBlockDecode, execCodecBlockDecode]
    exact cmd_eq (decide_eq_true (by omega)) (if_pos hc)
  · rw [exec_codecBlockDecode, execCodecBlockDecode]
    exact cmd_eq (decide_eq_true hhi) (if_neg (by omega))

end Sys2Proof.Proofs
end

section
/-! SUPPORT. The far ports (R386–R410): records and timers, frames, messages, rounds and coder jobs (R377, R378). -/

namespace Sys2Proof.Proofs

open Sys2Proof.Machine Sys2Proof.Laws

/-! ## The statements -/

/-- Settles O38. -/
theorem farRecordCommandsComplete : Obligations.FarRecordCommandsComplete := by
  unfold Obligations.FarRecordCommandsComplete
  refine ⟨fun b q os h seq time turn f hok hf => ?_, fun b q os h sample hok => ?_, fun b q os h below ranges window c hok hranges hbelow hwindow hc => ?_,
    fun b q os h l hok hlen => ?_, fun b q os h r hok hr => ?_, fun b q os h ep hok hep => ?_, fun b q os peer hp hsess hdue => ?_,
    fun b q os peer rec x hp hsess hx => ?_, fun b q os now l b1 hl hb1 => ?_, fun b q os peer r b1 hp hr hsess hst hb1 => ?_,
    fun b q os peer age hp hsess hdue => ?_, fun b q os peer hp => ?_⟩
  · rw [exec_heartbeat, execHeartbeat]
    subst hf
    exact cmd_next hok _ _
  · rw [exec_echo, execEcho]
    exact cmd_next hok _ _
  · rw [exec_ack, execAck]
    subst hc
    exact cmd_next (by simp only [hok, hranges, hbelow, hwindow, decide_true, Bool.and_self]) _ _
  · rw [exec_dataRec, execDataRec]
    exact cmd_next (by simp only [hok, hlen, decide_true, Bool.and_self]) _ _
  · rw [exec_routeDown, execRouteDown]
    exact cmd_next (by simp only [hok, hr, decide_true, Bool.and_self]) _ _
  · rw [exec_keyRec, execKeyRec]
    exact cmd_next (by simp only [hok, hep, decide_true, Bool.and_self]) _ _
  · rw [exec_ackTimer, execAckTimer]
    refine cmd_when (decide_eq_true hp) ?_ _
    rw [hsess, beq_self_eq_true, Bool.true_and]
    exact bne_iff_ne.mpr hdue
  · rw [exec_resendTimeout, execResendTimeout]
    exact cmd_eq (decide_eq_true hp) (by simp only [hx, hsess, beq_self_eq_true, when_true])
  · rw [exec_heartbeatTimer, execHeartbeatTimer]
    subst hb1
    exact cmd_next hl _ _
  · rw [exec_routeLostTimeout, execRouteLostTimeout]
    subst hb1
    exact cmd_eq (by simp only [hp, hr, decide_true, Bool.and_self]) (if_pos ⟨hsess, hst⟩)
  · rw [exec_farRekeyDue, execFarRekeyDue]
    refine cmd_when (decide_eq_true hp) ?_ _
    simpa only [hsess, beq_self_eq_true, Bool.true_and, Bool.or_eq_true, decide_eq_true_eq] using hdue
  · rw [exec_farPrevKeyExpire, execFarPrevKeyExpire]
    exact cmd_next (decide_eq_true hp) _ _

/-- Settles O39. -/
theorem farEngineCommandsComplete : Obligations.FarEngineCommandsComplete := by
  unfold Obligations.FarEngineCommandsComplete
  refine ⟨fun b q os f hf => ?_, fun b q os f hf => ?_, fun b q os f hf => ?_, fun b q os f hf => ?_, fun b q os f n hf => ?_,
    fun b q os f t b1 l hf hlive hentry ht => ?_, fun b q os f t mac b1 l hf hlive hentry ht => ?_, fun b q os f lanes hf hlanes => ?_,
    fun b q os f hf hen hlink => ?_, fun b q os b1 l hserves hring hload => ?_, fun b q os b1 f hserves hring hload => ?_,
    fun b q os mid signer m hok htype hmsg hwhole hseq hwait => ?_, fun b q os mid hown hclosing hjoin => ?_, fun b q os x hclosing => ?_,
    fun b q os mid hok htype hlast hsite hkeeper hheld => ?_, fun b q os f hf => ?_, fun b q os f hf => ?_,
    fun b q os f j c d ring o b1 b2 b3 hf hjob hended ho hring hb1 hb2 hb3 => ?_⟩
  · exact (exec_farFrameDrop f _ _).trans (cmd_next (decide_eq_true hf) _ _)
  · exact (exec_farFrameDrop f _ _).trans (cmd_next (decide_eq_true hf) _ _)
  · exact (exec_farFrameDrop f _ _).trans (cmd_next (decide_eq_true hf) _ _)
  · exact (exec_farFrameDrop f _ _).trans (cmd_next (decide_eq_true hf) _ _)
  · exact (exec_farFrameDrop f _ _).trans (cmd_next (decide_eq_true hf) _ _)
  · rw [exec_neighborDiscovery, execNeighborDiscovery]
    exact cmd_eq (decide_eq_true hf) (by simp only [hlive, when_true, hentry, ht, if_true])
  · rw [exec_neighborDiscovery, execNeighborDiscovery]
    exact cmd_eq (decide_eq_true hf) (by simp only [hlive, when_true, hentry, ht, if_true])
  · rw [exec_fmacLinkDown, execFmacLinkDown]
    exact cmd_next (by simp only [hf, hlanes, decide_true, Bool.and_self]) _ _
  · rw [exec_fmacLinkUp, execFmacLinkUp]
    exact cmd_when (decide_eq_true hf) (by simp only [hen, hlink, Bool.not_false, Bool.and_self]) _
  · rw [exec_sendDescriptorTake, execSendDescriptorTake]
    refine (cmd_when rfl ?_ _).trans (by simp only [hload])
    rw [hserves, Bool.true_and]
    exact bne_iff_ne.mpr hring
  · rw [exec_sendDescriptorTake, execSendDescriptorTake]
    refine (cmd_when rfl ?_ _).trans (by simp only [hload])
    rw [hserves, Bool.true_and]
    exact bne_iff_ne.mpr hring
  · rw [exec_manifest, execManifest]
    refine cmd_eq (by simp only [hok, htype, beq_self_eq_true, Bool.and_self]) ?_
    simp only [hmsg, hwhole, hseq, hwait, Option.isNone_none, Bool.not_false, Bool.and_self, when_true]
  · rw [exec_manifestCloseTimeout, execManifestCloseTimeout]
    exact cmd_eq rfl (by simp only [hown, hclosing, hjoin, Bool.false_eq_true, if_false])
  · rw [exec_manifestSigned, execManifestSigned]
    exact cmd_eq rfl (by simp only [hclosing])
  · rw [exec_fetchWaitExpire, execFetchWaitExpire]
    refine cmd_when (by simp only [hok, htype, beq_self_eq_true, Bool.and_self]) ?_ _
    simp only [hlast, bne_iff_ne.mpr hsite, bne_iff_ne.mpr hkeeper, Bool.and_self, Bool.true_and, Bool.not_eq_true']
    exact hheld
  · exact (exec_fcodEncode f _).trans (cmd_next (decide_eq_true hf) _ _)
  · exact (exec_fcodDecode f _).trans (cmd_next (decide_eq_true hf) _ _)
  · rw [exec_fcodJobEnd, execFcodJobEnd]
    subst hb3 hb2 hb1 hring ho
    exact cmd_eq (decide_eq_true hf) (by simp only [hjob, hended, Blk.jobEnd] <;> rfl)

end Sys2Proof.Proofs
end

section
/-! SUPPORT. Supply, alert, controller and heat (R412–R435), start-up and the resets (R437–R445, R492, R493), tests and port images (R446, R452, R453). -/

namespace Sys2Proof.Proofs

open Sys2Proof.Machine Sys2Proof.Laws

/-- A leak that TEL_STATUS does not show yet is shown, with its event (R433). -/
theorem leakShow_new {b : Blk} (hpin : b.pwr.leakPin = true) (hleak : b.on R.TEL_STATUS_LEAK = false) :
    b.leakShow = ((b.wr R.TEL_STATUS_LEAK 1).event .tel 20).stateEvents :=
  if_pos (by rw [hpin, hleak, Bool.not_false, Bool.and_self])

/-! ## The statements -/

/-- Settles O40. -/
theorem powerCommandsComplete : Obligations.PowerCommandsComplete := by
  unfold Obligations.PowerCommandsComplete
  refine ⟨fun b q os v b1 hwarn hdraw => ?_, fun b q os hwarn => ?_, fun b q os hwarn hrun => ?_, fun b q os => ?_, fun b q os v b1 hpin hstage hheld hdraw => ?_,
    fun b q os hpin hwhy => ?_, fun b q os halert => ?_, fun b q os mw hi lo slow m hfast hup hhi hlo hm hslow => ?_, fun b q os x m n htrust hn hfew => ?_,
    fun b q os x m htrust hbad hmany => ?_, fun b q os x m n htrust hn => ?_, fun b q os d hd => ?_, fun b q os k hk hlive => ?_,
    fun b q os t out hout => ?_, fun b q os b1 hpin hleak hb1 => ?_, fun b q os => ?_⟩
  · rw [exec_supplyWarn, execSupplyWarn]
    exact cmd_eq rfl (by simp only [hwarn, Bool.false_eq_true, if_false, hdraw])
  · rw [exec_supplyRecover, execSupplyRecover]
    exact cmd_when rfl hwarn _
  · rw [exec_warningRelease, execWarningRelease]
    exact cmd_when rfl (by rw [hwarn, hrun, Bool.and_self]) _
  · rw [exec_bubbleRamp, execBubbleRamp]
    exact cmd_next rfl _ _
  · rw [exec_pwrAlert, execPwrAlert]
    refine (cmd_when rfl (by rw [hpin, Bool.not_false]) _).trans ?_
    have hstands : ¬(b.boot.stage < 2 ∨ b.boot.refHeld = true) := not_or.mpr ⟨Nat.not_lt.mpr hstage, by rw [hheld]; exact Bool.false_ne_true⟩
    simp only [if_neg hstands, Blk.alertIn, hdraw]
  · rw [exec_pwrAlert, execPwrAlert]
    exact (cmd_when rfl (by rw [hpin, Bool.not_false]) _).trans (by simp only [if_pos hwhy])
  · rw [exec_alertRelease, execAlertRelease]
    exact cmd_eq rfl (by simp only [halert, if_true])
  · rw [exec_fastLoop, execFastLoop]
    subst hslow hm hlo hhi
    exact cmd_when rfl (by rw [hfast, hup, Bool.and_self]) _
  · rw [exec_estimateCompare, execEstimateCompare]
    refine cmd_eq rfl ?_
    simp only [htrust, Bool.false_eq_true, if_false, decide_eq_true_eq, ← hn, ge_iff_le, Nat.not_le.mpr hfew]
  · rw [exec_estimateCompare, execEstimateCompare]
    have hten : 10 ≤ b.pwr.bad + 1 := by omega
    refine cmd_eq rfl ?_
    simp only [htrust, Bool.false_eq_true, if_false, decide_eq_true_eq, if_pos hbad, ge_iff_le, hten, if_true]
  · rw [exec_estimateCompare, execEstimateCompare]
    refine cmd_eq rfl ?_
    simp only [htrust, if_true, decide_eq_true_eq, ← hn, ge_iff_le]
  · rw [exec_thermalCountStep, execThermalCountStep]
    exact cmd_next (decide_eq_true hd) _ _
  · rw [exec_sensorStop, execSensorStop]
    exact cmd_when (decide_eq_true hk) (by rw [hlive, Bool.not_false]) _
  · rw [exec_inletSensorReading, execInletSensorReading]
    subst hout
    refine cmd_eq rfl ?_
    simp only [apply_ite Blk.stateEvents]
  · rw [exec_coolantLeak, execCoolantLeak]
    have hpin1 : b1.pwr.leakPin = true := by rw [hb1]
    have hleak1 : b1.on R.TEL_STATUS_LEAK = false := by rw [hb1]; exact hleak
    refine (cmd_when rfl (by rw [hpin, Bool.not_false]) _).trans ?_
    rw [← hb1, leakShow_new hpin1 hleak1]
  · rw [exec_coolantLeakDeassert, execCoolantLeakDeassert]
    exact cmd_next rfl _ _

/-- Settles O41. -/
theorem bootCommandsComplete : Obligations.BootCommandsComplete := by
  unfold Obligations.BootCommandsComplete
  refine ⟨fun b q os => ?_, fun b q os => ?_, fun b q os => ?_, fun b q os => ?_, fun b q os => ?_, fun b q os hheld => ?_,
    fun b q os l ok b1 b2 hstage hheld hb1 hb2 => ?_, fun b q os hown hzero hwarm hheld => ?_, fun b q os hlo hhi hwarm => ?_, fun b q os => ?_,
    fun b q os row unit ok us x b1 b2 b3 hrow hx hb1 hb2 hb3 => ?_, fun b q os => ?_, fun b q os hwarm htrip => ?_, fun b q os k t full b1 hk hb1 => ?_,
    fun b q os htrip hcool => ?_⟩
  · rw [exec_powerOn, execPowerOn]
    exact cmd_next rfl _ _
  · rw [exec_rstN, execRstN]
    exact cmd_next rfl _ _
  · rw [exec_brownOut, execBrownOut]
    exact cmd_next rfl _ _
  · rw [exec_overVoltage, execOverVoltage]
    exact cmd_next rfl _ _
  · rw [exec_refclkLoss, execRefclkLoss]
    exact cmd_next rfl _ _
  · rw [exec_refclkReturn, execRefclkReturn]
    exact cmd_when rfl hheld _
  · rw [exec_powerGood, execPowerGood]
    subst hb2 hb1
    exact cmd_when rfl (by rw [hstage, hheld, beq_self_eq_true, Bool.not_false, Bool.and_self]) _
  · rw [exec_baseStageEnd, execBaseStageEnd]
    refine cmd_when rfl ?_ _
    simp only [bne_iff_ne.mpr hown, hzero, hwarm, hheld, Option.isNone_none, Bool.not_false, Bool.and_self]
  · rw [exec_baseStageTimeout, execBaseStageTimeout]
    exact cmd_when rfl (by rw [decide_eq_true hlo, decide_eq_true hhi, hwarm, Bool.not_false, Bool.and_self, Bool.and_self]) _
  · rw [exec_bootDecision, execBootDecision]
    exact cmd_next rfl _ _
  · rw [exec_bootStepEnd, execBootStepEnd]
    exact cmd_eq (decide_eq_true hrow) (by simp only [hx, hb3, hb2, hb1])
  · rw [exec_warmN, execWarmN]
    exact cmd_next rfl _ _
  · rw [exec_warmStart, execWarmStart]
    exact cmd_when rfl (by rw [hwarm, htrip, Bool.not_false, Bool.and_self]) _
  · rw [exec_sensorReading, execSensorReading]
    exact cmd_eq (decide_eq_true hk) (by simp only [hb1])
  · rw [exec_tripRelease, execTripRelease]
    refine cmd_when rfl ?_ _
    rw [htrip, Bool.true_and]
    exact hcool

/-- Settles O42. -/
theorem repairCommandsComplete : Obligations.RepairCommandsComplete := by
  unfold Obligations.RepairCommandsComplete
  refine ⟨fun b q os kind inst passed inRange t hkind ht hrange hagain => ?_, fun b q os kind inst passed t b1 hkind ht hb1 => ?_,
    fun b q os kind k hkind hact hstage hwarm hown hsettled hk hquiet => ?_, fun b q os kind hkind htrying => ?_,
    fun b q os kind hkind htrying hunits hne => ?_, fun b q os htrying hunits hbusy => ?_⟩
  · rw [exec_bistComplete, execBistComplete]
    exact cmd_eq (decide_eq_true hkind) (by simp only [ht, hrange, hagain, Bool.not_false, Bool.and_self, if_true])
  · rw [exec_bistComplete, execBistComplete]
    subst hb1
    exact cmd_eq (decide_eq_true hkind) (by simp only [ht, Bool.not_true, Bool.false_and, Bool.false_eq_true, if_false])
  · rw [exec_portFwActivate, execPortFwActivate]
    refine cmd_eq (by obtain rfl | rfl := hkind <;> rfl) ?_
    simp only [if_true, hact, hstage, hwarm, bne_iff_ne.mpr hown, hsettled, hk, hquiet, beq_self_eq_true, Bool.not_false, Bool.and_self, when_true]
  · rw [exec_portFwActivate, execPortFwActivate]
    refine cmd_eq (by obtain rfl | rfl := hkind <;> rfl) ?_
    simp only [Bool.false_eq_true, if_false, htrying, decide_true, when_true]
  · rw [exec_imageReadyPoint, execImageReadyPoint]
    refine cmd_eq (decide_eq_true hkind) ?_
    simp only [htrying, hunits, bne_iff_ne.mpr hne, hne, decide_true, Bool.true_or, Bool.and_self, when_true, if_false]
  · rw [exec_imageReadyPoint, execImageReadyPoint]
    refine cmd_eq rfl ?_
    simp only [htrying, hunits, hbusy, decide_true, Bool.or_true, Bool.and_self, when_true, if_true]

end Sys2Proof.Proofs
end

section
/-! SUPPORT. The lid's tokens, service and zeroisation (R45–R48, R58–R62, R70–R77, R508) and Rakline's link, sessions and channels (R461–R475). -/

namespace Sys2Proof.Proofs

open Sys2Proof.Machine Sys2Proof.Laws

/-! ## The bulk channel (R469) -/

/-- A BULK frame that need not wait is taken. -/
theorem bulkFrame_free {b : Blk} {m : BulkIn} (hfree : b.bulkHolds m = false) : b.bulkFrame m = b.bulkTake m :=
  if_neg (by rw [hfree]; exact Bool.false_ne_true)

/-! ## The statements -/

/-- Settles O43. -/
theorem lidCommandsComplete : Obligations.LidCommandsComplete := by
  unfold Obligations.LidCommandsComplete
  refine ⟨fun b q os tok hopen hown hzero harm htok => ?_, fun b q os tok hopen hown htok => ?_, fun b q os tok hopen hown htok => ?_,
    fun b q os tok hopen hown htok => ?_, fun b q os tok hup hfrom hvalid => ?_, fun b q os tok hopen hfrom hvalid => ?_, fun b q os hup hfrom => ?_,
    fun b q os => ?_, fun b q os => ?_, fun b q os hown => ?_, fun b q os => ?_, fun b q os => ?_, fun b q os harm => ?_, fun b q os harm hleft => ?_,
    fun b q os d hd hbit => ?_, fun b q os x b1 b2 htemps hloads hheld hb1 hb2 => ?_⟩
  · rw [exec_ownerClaim, execOwnerClaim]
    exact (cmd_when rfl hopen _).trans (by simp only [hown, hzero, harm, htok, and_self, if_true])
  · rw [exec_ownerRelease, execOwnerRelease]
    exact (cmd_when rfl hopen _).trans (by simp only [if_pos (And.intro hown htok)])
  · rw [exec_debugOpen, execDebugOpen]
    exact (cmd_when rfl hopen _).trans (by simp only [if_pos (And.intro hown htok)])
  · rw [exec_firmwareApproval, execFirmwareApproval]
    exact (cmd_when rfl hopen _).trans (by simp only [if_pos (And.intro hown htok)])
  · rw [exec_serviceToken, execServiceToken]
    exact cmd_eq rfl (by simp only [hup, hfrom, hvalid, Bool.and_self, if_true, when_true])
  · rw [exec_serviceToken, execServiceToken]
    exact cmd_eq rfl (by simp only [hopen, hfrom, hvalid, Bool.and_self, Bool.false_eq_true, if_false, if_true, when_true])
  · rw [exec_serviceConsent, execServiceConsent]
    exact (cmd_when rfl hup _).trans (by simp only [hfrom, if_true])
  · rw [exec_serviceHoldLapse, execServiceHoldLapse]
    exact cmd_next rfl _ _
  · rw [exec_serviceHoldLapse, execServiceHoldLapse]
    exact cmd_next rfl _ _
  · rw [exec_serviceExit, execServiceExit]
    exact cmd_eq rfl (if_pos hown)
  · rw [exec_zeroiseQuiesceEnd, execZeroiseQuiesceEnd]
    exact cmd_next rfl _ _
  · rw [exec_zeroiseMediaDone, execZeroiseMediaDone]
    exact cmd_next rfl _ _
  · rw [exec_claimWindowExpire, execClaimWindowExpire]
    exact cmd_when rfl harm _
  · rw [exec_claimLeftTick, execClaimLeftTick]
    exact cmd_when rfl (by rw [harm, decide_eq_true hleft, Bool.and_self]) _
  · rw [exec_domainKeyInstalled, execDomainKeyInstalled]
    exact cmd_when (decide_eq_true hd) hbit _
  · rw [exec_sanitisedWindowEnd, execSanitisedWindowEnd]
    refine (cmd_when (by rw [htemps, hloads, beq_self_eq_true, beq_self_eq_true, Bool.and_self]) (by rw [hheld, Bool.not_false]) _).trans ?_
    simp only [hb2, hb1]

/-- Settles O44. -/
theorem raklineCommandsComplete : Obligations.RaklineCommandsComplete := by
  unfold Obligations.RaklineCommandsComplete
  refine ⟨fun b q os hruns hlink => ?_, fun b q os hlink => ?_, fun b q os hlink hunacked => ?_, fun b q os n hn hlink => ?_, fun b q os hlink => ?_,
    fun b q os h tagOk m b1 hok hlink hb1 hdrops => ?_, fun b q os h tagOk m b1 hok hlink hb1 hdrops => ?_, fun b q os h tagOk m hok hlink => ?_,
    fun b q os nonce hnonce hopen => ?_, fun b q os nonce hnonce hup => ?_, fun b q os hopen => ?_, fun b q os hup => ?_, fun b q os hopen => ?_,
    fun b q os key nonce keyHash sigOk b1 body ct hopen hb1 hsession hbody hct => ?_, fun b q os m o hm hup hform ho => ?_,
    fun b q os m o hm hup hform ho => ?_, fun b q os m hm hup => ?_, fun b q os m hm hup => ?_, fun b q os m hm hup hfree => ?_,
    fun b q os m hm hup hfree => ?_, fun b q os m hm hup hfree => ?_, fun b q os k x hk hx hmoved => ?_, fun b q os data hlen hup => ?_,
    fun b q os data hlen hup => ?_⟩
  · rw [exec_raklineLight, execRaklineLight]
    refine cmd_when rfl ?_ _
    rw [hruns, Bool.true_and]
    exact bne_iff_ne.mpr hlink
  · rw [exec_raklineLinkLoss, execRaklineLinkLoss]
    exact cmd_when rfl (by rw [hlink, beq_self_eq_true]) _
  · rw [exec_raklineAckTimer, execRaklineAckTimer]
    exact cmd_when rfl (by rw [hlink, decide_eq_true hunacked, beq_self_eq_true, Bool.and_self]) _
  · rw [exec_raklineNak, execRaklineNak]
    exact cmd_when (decide_eq_true hn) (by rw [hlink, beq_self_eq_true]) _
  · rw [exec_raklineReplayTimeout, execRaklineReplayTimeout]
    exact cmd_when rfl (by rw [hlink, beq_self_eq_true]) _
  · rw [exec_raklineFrame, execRaklineFrame]
    refine (cmd_when hok (by rw [hlink, beq_self_eq_true]) _).trans ?_
    simp only [← hb1, hdrops, Bool.not_true, Bool.false_eq_true, if_false]
  · rw [exec_raklineFrame, execRaklineFrame]
    refine (cmd_when hok (by rw [hlink, beq_self_eq_true]) _).trans ?_
    simp only [← hb1, hdrops, Bool.not_true, Bool.false_eq_true, if_false, if_true]
  · rw [exec_raklineFrame, execRaklineFrame]
    refine (cmd_when hok (by rw [hlink, beq_self_eq_true]) _).trans ?_
    simp only [Bool.not_false, if_true]
  · rw [exec_getQuote, execGetQuote]
    exact cmd_eq (decide_eq_true hnonce) (by simp only [hopen, Bool.false_eq_true, if_false, when_true])
  · rw [exec_getQuote, execGetQuote]
    exact cmd_eq (decide_eq_true hnonce) (by simp only [hup, if_true, when_true])
  · rw [exec_getCerts, execGetCerts]
    exact cmd_eq rfl (by simp only [hopen, Bool.false_eq_true, if_false, when_true])
  · rw [exec_getCerts, execGetCerts]
    exact cmd_eq rfl (by simp only [hup, if_true, when_true])
  · rw [exec_getNonce, execGetNonce]
    exact cmd_when rfl hopen _
  · rw [exec_sessionInit, execSessionInit]
    refine (cmd_when rfl hopen _).trans ?_
    simp only [← hb1, hsession, if_true, ← hbody, ← hct]
  · rw [exec_regRead, execRegRead]
    refine (cmd_when hm hup _).trans ?_
    simp only [hform, if_true, ← ho]
  · rw [exec_regWrite, execRegWrite]
    refine (cmd_when hm hup _).trans ?_
    simp only [hform, if_true, ← ho]
  · rw [exec_regWarmReset, execRegWarmReset]
    exact cmd_when hm hup _
  · rw [exec_regShutdown, execRegShutdown]
    exact cmd_when hm hup _
  · rw [exec_bulkWrite, execBulkWrite]
    exact (cmd_when hm hup _).trans (by rw [bulkFrame_free hfree]; rfl)
  · rw [exec_bulkRead, execBulkRead]
    exact (cmd_when hm hup _).trans (by rw [bulkFrame_free hfree]; rfl)
  · rw [exec_bulkData, execBulkData]
    exact (cmd_when hm hup _).trans (by rw [bulkFrame_free hfree]; rfl)
  · rw [exec_bulkTransferEnd, execBulkTransferEnd]
    exact cmd_eq (decide_eq_true hk) (by simp only [hx, hmoved, beq_self_eq_true, when_true])
  · rw [exec_console, execConsole]
    exact (cmd_when (decide_eq_true hlen) hup _).trans (by simp only [if_true])
  · rw [exec_console, execConsole]
    exact (cmd_when (decide_eq_true hlen) hup _).trans (by simp only [Bool.false_eq_true, if_false])

end Sys2Proof.Proofs
end

section
/-! SUPPORT. The management plane (R476–R483): addresses and identity, sensors and effecters, platform events, and the order of a firmware update (R479). -/

namespace Sys2Proof.Proofs

open Sys2Proof.Machine Sys2Proof.Laws

section

variable {b b' : Blk} {q : List Instr} {os : List Obs} {ok : Bool} {f : Blk → Blk}

/-- A well-formed request while the management plane answers. -/
theorem cmd_request (hok : ok = true) (hup : b.mgmtUp = true) (hf : f b = b') : cmd ok ⟨b, q, os⟩ (fun b => b.request f) = .next ⟨b', q, os⟩ :=
  cmd_eq hok (by rw [Blk.request, hup, when_true, hf])

end

/-- The sensors of the sanitised classes (R480). -/
theorem classSensor_of_mem {id : Nat} (hlo : 0x0201 ≤ id) (hhi : id ≤ 0x0211) : classSensor id = true := by
  rw [classSensor, decide_eq_true hlo, decide_eq_true hhi, Bool.and_self]

/-- The PLDM types that the module supports, and only those (R478). -/
theorem pldmTypes_contains {type : Nat} : pldmTypes.contains type = true ↔ type = 0 ∨ type = 2 ∨ type = 5 := by
  simp only [pldmTypes, List.contains_eq_mem, List.mem_cons, List.not_mem_nil, or_false, decide_eq_true_eq]

/-- The supported types have codes below 64. -/
theorem pldmType_lt {type : Nat} (h : type = 0 ∨ type = 2 ∨ type = 5) : type < 64 := by omega

/-! ## The statements -/

/-- Settles O45. -/
theorem mgmtEndpointCommandsComplete : Obligations.MgmtEndpointCommandsComplete := by
  unfold Obligations.MgmtEndpointCommandsComplete
  refine ⟨fun b q os addr ha hup => ?_, fun b q os eid he hup => ?_, fun b q os hup => ?_, fun b q os hup => ?_, fun b q os type ht hup => ?_,
    fun b q os hup => ?_, fun b q os hup => ?_, fun b q os k hk hne hup => ?_, fun b q os hup => ?_, fun b q os tid ht hup => ?_,
    fun b q os type ht hup => ?_, fun b q os type ht h0 h2 h5 hup => ?_, fun b q os hup => ?_, fun b q os type ht hup => ?_, fun b q os hup => ?_,
    fun b q os id k hid hkind hup => ?_, fun b q os id hid hkind hup => ?_, fun b q os hup => ?_, fun b q os hup => ?_⟩
  · rw [exec_i3cEntdaa, execI3cEntdaa]
    exact cmd_request (decide_eq_true ha) hup rfl
  · rw [exec_setEndpointId, execSetEndpointId]
    exact cmd_request (decide_eq_true he) hup rfl
  · rw [exec_getEndpointId, execGetEndpointId]
    exact cmd_request rfl hup rfl
  · rw [exec_getEndpointUuid, execGetEndpointUuid]
    exact cmd_request rfl hup rfl
  · rw [exec_getMctpVersionSupport, execGetMctpVersionSupport]
    exact cmd_request (decide_eq_true ht) hup rfl
  · rw [exec_getMessageTypeSupport, execGetMessageTypeSupport]
    exact cmd_request rfl hup rfl
  · rw [exec_getVendorDefinedMessageSupport, execGetVendorDefinedMessageSupport]
    exact cmd_request rfl hup (if_pos rfl)
  · rw [exec_getVendorDefinedMessageSupport, execGetVendorDefinedMessageSupport]
    exact cmd_request (decide_eq_true hk) hup (if_neg hne)
  · rw [exec_getTid, execGetTid]
    exact cmd_request rfl hup rfl
  · rw [exec_setTid, execSetTid]
    exact cmd_request (decide_eq_true ht) hup rfl
  · rw [exec_getPldmVersion, execGetPldmVersion]
    exact cmd_request (decide_eq_true (pldmType_lt ht)) hup (if_pos (pldmTypes_contains.mpr ht))
  · rw [exec_getPldmVersion, execGetPldmVersion]
    have hnone : ¬pldmTypes.contains type = true := fun h => by
      have hmem := pldmTypes_contains.mp h
      omega
    exact cmd_request (decide_eq_true ht) hup (if_neg hnone)
  · rw [exec_getPldmTypes, execGetPldmTypes]
    exact cmd_request rfl hup rfl
  · rw [exec_getPldmCommands, execGetPldmCommands]
    exact cmd_request (decide_eq_true (pldmType_lt ht)) hup (if_pos (pldmTypes_contains.mpr ht))
  · rw [exec_getPdrRepositoryInfo, execGetPdrRepositoryInfo]
    exact cmd_request rfl hup rfl
  · rw [exec_getPdr, execGetPdr]
    exact cmd_request (decide_eq_true hid) hup (by simp only [hkind])
  · rw [exec_getPdr, execGetPdr]
    exact cmd_request (decide_eq_true hid) hup (by simp only [hkind, Blk.mgmtBad])
  · rw [exec_queryDeviceIdentifiers, execQueryDeviceIdentifiers]
    exact cmd_request rfl hup rfl
  · rw [exec_getFirmwareParameters, execGetFirmwareParameters]
    exact cmd_request rfl hup rfl

/-- Settles O46. -/
theorem mgmtSensorCommandsComplete : Obligations.MgmtSensorCommandsComplete := by
  unfold Obligations.MgmtSensorCommandsComplete
  refine ⟨fun b q os id hlo hhi hup => ?_, fun b q os id f hid hclass hnum hup => ?_, fun b q os id hid hclass hnum hup => ?_,
    fun b q os id f b' v hid hfld hread hup => ?_, fun b q os id f b' c hid hfld hread hup => ?_, fun b q os v hv hup => ?_, fun b q os v hv hup => ?_,
    fun b q os v hv hup => ?_, fun b q os v hv hup => ?_, fun b q os hup => ?_, fun b q os hup => ?_, fun b q os hup => ?_, fun b q os hup => ?_,
    fun b q os hup => ?_, fun b q os hup => ?_, fun b q os hup => ?_, fun b q os hup => ?_, fun b q os eid he hup => ?_, fun b q os k x hk hx hup => ?_⟩
  · rw [exec_getSensorReading, execGetSensorReading]
    exact cmd_request (decide_eq_true (by omega)) hup (if_pos (classSensor_of_mem hlo hhi))
  · rw [exec_getSensorReading, execGetSensorReading]
    exact cmd_request (decide_eq_true hid) hup (by simp only [hclass, hnum, Bool.false_eq_true, if_false])
  · rw [exec_getSensorReading, execGetSensorReading]
    exact cmd_request (decide_eq_true hid) hup (by simp only [hclass, hnum, Bool.false_eq_true, if_false, Blk.mgmtBad])
  · rw [exec_getStateSensorReadings, execGetStateSensorReadings]
    exact cmd_request (decide_eq_true hid) hup (by simp only [hfld, hread])
  · rw [exec_getStateSensorReadings, execGetStateSensorReadings]
    exact cmd_request (decide_eq_true hid) hup (by simp only [hfld, hread])
  · exact (exec_setNumericEffecterValue _ v _).trans (cmd_request (Bool.and_eq_true_iff.mpr ⟨rfl, decide_eq_true (by omega)⟩) hup (if_pos hv))
  · exact (exec_setNumericEffecterValue _ v _).trans (cmd_request (Bool.and_eq_true_iff.mpr ⟨rfl, decide_eq_true (by omega)⟩) hup (if_pos hv))
  · exact (exec_setNumericEffecterValue _ v _).trans (cmd_request (Bool.and_eq_true_iff.mpr ⟨rfl, decide_eq_true (by omega)⟩) hup (if_pos hv))
  · exact (exec_setNumericEffecterValue _ v _).trans (cmd_request (Bool.and_eq_true_iff.mpr ⟨rfl, decide_eq_true (by omega)⟩) hup (if_pos hv))
  · exact (exec_getNumericEffecterValue _ _).trans (cmd_request rfl hup rfl)
  · exact (exec_getNumericEffecterValue _ _).trans (cmd_request rfl hup rfl)
  · exact (exec_getNumericEffecterValue _ _).trans (cmd_request rfl hup rfl)
  · exact (exec_setStateEffecterStates _ _ _).trans (cmd_request rfl hup rfl)
  · exact (exec_setStateEffecterStates _ _ _).trans (cmd_request rfl hup rfl)
  · exact (exec_setStateEffecterStates _ _ _).trans (cmd_request rfl hup rfl)
  · exact (exec_getStateEffecterStates _ _).trans (cmd_request rfl hup rfl)
  · exact (exec_getStateEffecterStates _ _).trans (cmd_request rfl hup rfl)
  · rw [exec_setEventReceiver, execSetEventReceiver]
    exact cmd_request (decide_eq_true he) hup rfl
  · rw [exec_platformEventAck, execPlatformEventAck]
    exact (cmd_when (decide_eq_true hk) hup _).trans (by simp only [hx])

/-- Settles O47. -/
theorem firmwareUpdateCommandsComplete : Obligations.FirmwareUpdateCommandsComplete := by
  unfold Obligations.FirmwareUpdateCommandsComplete
  refine ⟨fun b q os hst hup => ?_, fun b q os l hst hne hkinds hup => ?_, fun b q os kind hk hst hcomp hup => ?_,
    fun b q os im k ok m b0 b1 hst hcur hok hm hb0 hb1 hup => ?_, fun b q os hst hidle hup => ?_, fun b q os hup => ?_, fun b q os hst hup => ?_,
    fun b q os hlo hhi hup => ?_⟩
  · rw [exec_requestUpdate, execRequestUpdate]
    exact cmd_request rfl hup (if_pos hst)
  · rw [exec_passComponentTable, execPassComponentTable]
    exact cmd_request rfl hup (by simp only [hst, hne, hkinds, ne_eq, not_true_eq_false, Bool.false_eq_true, or_self, if_false])
  · rw [exec_updateComponent, execUpdateComponent]
    have horder : ¬(b.mgmt.upd ≠ 2 ∧ b.mgmt.upd ≠ 4) := by omega
    exact cmd_request (decide_eq_true hk) hup (by simp only [if_neg horder, hcomp, Bool.not_true, Bool.false_eq_true, if_false])
  · rw [exec_verifyComplete, execVerifyComplete]
    refine (cmd_when rfl (by rw [hup, hst, beq_self_eq_true, Bool.and_self]) _).trans ?_
    simp only [hcur, ← hok, ← hm, ← hb0, ← hb1]
  · rw [exec_activateFirmware, execActivateFirmware]
    exact cmd_request rfl hup (by simp only [hst, hidle, ne_eq, not_true_eq_false, Bool.false_eq_true, or_self, if_false])
  · rw [exec_getStatus, execGetStatus]
    exact cmd_request rfl hup rfl
  · rw [exec_cancelUpdateComponent, execCancelUpdateComponent]
    exact cmd_request rfl hup (if_pos hst)
  · rw [exec_cancelUpdate, execCancelUpdate]
    exact cmd_request rfl hup (if_pos ⟨hlo, hhi⟩)

end Sys2Proof.Proofs
end

section
/-! SUPPORT. The first error of a page stands until it is armed again (R86, R91), and the state after reset (R7). -/

namespace Sys2Proof.Proofs

open Sys2Proof.Machine Sys2Proof.Laws

section

variable (b : Blk)

/-- Fields of one page at different places are different registers. -/
theorem rd_wr_elsewhere {f g : Fld} (v i : Nat) (hp : g.page = f.page) (hs : g.shared = f.shared) (h : g.off * 32 + g.lo ≠ f.off * 32 + f.lo) :
    (b.wr f v i).rd g i = b.rd g i := by
  refine rd_wr_other b f g v i i ?_
  simp only [Fld.key, hp, hs]
  omega

/-- While ERROR stands, a further error touches PG_ERR_INFO3 alone. -/
theorem capture_later_rd {p : Page} {i : Nat} (e : Err) (h : b.on (R.PG_EVENT_ERROR p) i = true) {g : Fld} (hp : g.page = p) (hs : g.shared = false)
    (hw : g.off * 32 + g.lo < 0x02C * 32) : (b.capture p i e).rd g i = b.rd g i := by
  have hlast : g.off * 32 + g.lo ≠ 0x02C * 32 + 16 := by omega
  have hmore : g.off * 32 + g.lo ≠ 0x02C * 32 + 0 := by omega
  rw [Blk.capture, if_pos h, rd_wr_elsewhere _ _ _ hp hs hlast]
  exact rd_wr_elsewhere b _ i hp hs hmore

/-- A counter that saturates reads its raised value. -/
theorem add_rd_same (f : Fld) (n i : Nat) : (b.add f n i).rd f i = min (b.rd f i + n) f.max := by
  have hpos : 0 < 2 ^ f.w := Nat.two_pow_pos f.w
  have hfits : min (b.rd f i + n) f.max < 2 ^ f.w := lt_of_le_of_lt (min_le_right _ _) (by rw [Fld.max]; omega)
  rw [Blk.add, rd_wr_same, Nat.mod_eq_of_lt hfits]

/-- A later error is named and counted in PG_ERR_INFO3. -/
theorem capture_later_last {p : Page} {i : Nat} {e : Err} (h : b.on (R.PG_EVENT_ERROR p) i = true) (hcls : e.cls < 256) :
    (b.capture p i e).rd (R.PG_ERR_INFO3_LAST p) i = e.cls := by
  rw [Blk.capture, if_pos h, rd_wr_same]
  exact Nat.mod_eq_of_lt hcls

theorem capture_later_more {p : Page} {i : Nat} (e : Err) (h : b.on (R.PG_EVENT_ERROR p) i = true) :
    (b.capture p i e).rd (R.PG_ERR_INFO3_MORE p) i = min (b.rd (R.PG_ERR_INFO3_MORE p) i + 1) (R.PG_ERR_INFO3_MORE p).max := by
  have hne : (R.PG_ERR_INFO3_MORE p).off * 32 + (R.PG_ERR_INFO3_MORE p).lo ≠ (R.PG_ERR_INFO3_LAST p).off * 32 + (R.PG_ERR_INFO3_LAST p).lo := by
    simp [R.PG_ERR_INFO3_MORE, R.PG_ERR_INFO3_LAST]
  rw [Blk.capture, if_pos h]
  refine (rd_wr_elsewhere (f := R.PG_ERR_INFO3_LAST p) (g := R.PG_ERR_INFO3_MORE p) _ _ i rfl rfl hne).trans ?_
  exact add_rd_same b _ 1 i

/-- The fields of a first error, in the order of their places, with the values they take (R86). -/
def firstError (p : Page) (e : Err) : List (Fld × Nat) :=
  [(R.PG_ERR_FIRST_CLASS p, e.cls), (R.PG_ERR_FIRST_STEP p, e.step.getD 0), (R.PG_ERR_INFO0 p, e.info0), (R.PG_ERR_INFO1 p, e.info1), (R.PG_ERR_INFO2 p, e.info2)]

/-- Fields of one page at different places, written one after another, read what was written. -/
theorem rd_writes {l : List (Fld × Nat)} {p : Page} {i : Nat} (hp : ∀ x ∈ l, x.1.page = p ∧ x.1.shared = false)
    (hl : (l.map (fun x => x.1.off * 32 + x.1.lo)).Nodup) {g : Fld} {v : Nat} (hg : (g, v) ∈ l) :
    (l.foldl (fun (b : Blk) x => b.wr x.1 x.2 i) b).rd g i = v % 2 ^ g.w := by
  induction l using List.reverseRecOn with
  | nil => exact absurd hg List.not_mem_nil
  | append_singleton l x ih =>
    rw [List.foldl_append, List.foldl_cons, List.foldl_nil]
    rw [List.map_append, List.nodup_append] at hl
    obtain ⟨hnodup, -, hne⟩ := hl
    rcases List.mem_append.mp hg with hin | hlast
    · have hslot := hne _ (List.mem_map_of_mem hin) _ (List.mem_map_of_mem (List.mem_singleton_self x))
      obtain ⟨hgp, hgs⟩ := hp _ (List.mem_append_left _ hin)
      obtain ⟨hxp, hxs⟩ := hp x (List.mem_append_right _ (List.mem_singleton_self x))
      rw [rd_wr_elsewhere _ _ _ (hgp.trans hxp.symm) (hgs.trans hxs.symm) hslot]
      exact ih (fun y hy => hp y (List.mem_append_left _ hy)) hnodup hin
    · rw [← List.mem_singleton.mp hlast]
      exact rd_wr_same _ g v i

theorem capture_first {p : Page} {i : Nat} {e : Err} (h : b.on (R.PG_EVENT_ERROR p) i = false) {g : Fld} {v : Nat} (hg : (g, v) ∈ firstError p e) :
    (b.capture p i e).rd g i = v % 2 ^ g.w := by
  have hwrites : b.capture p i e = (firstError p e).foldl (fun (b : Blk) x => b.wr x.1 x.2 i) b := by rw [Blk.capture, h]; rfl
  rw [hwrites]
  exact rd_writes (p := p) b (by simp [firstError, R.PG_ERR_FIRST_CLASS, R.PG_ERR_FIRST_STEP, R.PG_ERR_INFO0, R.PG_ERR_INFO1, R.PG_ERR_INFO2])
    (by simp [firstError, R.PG_ERR_FIRST_CLASS, R.PG_ERR_FIRST_STEP, R.PG_ERR_INFO0, R.PG_ERR_INFO1, R.PG_ERR_INFO2]) hg

end

/-- Settles O59: `capture` writes PG_ERR_INFO3 alone while ERROR stands, and the five fields of the first error otherwise. -/
theorem firstErrorsStandUntilRearmed : Obligations.FirstErrorsStandUntilRearmed := by
  intro b p i e hcls
  refine ⟨fun h => ?_, fun h => ?_⟩
  · have stands : ∀ g : Fld, g.page = p → g.shared = false → g.off * 32 + g.lo < 0x02C * 32 → (b.capture p i e).rd g i = b.rd g i :=
      fun _ => capture_later_rd b e h
    exact ⟨stands _ rfl rfl (by simp [R.PG_ERR_FIRST_CLASS]), stands _ rfl rfl (by simp [R.PG_ERR_FIRST_STEP]), stands _ rfl rfl (by simp [R.PG_ERR_INFO0]),
      stands _ rfl rfl (by simp [R.PG_ERR_INFO1]), stands _ rfl rfl (by simp [R.PG_ERR_INFO2]), capture_later_last b h hcls, capture_later_more b e h⟩
  · have hclass := capture_first b (e := e) h (.head _)
    exact ⟨hclass.trans (Nat.mod_eq_of_lt hcls), capture_first b h (.tail _ (.head _)), capture_first b h (.tail _ (.tail _ (.head _))),
      capture_first b h (.tail _ (.tail _ (.tail _ (.head _)))), capture_first b h (.tail _ (.tail _ (.tail _ (.tail _ (.head _)))))⟩

/-- Settles O2: after reset every store is empty, so every field, thread and stream reads its default. -/
theorem resetStateHolds : Obligations.ResetStateHolds :=
  ⟨⟨reset_mem_wf, rfl⟩, rfl, rfl, fun _ _ => rfl, fun _ => ⟨rfl, fun _ => rfl⟩, fun _ => rfl, rfl⟩

end Sys2Proof.Proofs
end

section
/-! SUPPORT. What a byte reads as under a domain's key (R55–R58), and a domain whose new key is installed (R58). -/

namespace Sys2Proof.Proofs

open Sys2Proof.Machine Sys2Proof.Laws

section

variable (b : Blk) {d g dom pa : Nat}

/-- A byte under another key than its reader's: the reader's decryption of the writer's ciphertext. -/
theorem byteAt_of_other_key (hd : isDram pa = true) (hline : b.mem.line pa = .keyed d g) (hkey : d ≠ dom ∨ g ≠ b.domGen dom) :
    b.byteAt dom pa = byteOf (xtsDec (b.mem.key dom (b.domGen dom)) pa (xtsEnc (b.mem.key d g) pa (b.mem.cipherBlock pa))) (pa % 16) := by
  have hother : ¬ (d = dom ∧ g = b.domGen dom) := not_and_or.mpr hkey
  have hcipher : b.mem.cipherAt pa = xtsEnc (b.mem.key d g) pa (b.mem.cipherBlock pa) := by rw [Mem.cipherAt, hline]
  simp only [Blk.byteAt, hd, if_true, hline, if_neg hother, hcipher]

/-- SRAM is not encrypted. -/
theorem byteAt_of_sram (hd : isDram pa = false) : b.byteAt dom pa = b.mem.raw pa := by
  simp only [Blk.byteAt, hd, Bool.false_eq_true, if_false]

/-- A domain moved on to its next key. -/
def nextKey (b : Blk) (d : Nat) : Blk := { b with lid := { b.lid with domGen := SMap.modify 0 b.lid.domGen d (· + 1) } }

theorem nextKey_domGen_same : (nextKey b d).domGen d = b.domGen d + 1 := get_set_same 0 b.lid.domGen d (b.domGen d + 1)

theorem nextKey_domGen_other {e : Nat} (h : e ≠ d) : (nextKey b d).domGen e = b.domGen e := get_set_other 0 b.lid.domGen (b.domGen d + 1) h

theorem exec_domainKeyInstalled_due (q : List Instr) (os : List Obs) (hd : d < 8) (hdue : bit (b.rd R.LID_DOMAIN_REKEY) d = true) :
    exec (.domainKeyInstalled d) ⟨b, q, os⟩ = .next ⟨(nextKey b d).clrBits R.LID_DOMAIN_REKEY (2 ^ d), q, os⟩ := by
  rw [exec_domainKeyInstalled, execDomainKeyInstalled]
  exact cmd_when (c := fun b => bit (b.rd R.LID_DOMAIN_REKEY) d) (decide_eq_true hd) hdue _

end

/-- Settles O53: a byte reads as its cells hold it under the key that wrote its line, and through both directions of the cipher under any other; an installed key
moves its own domain's generation on. -/
theorem wrongKeysReadNoPlaintext : Obligations.WrongKeysReadNoPlaintext := by
  unfold Obligations.WrongKeysReadNoPlaintext
  refine ⟨?_, fun b d g dom pa hd hline hkey => byteAt_of_other_key b hd hline hkey, fun b dom dom' pa hd => ?_, fun b q os d hd hdue => ?_⟩
  · rintro b d g dom pa hd hline ⟨rfl, rfl⟩
    exact byteAt_of_keyed b hd hline
  · rw [byteAt_of_sram b hd, byteAt_of_sram b hd]
  · refine ⟨_, exec_domainKeyInstalled_due b q os hd hdue, ?_, rfl, fun e he => nextKey_domGen_other b he⟩
    have hnext : ((nextKey b d).clrBits R.LID_DOMAIN_REKEY (2 ^ d)).domGen d = b.domGen d + 1 := nextKey_domGen_same b
    rw [hnext]
    exact Nat.succ_ne_self _

end Sys2Proof.Proofs
end

section
/-! SUPPORT. A scalar instruction writes its thread's DEST and PC and the retirement count, and nothing else (R136). -/

namespace Sys2Proof.Proofs

open Sys2Proof.Machine Sys2Proof.Laws

section

variable {b b' : Blk} {q : List Instr} {os : List Obs} {t u : Tid} {i : Ins} {opc : Nat}

/-! ## What a retirement leaves as it was -/

theorem retire_rd_other (b : Blk) {t : Tid} (th : Thread) (pc : Nat) {f : Fld} {j : Nat} (hlo : f.key j ≠ R.STAKE_ISSUE_LO.key t.stake)
    (hhi : f.key j ≠ R.STAKE_ISSUE_HI.key t.stake) : (b.retire t th pc).rd f j = b.rd f j := by
  rw [Blk.retire, Blk.add64, Blk.wr64, rd_wr_other _ _ _ _ _ _ hhi, rd_wr_other _ _ _ _ _ _ hlo]
  rfl

theorem runs_keeps (h : b.Runs t opc i b') :
    b'.threads = b.threads ∧ b'.mem = b.mem ∧ b'.regs = b.regs ∧ b'.wales = b.wales ∧ b'.flash = b.flash ∧ b'.io.out = b.io.out := by
  obtain ⟨-, -, -, ⟨w, hfetch, -⟩, -⟩ := h
  exact fetch_keeps hfetch

theorem rd_of_regs {f : Fld} {j : Nat} (h : b'.regs = b.regs) : b'.rd f j = b.rd f j := by simp only [Blk.rd, h]

/-! ## Threads that differ in one register -/

/-- A thread as it was, or with one register written. -/
inductive DestOnly (r : Nat) (th : Thread) : Thread → Prop
  | same : DestOnly r th th
  | set (v : Nat) : DestOnly r th (th.setReg r v)

namespace DestOnly

variable {r k : Nat} {th th' : Thread}

theorem reg_other (h : DestOnly r th th') (hk : k ≠ r) : th'.reg k = th.reg k := by
  cases h with
  | same => rfl
  | set v => exact setReg_other th v hk

theorem toks_eq (h : DestOnly r th th') : th'.toks = th.toks := by
  cases h with
  | same => rfl
  | set v => exact setReg_toks th r v

theorem st_eq (h : DestOnly r th th') : th'.st = th.st := by
  cases h with
  | same => rfl
  | set v => exact setReg_st th r v

end DestOnly

/-! ## The scalar rows -/

/-- An instruction's function that retires its thread with at most DEST written. -/
def RetiresDest (t : Tid) (f : Blk → Ins → Blk) : Prop :=
  ∀ b i, ∃ th pc, f b i = b.retire t th pc ∧ DestOnly i.dest (b.thread t) th

/-- A row with its opcode, whose common part runs such a function. -/
def ScalarRow (t : Tid) (x : Nat × Instr) : Prop :=
  ∃ f, RetiresDest t f ∧ ∀ b q os, exec x.2 ⟨b, q, os⟩ = cmd (tidOk t) ⟨b, q, os⟩ (fun b => b.insn t x.1 f)

theorem retiresDest_next : RetiresDest t (fun b _ => b.next t (b.thread t)) := fun _ _ => ⟨_, _, rfl, .same⟩

theorem retiresDest_setReg (v : Blk → Ins → Nat) (pc : Blk → Ins → Nat) :
    RetiresDest t (fun b i => b.retire t ((b.thread t).setReg i.dest (v b i)) (pc b i)) := fun _ _ => ⟨_, _, rfl, .set _⟩

theorem retiresDest_value (v : Blk → Ins → Nat) : RetiresDest t (fun b i => b.next t ((b.thread t).setReg i.dest (v b i))) :=
  fun _ _ => ⟨_, _, rfl, .set _⟩

theorem retiresDest_branch (c : Nat → Nat → Bool) : RetiresDest t (fun b i =>
    if c ((b.thread t).reg i.src1) ((b.thread t).reg i.src2) then b.retire t (b.thread t) (branchTo (b.thread t).pc i.imm) else b.next t (b.thread t)) := by
  intro b i
  dsimp only
  split
  · exact ⟨_, _, rfl, .same⟩
  · exact ⟨_, _, rfl, .same⟩

theorem retiresDest_sel : RetiresDest t (fun b i =>
    b.next t (if (b.thread t).reg i.src1 = 0 then b.thread t else (b.thread t).setReg i.dest ((b.thread t).reg i.src2))) := by
  intro b i
  refine ⟨_, _, rfl, ?_⟩
  split
  · exact .same
  · exact .set _

theorem scalarRow_alu {x : Nat × Instr} {f : Nat → Nat → Nat}
    (h : ∀ b q os, exec x.2 ⟨b, q, os⟩ = cmd (tidOk t) ⟨b, q, os⟩ (fun b => b.alu t x.1 f)) : ScalarRow t x := ⟨_, retiresDest_value _, h⟩

theorem scalarRow_value {x : Nat × Instr} {f : Thread → Ins → Nat}
    (h : ∀ b q os, exec x.2 ⟨b, q, os⟩ = cmd (tidOk t) ⟨b, q, os⟩ (fun b => b.value t x.1 f)) : ScalarRow t x := ⟨_, retiresDest_value _, h⟩

theorem scalarRow_branch {x : Nat × Instr} {c : Nat → Nat → Bool}
    (h : ∀ b q os, exec x.2 ⟨b, q, os⟩ = cmd (tidOk t) ⟨b, q, os⟩ (fun b => b.branch t x.1 c)) : ScalarRow t x := ⟨_, retiresDest_branch c, h⟩

/-- The rows of two operands and a result. -/
def aluRows (t : Tid) : List (Nat × Instr) :=
  [(0x01, .add t), (0x02, .sub t), (0x03, .mul t), (0x04, .mulhu t), (0x05, .andOp t), (0x06, .orOp t), (0x07, .xor t), (0x08, .sll t), (0x09, .srl t),
    (0x0A, .sra t), (0x0B, .min t), (0x0C, .max t), (0x0D, .minu t), (0x0E, .maxu t), (0x0F, .slt t), (0x10, .sltu t), (0x11, .seq t)]

/-- The conditional branches. -/
def branchRows (t : Tid) : List (Nat × Instr) := [(0x20, .beq t), (0x21, .bne t), (0x22, .blt t), (0x23, .bge t), (0x24, .bltu t), (0x25, .bgeu t)]

theorem aluRows_scalar : ∀ x ∈ aluRows t, ScalarRow t x := by
  unfold aluRows
  intro x hx
  fin_cases hx
  all_goals exact scalarRow_alu fun _ _ _ => rfl

theorem branchRows_scalar : ∀ x ∈ branchRows t, ScalarRow t x := by
  unfold branchRows
  intro x hx
  fin_cases hx
  all_goals exact scalarRow_branch fun _ _ _ => rfl

theorem nop_scalar : ScalarRow t (0x00, .nop t) := ⟨_, retiresDest_next, fun _ _ _ => rfl⟩
theorem li_scalar : ScalarRow t (0x12, .li t) := scalarRow_value fun _ _ _ => rfl
theorem lih_scalar : ScalarRow t (0x13, .lih t) := scalarRow_value fun _ _ _ => rfl
theorem sel_scalar : ScalarRow t (0x14, .sel t) := ⟨_, retiresDest_sel, fun _ _ _ => rfl⟩
theorem jal_scalar : ScalarRow t (0x26, .jal t) := ⟨_, retiresDest_setReg _ _, fun _ _ _ => rfl⟩
theorem jalr_scalar : ScalarRow t (0x27, .jalr t) := ⟨_, retiresDest_setReg _ _, fun _ _ _ => rfl⟩
theorem rdid_scalar : ScalarRow t (0x41, .rdid t) := ⟨_, retiresDest_value _, fun _ _ _ => rfl⟩

/-- The scalar rows, in the order of their opcodes. -/
def scalarRows (t : Tid) : List (Nat × Instr) :=
  (0x00, .nop t) :: (aluRows t ++ ((0x12, .li t) :: (0x13, .lih t) :: (0x14, .sel t) ::
    (branchRows t ++ [(0x26, .jal t), (0x27, .jalr t), (0x41, .rdid t)])))

theorem scalarRows_scalar : ∀ x ∈ scalarRows t, ScalarRow t x := by
  simp only [scalarRows, List.forall_mem_cons, List.forall_mem_append]
  exact ⟨nop_scalar, aluRows_scalar, li_scalar, lih_scalar, sel_scalar, branchRows_scalar, jal_scalar, jalr_scalar, rdid_scalar,
    fun _ h => absurd h List.not_mem_nil⟩

/-- A scalar row of a thread that runs it retires the thread. -/
theorem exec_scalarRow {x : Nat × Instr} (hx : ScalarRow t x) (h : b.Runs t x.1 i b') :
    ∃ th pc, exec x.2 ⟨b, q, os⟩ = .next ⟨b'.retire t th pc, q, os⟩ ∧ DestOnly i.dest (b.thread t) th := by
  obtain ⟨f, hf, hexec⟩ := hx
  obtain ⟨th, pc, hretire, hdest⟩ := hf b' i
  refine ⟨th, pc, ?_, runs_thread h t ▸ hdest⟩
  rw [hexec, cmd_insn_runs h, hretire]

end

/-- Settles O48: each row retires its thread with at most DEST written, from a block that the fetch left as it was. -/
theorem scalarInstructionsKeepTheRest : Obligations.ScalarInstructionsKeepTheRest := by
  intro b q os t i b1 x hx h
  obtain ⟨th, pc, hexec, hdest⟩ := exec_scalarRow (q := q) (os := os) (scalarRows_scalar x hx) h
  obtain ⟨-, hmem, hregs, hwales, hflash, hout⟩ := runs_keeps h
  refine ⟨_, hexec, fun u hu => ?_, fun r hr => ?_, ?_, ?_, rfl, hmem, hwales, hflash, hout, fun f j hlo hhi => ?_⟩
  · rw [retire_thread_other b1 th pc hu, runs_thread h u]
  · rw [retire_thread]
    exact hdest.reg_other hr
  · rw [retire_thread]
    exact hdest.toks_eq
  · rw [retire_thread]
    exact hdest.st_eq.trans h.run
  · rw [retire_rd_other b1 th pc hlo hhi, rd_of_regs hregs]

end Sys2Proof.Proofs
end

section
/-! SUPPORT. Local memory (R132, R235, R252): an aligned access of at most 8 bytes lies in one word of SRAM, and a store there changes that word's bytes alone. -/

namespace Sys2Proof.Proofs

open Sys2Proof.Machine Sys2Proof.Laws

section

variable {b b' : Blk} {q : List Instr} {os : List Obs} {t : Tid} {i : Ins} {opc dom dom' pa a n v s addr : Nat} {k : LAcc} {l : List Byte}

/-! ## Little-endian bytes -/

/-- The little-endian bytes of a number are its digits to the base 256. -/
theorem natLe_eq_map (n v : Nat) : natLe n v = (List.range n).map (fun k => BitVec.ofNat 8 (v / 256 ^ k)) := by
  induction n generalizing v with
  | zero => rfl
  | succ n ih =>
    rw [natLe, ih, List.range_succ_eq_map, List.map_cons, List.map_map, pow_zero, Nat.div_one]
    refine congrArg (_ :: ·) (List.map_congr_left fun k _ => ?_)
    simp only [Function.comp_apply, Nat.div_div_eq_div_mul, Nat.pow_succ']

theorem length_natLe (n v : Nat) : (natLe n v).length = n := by rw [natLe_eq_map, List.length_map, List.length_range]

theorem getElem_natLe {k : Nat} (h : k < (natLe n v).length) : (natLe n v)[k] = BitVec.ofNat 8 (v / 256 ^ k) := by
  simp only [natLe_eq_map, List.getElem_map, List.getElem_range]

/-- The number that the low `n` bytes of `v` make. -/
theorem leNat_digits (n v : Nat) : leNat ((List.range n).map (fun k => BitVec.ofNat 8 (v / 256 ^ k))) = v % 256 ^ n := by
  rw [← natLe_eq_map]
  induction n generalizing v with
  | zero => rw [pow_zero, Nat.mod_one]; rfl
  | succ n ih => rw [natLe, leNat, ih, Nat.pow_succ', Nat.mod_mul, BitVec.toNat_ofNat]

theorem leNat_lt (l : List Byte) : leNat l < 256 ^ l.length := by
  induction l with
  | nil => exact Nat.one_pos
  | cons x l ih =>
    have hx : x.toNat < 256 := x.isLt
    rw [leNat, List.length_cons, Nat.pow_succ']
    omega

theorem readNat_lt : b.readNat dom pa n < 256 ^ n := by
  have h := leNat_lt (b.readBytes dom pa n)
  rwa [length_readBytes] at h

/-! ## What memory reads depend on -/

theorem fetch_lid {r : Except (Nat × Nat × Nat) Nat} (h : b.fetch t = (b', r)) : b'.lid = b.lid := by
  unfold Blk.fetch at h
  dsimp only at h
  repeat' split at h
  all_goals (obtain ⟨rfl, -⟩ := Prod.mk.inj h; rfl)

theorem runs_lid (h : b.Runs t opc i b') : b'.lid = b.lid := by
  obtain ⟨-, -, -, ⟨w, hfetch, -⟩, -⟩ := h
  exact fetch_lid hfetch

/-- A byte reads the same where its cells, its cipher block, its line and the keys are the same. -/
theorem byteAt_of_cells (hraw : b'.mem.raw a = b.mem.raw a) (hblock : isDram a = true → b'.mem.cipherBlock a = b.mem.cipherBlock a)
    (hline : b'.mem.line a = b.mem.line a) (hpower : b'.mem.power = b.mem.power) (hlid : b'.lid = b.lid) : b'.byteAt dom a = b.byteAt dom a := by
  cases hd : isDram a with
  | false => rw [byteAt_of_sram b' hd, byteAt_of_sram b hd, hraw]
  | true =>
    have hgen : b'.domGen dom = b.domGen dom := by rw [Blk.domGen, hlid, Blk.domGen]
    have hcipher : b'.mem.cipherAt a = b.mem.cipherAt a := by
      unfold Mem.cipherAt
      rw [hline, hblock hd, hpower]
      simp only [Mem.key, hpower]
    unfold Blk.byteAt
    rw [hline, hcipher, hraw, hgen]
    simp only [Mem.key, hpower]

/-- A byte reads the same where memory and the keys are the same. -/
theorem byteAt_congr (hmem : b'.mem = b.mem) (hlid : b'.lid = b.lid) : b'.byteAt dom a = b.byteAt dom a :=
  byteAt_of_cells (by rw [hmem]) (fun _ => by rw [hmem]) (by rw [hmem]) (by rw [hmem]) hlid

theorem readNat_congr (hmem : b'.mem = b.mem) (hlid : b'.lid = b.lid) : b'.readNat dom a n = b.readNat dom a n := by
  simp only [Blk.readNat, Blk.readBytes, byteAt_congr hmem hlid]

theorem firstUe_congr (hmem : b'.mem = b.mem) : b'.firstUe a n = b.firstUe a n := by
  have hue : b'.ueAt = b.ueAt := funext fun x => by simp only [Blk.ueAt, hmem]
  rw [Blk.firstUe, hue, Blk.firstUe]

/-- Which windows answer is a matter of the states of the blocks and the roles of the wales. -/
theorem memGateN_congr {cls : Nat} (hst : ∀ p j, b'.rd (R.PG_STATE_STATE p) j = b.rd (R.PG_STATE_STATE p) j)
    (hrole : ∀ w, b'.rd R.WALE_STATUS_ROLE w = b.rd R.WALE_STATUS_ROLE w) (hflash : b'.flash = b.flash) : b'.memGateN cls a n = b.memGateN cls a n := by
  have hclosed : ∀ p j, b'.closedAt p j = b.closedAt p j := fun p j => by rw [Blk.closedAt, Blk.st, hst, Blk.closedAt, Blk.st]
  have hon : ∀ w, b'.waleOn w = b.waleOn w := fun w => by simp only [Blk.waleOn, Blk.role, hrole, hflash]
  have hwindow : ∀ w, b'.windowOk w = b.windowOk w := fun w => by rw [Blk.windowOk, hon, hclosed, Blk.windowOk]
  have hgate : b'.memGate cls = b.memGate cls := funext fun x => by
    rw [Blk.memGate, Blk.memGate]
    simp only [hwindow, hclosed]
  rw [Blk.memGateN, hgate, Blk.memGateN]

theorem runs_memGateN {cls : Nat} (h : b.Runs t opc i b') : b'.memGateN cls a n = b.memGateN cls a n := by
  obtain ⟨-, -, hregs, -, hflash, -⟩ := runs_keeps h
  exact memGateN_congr (fun _ _ => rd_of_regs hregs) (fun _ => rd_of_regs hregs) hflash

theorem key_ne_of_place_ne {f g : Fld} {j j' : Nat} (hf : f.off * 32 + f.lo < 131072) (hg : g.off * 32 + g.lo < 131072)
    (h : f.off * 32 + f.lo ≠ g.off * 32 + g.lo) : f.key j ≠ g.key j' := by
  simp only [Fld.key]
  omega

/-- A retirement counts at a place of its page that no gate looks at. -/
theorem retire_memGateN {cls : Nat} (th : Thread) (pc : Nat) : (b.retire t th pc).memGateN cls a n = b.memGateN cls a n := by
  have hkeep : ∀ (f : Fld) (j : Nat), f.off * 32 + f.lo < 0x050 * 32 → (b.retire t th pc).rd f j = b.rd f j := fun f j hf =>
    retire_rd_other b th pc (key_ne_of_place_ne (by omega) (by simp [R.STAKE_ISSUE_LO]) (by simp only [R.STAKE_ISSUE_LO]; omega))
      (key_ne_of_place_ne (by omega) (by simp [R.STAKE_ISSUE_HI]) (by simp only [R.STAKE_ISSUE_HI]; omega))
  exact memGateN_congr (fun p j => hkeep _ j (by simp [R.PG_STATE_STATE])) (fun w => hkeep _ w (by simp [R.WALE_STATUS_ROLE])) rfl

/-! ## Local addresses -/

/-- The local map answers with an address above the regions behind inline engines, in the same place of its word. -/
theorem localPa_window (h : localPa s addr n k = .ok pa) : slowEnd ≤ pa ∧ pa % 8 = addr % 8 := by
  have hstake : slowEnd ≤ stakeWin s + addr ∧ (stakeWin s + addr) % 8 = addr % 8 := by
    simp only [stakeWin, stakeLo, slowEnd]
    omega
  unfold localPa at h
  split_ifs at h with hlow hkind hctx hwale
  · exact (Except.ok.inj h).symm ▸ hstake
  · cases k with
    | load => exact (Except.ok.inj h).symm ▸ hstake
    | fetch | store | atomic => cases h
  · rw [← Except.ok.inj h]
    simp only [waleWin, waleLo, slowEnd]
    omega

/-- Where a store may go, a load reads the same place. -/
theorem localPa_load_of_store (h : localPa s addr n .store = .ok pa) : localPa s addr n .load = .ok pa := by
  unfold localPa at h ⊢
  split_ifs at h ⊢
  · exact h
  · exact h

theorem isDram_false_of_window (h : slowEnd ≤ pa) : isDram pa = false := by
  have hlow : ¬ (pa < hbmEnd ∨ slowLo ≤ pa ∧ pa < slowEnd) := by
    simp only [hbmEnd, slowLo, slowEnd] at h ⊢
    omega
  exact Bool.eq_false_iff.mpr fun hd => hlow (isDram_iff.mp hd)

/-- An aligned access of 1, 2, 4 or 8 bytes stays inside a word. -/
theorem within_word {m addr : Nat} (hn : n = 2 ^ bits m 0 2) (ha : addr % n = 0) : 0 < n ∧ addr % 8 + n ≤ 8 := by
  have hm : bits m 0 2 < 4 := Nat.mod_lt _ (by decide)
  subst hn
  generalize bits m 0 2 = e at *
  interval_cases e <;> omega

/-! ## A store inside one word of SRAM -/

theorem eccUnit_of_window (h : slowEnd ≤ pa) : eccUnit pa = 8 := by
  rw [eccUnit, isDram_false_of_window h]; rfl

theorem eccBase_of_window (h : slowEnd ≤ pa) : eccBase pa = pa / 8 * 8 := by rw [eccBase, eccUnit_of_window h]

theorem writeUnit_of_window (h : slowEnd ≤ pa) :
    b.writeUnit dom pa l = { b with mem := { b.mem.storeRaw pa l with ue := SMap.set false b.mem.ue (pa / 8 * 8) false } } := by
  simp only [Blk.writeUnit, isDram_false_of_window h, eccBase_of_window h, storeRaw_ue, Bool.false_and, Bool.false_eq_true, if_false]

theorem writeBytes_within_word (h : slowEnd ≤ pa) (hpos : 0 < l.length) (hfit : pa % 8 + l.length ≤ 8) (hue : b.ueAt pa = false) :
    b.writeBytes dom pa l = (b.writeUnit dom pa l, none) := by
  have hn : min (8 - pa % 8) l.length = l.length := by omega
  cases l with
  | nil => exact absurd hpos (Nat.lt_irrefl 0)
  | cons x xs =>
    simp only [List.length_cons] at hn
    simp [Blk.writeBytes, Blk.writeGo, eccUnit_of_window h, hn, hue, writeGo_nil]

theorem writeUnit_byteAt_in {j : Nat} (h : slowEnd ≤ pa) (hj : j < l.length) : (b.writeUnit dom pa l).byteAt dom' (pa + j) = l[j] := by
  rw [byteAt_of_sram _ (isDram_false_of_window (by omega))]
  exact writeUnit_raw_in b hj

/-- Bytes elsewhere read as before, those behind an inline engine among them: neither their cells nor their lines are touched. -/
theorem writeUnit_byteAt_out (h : slowEnd ≤ pa) (hout : a < pa ∨ pa + l.length ≤ a) : (b.writeUnit dom pa l).byteAt dom' a = b.byteAt dom' a := by
  rw [writeUnit_of_window h]
  have hraw : ∀ c, c < pa ∨ pa + l.length ≤ c →
      Mem.raw { b.mem.storeRaw pa l with ue := SMap.set false b.mem.ue (pa / 8 * 8) false } c = b.mem.raw c :=
    fun c hc => storeRaw_raw_out b.mem pa l c hc
  refine byteAt_of_cells (hraw a hout) (fun hd => congrArg leNat (List.map_congr_left fun j hj => hraw _ ?_)) ?_ (storeRaw_power _ _ _) rfl
  · have hlow := isDram_iff.mp hd
    have hj16 := List.mem_range.mp hj
    simp only [hbmEnd, slowLo, slowEnd] at h hlow
    omega
  · simp only [Mem.line, storeRaw_base, storeRaw_lines]

theorem writeUnit_firstUe (h : slowEnd ≤ pa) (hfit : pa % 8 + n ≤ 8) : (b.writeUnit dom pa l).firstUe pa n = none := by
  simp only [Blk.firstUe, List.find?_eq_none, List.mem_map, List.mem_range]
  rintro _ ⟨j, hj, rfl⟩
  have hbase : eccBase (pa + j) = pa / 8 * 8 := by rw [eccBase_of_window (by omega)]; omega
  rw [Blk.ueAt, hbase, isDram_false_of_window (show slowEnd ≤ pa + j by omega), writeUnit_of_window h]
  simp

theorem ueAt_of_firstUe (hpos : 0 < n) (h : b.firstUe pa n = none) : b.ueAt pa = false := by
  have hall := List.find?_eq_none.mp h (pa + 0) (List.mem_map_of_mem (List.mem_range.mpr hpos))
  exact Bool.eq_false_iff.mpr hall

/-- The block after a store inside one word. -/
def stored (b : Blk) (pa n v : Nat) : Blk := b.writeUnit 0 pa (natLe n v)

theorem sramWrite_word (h : slowEnd ≤ pa) (hpos : 0 < n) (hfit : pa % 8 + n ≤ 8) (hg : b.memGateN clsO pa n = 0) (hue : b.firstUe pa n = none) :
    b.sramWrite pa n v = .ok (stored b pa n v) := by
  have hlen := length_natLe n v
  have hgate : ¬ b.memGateN clsO pa n ≠ 0 := not_not.mpr hg
  rw [Blk.sramWrite, if_neg hgate, writeBytes_within_word h (by omega) (by omega) (ueAt_of_firstUe hpos hue)]
  rfl

theorem sramRead_ok (hg : b.memGateN clsO pa n = 0) (hue : b.firstUe pa n = none) : b.sramRead pa n = .ok (b.readNat 0 pa n) := by
  simp only [Blk.sramRead, hg, hue, ne_eq, not_true_eq_false, if_false]

theorem stored_byteAt_in {j : Nat} (h : slowEnd ≤ pa) (hj : j < n) : (stored b pa n v).byteAt dom (pa + j) = BitVec.ofNat 8 (v / 256 ^ j) := by
  have hj' : j < (natLe n v).length := (length_natLe n v).symm ▸ hj
  rw [stored, writeUnit_byteAt_in h hj', getElem_natLe]

theorem stored_byteAt_out (h : slowEnd ≤ pa) (hout : a < pa ∨ pa + n ≤ a) : (stored b pa n v).byteAt dom a = b.byteAt dom a :=
  writeUnit_byteAt_out h ((length_natLe n v).symm ▸ hout)

/-- The word's bytes read back as they were stored. -/
theorem stored_readNat (h : slowEnd ≤ pa) : (stored b pa n v).readNat dom pa n = v % 256 ^ n := by
  rw [Blk.readNat, Blk.readBytes, ← leNat_digits n v]
  exact congrArg leNat (List.map_congr_left fun j hj => stored_byteAt_in h (List.mem_range.mp hj))

/-- A retirement leaves memory and the domains' keys alone. -/
theorem retire_byteAt (th : Thread) (pc : Nat) : (b.retire t th pc).byteAt dom a = b.byteAt dom a := byteAt_congr rfl rfl

end

end Sys2Proof.Proofs
end

section
/-! SUPPORT. ST, AMO and LD at an aligned local address whose window answers (R136, R163): the word they touch, and all that they leave as it was. -/

namespace Sys2Proof.Proofs

open Sys2Proof.Machine Sys2Proof.Laws

section

variable {b b1 : Blk} {q : List Instr} {os : List Obs} {t : Tid} {i : Ins} {opc dom pa a n v : Nat} {k : LAcc}

/-- A thread that runs an instruction at an aligned local address whose window answers, with no uncorrectable word in the range. -/
structure LocalAccess (b : Blk) (t : Tid) (opc : Nat) (i : Ins) (b1 : Blk) (n : Nat) (k : LAcc) (pa : Nat) : Prop where
  runs : b.Runs t opc i b1
  aligned : (b.thread t).ea i % n = 0
  mapped : localPa t.stake ((b.thread t).ea i) n k = .ok pa
  gate : b.memGateN clsO pa n = 0
  sound : b.firstUe pa n = none
  pos : 0 < n
  word : (b.thread t).ea i % 8 + n ≤ 8

namespace LocalAccess

variable (h : LocalAccess b t opc i b1 n k pa)
include h

theorem window : slowEnd ≤ pa := (localPa_window h.mapped).1

theorem fits : pa % 8 + n ≤ 8 := (localPa_window h.mapped).2 ▸ h.word

theorem mem_eq : b1.mem = b.mem := runs_mem h.runs

theorem aligned' : (b1.thread t).ea i % n = 0 := by rw [runs_thread h.runs]; exact h.aligned

theorem mapped' : localPa t.stake ((b1.thread t).ea i) n k = .ok pa := by rw [runs_thread h.runs]; exact h.mapped

theorem gate' : b1.memGateN clsO pa n = 0 := (runs_memGateN h.runs).trans h.gate

theorem sound' : b1.firstUe pa n = none := (firstUe_congr h.mem_eq).trans h.sound

theorem write : b1.sramWrite pa n v = .ok (stored b1 pa n v) := sramWrite_word h.window h.pos h.fits h.gate' h.sound'

theorem read : b1.sramRead pa n = .ok (b.readNat 0 pa n) := by
  rw [sramRead_ok h.gate' h.sound', readNat_congr h.mem_eq (runs_lid h.runs)]

theorem byteAt_eq : b1.byteAt dom a = b.byteAt dom a := byteAt_congr h.mem_eq (runs_lid h.runs)

theorem retired_byteAt_in (th : Thread) (pc : Nat) {j : Nat} (hj : j < n) :
    ((stored b1 pa n v).retire t th pc).byteAt dom (pa + j) = BitVec.ofNat 8 (v / 256 ^ j) := by
  rw [retire_byteAt, stored_byteAt_in h.window hj]

theorem retired_byteAt_out (th : Thread) (pc : Nat) (hout : a < pa ∨ pa + n ≤ a) :
    ((stored b1 pa n v).retire t th pc).byteAt dom a = b.byteAt dom a := by
  rw [retire_byteAt, stored_byteAt_out h.window hout, h.byteAt_eq]

end LocalAccess

/-! ## ST -/

theorem localAccess_of_store (h : b.Runs t 0x29 i b1) (hn : n = 2 ^ bits i.mod 0 2) (ha : (b.thread t).ea i % n = 0)
    (hpa : localPa t.stake ((b.thread t).ea i) n .store = .ok pa) (hg : b.memGateN clsO pa n = 0) (hue : b.firstUe pa n = none) :
    LocalAccess b t 0x29 i b1 n .store pa :=
  ⟨h, ha, hpa, hg, hue, (within_word hn ha).1, (within_word hn ha).2⟩

theorem exec_st_local (h : LocalAccess b t 0x29 i b1 n .store pa) (hn : n = 2 ^ bits i.mod 0 2) :
    exec (.st t) ⟨b, q, os⟩ = .next ⟨(stored b1 pa n ((b.thread t).reg i.src2)).next t (b.thread t), q, os⟩ := by
  rw [exec_st_runs h.runs hn h.aligned' h.mapped' h.write, runs_thread h.runs]

/-! ## AMO -/

theorem localAccess_of_amo (h : b.Runs t 0x2A i b1) (ha : (b.thread t).ea i % 8 = 0)
    (hpa : localPa t.stake ((b.thread t).ea i) 8 .atomic = .ok pa) (hg : b.memGateN clsO pa 8 = 0) (hue : b.firstUe pa 8 = none) :
    LocalAccess b t 0x2A i b1 8 .atomic pa :=
  ⟨h, ha, hpa, hg, hue, by decide, by omega⟩

/-- The block that an AMO's memory access leaves, where it stores a value and where it stores none. -/
def amoStored (b : Blk) (pa : Nat) (new : Option Nat) : Blk := new.elim b (stored b pa 8)

theorem exec_amo_local (h : LocalAccess b t 0x2A i b1 8 .atomic pa) :
    exec (.amo t) ⟨b, q, os⟩ =
      .next ⟨(amoStored b1 pa (amoNew i.mod (b.readNat 0 pa 8) ((b.thread t).reg i.src2) ((b.thread t).reg i.dest))).next t
        ((b.thread t).setReg i.dest (b.readNat 0 pa 8)), q, os⟩ := by
  have hthread := runs_thread h.runs t
  cases hnew : amoNew i.mod (b.readNat 0 pa 8) ((b.thread t).reg i.src2) ((b.thread t).reg i.dest) with
  | none => rw [exec_amo_unstored h.runs h.aligned' h.mapped' h.read (by rw [hthread]; exact hnew), hthread]; rfl
  | some v => rw [exec_amo_stored h.runs h.aligned' h.mapped' h.read (by rw [hthread]; exact hnew) h.write, hthread]; rfl

theorem amo_byteAt_in (h : LocalAccess b t 0x2A i b1 8 .atomic pa) (new : Option Nat) (th : Thread) {j : Nat} (hj : j < 8) :
    ((amoStored b1 pa new).next t th).byteAt dom (pa + j) = new.elim (b.byteAt dom (pa + j)) (fun v => BitVec.ofNat 8 (v / 256 ^ j)) := by
  cases new with
  | none => exact (retire_byteAt _ _).trans h.byteAt_eq
  | some v => exact h.retired_byteAt_in _ _ hj

theorem amo_byteAt_out (h : LocalAccess b t 0x2A i b1 8 .atomic pa) (new : Option Nat) (th : Thread) (hout : a < pa ∨ pa + 8 ≤ a) :
    ((amoStored b1 pa new).next t th).byteAt dom a = b.byteAt dom a := by
  cases new with
  | none => exact (retire_byteAt _ _).trans h.byteAt_eq
  | some v => exact h.retired_byteAt_out _ _ hout

/-- An AMO's store is a matter of memory alone. -/
theorem amoStored_keeps (b : Blk) (pa : Nat) (new : Option Nat) :
    (amoStored b pa new).threads = b.threads ∧ (amoStored b pa new).wales = b.wales ∧ (amoStored b pa new).flash = b.flash
      ∧ (amoStored b pa new).io = b.io := by
  cases new with
  | none => exact ⟨rfl, rfl, rfl, rfl⟩
  | some v => exact ⟨rfl, rfl, rfl, rfl⟩

end

/-! ## The statements -/

/-- Settles O49: the store is one write inside a word, and the retirement touches the thread and its stake's count. -/
theorem storeFrame : Obligations.StoreFrame := by
  intro b q os t i b1 n pa hruns hn ha hpa hg hue
  have h := localAccess_of_store hruns hn ha hpa hg hue
  obtain ⟨-, -, hregs, hwales, hflash, hout⟩ := runs_keeps hruns
  refine ⟨_, exec_st_local h hn, fun j dom hj => h.retired_byteAt_in _ _ hj, fun a dom hoff => h.retired_byteAt_out _ _ hoff, fun u hu => ?_, ?_, ?_, ?_,
    hwales, hflash, hout, fun f j hlo hhi => ?_⟩
  · exact (retire_thread_other _ _ _ hu).trans (runs_thread hruns u)
  · rw [Blk.next, retire_thread]
  · rw [Blk.next, retire_thread]
  · rw [Blk.next, retire_thread]
  · exact (retire_rd_other _ _ _ hlo hhi).trans (rd_of_regs hregs)

/-- Settles O50: DEST takes the doubleword read, and the store, where there is one, is one write of the word. -/
theorem amoFrame : Obligations.AmoFrame := by
  intro b q os t i b1 pa old hruns ha hpa hg hue hold
  have h := localAccess_of_amo hruns ha hpa hg hue
  rw [hold]
  have hsmall : b.readNat 0 pa 8 % 2 ^ 64 = b.readNat 0 pa 8 := Nat.mod_eq_of_lt readNat_lt
  obtain ⟨-, -, -, hwales, hflash, hout⟩ := runs_keeps hruns
  obtain ⟨hthreads, hwales', hflash', hio⟩ :=
    amoStored_keeps b1 pa (amoNew i.mod (b.readNat 0 pa 8) ((b.thread t).reg i.src2) ((b.thread t).reg i.dest))
  refine ⟨_, exec_amo_local h, ?_, fun j dom hj => ?_, fun a dom hoff => amo_byteAt_out h _ _ hoff, fun r hr => ?_, fun u hu => ?_,
    hwales'.trans hwales, hflash'.trans hflash, (congrArg IoSt.out hio).trans hout⟩
  · rw [Blk.next, retire_thread]
    split
    next h0 => rw [h0]; exact reg_zero _
    next h0 => exact (setReg_same _ _ _ h0).trans hsmall
  · refine (amo_byteAt_in h _ _ hj).trans ?_
    cases amoNew i.mod (b.readNat 0 pa 8) ((b.thread t).reg i.src2) ((b.thread t).reg i.dest) <;> rfl
  · rw [Blk.next, retire_thread]
    exact setReg_other _ _ hr
  · refine (retire_thread_other _ _ _ hu).trans ?_
    rw [Blk.thread, hthreads]
    exact runs_thread hruns u

/-- Settles O51: the load's window answers as the store's did, its word is sound after the store, and its bytes are the stored ones. -/
theorem loadReadsTheStore : Obligations.LoadReadsTheStore := by
  intro b q os t i b1 n pa b2 i' b3 hruns hn ha hpa hg hue hst hruns' hea hwidth hsigned hdest
  have h := localAccess_of_store hruns hn ha hpa hg hue
  have hb2 : b2 = (stored b1 pa n ((b.thread t).reg i.src2)).next t (b.thread t) := by
    have hnext := hst.symm.trans (exec_st_local h hn)
    injection hnext with hstate
    exact congrArg State.blk hstate
  have hn' : n = 2 ^ bits i'.mod 0 2 := hwidth ▸ hn
  have ha' : (b2.thread t).ea i' % n = 0 := hea ▸ ha
  have hload : LocalAccess b2 t 0x28 i' b3 n .load pa := by
    refine ⟨hruns', ha', hea ▸ localPa_load_of_store hpa, ?_, ?_, h.pos, hea ▸ h.word⟩
    · rw [hb2]
      exact (retire_memGateN _ _).trans h.gate'
    · rw [hb2]
      exact (firstUe_congr (retire_mem _ _ _ _)).trans (writeUnit_firstUe h.window h.fits)
  have hvalue : b2.readNat 0 pa n = (b.thread t).reg i.src2 % 256 ^ n := by
    rw [hb2]
    exact (readNat_congr (retire_mem _ _ _ _) rfl).trans (stored_readNat h.window)
  refine ⟨_, exec_ld_runs hruns' hn' hload.aligned' hload.mapped' hload.read, ?_⟩
  rw [Blk.next, retire_thread, hsigned, if_neg Bool.false_ne_true, hvalue]
  exact setReg_same _ _ _ hdest

end Sys2Proof.Proofs
end

section
/-! SUPPORT. The release of a barrier (R151): every sleeping arrival of the wale wakes and retires its BAR, and no other thread is touched. -/

namespace Sys2Proof.Proofs

open Sys2Proof.Machine Sys2Proof.Laws

section

variable {b b1 : Blk} {q : List Instr} {os : List Obs} {t u : Tid} {i : Ins} {w k : Nat}

/-! ## The threads of a wale -/

/-- A key that reads anything but the default is listed. -/
theorem key_mem_of_get_ne {α : Type} {d : α} {m : SMap α} {j : Nat} (h : SMap.get d m j ≠ d) : ∃ v, (j, v) ∈ m := by
  induction m with
  | nil => exact absurd rfl h
  | cons e m ih =>
    obtain ⟨j', v⟩ := e
    rw [SMap.get] at h
    split at h
    next heq => exact ⟨v, heq ▸ List.mem_cons_self⟩
    next =>
      obtain ⟨v', hv'⟩ := ih h
      exact ⟨v', List.mem_cons_of_mem _ hv'⟩

theorem tidAt_tkey (hu : u.thread < 8) : tidAt (tkey u) = u := by
  cases u with
  | mk s n =>
    simp only [tidAt, tkey, Tid.mk.injEq] at hu ⊢
    omega

theorem thread_lt_of_mem_waleThreads (h : u ∈ b.waleThreads w) : u.thread < 8 := by
  obtain ⟨e, -, rfl⟩ := List.mem_map.mp h
  exact Nat.mod_lt _ (by decide)

/-- A thread that sleeps is one of its wale's listed threads. -/
theorem mem_waleThreads_of_asleep (hu : u.thread < 8) (hs : (b.thread u).sleep ≠ .awake) : u ∈ b.waleThreads (waleOf u.stake) := by
  have hne : b.thread u ≠ {} := fun h => hs (by rw [h])
  obtain ⟨x, hx⟩ := key_mem_of_get_ne hne
  have hwale : tkey u / 256 = waleOf u.stake := by
    simp only [tkey, waleOf]
    omega
  exact List.mem_map.mpr ⟨_, List.mem_filter.mpr ⟨hx, beq_iff_eq.mpr hwale⟩, tidAt_tkey hu⟩

theorem mem_atBar : u ∈ b.atBar w k ↔ u ∈ b.waleThreads w ∧ (b.thread u).sleep = .bar k ∧ (b.thread u).st = tRun := by
  simp only [Blk.atBar, List.mem_filter, Bool.and_eq_true, beq_iff_eq]

/-- The threads that sleep in RUN at a barrier, by what they read. -/
theorem mem_atBar_of_asleep (hu : u.thread < 8) (hw : waleOf u.stake = w) (hs : (b.thread u).sleep = .bar k) (hr : (b.thread u).st = tRun) : u ∈ b.atBar w k := by
  refine mem_atBar.mpr ⟨?_, hs, hr⟩
  rw [← hw]
  exact mem_waleThreads_of_asleep hu (by rw [hs]; exact Sleep.noConfusion)

theorem atBar_congr (h : b1.threads = b.threads) : b1.atBar w k = b.atBar w k := by
  simp only [Blk.atBar, Blk.waleThreads, Blk.thread, h]

/-! ## Retirements one after another -/

/-- The listed threads retire their instruction in turn. -/
def nextAll (b : Blk) (l : List Tid) : Blk := b.each l (fun b t => b.next t (b.thread t))

theorem nextAll_cons (l : List Tid) : nextAll b (t :: l) = nextAll (b.next t (b.thread t)) l := rfl

theorem nextAll_thread_other {l : List Tid} (h : ∀ v ∈ l, tkey u ≠ tkey v) : (nextAll b l).thread u = b.thread u := by
  induction l generalizing b with
  | nil => rfl
  | cons v l ih =>
    obtain ⟨hv, hl⟩ := List.forall_mem_cons.mp h
    rw [nextAll_cons, ih hl]
    exact retire_thread_other b _ _ hv

/-- A thread that retired is awake, with its registers and slots as they were. -/
structure Woken (th th' : Thread) : Prop where
  sleep : th'.sleep = .awake
  regs : th'.regs = th.regs
  toks : th'.toks = th.toks

theorem woken_next (b : Blk) (t : Tid) : Woken (b.thread t) ((b.next t (b.thread t)).thread t) := by
  rw [Blk.next, retire_thread]
  exact ⟨rfl, rfl, rfl⟩

theorem Woken.trans {x y z : Thread} (h : Woken x y) (h' : Woken y z) : Woken x z := ⟨h'.sleep, h'.regs.trans h.regs, h'.toks.trans h.toks⟩

theorem nextAll_thread_mem {l : List Tid} (h : ∃ v ∈ l, tkey u = tkey v) : Woken (b.thread u) ((nextAll b l).thread u) := by
  induction l generalizing b with
  | nil =>
    obtain ⟨v, hv, -⟩ := h
    exact absurd hv List.not_mem_nil
  | cons v l ih =>
    rw [nextAll_cons]
    by_cases hv : tkey u = tkey v
    · have hfirst : Woken (b.thread u) ((b.next v (b.thread v)).thread u) := by
        simp only [Blk.thread, hv]
        exact woken_next b v
      by_cases hl : ∃ v' ∈ l, tkey u = tkey v'
      · exact hfirst.trans (ih hl)
      · rw [nextAll_thread_other (fun v' hv' heq => hl ⟨v', hv', heq⟩)]
        exact hfirst
    · have hl : ∃ v' ∈ l, tkey u = tkey v' := by
        obtain ⟨v', hv', heq⟩ := h
        rcases List.mem_cons.mp hv' with rfl | hin
        · exact absurd heq hv
        · exact ⟨v', hin, heq⟩
      have hsame : (b.next v (b.thread v)).thread u = b.thread u := retire_thread_other b _ _ hv
      exact hsame ▸ ih hl

/-! ## The arrival that releases -/

/-- The block after the arrival of `t` that releases its barrier. -/
def released (b : Blk) (t : Tid) (k : Nat) : Blk :=
  (nextAll b (b.atBar (waleOf t.stake) k)).next t ((nextAll b (b.atBar (waleOf t.stake) k)).thread t)

/-- Threads of one place have one key. -/
theorem tkey_ne_of_mem_atBar {v : Tid} (hu : u.thread < 8) (hv : v ∈ b.atBar w k) (hne : u ∉ b.atBar w k) : tkey u ≠ tkey v := fun h =>
  hne (tkey_inj hu (thread_lt_of_mem_waleThreads (mem_atBar.mp hv).1) h ▸ hv)

variable (ht : t.thread < 8) (hawake : t ∉ b.atBar (waleOf t.stake) k)
include ht hawake

theorem released_thread_self : (released b t k).thread t = { b.thread t with pc := ((b.thread t).pc + 8) % 2 ^ 32, sleep := .awake } := by
  have hsame : (nextAll b (b.atBar (waleOf t.stake) k)).thread t = b.thread t :=
    nextAll_thread_other fun v hv => tkey_ne_of_mem_atBar ht hv hawake
  rw [released, Blk.next, retire_thread, hsame]

theorem released_thread_sleeper (hu : u ∈ b.atBar (waleOf t.stake) k) : Woken (b.thread u) ((released b t k).thread u) := by
  rw [released, Blk.next, retire_thread_other _ _ _ (tkey_ne_of_mem_atBar ht hu hawake).symm]
  exact nextAll_thread_mem ⟨u, hu, rfl⟩

omit ht hawake in
theorem released_thread_other (hu : u.thread < 8) (hne : tkey u ≠ tkey t) (hout : u ∉ b.atBar (waleOf t.stake) k) :
    (released b t k).thread u = b.thread u := by
  rw [released, Blk.next, retire_thread_other _ _ _ hne]
  exact nextAll_thread_other fun v hv => tkey_ne_of_mem_atBar hu hv hout

/-- Nobody of the wale sleeps on at the barrier. -/
theorem released_sleep (hu : u.thread < 8) (hw : waleOf u.stake = waleOf t.stake) (hr : ((released b t k).thread u).st = tRun) :
    ((released b t k).thread u).sleep ≠ .bar k := by
  by_cases hself : tkey u = tkey t
  · rw [tkey_inj hu ht hself, released_thread_self ht hawake]
    exact Sleep.noConfusion
  by_cases hin : u ∈ b.atBar (waleOf t.stake) k
  · rw [(released_thread_sleeper ht hawake hin).sleep]
    exact Sleep.noConfusion
  · rw [released_thread_other hu hself hin] at hr ⊢
    exact fun hs => hin (mem_atBar_of_asleep hu hw hs hr)

end

/-- Settles O56: the release retires the sleeping arrivals one after another, then the arriving thread, which is none of them. -/
theorem barrierReleasesItsGeneration : Obligations.BarrierReleasesItsGeneration := by
  intro b q os t i b1 h h0 hn
  obtain ⟨hthreads, -, -, -, -, -⟩ := runs_keeps h
  have hcount : b1.barCount (waleOf t.stake) i.imm = b.barCount (waleOf t.stake) i.imm := by rw [Blk.barCount, runs_wale h, Blk.barCount]
  have hbar : b1.atBar (waleOf t.stake) i.imm = b.atBar (waleOf t.stake) i.imm := atBar_congr hthreads
  have hthread : ∀ u, b1.thread u = b.thread u := runs_thread h
  have ht : t.thread < 8 := by
    have htid := h.tid
    simp only [tidOk, Bool.and_eq_true, decide_eq_true_eq] at htid
    exact htid.2
  have hawake : t ∉ b1.atBar (waleOf t.stake) i.imm := fun hin => by
    obtain ⟨-, hsleep, -⟩ := mem_atBar.mp hin
    rw [hthread] at hsleep
    rcases h.awake with ha | ha <;> exact Sleep.noConfusion (ha.symm.trans hsleep)
  refine ⟨released b1 t i.imm, exec_bar_release h (hcount ▸ h0) (by rw [hcount, hbar]; exact hn), fun u hu => ?_,
    fun u hu hw hr => released_sleep ht hawake hu hw hr, ?_, fun u hu hne hout => ?_⟩
  · have hwoken := released_thread_sleeper ht hawake (hbar.symm ▸ hu)
    exact ⟨hwoken.sleep, hwoken.regs.trans (congrArg _ (hthread u)), hwoken.toks.trans (congrArg _ (hthread u))⟩
  · rw [released_thread_self ht hawake, hthread]
  · rw [released_thread_other hu hne (hbar.symm ▸ hout), hthread]

end Sys2Proof.Proofs
end

section
/-! SUPPORT. Rounding to the nearest, ties to even (R195), the round trip of FP32 (R180, R190), and the values of FP8-E4M3 (R177, R178). -/

namespace Sys2Proof.Proofs

open Sys2Proof.Machine Sys2Proof.Laws

section

variable {v m k : Nat}

/-! ## Rounding to nearest -/

/-- Rounding up happens past the half, and at the half where the quotient is odd. -/
theorem roundShift_rne (m k : Nat) : roundShift .rne m k =
    if 2 * (m % 2 ^ k) > 2 ^ k ∨ (2 * (m % 2 ^ k) = 2 ^ k ∧ m / 2 ^ k % 2 = 1) then m / 2 ^ k + 1 else m / 2 ^ k := rfl

theorem roundShift_rne_nearest (m k : Nat) :
    2 * ((roundShift .rne m k : Int) * 2 ^ k - m).natAbs ≤ 2 ^ k
      ∧ (2 * ((roundShift .rne m k : Int) * 2 ^ k - m).natAbs = 2 ^ k → roundShift .rne m k % 2 = 0) := by
  have hpos : 0 < 2 ^ k := Nat.two_pow_pos k
  have hlt : m % 2 ^ k < 2 ^ k := Nat.mod_lt m hpos
  have hsplit : ((m / 2 ^ k : Nat) : Int) * 2 ^ k + ((m % 2 ^ k : Nat) : Int) = m := by exact_mod_cast Nat.div_add_mod' m (2 ^ k)
  rw [roundShift_rne]
  split
  next hup =>
    have herr : ((m / 2 ^ k + 1 : Nat) : Int) * 2 ^ k - m = ((2 ^ k - m % 2 ^ k : Nat) : Int) := by
      rw [← hsplit, Nat.cast_sub hlt.le]
      push_cast
      ring
    rw [herr, Int.natAbs_natCast]
    omega
  next hdown =>
    have herr : ((m / 2 ^ k : Nat) : Int) * 2 ^ k - m = -((m % 2 ^ k : Nat) : Int) := by
      rw [← hsplit]
      ring
    rw [herr, Int.natAbs_neg, Int.natAbs_natCast]
    omega

/-! ## FP32 -/

/-- The fields of a 32-bit pattern. -/
theorem fp32_fields (hv : v < 2 ^ 32) : v = b2n (v.testBit 31) * 2 ^ 31 + bits v 23 8 * 2 ^ 23 + bits v 0 23 ∧ b2n (v.testBit 31) = v / 2 ^ 31 := by
  have hsign : b2n (v.testBit 31) = v / 2 ^ 31 := by
    rw [Nat.testBit_eq_decide_div_mod_eq, b2n]
    simp only [decide_eq_true_eq]
    split <;> omega
  refine ⟨?_, hsign⟩
  rw [hsign]
  simp only [bits]
  omega

theorem toF32_zero (neg : Bool) : toF32 (.zero neg) = b2n neg * 2 ^ 31 := rfl

theorem toF32_inf (neg : Bool) : toF32 (.inf neg) = 255 * 2 ^ 23 + b2n neg * 2 ^ 31 := rfl

/-- A value with 24 significant bits and an exponent in range is encoded exactly. -/
theorem toF32_normal (neg : Bool) {ex fr : Nat} (hex : 0 < ex) (hmax : ex < 255) (hfr : fr < 2 ^ 23) :
    toF32 (.fin neg (2 ^ 23 + fr) ((ex : Int) - 127 - 23)) = b2n neg * 2 ^ 31 + ex * 2 ^ 23 + fr := by
  have hlog : Nat.log2 (2 ^ 23 + fr) = 23 := (Nat.log2_eq_iff (by omega)).mpr ⟨by omega, by omega⟩
  have hq : ((23 : Nat) : Int) + ((ex : Int) - 127 - 23) - ((23 : Nat) : Int) = (ex : Int) - 127 - 23 := by omega
  have hround : roundTo .rne (2 ^ 23 + fr) ((ex : Int) - 127 - 23) ((ex : Int) - 127 - 23) = 2 ^ 23 + fr := by simp [roundTo]
  have hfield : (ex : Int) - 127 - 23 + ((23 : Nat) : Int) + ((127 : Nat) : Int) = ex := by omega
  have hm : ¬ 2 ^ 23 + fr = 0 := by omega
  have hcarry : ¬ 2 ^ 23 + fr = 2 ^ (23 + 1) := by omega
  have hlow : ¬ 2 ^ 23 + fr < 2 ^ 23 := by omega
  have hpos : ¬ (ex : Int) ≤ 0 := by omega
  have hfin : ¬ (ex : Int) ≥ 2 ^ 8 - 1 := by omega
  unfold toF32 toFmt
  simp only [fmtOf, hlog, hq, hround, if_true, if_neg hm, if_neg hcarry, if_neg hlow, hfield, if_neg hpos, if_neg hfin, Int.toNat_natCast, Nat.add_sub_cancel_left]

theorem decode_fp32 (v : Nat) : decodeF (fmtOf 0) v =
    if bits v 23 8 = 255 then (if bits v 0 23 = 0 then .inf (v.testBit 31) else .nan)
    else if bits v 23 8 = 0 then .fin (v.testBit 31) (bits v 0 23) (1 - (127 : Int) - 23)
    else .fin (v.testBit 31) (2 ^ 23 + bits v 0 23) ((bits v 23 8 : Int) - 127 - 23) := rfl

/-- A pattern that is no NaN rounds to itself, and one with exponent field 0 to the zero of its sign. -/
theorem toF32_f32 (hv : v < 2 ^ 32) (hnan : f32 v ≠ .nan) : toF32 (f32 v) = if bits v 23 8 = 0 then v / 2 ^ 31 * 2 ^ 31 else v := by
  obtain ⟨hfields, hsign⟩ := fp32_fields hv
  by_cases hzero : bits v 23 8 = 0
  · rw [f32, if_pos hzero, if_pos hzero, toF32_zero, hsign]
  · have hval : f32 v = decodeF (fmtOf 0) v := if_neg hzero
    rw [hval, decode_fp32] at hnan ⊢
    rw [if_neg hzero, if_neg hzero] at *
    by_cases hinf : bits v 23 8 = 255
    · rw [if_pos hinf] at hnan ⊢
      have hfr : bits v 0 23 = 0 := by
        by_contra hne
        exact hnan (if_neg hne)
      rw [if_pos hfr, toF32_inf]
      omega
    · have hex : bits v 23 8 < 2 ^ 8 := Nat.mod_lt _ (by decide)
      have hfr : bits v 0 23 < 2 ^ 23 := Nat.mod_lt _ (by decide)
      rw [if_neg hinf, toF32_normal _ (by omega) (by omega) hfr]
      exact hfields.symm

/-! ## Addition -/

theorem num_add_comm (x y : Machine.Num) : x.add y = y.add x := by
  cases x with
  | nan => cases y <;> rfl
  | inf a =>
    cases y with
    | nan => rfl
    | inf c => cases a <;> cases c <;> rfl
    | fin n m e => rfl
  | fin n m e =>
    cases y with
    | nan => rfl
    | inf c => rfl
    | fin n' m' e' =>
      have hzero : (m == 0 && m' == 0 && n && n') = (m' == 0 && m == 0 && n' && n) := by
        rw [Bool.and_comm (m == 0), Bool.and_assoc, Bool.and_comm n, ← Bool.and_assoc]
      simp only [Machine.Num.add, min_comm e e', add_comm (signedAt n m e (min e' e)), hzero]

/-! ## FP8-E4M3 -/

theorem decode_e4m3 (v : Nat) : decodeF (fmtOf 4) v =
    if bits v 3 4 = 15 then (if bits v 0 3 = 0 then .inf (v.testBit 7) else .nan)
    else if bits v 3 4 = 0 then .fin (v.testBit 7) (bits v 0 3) (-9)
    else .fin (v.testBit 7) (8 + bits v 0 3) ((bits v 3 4 : Int) - 7 - 3) := rfl

/-- The sign bit apart, two patterns encode one magnitude. -/
theorem e4m3_sign (hv : v < 0x80) :
    v.testBit 7 = false ∧ (v + 0x80).testBit 7 = true ∧ bits (v + 0x80) 3 4 = bits v 3 4 ∧ bits (v + 0x80) 0 3 = bits v 0 3 := by
  refine ⟨?_, ?_, ?_, ?_⟩
  · rw [Nat.testBit_eq_decide_div_mod_eq]
    exact decide_eq_false (by omega)
  · rw [Nat.testBit_eq_decide_div_mod_eq]
    exact decide_eq_true (by omega)
  · simp only [bits]
    omega
  · simp only [bits]
    omega

/-- A magnitude of at most 15 with an exponent of at most 4 is at most 240. -/
theorem leMag_240 {e : Int} (hm : m ≤ 15) (he : e ≤ 4) : leMag m e 240 0 = true := by
  rw [leMag, decide_eq_true_eq]
  rcases Int.le_total e 0 with hneg | hpos
  · have hone : 1 ≤ 2 ^ (0 - e).toNat := Nat.one_le_two_pow
    rw [min_eq_left hneg, Int.sub_self, Int.toNat_zero, pow_zero]
    omega
  · have hpow : 2 ^ (e - 0).toNat ≤ 2 ^ 4 := Nat.pow_le_pow_right (by decide) (by omega)
    rw [min_eq_right hpos, Int.sub_self, Int.toNat_zero, pow_zero]
    exact (Nat.mul_le_mul hm hpow).trans (by decide)

theorem e4m3_finite (hv : v < 0x78) :
    ∃ m e, decodeF (fmtOf 4) v = .fin false m e ∧ decodeF (fmtOf 4) (v + 0x80) = .fin true m e ∧ leMag m e 240 0 = true := by
  obtain ⟨hplus, hminus, hex, hfr⟩ := e4m3_sign (show v < 0x80 by omega)
  have hlt : bits v 3 4 < 15 := by
    simp only [bits]
    omega
  have hfr7 : bits v 0 3 < 2 ^ 3 := Nat.mod_lt _ (by decide)
  rw [decode_e4m3, decode_e4m3, hplus, hminus, hex, hfr, if_neg hlt.ne, if_neg hlt.ne]
  by_cases hzero : bits v 3 4 = 0
  · rw [if_pos hzero, if_pos hzero]
    exact ⟨_, _, rfl, rfl, leMag_240 (by omega) (by omega)⟩
  · rw [if_neg hzero, if_neg hzero]
    exact ⟨_, _, rfl, rfl, leMag_240 (by omega) (by omega)⟩

theorem e4m3_nan (hlo : 0x79 ≤ v) (hhi : v ≤ 0x7F) : decodeF (fmtOf 4) v = .nan ∧ decodeF (fmtOf 4) (v + 0x80) = .nan := by
  obtain ⟨-, -, hex, hfr⟩ := e4m3_sign (show v < 0x80 by omega)
  have hall : bits v 3 4 = 15 := by
    simp only [bits]
    omega
  have hne : bits v 0 3 ≠ 0 := by
    simp only [bits]
    omega
  rw [decode_e4m3, decode_e4m3, hex, hfr, if_pos hall, if_pos hall, if_neg hne, if_neg hne]
  exact ⟨rfl, rfl⟩

end

/-- Settles O58. -/
theorem roundingIsToNearestEven : Obligations.RoundingIsToNearestEven := by
  refine ⟨roundShift_rne_nearest, fun v hv hnan => toF32_f32 hv hnan, fun a c => ?_, rfl, rfl, fun v hlo hhi => e4m3_nan hlo hhi, fun v hv => e4m3_finite hv, rfl⟩
  rw [fadd, num_add_comm, fadd]

end Sys2Proof.Proofs
end

section
/-! SUPPORT. Reports leave the thread side of the block alone (R86–R92, R70, R71, R257–R260): an event, an error, a log entry or a fault record changes registers,
memory, the lid, the interface and the translation state, and no thread, stake, wale, stream or flash record. -/

namespace Sys2Proof.Proofs

open Sys2Proof.Machine Sys2Proof.Laws

section

variable (b : Blk)

/-- The part of the block that instructions and engines work on, and the flash. -/
def threadSide (b : Blk) : SMap Thread × SMap Stake × SMap Wale × SMap (Option Machine.Stream) × Flash := (b.threads, b.stakes, b.wales, b.streams, b.flash)

/-- A result's block, taken apart. -/
theorem threadSide_of_fst {β : Type} {p : Blk × β} {b' : Blk} {x : β} (hp : threadSide p.1 = threadSide b) (h : p = (b', x)) : threadSide b' = threadSide b := by
  rwa [h] at hp

theorem each_threadSide {α : Type} {f : Blk → α → Blk} (hf : ∀ b x, threadSide (f b x) = threadSide b) (l : List α) :
    threadSide (b.each l f) = threadSide b := by
  induction l generalizing b with
  | nil => rfl
  | cons x l ih => exact (ih (f b x)).trans (hf b x)

/-! ## Registers and the interface -/

@[simp] theorem wr_threadSide (f : Fld) (v i : Nat) : threadSide (b.wr f v i) = threadSide b := rfl
@[simp] theorem inc_threadSide (f : Fld) (i : Nat) : threadSide (b.inc f i) = threadSide b := rfl
@[simp] theorem addW_threadSide (f : Fld) (n i : Nat) : threadSide (b.addW f n i) = threadSide b := rfl
@[simp] theorem orBits_threadSide (f : Fld) (m i : Nat) : threadSide (b.orBits f m i) = threadSide b := rfl
@[simp] theorem wr64_threadSide (lo hi : Fld) (v i : Nat) : threadSide (b.wr64 lo hi v i) = threadSide b := rfl
@[simp] theorem add64_threadSide (lo hi : Fld) (n i : Nat) : threadSide (b.add64 lo hi n i) = threadSide b := rfl
@[simp] theorem send_threadSide (o : Out) : threadSide (b.send o) = threadSide b := rfl
@[simp] theorem draw_threadSide : threadSide b.draw.2 = threadSide b := rfl
@[simp] theorem victim_threadSide (n : Nat) : threadSide (b.victim n).2 = threadSide b := rfl
@[simp] theorem setXl_threadSide (u : Nat) (x : Xl) : threadSide (b.setXl u x) = threadSide b := rfl

/-! ## Memory -/

@[simp] theorem writeUnit_threadSide (dom pa : Nat) (l : List Byte) : threadSide (b.writeUnit dom pa l) = threadSide b := rfl

@[simp] theorem writeGo_threadSide (dom fuel pa : Nat) (l : List Byte) : threadSide (b.writeGo dom fuel pa l).1 = threadSide b := by
  induction fuel generalizing b pa l with
  | zero => rfl
  | succ fuel ih =>
    cases l with
    | nil => rfl
    | cons x l =>
      rw [Blk.writeGo]
      split
      · rfl
      · rw [ih, writeUnit_threadSide]

@[simp] theorem writeBytes_threadSide (dom pa : Nat) (l : List Byte) : threadSide (b.writeBytes dom pa l).1 = threadSide b := writeGo_threadSide b _ _ _ _

@[simp] theorem xlFill_threadSide (u va : Nat) (ws : List WalkEnt) (r : Xlate) : threadSide (b.xlFill u va ws r) = threadSide b := by
  cases r with
  | bad c d e a => rfl
  | ok pa dom bts pte => rfl

@[simp] theorem xlate1_threadSide (u cls : Nat) (write : Bool) (va : Nat) : threadSide (b.xlate1 u cls write va).1 = threadSide b := by
  unfold Blk.xlate1
  dsimp only
  split
  · split <;> simp
  · split
    · split <;> simp
    · dsimp only
      split <;> simp

@[simp] theorem xlateGo_threadSide (u cls : Nat) (write : Bool) (fuel : Nat) (first : Bool) (va n : Nat) :
    threadSide (Blk.xlateGo u cls write fuel b first va n).1 = threadSide b := by
  induction fuel generalizing b first va n with
  | zero => rfl
  | succ fuel ih =>
    rw [Blk.xlateGo]
    split
    · rfl
    · split
      next hx => exact threadSide_of_fst b (xlate1_threadSide b u cls write va) hx
      next b' pa dom bts pte hx =>
        have hb' := threadSide_of_fst b (xlate1_threadSide b u cls write va) hx
        dsimp only
        split
        next hgo => exact (threadSide_of_fst b' (ih b' false _ _) hgo).trans hb'
        next hgo => exact (threadSide_of_fst b' (ih b' false _ _) hgo).trans hb'

@[simp] theorem writePieces_threadSide (cls : Nat) (ps : List Piece) (l : List Byte) : threadSide (Blk.writePieces cls ps b l).1 = threadSide b := by
  induction ps generalizing b l with
  | nil => rfl
  | cons p ps ih =>
    rw [Blk.writePieces]
    split
    · rfl
    · split
      next hw => exact threadSide_of_fst b (writeBytes_threadSide b _ _ _) hw
      next hw => exact (ih _ _).trans (threadSide_of_fst b (writeBytes_threadSide b _ _ _) hw)

@[simp] theorem writeVa_threadSide (u cls va : Nat) (l : List Byte) (dom : Option Nat) : threadSide (b.writeVa u cls va l dom).1 = threadSide b := by
  unfold Blk.writeVa
  split
  next hx => exact threadSide_of_fst b (xlateGo_threadSide b _ _ _ _ _ _ _) hx
  next hx => exact (writePieces_threadSide _ _ _ _).trans (threadSide_of_fst b (xlateGo_threadSide b _ _ _ _ _ _ _) hx)

@[simp] theorem noteUe_threadSide (pa : Nat) : threadSide (b.noteUe pa) = threadSide b := by
  unfold Blk.noteUe
  split <;> rfl

/-! ## Events (R86, R92, R460, R472) -/

@[simp] theorem rakSend_threadSide (chan : Nat) (clear : Bool) (m : RakMsg) : threadSide (b.rakSend chan clear m) = threadSide b := by
  unfold Blk.rakSend
  split <;> rfl

@[simp] theorem rakEvent_threadSide (r : EvtRec) : threadSide (b.rakEvent r) = threadSide b := by
  unfold Blk.rakEvent
  split
  · rfl
  · split
    · exact rakSend_threadSide _ _ _ _
    · split <;> rfl

@[simp] theorem setEvent_threadSide (p : Page) (i mask : Nat) : threadSide (b.setEvent p i mask) = threadSide b := by
  have hbit : ∀ (b : Blk) (c : Bool) (f : Fld), threadSide (if c then b.wr f 1 i else b) = threadSide b := fun b c f => by cases c <;> rfl
  unfold Blk.setEvent
  dsimp only
  split
  · simp only [hbit]
  · simp only [orBits_threadSide, hbit]

@[simp] theorem capture_threadSide (p : Page) (i : Nat) (e : Err) : threadSide (b.capture p i e) = threadSide b := by
  unfold Blk.capture
  split <;> rfl

@[simp] theorem sanitise_threadSide (ptype inst cls : Nat) : threadSide (b.sanitise ptype inst cls) = threadSide b := rfl

@[simp] theorem logBuffer_threadSide (r : LogRec) : threadSide (b.logBuffer r) = threadSide b := by
  unfold Blk.logBuffer
  split <;> rfl

@[simp] theorem ueQuiet_threadSide (pa cls : Nat) : threadSide (b.ueQuiet pa cls) = threadSide b := by
  unfold Blk.ueQuiet
  split
  · simp
  · simp
  · rfl

@[simp] theorem evtMsi_threadSide (g : Nat) : threadSide (b.evtMsi g) = threadSide b := by
  unfold Blk.evtMsi
  dsimp only
  split <;> rfl

@[simp] theorem evtWrite_threadSide (g : Nat) (r : EvtRec) : threadSide (b.evtWrite g r).1 = threadSide b := by
  unfold Blk.evtWrite
  dsimp only
  split
  next b' hw =>
    rw [evtMsi_threadSide, addW_threadSide]
    exact threadSide_of_fst b (writeVa_threadSide b _ _ _ _ _) hw
  next =>
    split
    · exact ueQuiet_threadSide b _ _
    · rfl

@[simp] theorem setEvtQueue_threadSide (g : Nat) (l : List EvtRec) : threadSide (b.setEvtQueue g l) = threadSide b := rfl

@[simp] theorem evtPost_threadSide (g : Nat) (r : EvtRec) : threadSide (b.evtPost g r) = threadSide b := by
  unfold Blk.evtPost
  dsimp only
  split
  · rfl
  · split
    · split
      next hw => exact threadSide_of_fst b (evtWrite_threadSide b g r) hw
      next hw => exact (setEvtQueue_threadSide _ _ _).trans (threadSide_of_fst b (evtWrite_threadSide b g r) hw)
    · rfl

@[simp] theorem deliver_threadSide (p : Page) (i mask : Nat) : threadSide (b.deliver p i mask) = threadSide b := by
  have hpost : ∀ (c : Bool) (r : EvtRec), threadSide (if c then b.evtPost 0 r else b) = threadSide b := fun c r => by
    cases c
    · rfl
    · exact evtPost_threadSide b 0 r
  unfold Blk.deliver
  dsimp only
  split
  · split
    · rw [rakEvent_threadSide, evtPost_threadSide, hpost]
    · rw [rakEvent_threadSide, hpost]
  · exact hpost _ _

@[simp] theorem raise_threadSide (p : Page) (i mask : Nat) : threadSide (b.raise p i mask) = threadSide b := by
  unfold Blk.raise
  dsimp only
  split
  · exact setEvent_threadSide b p i mask
  · rw [each_threadSide, deliver_threadSide, setEvent_threadSide]
    intro b' g
    split
    · split
      · rw [deliver_threadSide, setEvent_threadSide]
      · exact setEvent_threadSide b' _ _ _
    · rfl

@[simp] theorem event_threadSide (p : Page) (n i : Nat) : threadSide (b.event p n i) = threadSide b := raise_threadSide b _ _ _

/-! ## The logs and errors (R70, R71, R91) -/

@[simp] theorem logFault_threadSide (va : Nat) (f : Fail) : threadSide (b.logFault va f) = threadSide b := by
  unfold Blk.logFault
  dsimp only
  rw [logBuffer_threadSide, sanitise_threadSide, raise_threadSide, capture_threadSide]
  rfl

@[simp] theorem logDrain_threadSide (fuel : Nat) : threadSide (b.logDrain fuel) = threadSide b := by
  induction fuel generalizing b with
  | zero => rfl
  | succ fuel ih =>
    rw [Blk.logDrain]
    split
    · rfl
    · dsimp only
      split
      · rfl
      · split
        next b' hw =>
          have hb' : threadSide b' = threadSide b := threadSide_of_fst b (writeVa_threadSide b _ _ _ _ _) hw
          rw [ih, addW_threadSide]
          exact hb'
        next =>
          rw [logFault_threadSide]
          split
          · exact ueQuiet_threadSide b _ _
          · rfl

@[simp] theorem log_threadSide (ptype inst : Nat) (e : Err) : threadSide (b.log ptype inst e) = threadSide b := by
  unfold Blk.log
  simp

@[simp] theorem error_threadSide (p : Page) (i : Nat) (e : Err) : threadSide (b.error p i e) = threadSide b := by
  unfold Blk.error
  simp

@[simp] theorem memUe_threadSide (pa cls unit : Nat) : threadSide (b.memUe pa cls unit) = threadSide b := by
  unfold Blk.memUe
  split
  · simp
  · simp
  · rfl

@[simp] theorem ueOf_threadSide (f : Fail) (cls : Nat) (unit : Option Nat) : threadSide (b.ueOf f cls unit) = threadSide b := by
  unfold Blk.ueOf
  split
  · rfl
  · split <;> simp

/-! ## Fault records (R258–R260) -/

@[simp] theorem setFqBroken_threadSide (fw v : Bool) : threadSide (b.setFqBroken fw v) = threadSide b := rfl

@[simp] theorem fqHold_threadSide (r : FaultRec) : threadSide (b.fqHold r) = threadSide b := by
  unfold Blk.fqHold
  dsimp only
  split
  · rw [event_threadSide]
    rfl
  · rfl

/-- The counts, the suspension and the event of a record that its ring took. -/
@[simp] theorem fqWrite_threadSide (r : FaultRec) : threadSide (b.fqWrite r).1 = threadSide b := by
  unfold Blk.fqWrite
  dsimp only
  split
  next b' hw =>
    have hb' := threadSide_of_fst b (writeVa_threadSide b _ _ _ _ _) hw
    have hput : ∀ c : Bool, threadSide (if c then b'.addW (fqPut r.fw) 1 else (b'.addW (fqPut r.fw) 1).inc R.XLT_FAULT_CNT) = threadSide b' :=
      fun c => by cases c <;> rfl
    have hsusp : ∀ (c : Bool) (x : Blk), threadSide (if c then { x with xlt := { x.xlt with susp := x.xlt.susp ++ [⟨r.kind, r.unit, r.fw⟩] } } else x)
        = threadSide x := fun c x => by cases c <;> rfl
    have hcount : ∀ (c : Bool) (x : Blk), threadSide (if c then x.inc R.XLT_SUSPENDED else x) = threadSide x := fun c x => by cases c <;> rfl
    split
    · rw [event_threadSide, hcount, hsusp, hput, hb']
    · rw [hcount, hsusp, hput, hb']
  next =>
    split
    · simp
    · simp

@[simp] theorem sendFault_threadSide (r : FaultRec) : threadSide (b.sendFault r) = threadSide b := by
  unfold Blk.sendFault
  dsimp only
  split
  · exact fqHold_threadSide b _
  · split
    next hw => exact threadSide_of_fst b (fqWrite_threadSide b _) hw
    next hw => exact (fqHold_threadSide _ _).trans (threadSide_of_fst b (fqWrite_threadSide b _) hw)

end

end Sys2Proof.Proofs
end

section
/-! SUPPORT. Faults of a thread (R135, R163, R257): what a failed fetch, a field that is not used, an alignment or the local map does, and what a fault leaves alone. -/

namespace Sys2Proof.Proofs

open Sys2Proof.Machine Sys2Proof.Laws

section

variable {b b1 : Blk} {q : List Instr} {os : List Obs} {t u : Tid} {i : Ins} {opc n d w : Nat}

/-! ## Faults before the instruction -/

theorem fetch_misaligned (h : (b.thread t).pc % 8 ≠ 0) : b.fetch t = (b, .error (eDenied, 0x03, 0)) := if_pos h

/-- A thread in RUN that is awake or stalls reaches its fetch. -/
theorem insn_reaches_fetch (hst : (b.thread t).st = tRun) (hs : (b.thread t).sleep = .awake ∨ (b.thread t).sleep = .stall) :
    ¬ ((b.thread t).st ≠ tRun ∨ (!((b.thread t).sleep == .awake || (b.thread t).sleep == .stall)) = true) := by
  rcases hs with hs | hs <;> simp [hst, hs]

theorem insn_misaligned (hst : (b.thread t).st = tRun) (hs : (b.thread t).sleep = .awake ∨ (b.thread t).sleep = .stall) (f : Blk → Ins → Blk)
    (h : (b.thread t).pc % 8 ≠ 0) : b.insn t opc f = b.threadFault t 0x0C 0x03 := by
  unfold Blk.insn
  dsimp only
  rw [if_neg (insn_reaches_fetch hst hs), fetch_misaligned h]
  rfl

theorem insn_badFields (hst : (b.thread t).st = tRun) (hs : (b.thread t).sleep = .awake ∨ (b.thread t).sleep = .stall) (f : Blk → Ins → Blk)
    (hf : b.fetch t = (b1, .ok w)) (hop : bits w 57 7 = opc) (hbad : fieldsOk opc (insOf w) = false) : b.insn t opc f = b1.threadFault t 0x0C 0x02 := by
  unfold Blk.insn
  dsimp only
  rw [if_neg (insn_reaches_fetch hst hs), hf]
  dsimp only
  rw [if_neg (not_not.mpr hop), hbad]
  exact if_neg Bool.false_ne_true

/-! ## LD, ST and AMO -/

/-- The rows that access local memory, with the bytes and the kind of their access. -/
def accessRows (t : Tid) (i : Ins) : List (Nat × Instr × Nat × LAcc) :=
  [(0x28, .ld t, 2 ^ bits i.mod 0 2, .load), (0x29, .st t, 2 ^ bits i.mod 0 2, .store), (0x2A, .amo t, 8, .atomic)]

theorem exec_accessRows {x : Nat × Instr × Nat × LAcc} (hx : x ∈ accessRows t i) (h : b.Runs t x.1 i b1) :
    ∃ f, exec x.2.1 ⟨b, q, os⟩ = .next ⟨b1.access t ((b.thread t).ea i) x.2.2.1 x.2.2.2 f, q, os⟩ := by
  rw [← runs_thread h]
  simp only [accessRows, List.mem_cons, List.not_mem_nil, or_false] at hx
  rcases hx with rfl | rfl | rfl
  · exact ⟨_, (cmd_insn_runs h _).trans rfl⟩
  · exact ⟨_, (cmd_insn_runs h _).trans rfl⟩
  · exact ⟨_, (cmd_insn_runs h _).trans rfl⟩

/-! ## What a fault leaves -/

/-- A fault's reports: they leave the thread side as the fault's own write of the thread left it. -/
theorem threadFault_threadSide (b : Blk) (t : Tid) (cls det slot pa : Nat) : threadSide (b.threadFault t cls det slot pa) =
    threadSide (b.setThread t { b.thread t with st := tFault, sleep := .awake, held := false, fCls := cls, fDet := det, fSlot := slot }) := by
  have hsched : ∀ (c : Prop) [Decidable c] (x : Blk) (e : Err), threadSide (if c then x.error .sched (waleOf t.stake) e else x) = threadSide x := by
    intro c _ x e
    split
    · exact error_threadSide x _ _ _
    · rfl
  have hcredit : ∀ (c : Prop) [Decidable c] (x : Blk), threadSide (if c then (x.inc R.SCHED_CREDIT_TO_CNT (waleOf t.stake)).event .sched 19 (waleOf t.stake) else x)
      = threadSide x := by
    intro c _ x
    split
    · rw [event_threadSide, inc_threadSide]
    · rfl
  unfold Blk.threadFault
  dsimp only
  rw [sendFault_threadSide, hcredit, hsched, event_threadSide, event_threadSide, error_threadSide]

theorem threadFault_keeps (b : Blk) (t : Tid) (cls det slot pa : Nat) :
    (b.threadFault t cls det slot pa).threads
        = (b.setThread t { b.thread t with st := tFault, sleep := .awake, held := false, fCls := cls, fDet := det, fSlot := slot }).threads
      ∧ (b.threadFault t cls det slot pa).stakes = b.stakes ∧ (b.threadFault t cls det slot pa).wales = b.wales
      ∧ (b.threadFault t cls det slot pa).streams = b.streams ∧ (b.threadFault t cls det slot pa).flash = b.flash := by
  have h := threadFault_threadSide b t cls det slot pa
  simp only [threadSide, Prod.mk.injEq] at h
  exact h

theorem thread_of_threads {b b' : Blk} (h : b'.threads = b.threads) (u : Tid) : b'.thread u = b.thread u := by rw [Blk.thread, h, Blk.thread]

end

/-- Settles O54: the two faults of the common part, the two of an access, and a fault's frame through all of its reports. -/
theorem threadFaultsKeepTheThread : Obligations.ThreadFaultsKeepTheThread := by
  unfold Obligations.ThreadFaultsKeepTheThread
  refine ⟨fun b q os t x hx ht hst hs => ?_, fun b q os t i b1 x d hx h => ?_, fun b t cls det slot pa => ?_⟩
  · obtain ⟨f, hexec⟩ := exec_insnRows x hx
    refine ⟨fun hpc => ?_, fun b1 w hfetch hop hbad => ?_⟩
    · rw [hexec, cmd_next ht, insn_misaligned hst hs f hpc]
    · rw [hexec, cmd_next ht, insn_badFields hst hs f hfetch hop hbad]
  · obtain ⟨f, hexec⟩ := exec_accessRows (q := q) (os := os) hx h
    refine ⟨fun ha => ?_, fun ha hmap => ?_⟩
    · rw [hexec, access_misaligned ha]
      rfl
    · rw [hexec, access_unmapped ha hmap]
      rfl
  · obtain ⟨hthreads, hkept⟩ := threadFault_keeps b t cls det slot pa
    refine ⟨?_, fun u hu => ?_, hkept⟩
    · rw [thread_of_threads hthreads, thread_setThread_same]
    · rw [thread_of_threads hthreads, thread_setThread_other b _ hu]

end Sys2Proof.Proofs
end
